-- ==== Sys2Proof/Word.lean ====
section
/-! DEFINITION. The word types of the model: bytes, byte strings and the index types of the module's units. -/

namespace Sys2Proof

/-- One byte. -/
abbrev Byte := BitVec 8
/-- A byte string: a packet payload, a section, an image (R12: multi-byte fields are little-endian). -/
abbrev Bytes := List (BitVec 8)
/-- A 64-bit word: an instruction-store word (R125), a ledger value (R232). -/
abbrev W64 := BitVec 64
/-- A 32-bit word: a register value or an FP32 encoding. -/
abbrev W32 := BitVec 32
/-- Die 0 (A) or 1 (B) (R20). -/
abbrev Die := Fin 2
/-- Cluster number 16 × die + cluster (R258). -/
abbrev ClusterId := Fin 32
/-- Module core number 128 × die + 8 × cluster + core (R20). -/
abbrev CoreId := Fin 256
/-- Tsudan port TP0 or TP1 (R22). -/
abbrev TPort := Fin 2
/-- Fabric port FP0 to FP63 (R22). -/
abbrev FPort := Fin 64
/-- Folio slot 0 to 63 (R273). -/
abbrev SlotId := Fin 64
/-- Catalogue descriptor index (R288). -/
abbrev SessIdx := Fin 4096
/-- Loan window handle (R202). -/
abbrev Handle := Fin 4096
/-- Edition index (R340). -/
abbrev EdIdx := Fin 16

end Sys2Proof
end

