-- ==== Sys2Proof/Syntax.lean ====
section
/-! DEFINITION. The commands of the module: one constructor of Instr for each row of spec/opcode_table.json, with the
operands that the row's rule gives it. -/

namespace Sys2Proof

/-- The 64-byte header of a Tsudan packet, field by field (R396). -/
structure TsdHeader where
  typ : BitVec 8
  cls : BitVec 8
  flags : BitVec 8
  code : BitVec 8
  length : BitVec 32
  lseq : BitVec 16
  rsvd10 : BitVec 16
  tag : BitVec 32
  part : BitVec 32
  ledger : BitVec 64
  rsvd28 : BitVec 288
deriving DecidableEq, Repr

/-- A fabric flit (R373): its header fields and its 48 payload bytes. -/
structure Flit where
  typ : BitVec 8
  vc : BitVec 2
  mark : Bool
  waited : Bool
  hops : BitVec 3
  hopidx : BitVec 3
  rsvd18 : BitVec 2
  src : BitVec 12
  lseq : BitVec 12
  tsf : BitVec 20
  route : BitVec 30
  rsvd30 : BitVec 2
  payload : Bytes
deriving DecidableEq, Repr

/-- Engine cycles that a bundle waited for its units before it issued, cause by cause: matrix stalls of R80 and swap
waits of R78 on timing alone, vector stalls (R110, R111), reduction stalls (R111, R117), other unit stalls
(R134, R146, R198), and transfers that retries of the die-to-die interface delayed (R486). -/
structure UnitWaits where
  mx : Nat
  vx : Nat
  rd : Nat
  other : Nat
  link : Nat
deriving DecidableEq, Repr

/-- One entry of a folio's queue table (R135, R139). -/
structure QueueEntry where
  core : Nat
  qep : Nat
  packet : Bool
  cut : Nat
  /-- partner core on this module, or on the module of `peerRole` for an FQ -/
  peerCore : Nat
  peerQep : Nat
  peerRole : Nat
  /-- route table entry that an outbound FQ uses -/
  route : Nat
deriving DecidableEq, Repr

/-- One entry of a folio's ring table (R142). -/
structure RingEntry where
  cluster : Nat
  ring : Nat
  shelf : Bool
  /-- core whose carrel holds a carrel ring, 0 to 7 -/
  owner : Nat
  base : Nat
  slotSize : Nat
  slots : Nat
  producer : Nat
  consumer : Nat
  patience : Nat
deriving DecidableEq, Repr

/-- A remote module of a stamp group: its role, the route to it and the route latency into this module (R242). -/
structure StampPeer where
  role : Nat
  route : Nat
  lambda : Nat
deriving DecidableEq, Repr

/-- One entry of a folio's stamp table (R149, R242). -/
structure StampEntry where
  group : Nat
  p : Nat
  members : List Nat
  peers : List StampPeer
deriving DecidableEq, Repr

/-- A remote window entry of a PATCH section (R268). -/
structure PatchWindow where
  entry : Nat
  symbol : Nat
  route : Nat
  minPages : Nat
deriving DecidableEq, Repr

/-- A route of a PATCH section: index, hops as (egress port, role reached), latency (R268). -/
structure PatchRoute where
  index : Nat
  hops : List (Nat × Nat)
  lambda : Nat
deriving DecidableEq, Repr

/-- A byte image written into a WORKING logical partition at load (R255, type 0x0017). -/
structure ConstImage where
  lpart : Nat
  offset : Nat
  bytes : Bytes
deriving DecidableEq, Repr

/-- What the sections of a folio say for which the manual gives no byte layout: CODE, DESCRIPTORS, QUEUES, RINGS,
STAMPS, PATCH and CONSTANTS (R255). -/
structure FolioView where
  code : List (Nat × List (BitVec 64))
  /-- (core, descriptor index, its four words) -/
  descriptors : List (Nat × Nat × List (BitVec 64))
  queues : List QueueEntry
  rings : List RingEntry
  stamps : List StampEntry
  windows : List PatchWindow
  routes : List PatchRoute
  constants : List ConstImage
deriving DecidableEq, Repr

/-- Which unit offers a shelf request (R168, R525). -/
inductive ReqUnit where
  | matrix
  | transfer
  | window
  | accession
  | tsudan
deriving DecidableEq, Repr

/-- A granule request that joins a shelf's pending set (R525): core 0 to 7 of the own cluster, or 8 for the die-network
port; the partition, the partition granule index, and whether it writes: then `data` from byte `first` of the granule.
`owner` is the module core number that issued it, or 256 for none. `moved`: the unit's own command moves the data, and
the request only takes its bank. -/
structure ShelfReq where
  source : Nat
  owner : Nat
  unit : ReqUnit
  part : Nat
  granule : Nat
  write : Bool
  first : Nat
  data : Bytes
  moved : Bool
deriving DecidableEq, Repr

/-- What one tick observes outside the package: sensors and supply averages (R223, R230, R494, R497, R518, R522), and
which curators sent a heartbeat in the tick that ends (R446). -/
structure TickInputs where
  /-- junction temperature in °C of each of the 32 cluster regions -/
  temps : List Nat
  /-- output of each cartridge in 0.1 mW, and whether all eight wavelengths are present -/
  cartridges : List (Nat × Bool)
  vinMv : Nat
  iinMa : Nat
  pinW : Nat
  ipeakMa : Nat
  energyMj : Nat
  inlet : Nat
  outlet : Nat
  heartbeatA : Bool
  heartbeatB : Bool
  /-- the SEAL loop is found open (R467) -/
  sealOpen : Bool
  /-- pulses that each region swallowed in the tick under droop events, besides those of its thermal and power levels
  (R229 to R231) -/
  swallowed : List Nat
  /-- shelf cycles of the tick in which a request waited, for each shelf, besides those that SHELF_ARBITRATION rows
  showed (R173) -/
  conflicts : List Nat
  /-- heater range in use of each optical engine (R366) -/
  tracks : List Nat
deriving DecidableEq, Repr

/-- Why a received flit or packet is rejected (R371, R375, R396, R399). -/
inductive RejectReason where
  | crc
  | sequence
  | unknownType
deriving DecidableEq, Repr

/-- Target of a clearing (R182): a partition of a shelf, or a carrel. -/
inductive ClearTarget where
  | partition (cluster : ClusterId) (part : Fin 8)
  | carrel (core : CoreId)
deriving DecidableEq, Repr

/-- A memory granule that a scrubber reads (R178). -/
inductive ScrubTarget where
  | shelf (cluster : ClusterId) (bank : Fin 64)
  | carrel (core : CoreId)
deriving DecidableEq, Repr

/-- An on-die table in which an uncorrectable error is found (R485). -/
inductive EccTable where
  | catalogue (index : SessIdx)
  | slotTable (slot : SlotId)
  | standingRoute (entry : Fin 2048)
deriving DecidableEq, Repr

/-- The trip conditions of R500. -/
inductive TripCause where
  | overvoltage
  | undervoltage
  | overcurrent
  | short
  | overpower
  | junction (region : ClusterId)
  | coolant
deriving DecidableEq, Repr

/-- What is sensed at power-good (R463, R467). -/
structure PowerSense where
  prefB : Bool
  debug : Bool
  sealOpen : Bool
deriving DecidableEq, Repr

/-- The commands of the block, one constructor for each row of spec/opcode_table.json. -/
inductive Instr where
  -- Tsudan commands (R407)
  | echo (port : TPort) (tag : BitVec 32) (payload : Bytes)
  | regRead (port : TPort) (tag : BitVec 32) (payload : Bytes)
  | regWrite (port : TPort) (tag : BitVec 32) (payload : Bytes)
  | regBlock (port : TPort) (tag : BitVec 32) (payload : Bytes)
  | folioLoad (port : TPort) (tag : BitVec 32) (payload : Bytes) (view : FolioView)
  | run (port : TPort) (tag : BitVec 32) (payload : Bytes)
  | halt (port : TPort) (tag : BitVec 32) (payload : Bytes)
  | tenantBind (port : TPort) (tag : BitVec 32) (payload : Bytes)
  | tenantRelease (port : TPort) (tag : BitVec 32) (payload : Bytes)
  | sessionOpen (port : TPort) (tag : BitVec 32) (payload : Bytes)
  | promptAppend (port : TPort) (tag : BitVec 32) (payload : Bytes)
  | sessionCancel (port : TPort) (tag : BitVec 32) (payload : Bytes)
  | sessionClose (port : TPort) (tag : BitVec 32) (payload : Bytes)
  | editionBegin (port : TPort) (tag : BitVec 32) (payload : Bytes)
  | shardData (port : TPort) (tag : BitVec 32) (payload : Bytes)
  | editionCommit (port : TPort) (tag : BitVec 32) (payload : Bytes)
  | editionSwitch (port : TPort) (tag : BitVec 32) (payload : Bytes)
  | editionRetire (port : TPort) (tag : BitVec 32) (payload : Bytes)
  | windowOpen (port : TPort) (tag : BitVec 32) (payload : Bytes)
  | windowClose (port : TPort) (tag : BitVec 32) (payload : Bytes)
  | fabIdentity (port : TPort) (tag : BitVec 32) (payload : Bytes)
  | fabRoutes (port : TPort) (tag : BitVec 32) (payload : Bytes)
  | attest (port : TPort) (tag : BitVec 32) (payload : Bytes)
  | fwStage (port : TPort) (tag : BitVec 32) (payload : Bytes)
  | fwActivate (port : TPort) (tag : BitVec 32) (payload : Bytes)
  | presenceChallenge (port : TPort) (tag : BitVec 32) (payload : Bytes)
  -- register writes that have behaviour of their own
  | rotateFwkeys (port : TPort) (tag : BitVec 32)
  | enrollChain (port : TPort) (tag : BitVec 32)
  | installKey (port : TPort) (tag : BitVec 32)
  | removeKey (port : TPort) (tag : BitVec 32)
  | yield (port : TPort) (tag : BitVec 32)
  | isolate (port : TPort) (tag : BitVec 32) (cluster : ClusterId) (force : Bool)
  | mapout (port : TPort) (tag : BitVec 32) (cluster : ClusterId) (on : Bool)
  | calibrate (port : TPort) (tag : BitVec 32)
  | fabPortEnable (port : TPort) (tag : BitVec 32) (fport : FPort) (on : Bool)
  | fabPortRetrain (port : TPort) (tag : BitVec 32) (fport : FPort)
  | tsdPortEnable (port : TPort) (tag : BitVec 32) (tport : TPort) (on : Bool)
  | tsdPortRetrain (port : TPort) (tag : BitVec 32) (tport : TPort)
  | evtClear (port : TPort) (tag : BitVec 32) (page : BitVec 20) (bits : BitVec 32)
  | archivalOnly (port : TPort) (tag : BitVec 32) (on : Bool)
  | refSel (port : TPort) (tag : BitVec 32) (sel : BitVec 2)
  | ldgRole (port : TPort) (tag : BitVec 32) (role : BitVec 2) (parent : BitVec 6)
  | govCtrl (port : TPort) (tag : BitVec 32) (fixed : Bool) (variant : BitVec 4)
  | shfEccInject (port : TPort) (tag : BitVec 32) (cluster : ClusterId) (part : BitVec 3) (bita bitb : BitVec 8)
  | carEccInject (port : TPort) (tag : BitVec 32) (core : CoreId) (bita bitb : BitVec 8)
  | coreQsel (port : TPort) (tag : BitVec 32) (core : CoreId) (qep : BitVec 5)
  -- the sequencer and the matrix words
  | bundleIssue (core : CoreId) (waits : UnitWaits)
  | mxNop (core : CoreId) (args : BitVec 58)
  | mxLoad (core : CoreId) (args : BitVec 58)
  | shadowLoadDone (core : CoreId)
  | mxMul (core : CoreId) (args : BitVec 58)
  | mxStore (core : CoreId) (args : BitVec 58)
  | mxSeta (core : CoreId) (args : BitVec 58)
  | mxSets (core : CoreId) (args : BitVec 58)
  | mxTrsumR (core : CoreId) (args : BitVec 58)
  | mxTrsumC (core : CoreId) (args : BitVec 58)
  | mxTrmaxR (core : CoreId) (args : BitVec 58)
  | mxTrmaxC (core : CoreId) (args : BitVec 58)
  -- the vector words
  | vxNop (core : CoreId) (args : BitVec 56)
  | vxAdd (core : CoreId) (args : BitVec 56)
  | vxSub (core : CoreId) (args : BitVec 56)
  | vxMul (core : CoreId) (args : BitVec 56)
  | vxFma (core : CoreId) (args : BitVec 56)
  | vxMin (core : CoreId) (args : BitVec 56)
  | vxMax (core : CoreId) (args : BitVec 56)
  | vxAbs (core : CoreId) (args : BitVec 56)
  | vxNeg (core : CoreId) (args : BitVec 56)
  | vxAnd (core : CoreId) (args : BitVec 56)
  | vxOr (core : CoreId) (args : BitVec 56)
  | vxXor (core : CoreId) (args : BitVec 56)
  | vxShl (core : CoreId) (args : BitVec 56)
  | vxShr (core : CoreId) (args : BitVec 56)
  | vxSel (core : CoreId) (args : BitVec 56)
  | vxMov (core : CoreId) (args : BitVec 56)
  | vxBcast (core : CoreId) (args : BitVec 56)
  | vxCmp (core : CoreId) (args : BitVec 56)
  | vxGather (core : CoreId) (args : BitVec 56)
  | vxCvt (core : CoreId) (args : BitVec 56)
  | vxPack (core : CoreId) (args : BitVec 56)
  | vxUnpack (core : CoreId) (args : BitVec 56)
  | vxExp (core : CoreId) (args : BitVec 56)
  | vxExp2 (core : CoreId) (args : BitVec 56)
  | vxRcp (core : CoreId) (args : BitVec 56)
  | vxRsqrt (core : CoreId) (args : BitVec 56)
  | vxSigm (core : CoreId) (args : BitVec 56)
  | vxGelu (core : CoreId) (args : BitVec 56)
  | vxSetd (core : CoreId) (args : BitVec 56)
  | vxSets (core : CoreId) (args : BitVec 56)
  | vxSetq (core : CoreId) (args : BitVec 56)
  | vxStq (core : CoreId) (args : BitVec 56)
  -- the reduction words
  | rdNop (core : CoreId) (args : BitVec 58)
  | rdSum (core : CoreId) (args : BitVec 58)
  | rdMax (core : CoreId) (args : BitVec 58)
  | rdArgmax (core : CoreId) (args : BitVec 58)
  | rdSumsq (core : CoreId) (args : BitVec 58)
  | rdLse (core : CoreId) (args : BitVec 58)
  -- the transfer words
  | xfNop (core : CoreId) (args : BitVec 58)
  | xfGo (core : CoreId) (args : BitVec 58)
  | xfRst (core : CoreId) (args : BitVec 58)
  | xfFence (core : CoreId) (args : BitVec 58)
  | descriptorComplete (core : CoreId) (desc : Fin 256)
  -- the control words
  | ctNop (core : CoreId) (args : BitVec 58)
  | ctLoop (core : CoreId) (args : BitVec 58)
  | ctCall (core : CoreId) (args : BitVec 58)
  | ctRet (core : CoreId) (args : BitVec 58)
  | ctJump (core : CoreId) (args : BitVec 58)
  | ctDelay (core : CoreId) (args : BitVec 58)
  | ctHalt (core : CoreId) (args : BitVec 58)
  | ctWaitq (core : CoreId) (args : BitVec 58)
  | ctAcqr (core : CoreId) (args : BitVec 58)
  | ctRelr (core : CoreId) (args : BitVec 58)
  | ctStamp (core : CoreId) (args : BitVec 58)
  | ctStep (core : CoreId) (args : BitVec 58)
  | stampRelease (slot : SlotId) (group : Fin 1024) (lastRole : Option Nat) (behind : Nat)
  | coreRunEnd (core : CoreId)
  | haltComplete (slot : SlotId)
  | slotEmptyTimeout (core : CoreId)
  | slotFullTimeout (core : CoreId)
  | sqWatchdog (core : CoreId)
  | holdTimeout (core : CoreId)
  | xfTimeout (core : CoreId) (reqTag : Fin 64)
  | faultedSlotClear (slot : SlotId)
  | recoveryRun (cluster : ClusterId)
  | recoveryRunEnd (cluster : ClusterId) (passed : Bool)
  -- shelves and time
  | shelfArbitration (cluster : ClusterId) (offers : List ShelfReq)
  | scrubRead (target : ScrubTarget)
  | clearDone (target : ClearTarget)
  | tick (inputs : TickInputs)
  | leaseLapse (other : Bool)
  | powerOnArbitration (first : Die)
  | curatorWatchdog (die : Die)
  | curatorBoot (die : Die)
  | bootFail (die : Die)
  -- sessions
  | promptTimeout (index : SessIdx)
  | queueTimeout (index : SessIdx)
  | stepTimeout (index : SessIdx)
  | tokenPacketClose (index : SessIdx)
  | tokenPacketSend (index : SessIdx)
  | eventPacketClose (port : TPort)
  -- windows and flits
  | windowCloseDone (handle : Handle)
  | drainExpired (handle : Handle)
  | windowFree (handle : Handle)
  | wreq (port : FPort) (flit : Flit)
  | wdata (port : FPort) (flit : Flit)
  | rreq (port : FPort) (flit : Flit)
  | rdata (port : FPort) (flit : Flit)
  | ack (port : FPort) (flit : Flit)
  | nack (port : FPort) (flit : Flit)
  | qdata (port : FPort) (flit : Flit)
  | hold (port : FPort) (flit : Flit)
  | flitForward (port : FPort) (flit : Flit)
  | fabLinkWord (port : FPort) (word : BitVec 64)
  | fabAckTimeout (port : FPort)
  | callSlip (port : FPort) (flit : Flit)
  | slipMiss (port : FPort)
  | portDown (port : FPort)
  | portUp (port : FPort)
  | fabTrainFail (port : FPort)
  | clockSlip (port : FPort)
  -- editions
  | relayHead (port : FPort) (flit : Flit) (data : List Flit)
  | resend (port : FPort) (flit : Flit)
  | resendFail (port : FPort) (flit : Flit)
  | shardTimeout (index : EdIdx) (shard : Option Nat)
  | equery (port : FPort) (flit : Flit)
  | eanswer (port : FPort) (flit : Flit)
  | notice (port : FPort) (flit : Flit)
  | noticeAck (port : FPort) (flit : Flit)
  | editionRetired (index : EdIdx)
  -- optics
  | laserCartridgeChange (cartridge : Fin 5) (present : Bool)
  | cartridgeActive (cartridge : Fin 5)
  | ringUnlock (port : FPort)
  | calDone (engine : Fin 16) (ok : Bool)
  -- the Tsudan link
  | command (port : TPort) (header : TsdHeader) (payload : Bytes)
  | tsdLinkWord (port : TPort) (frame : Bytes)
  | tsdAckTimeout (port : TPort)
  | tsdPortUp (port : TPort)
  | tsdPortDown (port : TPort)
  | tsdTrainFail (port : TPort) (credit : Bool)
  | cmdTimeout (port : TPort) (tag : BitVec 32)
  | loadIdleTimeout (slot : SlotId)
  -- presence, management and power
  | presencePress
  | presenceExpired
  | identityWiped
  | mgmtBusRead (addr : BitVec 32) (count : BitVec 8)
  | powerGood (sense : PowerSense)
  | selftestDone (die : Die) (clusterPass : BitVec 16) (rduPass : BitVec 128)
  | readingRoomBegin
  | serviceBegin
  | resetN (lowMicros : Nat)
  | inputPowerLoss
  | trip (cause : TripCause)
  | tripClear (outlet : Option Nat)
  | droop (cluster : ClusterId)
  | droopHoldEnd (cluster : ClusterId)
  | refHoldover
  | refLocked (ppb : BitVec 32)
  | ldgHoldover
  | d2dRetrain
  | tableEccUe (table : EccTable)
  | stampArrival (core : CoreId)
  | programStart (slot : SlotId)
  | alignmentDone (clusterOk : BitVec 32) (netOk : BitVec 2) (d2dOk : Bool)
  | d2dRetrainEnd (completed : Bool)
  | fabLightReceived (port : FPort)
  | tsdLightReceived (port : TPort)
  | fabFlitReject (port : FPort) (reason : RejectReason)
  | tsdPacketReject (port : TPort) (reason : RejectReason)
  | inputPowerApplied (vinMv : Nat)
  | trackLimit (engine : Fin 16) (track : BitVec 10)
  | junctionNear (region : ClusterId) (temp : Nat)
  | xfEccUe (core : CoreId) (desc : Fin 256)
deriving DecidableEq, Repr

end Sys2Proof
end

