-- ==== Sys2Proof/Decode.lean ====
section
/-! DEFINITION. The block has no instruction decoder: no row of spec/opcode_table.json gives a command bits, so no word
spells one. Commands stand in the queue as constructors of Instr. -/

namespace Sys2Proof

/-- The command that a word spells by the table's bits: none, since no row has bits. -/
def decodeTableWord (_nbits _w : Nat) : Option Instr := none

end Sys2Proof
end

