-- ==== Sys2Proof/Config.lean ====
section
/-! DEFINITION. What the manual leaves open: opaque constants that nothing in Lean can evaluate. A value that the manual
calls open is one of these, applied to the operands it depends on or to the state's counter of free values. -/

namespace Sys2Proof

/-- A bit that the manual leaves open: the n-th one asked for (R505: a RESET_N pulse between its two bounds is either a
reset or nothing). -/
opaque Config.freeBit : Nat → Bool

/-- A 64-bit value that the manual leaves open: the n-th one asked for. -/
opaque Config.freeWord : Nat → BitVec 64

/-- The contents of a folio's CODE, DESCRIPTORS, QUEUES, RINGS, STAMPS, PATCH and CONSTANTS sections, read from the
payload of a FOLIO_LOAD that arrives as packets: R255 gives these sections no byte layout. None stands for a payload
whose sections break a condition of the manual. -/
opaque Config.folioView : Bytes → Option FolioView

/-- The device identity public key derived from the identity secret and the serial number (R460), as (X, Y). -/
opaque Config.identityKey : Bytes → Nat × Nat

/-- The signature, R then S in 66 bytes each, of the device identity key over a signed block (R256, R461): ECDSA signing
draws a nonce that no rule states. -/
opaque Config.sign : Bytes → Bytes

/-- A byte that the manual leaves open: the n-th one asked for. -/
opaque Config.freeByte : Nat → BitVec 8

/-- The words that stand in the instruction store of a core after a failed load, as (word index, word): R275 leaves them
undefined. The n-th store asked for. -/
opaque Config.freeStore : Nat → List (Nat × BitVec 64)

/-- Word i of the n-th undefined table asked for: the descriptors, queue and ring bindings after a failed load (R275). -/
opaque Config.freeTable : Nat → Nat → BitVec 64

/-- The contents of a partition whose hash a load has changed (R170): the n-th ones asked for. -/
opaque Config.freeBytes : Nat → Bytes

end Sys2Proof
end

