-- ==== Sys2Proof/Machine/Tbl.lean ====
section
/-! DEFINITION. Sparse tables: a list of (key, value) pairs with rising keys that holds no entry at the table's default
value, so that equal tables are equal data. The module's register arrays, cores, ports and stores are held this way. -/

namespace Sys2Proof

/-- A table of values by number; a key that is not listed holds the table's default. -/
abbrev Tbl (α : Type) := List (Nat × α)

/-- The value at key `k`, `d` where no entry lists it. -/
def Tbl.get {α : Type} (d : α) : Tbl α → Nat → α
  | [], _ => d
  | (k', v) :: r, k => if k' = k then v else Tbl.get d r k

/-- The table without an entry for `k`. -/
def Tbl.erase {α : Type} : Tbl α → Nat → Tbl α
  | [], _ => []
  | (k', v) :: r, k => if k' = k then Tbl.erase r k else (k', v) :: Tbl.erase r k

/-- Places an entry before the first greater key. -/
def Tbl.insert {α : Type} (k : Nat) (v : α) : Tbl α → Tbl α
  | [] => [(k, v)]
  | (k', v') :: r => if k < k' then (k, v) :: (k', v') :: r else (k', v') :: Tbl.insert k v r

/-- The table with `v` at key `k`. -/
def Tbl.put {α : Type} [DecidableEq α] (d : α) (t : Tbl α) (k : Nat) (v : α) : Tbl α :=
  if v = d then Tbl.erase t k else Tbl.insert k v (Tbl.erase t k)

/-- The table with `f` applied at key `k`. -/
def Tbl.modify {α : Type} [DecidableEq α] (d : α) (t : Tbl α) (k : Nat) (f : α → α) : Tbl α :=
  Tbl.put d t k (f (Tbl.get d t k))

/-- The values at keys `0` to `n - 1`. -/
def Tbl.firstN {α : Type} (d : α) (t : Tbl α) (n : Nat) : List α :=
  (List.range n).map (Tbl.get d t)

/-- Keys strictly rise, beginning at `lo` or above, and no entry holds the default. -/
def Tbl.wfFrom {α : Type} [DecidableEq α] (d : α) : Nat → Tbl α → Bool
  | _, [] => true
  | lo, (k, v) :: r => decide (lo ≤ k) && decide (v ≠ d) && Tbl.wfFrom d (k + 1) r

/-- The canonical form of a table. -/
def Tbl.wf {α : Type} [DecidableEq α] (d : α) (t : Tbl α) : Bool := Tbl.wfFrom d 0 t

end Sys2Proof
end

