-- ==== Sys2Proof/Machine/Memory.lean ====
section
/-! DEFINITION. The byte memory of carrels and shelves: cells keyed by call number (R162), in one canonical form, and
the operations over it. An unlisted address reads as zero (R181). -/

namespace Sys2Proof

/-- Memory: cells at strictly rising call numbers, none of them zero. -/
abbrev Memory := List Host.Cell

/-- The byte at an address; zero where none is listed (R181: bring-up clears every shelf and every carrel). -/
def Memory.byte (m : Memory) (a : Nat) : Byte := Tbl.get 0#8 m a

/-- The cells of a byte string laid from address `a`, zero bytes left out. -/
def Memory.cells : Nat → Bytes → Memory
  | _, [] => []
  | a, b :: bs => if b = 0#8 then Memory.cells (a + 1) bs else (a, b) :: Memory.cells (a + 1) bs

/-- The cells below address `a`. -/
def Memory.below : Memory → Nat → Memory
  | [], _ => []
  | (k, v) :: r, a => if k < a then (k, v) :: Memory.below r a else Memory.below r a

/-- The cells at address `a` and above. -/
def Memory.above : Memory → Nat → Memory
  | [], _ => []
  | (k, v) :: r, a => if a ≤ k then (k, v) :: Memory.above r a else Memory.above r a

/-- Stores a byte string at address `a`, lowest address first. -/
def Memory.write (m : Memory) (a : Nat) (bs : Bytes) : Memory :=
  Memory.below m a ++ (Memory.cells a bs ++ Memory.above m (a + bs.length))

/-- Writes zeros over `n` bytes from address `a` (R182). -/
def Memory.clear (m : Memory) (a n : Nat) : Memory :=
  Memory.below m a ++ Memory.above m (a + n)

/-- Takes `n` bytes from address `a` off cells that begin at `a` or above. -/
def Memory.take : Nat → Nat → Memory → Bytes
  | _, 0, _ => []
  | a, n + 1, [] => 0#8 :: Memory.take (a + 1) n []
  | a, n + 1, (k, v) :: r =>
    if k = a then v :: Memory.take (a + 1) n r else 0#8 :: Memory.take (a + 1) n ((k, v) :: r)

/-- The `n` bytes from address `a`. -/
def Memory.read (m : Memory) (a n : Nat) : Bytes := Memory.take a n (Memory.above m a)

/-- The canonical form: addresses strictly rise and no cell is zero. -/
def Memory.wf (m : Memory) : Bool := Tbl.wf 0#8 m

/-- A little-endian number (R12). -/
def leNat : Bytes → Nat
  | [] => 0
  | b :: bs => b.toNat + 256 * leNat bs

/-- The `n` little-endian bytes of a number (R12). -/
def leBytes : Nat → Nat → Bytes
  | 0, _ => []
  | n + 1, v => BitVec.ofNat 8 v :: leBytes n (v / 256)

/-- The little-endian number in `n` bytes at offset `o` of a byte string; bytes past the end count as zero. -/
def leAt (bs : Bytes) (o n : Nat) : Nat := leNat ((bs.drop o).take n)

/-- Bits `hi` to `lo` of a number. -/
def bits (v hi lo : Nat) : Nat := (v >>> lo) % 2 ^ (hi - lo + 1)

/-- Cuts a byte string into pieces of `n` bytes (at most `fuel` of them). -/
def chunks (n : Nat) : Nat → Bytes → List Bytes
  | 0, _ => []
  | _ + 1, [] => []
  | fuel + 1, b :: bs => (b :: bs).take n :: chunks n fuel ((b :: bs).drop n)

end Sys2Proof
end

