-- ==== Sys2Proof/Machine/Num.lean ====
section
/-! DEFINITION. Number formats, exact arithmetic and rounding (chapter "Number formats, scaling and rounding",
R35 to R63), and the arithmetic of the vector lanes (R52, R100, R101). -/

namespace Sys2Proof

/-- A floating-point or integer value, exact: `fin neg m e` is (-1)^neg × m × 2^e. -/
inductive Exact where
  | nan
  | inf (neg : Bool)
  | fin (neg : Bool) (m : Nat) (e : Int)
deriving DecidableEq, Repr

/-- Which encodings of a format are special (R37). -/
inductive Specials where
  | ieee
  | e4m3
  | none
deriving DecidableEq, Repr

/-- A floating-point layout: exponent bits, mantissa bits, bias, special encodings (R37). -/
structure FloatFmt where
  ebits : Nat
  mbits : Nat
  bias : Nat
  special : Specials
deriving DecidableEq, Repr

def FloatFmt.e4m3 : FloatFmt := ⟨4, 3, 7, .e4m3⟩
def FloatFmt.e5m2 : FloatFmt := ⟨5, 2, 15, .ieee⟩
def FloatFmt.e3m2 : FloatFmt := ⟨3, 2, 3, .none⟩
def FloatFmt.e2m3 : FloatFmt := ⟨2, 3, 1, .none⟩
def FloatFmt.e2m1 : FloatFmt := ⟨2, 1, 1, .none⟩
/-- The F-kind operand of the array (R46). -/
def FloatFmt.fkind : FloatFmt := ⟨5, 3, 15, .ieee⟩
def FloatFmt.fp16 : FloatFmt := ⟨5, 10, 15, .ieee⟩
def FloatFmt.bf16 : FloatFmt := ⟨8, 7, 127, .ieee⟩
def FloatFmt.fp32 : FloatFmt := ⟨8, 23, 127, .ieee⟩

/-- The sign bit of an encoding. -/
def FloatFmt.signBit (f : FloatFmt) : Nat := 2 ^ (f.ebits + f.mbits)

/-- Magnitude of the largest finite encoding (R37). -/
def FloatFmt.maxMag (f : FloatFmt) : Nat :=
  match f.special with
  | .ieee => (2 ^ f.ebits - 1) * 2 ^ f.mbits - 1
  | .e4m3 => 2 ^ (f.ebits + f.mbits) - 2
  | .none => 2 ^ (f.ebits + f.mbits) - 1

/-- Magnitude of the encoding of infinity; of NaN in E4M3, which has no infinity (R37, R56). -/
def FloatFmt.infMag (f : FloatFmt) : Nat := f.maxMag + 1

/-- The canonical NaN of a format (R38). -/
def FloatFmt.nanEnc (f : FloatFmt) : Nat :=
  match f.special with
  | .ieee => (2 ^ f.ebits - 1) * 2 ^ f.mbits + 2 ^ (f.mbits - 1)
  | .e4m3 => 2 ^ (f.ebits + f.mbits) - 1
  | .none => 0

/-- The value an encoding stands for (R37). -/
def FloatFmt.decode (f : FloatFmt) (w : Nat) : Exact :=
  let s := bits w (f.ebits + f.mbits) (f.ebits + f.mbits) == 1
  let mag := w % f.signBit
  let e := mag / 2 ^ f.mbits
  let m := mag % 2 ^ f.mbits
  if f.special = .ieee ∧ e = 2 ^ f.ebits - 1 then
    if m = 0 then .inf s else .nan
  else if f.special = .e4m3 ∧ mag = f.signBit - 1 then .nan
  else if e = 0 then .fin s m (1 - (f.bias : Int) - f.mbits)
  else .fin s (2 ^ f.mbits + m) ((e : Int) - f.bias - f.mbits)

/-- A rounding mode of R54; stochastic rounding carries its bit count b and its draw r (R59). -/
inductive RMode where
  | rne
  | rtz
  | sr (b r : Nat)
deriving DecidableEq, Repr

/-- The magnitude m × 2^e rounded to a whole number of steps of 2^u (R54, R59). -/
def roundAt (mode : RMode) (m : Nat) (e u : Int) : Nat :=
  if u ≤ e then m * 2 ^ (e - u).toNat
  else
    let d := (u - e).toNat
    let q := m >>> d
    let rem := m % 2 ^ d
    match mode with
    | .rne => if 2 ^ d < 2 * rem ∨ (2 * rem = 2 ^ d ∧ q % 2 = 1) then q + 1 else q
    | .rtz => q
    | .sr b r => if 2 ^ b ≤ rem * 2 ^ b / 2 ^ d + r then q + 1 else q

/-- The magnitude of the encoding that a mode selects, the exponent range taken as unbounded above (R55). -/
def FloatFmt.roundMag (f : FloatFmt) (mode : RMode) (m : Nat) (e : Int) : Nat :=
  if m = 0 then 0
  else
    let top : Int := (m.log2 : Int) + e
    let emin : Int := 1 - (f.bias : Int)
    if top < emin then roundAt mode m e (emin - f.mbits)
    else (top - emin).toNat * 2 ^ f.mbits + roundAt mode m e (top - f.mbits)

/-- A converted value and whether the conversion overflowed (R55). -/
structure Conv where
  enc : Nat
  overflow : Bool
deriving DecidableEq, Repr

/-- An encoding with its sign. -/
def FloatFmt.signed (f : FloatFmt) (neg : Bool) (mag : Nat) : Nat := if neg then f.signBit + mag else mag

/-- What an overflow or an infinite input becomes (R56): the largest finite value under SAT, else infinity, or NaN in
E4M3. -/
def FloatFmt.overflowEnc (f : FloatFmt) (sat neg : Bool) : Nat :=
  if sat then f.signed neg f.maxMag
  else if f.special = .e4m3 then f.nanEnc
  else f.signed neg f.infMag

/-- Conversion to a floating-point format under a mode and a saturation selection (R54 to R56). -/
def FloatFmt.convert (f : FloatFmt) (mode : RMode) (sat : Bool) (x : Exact) : Conv :=
  match x with
  | .nan => ⟨f.nanEnc, false⟩
  | .inf neg => ⟨f.overflowEnc sat neg, false⟩
  | .fin neg m e =>
    let mag := f.roundMag mode m e
    if mag ≤ f.maxMag then ⟨f.signed neg mag, false⟩
    else if mode = .rtz then ⟨f.signed neg f.maxMag, false⟩
    else ⟨f.overflowEnc sat neg, true⟩

/-- Round to nearest even into a format, as IEEE 754 does (R52). -/
def FloatFmt.rne (f : FloatFmt) (x : Exact) : Nat := (f.convert .rne false x).enc

/-- The signed integer value of the low `w` bits. -/
def toSigned (w v : Nat) : Int := if v % 2 ^ w < 2 ^ (w - 1) then (v % 2 ^ w : Nat) else (v % 2 ^ w : Nat) - 2 ^ w

/-- The low `w` bits of an integer. -/
def ofSigned (w : Nat) (v : Int) : Nat := (v % (2 ^ w : Nat)).toNat

/-- An integer clamped to `w`-bit two's complement (R57, R100). -/
def clampSigned (w : Nat) (v : Int) : Int :=
  if v < -(2 ^ (w - 1) : Nat) then -(2 ^ (w - 1) : Nat)
  else if (2 ^ (w - 1) : Nat) ≤ v then (2 ^ (w - 1) : Nat) - 1 else v

/-- Whether an integer lies outside `w`-bit two's complement. -/
def outOfRange (w : Nat) (v : Int) : Bool := clampSigned w v != v

/-- Conversion to a `w`-bit integer under a mode, saturating (R54, R55, R57). -/
def convertInt (w : Nat) (mode : RMode) (x : Exact) : Conv :=
  match x with
  | .nan => ⟨0, false⟩
  | .inf neg => ⟨ofSigned w (if neg then -(2 ^ (w - 1) : Nat) else (2 ^ (w - 1) : Nat) - 1), false⟩
  | .fin neg m e =>
    let q : Int := roundAt mode m e 0
    let v := if neg then -q else q
    ⟨ofSigned w (clampSigned w v), outOfRange w v⟩

/-- An integer as an exact value. -/
def Exact.ofInt (v : Int) : Exact := .fin (decide (v < 0)) v.natAbs 0

/-- Whether a value is finite. -/
def Exact.isFin : Exact → Bool
  | .fin _ _ _ => true
  | _ => false

/-- The negation of a value. -/
def Exact.neg : Exact → Exact
  | .nan => .nan
  | .inf s => .inf (!s)
  | .fin s m e => .fin (!s) m e

/-- The magnitude of a value. -/
def Exact.abs : Exact → Exact
  | .nan => .nan
  | .inf _ => .inf false
  | .fin _ m e => .fin false m e

/-- Exact product; infinity times zero is NaN. -/
def Exact.mul : Exact → Exact → Exact
  | .nan, _ => .nan
  | _, .nan => .nan
  | .inf s, .inf t => .inf (s != t)
  | .inf s, .fin t m _ => if m = 0 then .nan else .inf (s != t)
  | .fin s m _, .inf t => if m = 0 then .nan else .inf (s != t)
  | .fin s m e, .fin t n f => .fin (s != t) (m * n) (e + f)

/-- A signed integer `v × 2^e` as a value, a zero taking the sign given. -/
def Exact.ofScaled (zeroNeg : Bool) (v : Int) (e : Int) : Exact :=
  if v = 0 then .fin zeroNeg 0 0 else .fin (decide (v < 0)) v.natAbs e

/-- A finite value as an integer number of steps of 2^u, for u at or below its exponent. -/
def scaleTo (s : Bool) (m : Nat) (e u : Int) : Int :=
  let v : Int := (m * 2 ^ (e - u).toNat : Nat)
  if s then -v else v

/-- Exact sum; an exact zero is +0 unless both terms are negative (IEEE 754 under round-to-nearest-even). -/
def Exact.add : Exact → Exact → Exact
  | .nan, _ => .nan
  | _, .nan => .nan
  | .inf s, .inf t => if s = t then .inf s else .nan
  | .inf s, .fin _ _ _ => .inf s
  | .fin _ _ _, .inf t => .inf t
  | .fin s m e, .fin t n f =>
    let u := min e f
    Exact.ofScaled (s && t) (scaleTo s m e u + scaleTo t n f u) u

/-- The product of a value and 2^k. -/
def Exact.scale (k : Int) : Exact → Exact
  | .nan => .nan
  | .inf s => .inf s
  | .fin s m e => .fin s m (e + k)

/-- The order of two values, none where one is NaN; zeros of either sign are equal. -/
def Exact.order : Exact → Exact → Option Ordering
  | .nan, _ => none
  | _, .nan => none
  | .inf s, .inf t => some (if s = t then .eq else if s then .lt else .gt)
  | .inf s, .fin _ _ _ => some (if s then .lt else .gt)
  | .fin _ _ _, .inf t => some (if t then .gt else .lt)
  | .fin s m e, .fin t n f =>
    let u := min e f
    some (compare (scaleTo s m e u) (scaleTo t n f u))

/-- The sign of a value; NaN counts as positive. -/
def Exact.isNeg : Exact → Bool
  | .nan => false
  | .inf s => s
  | .fin s _ _ => s

/-- The greater value, NaN if either is NaN, +0 above −0 (VX.MAX, R100). -/
def Exact.max (a b : Exact) : Exact :=
  match a.order b with
  | none => .nan
  | some .lt => b
  | some .gt => a
  | some .eq => if a.isNeg then b else a

/-- The smaller value, NaN if either is NaN, −0 below +0 (VX.MIN, R100). -/
def Exact.min (a b : Exact) : Exact :=
  match a.order b with
  | none => .nan
  | some .lt => a
  | some .gt => b
  | some .eq => if a.isNeg then a else b

/-- The FP32 value of a word. -/
def fp32 (w : W32) : Exact := FloatFmt.fp32.decode w.toNat

/-- A value rounded to FP32 with round-to-nearest-even. -/
def toFp32 (x : Exact) : W32 := BitVec.ofNat 32 (FloatFmt.fp32.rne x)

/-- FP32 addition with round-to-nearest-even (R51, R52). -/
def fp32Add (a b : W32) : W32 := toFp32 ((fp32 a).add (fp32 b))

/-- 1.0 in FP32. -/
def fp32One : W32 := 0x3F800000#32

/-- The scale of an E8M0 byte as a power of two; none for 0xFF, which is NaN (R39). -/
def e8m0 (b : Byte) : Option Int := if b = 0xFF#8 then none else some ((b.toNat : Int) - 127)

/-- The mixing step of the stochastic-rounding generator (R60). -/
def mix64 (x : W64) : W64 :=
  let x := x ^^^ (x >>> 30)
  let x := x * 0xBF58476D1CE4E5B9#64
  let x := x ^^^ (x >>> 27)
  let x := x * 0x94D049BB133111EB#64
  x ^^^ (x >>> 31)

/-- The inputs of a draw that one instruction shares (R61). -/
structure SrSeed where
  folioSeed : W64
  sessionSeed : W64
  step : W32
  role : BitVec 12
  core : BitVec 8
deriving DecidableEq, Repr

/-- A draw of b bits (R60). -/
def srDraw (i : SrSeed) (draw : W32) (lane : BitVec 8) (b : Nat) : Nat :=
  let h := mix64 (i.folioSeed + 0x9E3779B97F4A7C15#64)
  let h := mix64 (h ^^^ i.sessionSeed)
  let h := mix64 (h ^^^ ((i.step.setWidth 64 <<< 32) ^^^ draw.setWidth 64))
  let h := mix64 (h ^^^ ((i.role.setWidth 64 <<< 16) ^^^ (i.core.setWidth 64 <<< 8) ^^^ lane.setWidth 64))
  (h >>> (64 - b)).toNat

/-- A lane format of the vector engine (R99). -/
inductive LaneFmt where
  | flt (f : FloatFmt)
  | int (w : Nat)
deriving DecidableEq, Repr

/-- The lane format of a vector format code 0x8 to 0xD (R99). -/
def laneFmt (code : Nat) : Option LaneFmt :=
  match code with
  | 0x8 => some (.flt .fp32)
  | 0x9 => some (.flt .bf16)
  | 0xA => some (.flt .fp16)
  | 0xB => some (.int 32)
  | 0xC => some (.int 16)
  | 0xD => some (.int 8)
  | _ => none

/-- Element bits of a lane format. -/
def LaneFmt.width : LaneFmt → Nat
  | .flt f => 1 + f.ebits + f.mbits
  | .int w => w

/-- Element bytes of a lane format (R99). -/
def LaneFmt.size (l : LaneFmt) : Nat := l.width / 8

/-- The exact value of an element. -/
def LaneFmt.decode : LaneFmt → Nat → Exact
  | .flt f, v => f.decode v
  | .int w, v => .ofInt (toSigned w v)

/-- The result of one element and the conditions it met (R108). -/
structure LaneRes where
  val : Nat
  invalid : Bool := false
  fpOvf : Bool := false
  intOvf : Bool := false
deriving DecidableEq, Repr

/-- A floating-point arithmetic result: invalid if NaN arises from numbers, overflow if finite inputs give infinity
(R108). -/
def fltRes (f : FloatFmt) (ins : List Exact) (x : Exact) : LaneRes :=
  let r := f.rne x
  { val := r
    invalid := decide (x = .nan) && !(ins.any (fun y => decide (y = .nan)))
    fpOvf := ins.all Exact.isFin && (match f.decode r with | .inf _ => true | _ => false) }

/-- An integer arithmetic result, saturated under SAT, else wrapped; out of range counts either way (R100). -/
def intRes (w : Nat) (sat : Bool) (v : Int) : LaneRes :=
  { val := ofSigned w (if sat then clampSigned w v else v), intOvf := outOfRange w v }

/-- The element-wise arithmetic of R100 on two operands. -/
inductive BinOp where
  | add | sub | mul | min | max
deriving DecidableEq, Repr

/-- One element of VX.ADD, VX.SUB, VX.MUL, VX.MIN or VX.MAX (R100). -/
def laneBin (op : BinOp) (l : LaneFmt) (sat : Bool) (a b : Nat) : LaneRes :=
  match l with
  | .flt f =>
    let x := f.decode a
    let y := f.decode b
    match op with
    | .add => fltRes f [x, y] (x.add y)
    | .sub => fltRes f [x, y] (x.add y.neg)
    | .mul => fltRes f [x, y] (x.mul y)
    | .min => fltRes f [x, y] (x.min y)
    | .max => fltRes f [x, y] (x.max y)
  | .int w =>
    let x := toSigned w a
    let y := toSigned w b
    match op with
    | .add => intRes w sat (x + y)
    | .sub => intRes w sat (x - y)
    | .mul => intRes w sat (x * y)
    | .min => intRes w sat (if y < x then y else x)
    | .max => intRes w sat (if x < y then y else x)

/-- One element of VX.FMA: one rounding of a × b + c (R52, R100). -/
def laneFma (f : FloatFmt) (a b c : Nat) : LaneRes :=
  fltRes f [f.decode a, f.decode b, f.decode c] (((f.decode a).mul (f.decode b)).add (f.decode c))

/-- One element of VX.ABS or VX.NEG (R100). -/
def laneSign (negate : Bool) (l : LaneFmt) (sat : Bool) (a : Nat) : LaneRes :=
  match l with
  | .flt f =>
    let x := f.decode a
    { val := f.rne (if negate then x.neg else x.abs) }
  | .int w =>
    let x := toSigned w a
    intRes w sat (if negate then -x else (x.natAbs : Int))

/-- The condition of VX.CMP (R101). -/
def laneCmp (cond : Nat) (l : LaneFmt) (a b : Nat) : Bool :=
  match (l.decode a).order (l.decode b) with
  | none => cond == 1 || cond == 6
  | some o =>
    match cond with
    | 0 => o == .eq
    | 1 => o != .eq
    | 2 => o == .lt
    | 3 => o != .gt
    | 4 => o == .gt
    | 5 => o != .lt
    | 6 => false
    | _ => true

end Sys2Proof
end

