-- ==== Sys2Proof/Machine/CoreState.lean ====
section
/-! DEFINITION. The state of a core (matrix engine, vector engine, reduction unit, sequencer, queue endpoints, transfer
engine, carrel) and of a cluster (shelf, rings): chapters 03 to 07. -/

namespace Sys2Proof.Machine

open Sys2Proof

/-- One column of a weight tile: its widened 9-bit operands in K order (R46) and, per segment of 32 K, the E8M0 byte or
the FP16 group scale that belongs to it (R43, R49); empty where the format has none. -/
structure TileCol where
  ops : List (BitVec 9)
  scales : List (BitVec 16)
deriving DecidableEq, Repr

/-- A weight tile in a plane (R65): shape, format, per-tensor scale tW (R42), the columns of half 0 and of half 1. -/
structure Tile where
  shape : BitVec 3
  wfmt : BitVec 4
  tw : W32
  half0 : List TileCol
  half1 : List TileCol
deriving DecidableEq, Repr

/-- Where a word stands in the instruction store, as byte offsets: its bundle (R157) and the word itself, which
follows its bundle's header (R126, R90). -/
structure WordAt where
  bundle : Nat
  word : Nat
deriving DecidableEq, Repr

/-- A shadow load that has issued: what MX.LOAD named (R71), its word and where that stood (R90). -/
structure ShadowLoad where
  shape : BitVec 3
  wfmt : BitVec 4
  tw : W32
  spc : Bool
  src : Nat
  word : W64
  place : WordAt
deriving DecidableEq, Repr

/-- The shadow plane (R65). -/
inductive Shadow where
  | empty
  | loading (l : ShadowLoad)
  | full (t : Tile)
deriving DecidableEq, Repr

/-- An activation descriptor (R74). -/
structure ActDesc where
  ebase : BitVec 21
  sbase : BitVec 21
  pitch : BitVec 8
deriving DecidableEq, Repr

def ActDesc.reset : ActDesc := ⟨0, 0, 0⟩

/-- The matrix engine (R65, R66, R74, R86, R91). -/
structure MatrixUnit where
  active : Option Tile
  shadow : Shadow
  /-- row r of tile register t at key 128 × t + r: 128 FP32 words -/
  tiles : Tbl (List W32)
  scales : Tbl W32
  adesc : Tbl ActDesc
  /-- a parity error stands in the active plane, in the shadow plane (R91) -/
  badActive : Bool
  badShadow : Bool
  /-- the tile-register rows in which a parity error stands, by their keys in `tiles` (R91) -/
  badRows : List Nat
  rows : W64
  swapWait : W32
  stall : W32
deriving DecidableEq, Repr

/-- A tile-register row of +0 (R66). -/
def zeroRow : List W32 := List.replicate 128 0

/-- The matrix engine after reset and after the clearing of R81, its counters apart. -/
def MatrixUnit.reset : MatrixUnit :=
  { active := none, shadow := .empty, tiles := [], scales := [], adesc := [], badActive := false, badShadow := false
    badRows := [], rows := 0, swapWait := 0, stall := 0 }

/-- The vector engine and the descriptors it shares with the reduction unit (R94, R95, R105, R123, R61). -/
structure VectorUnit where
  desc : Tbl (BitVec 21)
  scales : Tbl W32
  /-- lane l of mask set q at key 256 × q + l -/
  masks : Tbl (BitVec 16)
  trap : BitVec 3
  fpInvalid : W32
  fpOverflow : W32
  intOverflow : W32
  stall : W32
  /-- draw counters by lane (R61) -/
  draws : Tbl W32
deriving DecidableEq, Repr

def VectorUnit.reset : VectorUnit :=
  { desc := [], scales := [], masks := [], trap := 0, fpInvalid := 0, fpOverflow := 0, intOverflow := 0, stall := 0
    draws := [] }

/-- The reduction unit (R119, R123). -/
structure ReductionUnit where
  tested : Bool
  pass : Bool
  stall : W32
deriving DecidableEq, Repr

def ReductionUnit.reset : ReductionUnit := ⟨false, false, 0⟩

/-- The six core states (R153). -/
inductive CoreMode where
  | reset
  | diag
  | service
  | recovery
  | faulted
  | isolated
deriving DecidableEq, Repr

/-- The code CORE_STATE.STATE reports (R153). -/
def CoreMode.code : CoreMode → Nat
  | .reset => 0
  | .diag => 1
  | .service => 2
  | .recovery => 3
  | .faulted => 4
  | .isolated => 5

/-- An entry of the loop stack (R130). -/
structure LoopEntry where
  start : Nat
  last : Nat
  remaining : Nat
  depth : Nat
deriving DecidableEq, Repr

/-- A barrier stamp that a core waits at (R149): `s` the count at which the word issued, `plan` its PLAN, `ends` whether
it is a CT.STEP, `arrived` whether S has reached PLAN, `cause` the cause it reports and `time` the cycle of its
arrival (R150). -/
structure StampWait where
  id : BitVec 12
  group : Nat
  plan : Nat
  s : Nat
  ends : Bool
  arrived : Bool
  cause : Nat
  time : Nat
deriving DecidableEq, Repr

/-- The sequencer (R125, R130, R131, R148, R153, R158, R159). Word indices are bundle offsets divided by 8. -/
structure Sequencer where
  mode : CoreMode
  /-- the mode that a fault left, which decides what follows FAULTED (R154) -/
  faultedFrom : CoreMode
  run : Bool
  padded : Bool
  /-- the tenant bound to the core (R159 BOUND, TENANT) -/
  tenant : Option (BitVec 8)
  istore : Tbl W64
  /-- word indices that hold a parity error (R125) -/
  parityBad : List Nat
  pc : Nat
  loops : List LoopEntry
  calls : List Nat
  s : Nat
  /-- engine generator periods since the program began, swallowed pulses included: the time of arrivals (R149, R150) -/
  cycle : Nat
  step : W32
  stampId : BitVec 12
  stamp : Option StampWait
  /-- CT.HALT has issued (R132) -/
  halted : Bool
  residue : W32
  /-- CORE_DEVn at key n (R151, R159) -/
  dev : Tbl W32
  /-- cycles per cause since the previous release (R151) -/
  devSince : Tbl Nat
  hold : W32
  holdCause : BitVec 4
  qsel : BitVec 5
  /-- consecutive cycles without an issued bundle (R158) -/
  idle : Nat
  /-- cycles for which the bundle at the pc has waited in CT.ACQR or on a ring operand (R145) -/
  ringWait : Nat
  /-- cycles still to pass before the next bundle may issue (R129, R131) -/
  delay : Nat
  /-- the delay under way is a CT.DELAY's, which the watchdog does not count (R131, R158) -/
  planned : Bool
deriving DecidableEq, Repr

def Sequencer.reset : Sequencer :=
  { mode := .reset, faultedFrom := .reset, run := false, padded := false, tenant := none, istore := []
    parityBad := [], pc := 0, loops := [], calls := [], s := 0, cycle := 0, step := 0, stampId := 0, stamp := none, halted := false
    residue := 0, dev := [], devSince := [], hold := 0, holdCause := 0, qsel := 0, idle := 0, ringWait := 0, delay := 0
    planned := false }

/-- One queue entry: 64 bytes, the packet length where its sideband marks SOP (R139), the retry mark (R138). -/
structure QEntry where
  data : Bytes
  sop : Option Nat
  mark : Bool
deriving DecidableEq, Repr

/-- A queue endpoint (R135 to R141, R160). `peerCore` and `peerQep` name its partner, on the module of `peerRole` for an
FQ. An inbound endpoint holds the entries not yet popped; an outbound one counts credits in use. -/
structure Endpoint where
  bound : Bool
  packet : Bool
  cut : Nat
  peerCore : Nat
  peerQep : Nat
  peerRole : Nat
  route : Nat
  entries : List QEntry
  used : Nat
  /-- entries still to push in the packet under way (outbound), or to pop (inbound) -/
  packetLeft : Nat
  /-- bytes of the first entry of an outbound FQ's buffer that QDATA flits already carried -/
  sentOff : Nat
  /-- cycles waited for the entry of an inbound FQ that comes next (R141) -/
  waited : Nat
  hwm : Nat
  stall : W32
deriving DecidableEq, Repr

def Endpoint.reset : Endpoint :=
  { bound := false, packet := false, cut := 1, peerCore := 0, peerQep := 0, peerRole := 0, route := 0, entries := []
    used := 0, packetLeft := 0, sentOff := 0, waited := 0, hwm := 0, stall := 0 }

/-- A transfer descriptor as its four words (R193). -/
structure Desc where
  w0 : W64
  w1 : W64
  w2 : W64
  w3 : W64
deriving DecidableEq, Repr

def Desc.zero : Desc := ⟨0, 0, 0, 0⟩

/-- An outstanding descriptor (R198): `inst` tells it from other instances of its descriptor; its index, its words,
the running operands it started with, the byte offset of the bundle that issued it and its transfer word, how many
bytes of it have moved, whether its local bytes are all moved, the window requests not yet sent (row, offset in the
row, length), and the local word at which a read met an uncorrectable error (R217). -/
structure Outst where
  inst : Nat
  desc : Nat
  d : Desc
  src : Nat
  dst : Nat
  offset : Nat
  word : W64
  moved : Nat
  started : Bool
  done : Bool
  toSend : List (Nat × Nat × Nat)
  ueAt : Option Nat
deriving DecidableEq, Repr

/-- A window request of a core that waits for its response (R207): the descriptor it belongs to, its instance and the byte
offset of its bundle (R219), whether it writes, the remote table entry it used and the device it asks, its window offset,
length and local address, what has arrived of its read data, and whether a link retry delayed it. -/
structure WinTag where
  desc : Nat
  inst : Nat
  offset : Nat
  write : Bool
  handle : Nat
  gen : Nat
  route : Nat
  dest : Nat
  woff : Nat
  len : Nat
  lbase : Nat
  got : Nat
  retry : Bool
deriving DecidableEq, Repr

/-- The transfer engine (R192, R198, R207, R219). -/
structure TransferUnit where
  descs : Tbl Desc
  /-- running source and destination of each descriptor -/
  running : Tbl (Nat × Nat)
  out : List Outst
  /-- descriptors issued so far: the model's own field, which numbers the instances -/
  issued : Nat
  tags : Tbl (Option WinTag)
  nacks : W32
  lateResp : W32
  retryReq : W32
deriving DecidableEq, Repr

def TransferUnit.reset : TransferUnit :=
  { descs := [], running := [], out := [], issued := 0, tags := [], nacks := 0, lateResp := 0, retryReq := 0 }

/-- An armed or idle ECC injection (R188 to R190). -/
structure Inject where
  arm : Bool
  part : BitVec 3
  bita : BitVec 8
  bitb : BitVec 8
deriving DecidableEq, Repr

def Inject.reset : Inject := ⟨false, 0, 0xFF, 0xFF⟩

/-- The carrel's management state (R190). -/
structure CarrelUnit where
  ce : W32
  ue : W32
  scrub : Bool
  gap : BitVec 5
  passes : BitVec 16
  granule : BitVec 15
  clears : BitVec 16
  clearing : Bool
  /-- the tenant that the core is bound to after the clearing, and the tenant whose command waits for it -/
  nextTenant : Option (BitVec 8)
  waitFor : Option Nat
  inject : Inject
deriving DecidableEq, Repr

def CarrelUnit.reset : CarrelUnit := ⟨0, 0, true, 12, 0, 0, 0, false, none, none, Inject.reset⟩

/-- One core. -/
structure Core where
  mx : MatrixUnit
  vx : VectorUnit
  rd : ReductionUnit
  sq : Sequencer
  queues : Tbl Endpoint
  xf : TransferUnit
  car : CarrelUnit
deriving DecidableEq, Repr

def Core.reset : Core :=
  { mx := MatrixUnit.reset, vx := VectorUnit.reset, rd := ReductionUnit.reset, sq := Sequencer.reset, queues := []
    xf := TransferUnit.reset, car := CarrelUnit.reset }

/-- A shelf ring (R142, R161). -/
structure Ring where
  valid : Bool
  shelf : Bool
  producer : Nat
  consumer : Nat
  owner : Nat
  base : Nat
  slotSize : Nat
  slots : Nat
  head : Nat
  tail : Nat
  /-- slots whose presence bit is 1 -/
  present : List Nat
  patience : BitVec 16
  stall : W32
deriving DecidableEq, Repr

def Ring.reset : Ring :=
  { valid := false, shelf := false, producer := 0, consumer := 0, owner := 0, base := 0, slotSize := 64, slots := 1
    head := 0, tail := 0, present := [], patience := 4096, stall := 0 }

/-- The kind of a shelf partition (R181). -/
inductive PartKind where
  | free
  | resident
  | working
  | clearing
deriving DecidableEq, Repr

/-- A shelf partition (R181, R188): kind, owner, the hash once set, and HASH as last set, which a clearing leaves
(R170). While a clearing of it is due, because windows still close over it (R213), or runs, `next` and `nextOwner` are
what it takes afterwards and `waitFor` the tenant whose command waits for it (R182, R184). -/
structure Part where
  kind : PartKind
  owner : Option (BitVec 8)
  hash : Option (BitVec 3)
  hashSel : BitVec 3
  next : PartKind
  nextOwner : Option (BitVec 8)
  due : Bool
  waitFor : Option Nat
  /-- rows already cleared in this clearing, by bank (R168, R182) -/
  clearRow : Tbl Nat
deriving DecidableEq, Repr

def Part.reset : Part := ⟨.free, none, none, 0, .free, none, false, none, []⟩

/-- The granules of a span of a shelf that a unit has still to request (R525): the source and owner of its requests, the
unit, whether it writes, the shelf offset and the length. -/
structure ShelfSpan where
  source : Nat
  owner : Nat
  unit : ReqUnit
  write : Bool
  first : Nat
  len : Nat
deriving DecidableEq, Repr

/-- A cluster's shelf, its rings and its recovery state (R161, R168, R188, R482). -/
structure Cluster where
  rings : Tbl Ring
  rsel : BitVec 6
  parts : Tbl Part
  pending : List ShelfReq
  /-- requests for which their requester has no room yet, oldest first (R525) -/
  waiting : List ShelfSpan
  /-- commanded requests without room yet (R168, R525) -/
  offered : List ShelfReq
  /-- (partition, granule) of correction write-backs due in the next shelf cycle (R175) -/
  writeBacks : List (Nat × Nat)
  /-- call numbers of words that a scrub corrects once their bank is unused (R179) -/
  scrubBacks : List Nat
  /-- banks that a partial write of the last shelf cycle holds for its second one (R177) -/
  held : List Nat
  /-- banks that the last shelf cycle used at priorities 1 to 4 (R168, R178) -/
  busy : List Nat
  /-- cores with a request that waited in the last shelf cycle: on a conflict, the limit or for room; behind a write-back
  (R172, R175, R525) -/
  delayed : List Nat
  behind : List Nat
  /-- what the reads served in the last shelf cycle delivered -/
  delivered : List (ShelfReq × Bytes)
  /-- shelf cycles since the last tick in which a request waited on a conflict or a slot (R173) -/
  confCycles : Nat
  /-- HASH_PRESSURE was raised and is not yet re-armed (R173, R428) -/
  hpRaised : Bool
  ce : W32
  ue : W32
  scrub : Bool
  gap : BitVec 5
  passes : BitVec 16
  /-- rows already scrubbed in this pass, by bank -/
  scrubRow : Tbl Nat
  thr : BitVec 10
  ticks : BitVec 16
  hpRun : BitVec 16
  lastRate : BitVec 10
  clears : BitVec 16
  inject : Inject
  trafCore : W32
  trafNet : W32
  confSlot : W32
  confBank : Tbl W32
  /-- SHF_CONF_BCb_c at key 8 × b + c -/
  confBc : Tbl W32
  /-- SHF_CTRL.MAPOUT (R488), stored -/
  mapout : Bool
  /-- the recovery program of the cluster is running (R482) -/
  recovering : Bool
  /-- SHF_CTRL.ISOLATE: an isolation is under way (R488, R489) -/
  isolating : Bool
deriving DecidableEq, Repr

def Cluster.reset : Cluster :=
  { rings := [], rsel := 0, parts := [], pending := [], waiting := [], offered := [], writeBacks := []
    scrubBacks := [], held := [], busy := [], delayed := [], behind := [], delivered := [], confCycles := 0
    hpRaised := false, ce := 0, ue := 0, scrub := true, gap := 12
    passes := 0, scrubRow := [], thr := 51, ticks := 10000, hpRun := 0, lastRate := 0, clears := 0
    inject := Inject.reset, trafCore := 0, trafNet := 0, confSlot := 0, confBank := [], confBc := [], mapout := false
    recovering := false, isolating := false }

end Sys2Proof.Machine
end

