-- ==== Sys2Proof/Machine/PortState.lean ====
section
/-! DEFINITION. The state of the register page headers, the event logs, the Tsudan ports, the clocks and the ledgers:
chapters 08, 14 and 15. -/

namespace Sys2Proof.Machine

open Sys2Proof

/-- The common header of one register page (R427, R430 to R432): `tmoCfg` none stands for the page's reset value, `latch`
holds the latched _HI values by offset. -/
structure PageHdr where
  evtRaw : W32
  mask : W32
  tmoCfg : Option W32
  tmoCount : W32
  caps : List W32
  latch : Tbl (Option W32)
deriving DecidableEq, Repr

def PageHdr.reset : PageHdr := ⟨0, 0, none, 0, List.replicate 6 0, []⟩

/-- An event record (R421): page address bits [31:12], bit, LOST, ledger stamp, 16 bytes of DETAIL. -/
structure EvRec where
  page : BitVec 20
  bit : Nat
  lost : Bool
  ledger : W64
  detail : Bytes
deriving DecidableEq, Repr

/-- A die's event log (R440, R441). -/
structure EvLog where
  records : List EvRec
  /-- sequence number of the next record -/
  next : W32
  sel : W32
  overwritten : W32
  logMasked : Bool
deriving DecidableEq, Repr

def EvLog.reset : EvLog := ⟨[], 0, 0, 0, false⟩

/-- States of a link port (R368, R395). -/
inductive LinkState where
  | disabled
  | down
  | training
  | up
deriving DecidableEq, Repr

def LinkState.code : LinkState → Nat
  | .disabled => 0
  | .down => 1
  | .training => 2
  | .up => 3

/-- A packet that the module sends (R396). -/
structure TxPacket where
  typ : BitVec 8
  cls : Nat
  flags : BitVec 8
  code : BitVec 8
  lseq : BitVec 16
  tag : BitVec 32
  ledger : W64
  payload : Bytes
deriving DecidableEq, Repr

/-- What a command in progress waits for before its COMPLETION. -/
inductive CmdWait where
  /-- more packets of the command (R403) -/
  | packets
  /-- a TENANT_BIND that waits for loads, windows and clearing (R282, R184) -/
  | bind (payload : Bytes)
  /-- the same once its grant is in force, until what it moves is cleared -/
  | bound (tenant : Nat)
  /-- a TENANT_RELEASE (R283) -/
  | release (tenant : Nat)
  /-- a WINDOW_CLOSE (R210) -/
  | close (handle : Nat)
  /-- a HALT (R278) -/
  | halt (slot : Nat)
  /-- an EDITION_COMMIT that waits for answers or acknowledgements (R352, R353) -/
  | commit (index : Nat)
  /-- an EDITION_SWITCH that waits for acknowledgements (R354) -/
  | switch (index : Nat)
  /-- an EDITION_RETIRE that waits for acknowledgements (R358, R359) -/
  | retire (index : Nat)
  /-- a write of CHT_CTRL.YIELD (R449) -/
  | yield
  /-- FW_ACTIVATE of a die's curator (R406, R458) -/
  | activate (die : Nat)
  /-- a REG_WRITE of ISOLATE or MAPOUT: the clusters still to be isolated (R489) -/
  | isolate (clusters : List Nat)
deriving DecidableEq, Repr

/-- A command in progress on a Tsudan port (R404): its tag, code and class, the PART expected next and the payload bytes
so far, what it waits for. -/
structure Cmd where
  tag : BitVec 32
  code : BitVec 8
  cls : Nat
  nextPart : Nat
  buf : Bytes
  wait : CmdWait
deriving DecidableEq, Repr

/-- A Tsudan port (R395 to R404, R421, R422). -/
structure TsdPort where
  state : LinkState
  cause : BitVec 4
  enable : Bool
  retrain : Bool
  events : Bool
  peerInit : Bool
  /-- LSEQ expected from the control node, whether any packet was accepted since training, whether a NAK stands -/
  rxNext : BitVec 16
  rxAny : Bool
  nak : Bool
  /-- LSEQ of the next packet sent; packets sent and not acknowledged, oldest first -/
  txNext : BitVec 16
  retry : List TxPacket
  /-- packets not yet sent, oldest first, all classes -/
  txQueue : List TxPacket
  /-- credits held by class and the CRED value last seen by class -/
  credits : Tbl Nat
  credSeen : Tbl (BitVec 16)
  /-- receive units freed since INIT, by class (R398, R402) -/
  freed : Tbl (BitVec 16)
  /-- consecutive packets sent of classes above 3 and above 2 (R402) -/
  above3 : Nat
  above2 : Nat
  replaysRun : Nat
  replayedFrom : Option (BitVec 16)
  /-- the bytes of the packet and of the link word sent last (R396, R398) -/
  wire : Bytes
  word : Bytes
  cmds : List Cmd
  evtQueue : List EvRec
  evtLost : Bool
  fecCorr : W32
  fecUncorr : W32
  crcErr : W32
  replays : W32
  badPkt : W32
  busy : W32
  evtDrop : W32
deriving DecidableEq, Repr

def TsdPort.reset : TsdPort :=
  { state := .down, cause := 0, enable := true, retrain := false, events := true, peerInit := false, rxNext := 0
    rxAny := false, nak := false, txNext := 0, retry := [], txQueue := [], credits := [], credSeen := [], freed := []
    above3 := 0, above2 := 0, replaysRun := 0, replayedFrom := none, wire := [], word := [], cmds := [], evtQueue := [], evtLost := false
    fecCorr := 0, fecUncorr := 0, crcErr := 0, replays := 0, badPkt := 0, busy := 0, evtDrop := 0 }

/-- One cluster region's clock and monitors (R229 to R231, R437): `phase` counts generator periods modulo 64, `kPrev` is
the level that the window under way began with, `drooped` tells that a droop hold stood in the tick. -/
structure Region where
  kThermal : Nat
  kDroop : Nat
  throttled : Bool
  temp : Nat
  pulses : W64
  droops : W32
  thrTicks : W32
  phase : Nat
  kPrev : Nat
  drooped : Bool
deriving DecidableEq, Repr

def Region.reset : Region := ⟨0, 0, false, 0, 0, 0, 0, 0, 0, false⟩

/-- A die's clock page (R437). -/
structure DieClock where
  tThr : BitVec 7
  droopPct : BitVec 4
  alignDone : Bool
  d2dOk : Bool
  netOk : Bool
  clusterOk : BitVec 16
  rsel : BitVec 4
deriving DecidableEq, Repr

def DieClock.reset : DieClock := ⟨95, 6, false, false, false, 0, 0⟩

/-- The module's clock state (R221 to R223, R230, R436). -/
structure ModClock where
  refSel : BitVec 2
  refLock : Bool
  holdover : Bool
  refOffset : W32
  holdovers : W32
  kPower : Nat
deriving DecidableEq, Repr

def ModClock.reset : ModClock := ⟨0, false, false, 0, 0, 0⟩

/-- A die's ledger: the count, the signed rate accumulator, the slew pending at the start of the tick under way and the
die-network cycles since then (R232, R233). -/
structure DieLedger where
  now : W64
  acc : W32
  slew : Int
  cyc : Nat
deriving DecidableEq, Repr

def DieLedger.reset : DieLedger := ⟨0, 0, 0, 0⟩

/-- The states of the module ledger (R236). -/
inductive LdgState where
  | free
  | acquire
  | locked
  | holdover
  | root
deriving DecidableEq, Repr

def LdgState.code : LdgState → Nat
  | .free => 0
  | .acquire => 1
  | .locked => 2
  | .holdover => 3
  | .root => 4

/-- The module's timing-tree state (R235 to R239, R438). -/
structure ModLedger where
  parentPort : BitVec 6
  role : BitVec 2
  rootId : BitVec 12
  dist : BitVec 4
  parent : Option FPort
  state : LdgState
  rate : BitVec 32
  offset : BitVec 32
  delay : BitVec 32
  badSample : W32
  steps : W32
  skew : BitVec 32
  /-- consecutive samples within 32 units (ACQUIRE), consecutive ticks without a valid sample -/
  goodRun : Nat
  missed : Nat
  /-- the multiple of 1 ms at which the last tick began -/
  lastTick : Nat
deriving DecidableEq, Repr

def ModLedger.reset : ModLedger :=
  { parentPort := 0, role := 0, rootId := 0, dist := 15, parent := none, state := .free, rate := 0, offset := 0
    delay := 0, badSample := 0, steps := 0, skew := 0, goodRun := 0, missed := 0, lastTick := 0 }

/-- A window extent: the call number of its base and its length in bytes (R202). -/
structure Extent where
  base : Nat
  len : Nat
deriving DecidableEq, Repr

/-- The state of a loan window (R203). -/
inductive WinState where
  | free
  | opened
  | closing
  | closed
deriving DecidableEq, Repr

def WinState.code : WinState → Nat
  | .free => 0
  | .opened => 1
  | .closing => 2
  | .closed => 3

/-- A loan window table entry (R202 to R204, R218). `freeSince` and `closedAt` are ledger values; `gen` none stands for
the generation floor. -/
structure Window where
  state : WinState
  access : BitVec 2
  tenant : BitVec 8
  peerTenant : BitVec 8
  devLo : BitVec 12
  devHi : BitVec 12
  extents : List Extent
  gen : Option (BitVec 20)
  freeSince : Nat
  closedAt : Nat
  closeBegun : Nat
deriving DecidableEq, Repr

def Window.reset : Window :=
  { state := .free, access := 0, tenant := 0, peerTenant := 0, devLo := 0, devHi := 0, extents := [], gen := none
    freeSince := 0, closedAt := 0, closeBegun := 0 }

/-- An admitted request that the owner has not yet answered (R209): the window, the requester, what it asked for and the
write bytes that have arrived. -/
structure Admitted where
  port : Nat
  handle : Nat
  gen : Nat
  write : Bool
  src : Nat
  tenant : Nat
  core : Nat
  tag : Nat
  woff : Nat
  len : Nat
  got : Bytes
  /-- the return route of the request -/
  route : Nat
  hops : Nat
  /-- data flits of a read already sent -/
  sent : Nat
deriving DecidableEq, Repr

/-- A remote window table entry (R206, R218). -/
structure RemoteWin where
  valid : Bool
  tenant : BitVec 8
  device : BitVec 12
  route : BitVec 11
  handle : BitVec 12
  gen : BitVec 20
  pages : BitVec 19
deriving DecidableEq, Repr

def RemoteWin.reset : RemoteWin := ⟨false, 0, 0, 0, 0, 0, 0⟩

/-- The WIN page's own registers and the generation floor (R204, R218). -/
structure WinPage where
  sel : BitVec 12
  rsel : BitVec 12
  admitted : W32
  stale : W32
  denied : W32
  drainDiscard : W32
  /-- bytes landed and served, whose KiB the page reports -/
  bytesIn : Nat
  bytesOut : Nat
  floor : BitVec 20
  stored : BitVec 20
  /-- the stored floor has been raised in this run (R204) -/
  raised : Bool
deriving DecidableEq, Repr

def WinPage.reset : WinPage :=
  { sel := 0, rsel := 0, admitted := 0, stale := 0, denied := 0, drainDiscard := 0, bytesIn := 0, bytesOut := 0
    floor := 1, stored := 1, raised := false }

end Sys2Proof.Machine
end

