-- ==== Sys2Proof/Machine/ServeState.lean ====
section
/-! DEFINITION. The state of tenants, folio slots and their programs, deployments and sessions: chapters 09 to 11. -/

namespace Sys2Proof.Machine

open Sys2Proof

/-- The state of a tenant (R279). -/
inductive TenantState where
  | unbound
  | bound
  | releasing
deriving DecidableEq, Repr

def TenantState.code : TenantState → Nat
  | .unbound => 0
  | .bound => 1
  | .releasing => 2

/-- A tenant: its grant and quotas (R280, R284). Partitions are held by the shelves (R188). -/
structure Tenant where
  state : TenantState
  clusters : BitVec 32
  sessions : BitVec 13
  kvMib : W32
  share : BitVec 8
  folioKeys : W64
  publisherKeys : W64
deriving DecidableEq, Repr

def Tenant.reset : Tenant := ⟨.unbound, 0, 0, 0, 0, 0, 0⟩

/-- A logical partition of a loaded folio and the partition it is assigned to, as (shelf 16 × die + cluster, partition)
(R265). -/
structure LogPart where
  resident : Bool
  hash : BitVec 3
  shelves : BitVec 32
  at_ : Option (Nat × Nat)
deriving DecidableEq, Repr

/-- A step-time record (R270). -/
structure StepModel where
  prefillCyc : Nat
  decodeBase : Nat
  decodeSession : Nat
  decodeKtoken : Nat
  maxBatch : Nat
deriving DecidableEq, Repr

/-- The SERVING section (R270). -/
structure Serving where
  vocab : Nat
  kvBytes : Nat
  maxContext : Nat
  endIds : List Nat
  models : List StepModel
deriving DecidableEq, Repr

/-- The RESIDENT section's sides: logical partition numbers of each set of sides, and the layout bytes that an edition
must match (R339, R340). -/
structure ResidentLayout where
  bytes : Bytes
deriving DecidableEq, Repr

/-- What a slot keeps of its folio once the load has written the cores and tables (R252 to R278). -/
structure Folio where
  digest : Bytes
  kind : Nat
  archival : Bool
  sessions : Bool
  seed : W64
  compiler : W64
  stepping : Nat
  moduleCount : Nat
  role : Nat
  devices : List Nat
  clusters : BitVec 32
  padded : Bool
  lparts : List LogPart
  prefill : List Nat
  decode : List Nat
  /-- START entry of each core of the role, ascending (R264) -/
  start : List Nat
  /-- STEP_ENTRY groups, each one entry per core; empty where the section has none (R264) -/
  stepEntry : List (List Nat)
  serving : Option Serving
  stamps : List StampEntry
  /-- route table entries that the slot holds (R379) -/
  routes : List Nat
  /-- remote window entries patched (R268) -/
  windows : List Nat
  hasStep : Bool
  resident : Option ResidentLayout
deriving DecidableEq, Repr

/-- The state of a folio slot (R273). -/
inductive SlotState where
  | empty
  | loading
  | loaded
  | running
  | faulted
deriving DecidableEq, Repr

def SlotState.code : SlotState → Nat
  | .empty => 0
  | .loading => 1
  | .loaded => 2
  | .running => 3
  | .faulted => 4

/-- A remote module's HOLD flit of the stamp under way (R242, R243). -/
structure HoldIn where
  role : Nat
  cause : Nat
  mark : Bool
deriving DecidableEq, Repr

/-- A stamp group of a running program: releases so far, cores arrived in order of arrival, remote arrivals, the stamp ID
awaited (R149, R242 to R244). -/
structure GroupRun where
  seq : BitVec 16
  id : BitVec 12
  arrived : List Nat
  remote : List HoldIn
deriving DecidableEq, Repr

def GroupRun.reset : GroupRun := ⟨0, 0, [], []⟩

/-- A batch record header as the batch ring latches it (R314, R526). -/
structure BatchHdr where
  step : W32
  variant : BitVec 8
  flags : BitVec 8
deriving DecidableEq, Repr

/-- A row of the batch record of the step under way: what the result check of R315 needs. -/
structure RowRef where
  index : Nat
  row : Nat
  /-- nodes of the tree that the row carries, as (token, parent), empty for none -/
  tree : List (Nat × Nat)
  pos : Nat
deriving DecidableEq, Repr

/-- The run of a slot's folio (R155, R242, R278, R313, R526). -/
structure Prog where
  startLedger : W64
  started : Bool
  groups : Tbl GroupRun
  haltPending : Bool
  /-- step commits made so far -/
  commits : Nat
  rows : List RowRef
  latched : List BatchHdr
  /-- slots of the batch record under way still to be put before the next header (R526) -/
  batchLeft : Nat
  /-- first slot and header of the batch record under way, and the rows of the last two whole records, latest last: the
  step, and for each row its number, SESSION_SEED and STEPS (R61, R314) -/
  batchSlot : Nat
  batchStep : W32
  batches : List (W32 × List (Nat × W64 × W32))
  /-- variant and form of the current step, of the next one, as the commits fixed them (R251, R303) -/
  current : Nat
  archNow : Bool
  next : Nat
  archNext : Bool
deriving DecidableEq, Repr

def Prog.reset : Prog :=
  { startLedger := 0, started := false, groups := [], haltPending := false, commits := 0, rows := [], latched := []
    batchLeft := 0, batchSlot := 0, batchStep := 0, batches := [], current := 0, archNow := false, next := 0, archNext := false }

/-- The governor's registers and counters of one slot (R304, R310). -/
structure Governor where
  fixed : Bool
  variant : BitVec 4
  upUs : W32
  downUs : W32
  occHi : BitVec 8
  upSteps : BitVec 8
  downSteps : BitVec 8
  minSteps : BitVec 8
  upRun : Nat
  downRun : Nat
  switches : W32
  since : W32
deriving DecidableEq, Repr

def Governor.reset : Governor :=
  { fixed := false, variant := 0, upUs := 20000, downUs := 2000, occHi := 240, upSteps := 4, downSteps := 16
    minSteps := 32, upRun := 0, downRun := 0, switches := 0, since := 0 }

/-- A completion's status block and result (R408). -/
structure Reply where
  status : Nat
  detail : Nat
  state : Nat
  space : Nat
  accepted : Nat
  index : Nat
  result : Bytes
deriving DecidableEq, Repr

/-- Why a load fails: with a completion, or with STAMP_MISMATCH, its reason, entry and the two values (R263). -/
inductive LoadFail where
  | status (r : Reply)
  | mismatch (reason entry want have_ : Nat)
deriving DecidableEq, Repr

/-- How far the checks of a load have come (R274): the folio's KIND once its header is there; 1 once its cores are
claimed, 2 once its partitions are assigned; the check of the module's state that failed, reported when every check
before it has passed. -/
structure LoadCheck where
  kind : Nat
  stage : Nat
  verdict : Option LoadFail
deriving DecidableEq, Repr

def LoadCheck.reset : LoadCheck := ⟨0, 0, none⟩

/-- A folio slot with its deployment's registers (R273, R286, R308, R310). -/
structure Slot where
  state : SlotState
  tenant : Nat
  /-- port and tag of the FOLIO_LOAD under way (R274) -/
  load : Option (Nat × BitVec 32)
  check : LoadCheck
  /-- what the load has established of its folio -/
  folio : Option Folio
  prog : Prog
  pool : BitVec 20
  dkv : W32
  lpart : BitVec 8
  units : BitVec 16
  /-- admission queue, catalogue indices, head first (R297) -/
  queue : List Nat
  /-- sessions in the order of their admission (R314); those no longer ADMITTED are passed over -/
  admits : List Nat
  gov : Governor
deriving DecidableEq, Repr

def Slot.reset : Slot :=
  { state := .empty, tenant := 0, load := none, check := LoadCheck.reset, folio := none, prog := Prog.reset, pool := 0, dkv := 0, lpart := 0
    units := 0, queue := [], admits := [], gov := Governor.reset }

/-- Session states (R290). -/
inductive SessState where
  | free
  | opened
  | admitted
  | prefill
  | decode
  | ending
  | closed
deriving DecidableEq, Repr

def SessState.code : SessState → Nat
  | .free => 0
  | .opened => 1
  | .admitted => 2
  | .prefill => 3
  | .decode => 4
  | .ending => 5
  | .closed => 6

/-- A token waiting to be streamed: ID, log-probability bytes, commit stamp (R320, R333). -/
structure OutToken where
  id : Nat
  logprob : Bytes
  stamp : W64
deriving DecidableEq, Repr

/-- A TOKEN packet being filled or closed (R333, R334): the first token's generation index, its tokens, whether it holds
the session's first token, and whether the completion record ends it. -/
structure TokPkt where
  seq : Nat
  tokens : List OutToken
  first : Bool
  final : Bool
deriving DecidableEq, Repr

/-- The values of a latency class (R295). -/
structure LatClass where
  ttft : W32
  interval : W32
  queueMs : BitVec 16
  promptMs : BitVec 16
  stepUs : W32
deriving DecidableEq, Repr

def LatClass.reset : LatClass := ⟨0, 0, 1000, 10000, 1000000⟩

/-- A catalogue descriptor with its stop record, tree record and streaming state (R289, R321, R323, R328, R334). -/
structure Session where
  state : SessState
  gen : BitVec 20
  archival : Bool
  speculative : Bool
  queued : Bool
  cancelSeen : Bool
  cancelPending : Bool
  port : Nat
  tenant : Nat
  slot : Nat
  cls : Nat
  logprobs : Nat
  endReason : Nat
  endDetail : Nat
  refuseReason : Nat
  promptTokens : Nat
  promptReceived : Nat
  maxNew : Nat
  generated : Nat
  pages : Nat
  charge : Nat
  draftSlot : Nat
  pstore : Nat
  /-- prompt store units still held (R287) -/
  punits : Nat
  steps : W32
  seed : W64
  ledgerOpen : W64
  ledgerAdmit : W64
  ledgerCommit : W64
  ledgerFirst : W64
  ledgerEnd : W64
  deadline : W64
  temperature : W32
  topP : W32
  topK : W32
  repPenalty : W32
  predTtft : W32
  predStep : W32
  row : Nat
  lat : LatClass
  queuedAt : W64
  /-- the step timeout has expired (R294) -/
  stepExpired : Bool
  stops : List (List Nat)
  tree : List (Nat × Nat)
  treeUsed : Bool
  hwm : Nat
  spare : List Nat
  pos : Nat
  inSlot : Nat
  /-- tokens of the previous commit and the slots it mapped (R314, R329) -/
  newTokens : List Nat
  mapSlots : List Nat
  /-- generated tokens, latest first, as many as stop sequences need -/
  recent : List Nat
  proposed : W32
  accepted : W32
  edition : Nat
  /-- the session took part in a step (R338, R355) -/
  ran : Bool
  /-- an uncorrectable error stands in its descriptor, stop or tree record (R485) -/
  tableUe : Bool
  openPkt : Option TokPkt
  closedPkts : List TokPkt
deriving DecidableEq, Repr

def Session.reset : Session :=
  { state := .free, gen := 0, archival := false, speculative := false, queued := false, cancelSeen := false
    cancelPending := false, port := 0, tenant := 0, slot := 0, cls := 0, logprobs := 0, endReason := 0, endDetail := 0
    refuseReason := 0, promptTokens := 0, promptReceived := 0, maxNew := 0, generated := 0, pages := 0, charge := 0
    draftSlot := 0, pstore := 0, punits := 0, steps := 0, seed := 0, ledgerOpen := 0, ledgerAdmit := 0
    ledgerCommit := 0, ledgerFirst := 0, ledgerEnd := 0, deadline := 0, temperature := 0, topP := 0, topK := 0
    repPenalty := 0, predTtft := 0, predStep := 0, row := 511, lat := LatClass.reset, queuedAt := 0
    stepExpired := false, stops := [], tree := [], treeUsed := false, hwm := 0, spare := [], pos := 0, inSlot := 0
    newTokens := [], mapSlots := [], recent := [], proposed := 0, accepted := 0, edition := 255, ran := false, tableUe := false, openPkt := none
    closedPkts := [] }

/-- The ADM page's own registers, the CAT and GOV selectors, the LAT page's (R263, R308 to R310). -/
structure AdmPage where
  tsel : BitVec 8
  dsel : BitVec 6
  admitted : W32
  queued : W32
  refMemory : W32
  refTime : W32
  refQuota : W32
  refTenant : W32
  classes : Tbl LatClass
  /-- tenant last served by the tick's evaluations (R300) -/
  lastServed : Nat
  autoFree : Bool
  csel : BitVec 12
  gsel : BitVec 6
  latRefused : W32
  latLast : W32
  latWant : W32
  latHave : W32
deriving DecidableEq, Repr

def AdmPage.reset : AdmPage :=
  { tsel := 0, dsel := 0, admitted := 0, queued := 0, refMemory := 0, refTime := 0, refQuota := 0, refTenant := 0
    classes := [], lastServed := 255, autoFree := false, csel := 0, gsel := 0, latRefused := 0, latLast := 0
    latWant := 0, latHave := 0 }

end Sys2Proof.Machine
end

