-- ==== Sys2Proof/Machine/FabricState.lean ====
section
/-! DEFINITION. The state of the fabric, the optics and the weight editions: chapters 12 and 13. -/

namespace Sys2Proof.Machine

open Sys2Proof

/-- What a port has recorded of its partner (R388, R392). -/
structure Neighbour where
  serial : W64
  device : BitVec 12
  idValid : Bool
  port : BitVec 6
  mstate : BitVec 4
  epoch : W32
deriving DecidableEq, Repr

/-- The latest valid call slip of a port (R237, R387): its time fields, the ledger at its arrival, the timing-tree
fields of its sender. -/
structure SlipRec where
  tx : W64
  echoTx : W64
  echoRx : W64
  arrival : W64
  rootId : BitVec 12
  dist : BitVec 4
  ldg : BitVec 3
deriving DecidableEq, Repr

/-- A QDATA stream being received (R376): bytes of the entry under way, its sideband, whether a flit that holds one of
them has MARK (R138). -/
structure QStream where
  src : Nat
  core : Nat
  qep : Nat
  buf : Bytes
  side : Option (BitVec 8)
  mark : Bool
  /-- bytes of the message under way still to come (R376; log 149) -/
  left : Nat
deriving DecidableEq, Repr

/-- A fabric port (R368 to R378, R388, R392). -/
structure FabPort where
  state : LinkState
  cause : BitVec 4
  enable : Bool
  retrain : Bool
  latValid : Bool
  delay : W32
  linkLat : BitVec 16
  nb : Option Neighbour
  slip : Option SlipRec
  /-- TX of the last four slips sent, latest first (R238) -/
  sentTx : List W64
  rxNext : BitVec 12
  rxAny : Bool
  nak : Bool
  txNext : BitVec 12
  retry : List Flit
  replaysRun : Nat
  replayedFrom : Option (BitVec 12)
  /-- flits still to be sent with MARK after a replay (R372) -/
  markLeft : Nat
  /-- VC0 flits at the front of the egress queue that are known to have waited for a credit (R372, R378) -/
  late : Nat
  /-- slots used since the last link word, and by each VC since the last tick (R370, R392) -/
  slots : Nat
  slotsOf : Tbl Nat
  /-- a flit of another channel than VC0 took the last slot used (R378) -/
  otherVc : Bool
  /-- the bytes of the flit sent last and the link word sent last (R370, R373, R374) -/
  wire : Bytes
  word : W64
  /-- flits waiting on the egress, by VC, oldest first, each with the ingress port that holds its buffer entry, 64 for a
  flit of this module -/
  queues : Tbl (List (Nat × Flit))
  /-- credits used at the partner by VC, the CRED value last seen by VC, flits freed here since UP by VC -/
  used : Tbl Nat
  credSeen : Tbl (BitVec 8)
  freed : Tbl (BitVec 8)
  /-- slots since the last VC3 flit, the turns left of VC1 and VC2 in the weighted round robin (R378) -/
  since3 : Nat
  turn1 : Nat
  turn2 : Nat
  streams : List QStream
  crcErr : W32
  retries : W32
  downs : W32
  vc0Late : W32
  occ : Tbl W32
  creditWait : W32
  badFlit : W32
deriving DecidableEq, Repr

def FabPort.reset : FabPort :=
  { state := .down, cause := 0, enable := true, retrain := false, latValid := false, delay := 0, linkLat := 0
    nb := none, slip := none, sentTx := [], rxNext := 0, rxAny := false, nak := false, txNext := 0, retry := []
    replaysRun := 0, replayedFrom := none, markLeft := 0, late := 0, slots := 0, slotsOf := [], otherVc := false, wire := []
    word := 0, queues := [], used := [], credSeen := [], freed := []
    since3 := 7, turn1 := 0, turn2 := 0, streams := [], crcErr := 0, retries := 0, downs := 0, vc0Late := 0, occ := []
    creditWait := 0, badFlit := 0 }

/-- A route table entry as its three words (R379). -/
structure RouteEntry where
  w0 : W32
  w1 : W32
  w2 : W32
deriving DecidableEq, Repr

def RouteEntry.reset : RouteEntry := ⟨0, 0, 0⟩

def RouteEntry.hops (r : RouteEntry) : Nat := (r.w0.extractLsb' 0 3).toNat
def RouteEntry.egress (r : RouteEntry) : Nat := (r.w0.extractLsb' 3 6).toNat
def RouteEntry.valid (r : RouteEntry) : Bool := r.w0.getLsbD 9
def RouteEntry.standing (r : RouteEntry) : Bool := r.w0.getLsbD 10
def RouteEntry.slot (r : RouteEntry) : Nat := (r.w0.extractLsb' 11 6).toNat
def RouteEntry.dest (r : RouteEntry) : Nat := (r.w0.extractLsb' 17 12).toNat
def RouteEntry.lambda (r : RouteEntry) : Nat := (r.w2.extractLsb' 0 24).toNat

/-- The FAB page of the module (R391). -/
structure FabPage where
  idValid : Bool
  device : BitVec 12
  w1 : BitVec 4
  w2 : BitVec 4
  rtsel : BitVec 11
  drop : W32
deriving DecidableEq, Repr

def FabPage.reset : FabPage := ⟨false, 0, 3, 1, 0, 0⟩

/-- A laser cartridge (R393, R494, R495). -/
structure Cartridge where
  present : Bool
  active : Bool
  fault : Bool
  power : BitVec 16
deriving DecidableEq, Repr

/-- All five cartridges fitted, none active: PRESENT is sensed (R393). -/
def Cartridge.reset : Cartridge := ⟨true, false, false, 0⟩

/-- The state of an optical engine (R393). -/
inductive OptState where
  | shed
  | calibrating
  | active
  | fault
deriving DecidableEq, Repr

def OptState.code : OptState → Nat
  | .shed => 0
  | .calibrating => 1
  | .active => 2
  | .fault => 3

/-- An optical engine (R365, R366, R393, R458, R511): `retried` marks that the calibration of bring-up failed once, `ucode`
is the SVN and measurement of the microcode loaded at its last calibration. -/
structure OptEngine where
  state : OptState
  track : BitVec 10
  calibrate : Bool
  cals : W32
  calibrated : Bool
  retried : Bool
  ucode : Option (Nat × Bytes)
deriving DecidableEq, Repr

def OptEngine.reset : OptEngine := ⟨.shed, 0, false, 0, false, false, none⟩

/-- The state of an edition entry (R340). -/
inductive EdState where
  | free
  | receiving
  | verified
  | committed
  | active
  | draining
  | failed
  | retiring
deriving DecidableEq, Repr

def EdState.code : EdState → Nat
  | .free => 0
  | .receiving => 1
  | .verified => 2
  | .committed => 3
  | .active => 4
  | .draining => 5
  | .failed => 6
  | .retiring => 7

/-- The state of a shard (R360). -/
inductive ShardState where
  | wanted
  | arriving
  | verified
  | failed
deriving DecidableEq, Repr

def ShardState.code : ShardState → Nat
  | .wanted => 0
  | .arriving => 1
  | .verified => 2
  | .failed => 3

/-- A shard of the module's role (R341, R346, R350, R360). -/
structure Shard where
  num : Nat
  region : Nat
  offset : Nat
  len : Nat
  digest : Bytes
  state : ShardState
  attempts : Nat
  lastCause : Nat
  upstream : Bool
  /-- bytes landed in the current or last attempt -/
  got : Bytes
deriving DecidableEq, Repr

/-- Messages an edition entry waits for on VC3 (R353, R354, R358): the stage (0 queries, 1 COMMIT, 2 SWITCH, 3 RETIRE
notices), the modules still to answer as (role, device, SEQ), the answers as (role, reported state or status, digest
differs), the states that the answers to the query reported, by role, and whether a message of the stage had no route. -/
structure EdTalk where
  stage : Nat
  waiting : List (Nat × Nat × Nat)
  answers : List (Nat × Nat × Bool)
  told : List (Nat × Nat)
  lost : Bool
deriving DecidableEq, Repr

/-- An edition table entry (R340, R343, R353). -/
structure Edition where
  state : EdState
  slot : Nat
  tenant : Nat
  failStatus : Nat
  digest : Bytes
  id : W64
  relayOut : Bool
  nextPort : Nat
  fromUp : Bool
  upPort : Nat
  nextDevice : Nat
  upDevice : Nat
  /-- NEXT_PORT went down while the relay ran: it forwards no more (R389) -/
  relayStopped : Bool
  shards : List Shard
  /-- the partitions of its side, as (cluster, partition) -/
  parts : List (Nat × Nat)
  /-- devices of roles 1 and up named at the last commit -/
  named : List Nat
  /-- RESEND requests held, as (port, shard number) -/
  held : List (Nat × Nat)
  talk : Option EdTalk
deriving DecidableEq, Repr

def Edition.reset : Edition :=
  { state := .free, slot := 0, tenant := 0, failStatus := 0, digest := [], id := 0, relayOut := false, nextPort := 0
    fromUp := false, upPort := 0, nextDevice := 0, upDevice := 0, relayStopped := false, shards := [], parts := [], named := [], held := [], talk := none }

/-- The module's ACC page's own registers and the number of the next VC3 message (R360, R385). -/
structure AccPage where
  esel : BitVec 4
  ssel : BitVec 20
  nextSeq : BitVec 16
deriving DecidableEq, Repr

def AccPage.reset : AccPage := ⟨0, 0, 0⟩

/-- A die's accession counters, bytes where the page reports KiB or 64-byte units (R361). -/
structure AccDie where
  bytesIn : Nat
  bytesRelayed : Nat
  mismatch : W32
  timeouts : W32
  discards : Nat
deriving DecidableEq, Repr

def AccDie.reset : AccDie := ⟨0, 0, 0, 0, 0⟩

end Sys2Proof.Machine
end

