-- ==== Sys2Proof/Machine/SecState.lean ====
section
/-! DEFINITION. The state of the charter, the curators, the keys, the firmware, physical presence, power and bring-up,
and the fused facts of the module: chapters 00, 16 and 18. -/

namespace Sys2Proof.Machine

open Sys2Proof

/-- Grades (R6). -/
inductive Grade where
  | a
  | b
  | l
deriving DecidableEq, Repr

def Grade.code : Grade → Nat
  | .a => 1
  | .b => 2
  | .l => 3

/-- What is fused or stored at manufacture (R6, R9, R11, R20, R85, R386, R522): `columns` lists, for a core whose map is
not full, its 128-bit column map; the slot's address pins stand beside them. -/
structure Fuses where
  grade : Grade
  c0 : Bool
  fusedA : BitVec 4
  fusedB : BitVec 4
  columns : Tbl (BitVec 128)
  serial : Bytes
  boardRev : BitVec 8
  sealBroken : Bool
  identityWiped : Bool
  /-- the pins GA2 to GA0 of the chassis slot (R509) -/
  ga : BitVec 3
deriving DecidableEq, Repr

/-- The charter lease (R446). -/
inductive Lease where
  | vacant
  | dieA
  | dieB
deriving DecidableEq, Repr

def Lease.code : Lease → Nat
  | .vacant => 0
  | .dieA => 1
  | .dieB => 2

/-- The arbitration logic and the module CHT page (R446 to R449, R470): ticks since the last heartbeat of each curator
(none before the first), `arbitrating` while power-on arbitration runs, a pending yield as the port and tag of its
REG_WRITE. -/
structure Charter where
  lease : Lease
  prefB : Bool
  arbitrating : Bool
  sinceGood : Nat
  sinceA : Option Nat
  sinceB : Option Nat
  /-- LEASE_TICKS as it stood at each curator's last heartbeat, for the interval that began there (R431) -/
  termA : Nat
  termB : Nat
  yieldPending : Option (Nat × BitVec 32)
  lastCause : BitVec 3
  epoch : W32
  changes : W32
  changeLedger : W64
  granted : Bool
deriving DecidableEq, Repr

def Charter.reset : Charter :=
  { lease := .vacant, prefB := false, arbitrating := true, sinceGood := 0, sinceA := none, sinceB := none, termA := 3, termB := 3
    yieldPending := none, lastCause := 0, epoch := 0, changes := 0, changeLedger := 0, granted := false }

/-- A curator (R444, R445, R450, R471): whether it runs, restarts or is down for want of a bank that boots. -/
inductive CuratorRun where
  | starting
  | running
  | down
deriving DecidableEq, Repr

/-- A die's curator and CHT page (R444, R450, R458, R471): `believes` the epoch in which it last knew itself holder,
`activation` the port and tag of the FW_ACTIVATE that its boot completes. -/
structure Curator where
  run : CuratorRun
  bootedOnce : Bool
  believes : Option W32
  restarts : W32
  fenced : W32
  activation : Option (Nat × BitVec 32)
  /-- the boot under way follows a fallback to the former bank -/
  fellBack : Bool
  /-- the active bank is newly activated and has not booted yet -/
  fresh : Bool
deriving DecidableEq, Repr

def Curator.reset : Curator := ⟨.starting, false, none, 0, 0, none, false, false⟩

/-- A firmware image as its bank holds it (R456). -/
structure FwImage where
  svn : Nat
  peerMin : Nat
  peerMax : Nat
  meas : Bytes
deriving DecidableEq, Repr

/-- The two banks of one target of a die, its floor and its consecutive failed boots (R445, R459, R473): the active image
and the image of the inactive bank, if valid. -/
structure FwBanks where
  activeBank : Bool
  active : FwImage
  other : Option FwImage
  floor : Nat
  bootFails : Nat
deriving DecidableEq, Repr

/-- An ECDSA P-521 public key (R453). -/
structure PubKey where
  x : Nat
  y : Nat
deriving DecidableEq, Repr

/-- The state of the presence window (R465). -/
inductive Presence where
  | none
  | opened
  | shown
deriving DecidableEq, Repr

def Presence.code : Presence → Nat
  | .none => 0
  | .opened => 1
  | .shown => 2

/-- The module SEC page, the key sets, the key store and the staging buffer (R453, R465, R466, R472). -/
structure SecPage where
  fwKeys : List (Option PubKey)
  fwVersion : Nat
  chain : Bytes
  folioKeys : Tbl (Option PubKey)
  pubKeys : Tbl (Option PubKey)
  stage : Memory
  stageOfs : BitVec 15
  kset : Bool
  kindex : BitVec 6
  tsel : BitVec 8
  presence : Presence
  operation : BitVec 3
  windowEnd : W64
  debugUnlocked : Bool
  /-- the device identity key is derived (R460) -/
  identity : Bool
deriving DecidableEq, Repr

/-- The power controller, the PWR page and the bring-up record (R497 to R501, R511, R522). -/
structure Power where
  /-- the input is above 12 V; the package rails are in regulation (PWR_GOOD); a trip is latched -/
  inputOn : Bool
  railsOn : Bool
  tripped : Option TripCause
  /-- the input has risen above 35.0 V since it last failed (R497, R500, R511) -/
  risen : Bool
  /-- RESET_N has been low for 1 ms and released while a trip is latched (R501) -/
  released : Bool
  /-- THROTTLE_POLICY as written, and as in force since the last tick (R29, R523) -/
  shed : Bool
  shedNow : Bool
  input : BitVec 2
  kPowerTicks : Nat
  vin : BitVec 16
  iin : BitVec 16
  pin : BitVec 16
  ipeak : BitVec 16
  energy : W64
  inlet : BitVec 16
  outlet : BitVec 16
  tjRegion : BitVec 6
  tjTemp : BitVec 8
  /-- PWR_BOOT bits [31:24] -/
  boot : BitVec 8
  serviceMs : BitVec 16
  rrMs : BitVec 16
  sinceGood : Nat
  lastTrip : BitVec 8
  tripDetail : BitVec 8
  trips : W32
  sealOpen : Bool
  debugJumper : Bool
deriving DecidableEq, Repr

/-- The GEN page and the self-test record of bring-up (R434, R512). -/
structure GenPage where
  archivalOnly : Bool
  service : Bool
  readingRoom : Bool
  colmap : Bytes
  serviceLedger : W64
  selftestA : Bool
  selftestB : Bool
  /-- clusters mapped out at this bring-up, 16 × die + cluster (R491) -/
  mappedOut : BitVec 32
  /-- clusters whose crossings failed alignment (R225) -/
  alignFailed : BitVec 32
  /-- the die-to-die interface retrains (R486) -/
  d2dDown : Bool
deriving DecidableEq, Repr

def GenPage.reset : GenPage := ⟨false, false, false, List.replicate 8 0, 0, false, false, 0, 0, false⟩

end Sys2Proof.Machine
end

