-- ==== Sys2Proof/Machine/State.lean ====
section
/-! DEFINITION. The state of the module: every register, table, buffer, counter, mode and pin that the manual gives it,
the queue of waiting commands, the faults and refusals, and the state right after reset. -/

namespace Sys2Proof.Machine

open Sys2Proof

/-- What stops the block. -/
inductive Fault where
  /-- INPUT_POWER_APPLIED above 48 V (R497): outside the absolute maximum rating, the module may be damaged. Safe: the
  manual gives no effect. -/
  | absoluteMaximum
deriving DecidableEq, Repr

/-- What the model refuses. -/
inductive Refusal where
  /-- A command that has no meaning yet, by its mnemonic; raised by exec alone. Safe: nothing runs. -/
  | notModelled (mnemonic : String)
deriving DecidableEq, Repr

/-- The module. Tables are keyed by the numbers of Word.lean; dies, ports and cores at their default are not listed. -/
structure State where
  /-- fused and stored facts (R11, R426) -/
  fuses : Fuses
  /-- carrels and shelves by call number (R162) -/
  mem : Memory
  /-- flipped bits of code words, by the call number of the word (R174, R189, R190) -/
  upsets : Tbl (List Nat)
  cores : Tbl Core
  clusters : Tbl Cluster
  /-- common headers by page address [31:12] (R427) -/
  pages : Tbl PageHdr
  logs : Tbl EvLog
  ports : Tbl TsdPort
  regions : Tbl Region
  dieClocks : Tbl DieClock
  clock : ModClock
  ledgers : Tbl DieLedger
  ledger : ModLedger
  windows : Tbl Window
  admitted : List Admitted
  remote : Tbl RemoteWin
  win : WinPage
  tenants : Tbl Tenant
  slots : Tbl Slot
  sessions : Tbl Session
  adm : AdmPage
  fab : FabPage
  fports : Tbl FabPort
  routes : Tbl RouteEntry
  cartridges : Tbl Cartridge
  engines : Tbl OptEngine
  oeSel : BitVec 4
  editions : Tbl Edition
  acc : AccPage
  accDie : Tbl AccDie
  charter : Charter
  curators : Tbl Curator
  /-- firmware banks of the curators and of the optical microcode, by die (R456) -/
  fwCur : Tbl FwBanks
  fwOpt : Tbl FwBanks
  sec : SecPage
  gen : GenPage
  power : Power
  /-- data bytes and PEC of the last answer on the management bus; none after a NACK (R509) -/
  busData : Option Bytes
  /-- _HI values latched by the bus (R510), by register address -/
  busLatch : Tbl (Option W32)
  /-- how many free values were drawn: the model's own field, DESIGN CHOICE (log 1) -/
  freeCtr : Nat
  /-- commands that wait, first in, first out: the model's own field -/
  pending : List Instr
deriving DecidableEq, Repr

/-- The image of every bank as shipped: DESIGN CHOICE, the manual gives no stored values (log 2). -/
def FwImage.shipped : FwImage := ⟨1, 1, 64, List.replicate 64 0⟩

/-- The banks as shipped: bank 0 active, no valid image in the other, floor 0 (log 2). -/
def FwBanks.shipped : FwBanks := ⟨false, FwImage.shipped, none, 0, 0⟩

/-- The fuses of the modelled part: grade A, stepping C0, full column maps, seal intact: DESIGN CHOICE (log 2). -/
def Fuses.shipped : Fuses :=
  { grade := .a, c0 := true, fusedA := 0, fusedB := 0, columns := [], serial := List.replicate 8 0, boardRev := 0
    sealBroken := false, identityWiped := false, ga := 0 }

def SecPage.reset : SecPage :=
  { fwKeys := List.replicate 4 none, fwVersion := 0, chain := [], folioKeys := [], pubKeys := [], stage := []
    stageOfs := 0, kset := false, kindex := 0, tsel := 0, presence := .none, operation := 0, windowEnd := 0
    debugUnlocked := false, identity := false }

/-- Input power is on, above 35.0 V, and the rails are off: what a module reset leaves before power-good (R505, R511). -/
def Power.reset : Power :=
  { inputOn := true, railsOn := false, tripped := none, risen := true, released := false, shed := false, shedNow := false, input := 0, kPowerTicks := 0, vin := 0, iin := 0
    pin := 0, ipeak := 0, energy := 0, inlet := 0, outlet := 0, tjRegion := 0, tjTemp := 0, boot := 0, serviceMs := 0
    rrMs := 0, sinceGood := 0, lastTrip := 0, tripDetail := 0, trips := 0, sealOpen := false, debugJumper := false }

/-- The module right after reset (R426, R517): every register at its reset value, memory listed nowhere (R181), no
command waiting. -/
def State.reset : State :=
  { fuses := Fuses.shipped, mem := [], upsets := [], cores := [], clusters := [], pages := [], logs := [], ports := []
    regions := [], dieClocks := [], clock := ModClock.reset, ledgers := [], ledger := ModLedger.reset, windows := []
    admitted := [], remote := [], win := WinPage.reset, tenants := [], slots := [], sessions := []
    adm := AdmPage.reset, fab := FabPage.reset, fports := [], routes := [], cartridges := [], engines := [], oeSel := 0
    editions := [], acc := AccPage.reset, accDie := [], charter := Charter.reset, curators := [], fwCur := []
    fwOpt := [], sec := SecPage.reset, gen := GenPage.reset, power := Power.reset, busData := none, busLatch := []
    freeCtr := 0, pending := [] }

end Sys2Proof.Machine
end

