-- ==== Sys2Proof/Machine/Access.lean ====
section
/-! DEFINITION. Reading and replacing one entry of each of State's tables, the geometry of the module, and the page
addresses (R20, R162, R423, R424). -/

namespace Sys2Proof.Machine

open Sys2Proof

def State.core (s : State) (c : Nat) : Core := Tbl.get Core.reset s.cores c
def State.setCore (s : State) (c : Nat) (v : Core) : State := { s with cores := Tbl.put Core.reset s.cores c v }
def State.modCore (s : State) (c : Nat) (f : Core → Core) : State := s.setCore c (f (s.core c))
def State.modMx (s : State) (c : Nat) (f : MatrixUnit → MatrixUnit) : State :=
  s.modCore c fun k => { k with mx := f k.mx }
def State.modVx (s : State) (c : Nat) (f : VectorUnit → VectorUnit) : State :=
  s.modCore c fun k => { k with vx := f k.vx }
def State.modRd (s : State) (c : Nat) (f : ReductionUnit → ReductionUnit) : State :=
  s.modCore c fun k => { k with rd := f k.rd }
def State.modSq (s : State) (c : Nat) (f : Sequencer → Sequencer) : State :=
  s.modCore c fun k => { k with sq := f k.sq }
def State.modXf (s : State) (c : Nat) (f : TransferUnit → TransferUnit) : State :=
  s.modCore c fun k => { k with xf := f k.xf }
def State.modCar (s : State) (c : Nat) (f : CarrelUnit → CarrelUnit) : State :=
  s.modCore c fun k => { k with car := f k.car }
def State.queue (s : State) (c q : Nat) : Endpoint := Tbl.get Endpoint.reset (s.core c).queues q
def State.modQueue (s : State) (c q : Nat) (f : Endpoint → Endpoint) : State :=
  s.modCore c fun k => { k with queues := Tbl.modify Endpoint.reset k.queues q f }
def State.cluster (s : State) (c : Nat) : Cluster := Tbl.get Cluster.reset s.clusters c
def State.modCluster (s : State) (c : Nat) (f : Cluster → Cluster) : State :=
  { s with clusters := Tbl.modify Cluster.reset s.clusters c f }
def State.ring (s : State) (c r : Nat) : Ring := Tbl.get Ring.reset (s.cluster c).rings r
def State.modRing (s : State) (c r : Nat) (f : Ring → Ring) : State :=
  s.modCluster c fun k => { k with rings := Tbl.modify Ring.reset k.rings r f }
def State.part (s : State) (c p : Nat) : Part := Tbl.get Part.reset (s.cluster c).parts p
def State.modPart (s : State) (c p : Nat) (f : Part → Part) : State :=
  s.modCluster c fun k => { k with parts := Tbl.modify Part.reset k.parts p f }
def State.page (s : State) (p : Nat) : PageHdr := Tbl.get PageHdr.reset s.pages p
def State.modPage (s : State) (p : Nat) (f : PageHdr → PageHdr) : State :=
  { s with pages := Tbl.modify PageHdr.reset s.pages p f }
def State.log (s : State) (d : Nat) : EvLog := Tbl.get EvLog.reset s.logs d
def State.modLog (s : State) (d : Nat) (f : EvLog → EvLog) : State :=
  { s with logs := Tbl.modify EvLog.reset s.logs d f }
def State.port (s : State) (p : Nat) : TsdPort := Tbl.get TsdPort.reset s.ports p
def State.modPort (s : State) (p : Nat) (f : TsdPort → TsdPort) : State :=
  { s with ports := Tbl.modify TsdPort.reset s.ports p f }
def State.region (s : State) (r : Nat) : Region := Tbl.get Region.reset s.regions r
def State.modRegion (s : State) (r : Nat) (f : Region → Region) : State :=
  { s with regions := Tbl.modify Region.reset s.regions r f }
def State.dieClock (s : State) (d : Nat) : DieClock := Tbl.get DieClock.reset s.dieClocks d
def State.modDieClock (s : State) (d : Nat) (f : DieClock → DieClock) : State :=
  { s with dieClocks := Tbl.modify DieClock.reset s.dieClocks d f }
def State.dieLedger (s : State) (d : Nat) : DieLedger := Tbl.get DieLedger.reset s.ledgers d
def State.modDieLedger (s : State) (d : Nat) (f : DieLedger → DieLedger) : State :=
  { s with ledgers := Tbl.modify DieLedger.reset s.ledgers d f }
def State.window (s : State) (h : Nat) : Window := Tbl.get Window.reset s.windows h
def State.modWindow (s : State) (h : Nat) (f : Window → Window) : State :=
  { s with windows := Tbl.modify Window.reset s.windows h f }
def State.remoteWin (s : State) (h : Nat) : RemoteWin := Tbl.get RemoteWin.reset s.remote h
def State.modRemoteWin (s : State) (h : Nat) (f : RemoteWin → RemoteWin) : State :=
  { s with remote := Tbl.modify RemoteWin.reset s.remote h f }
def State.tenant (s : State) (t : Nat) : Tenant := Tbl.get Tenant.reset s.tenants t
def State.modTenant (s : State) (t : Nat) (f : Tenant → Tenant) : State :=
  { s with tenants := Tbl.modify Tenant.reset s.tenants t f }
def State.slot (s : State) (i : Nat) : Slot := Tbl.get Slot.reset s.slots i
def State.modSlot (s : State) (i : Nat) (f : Slot → Slot) : State :=
  { s with slots := Tbl.modify Slot.reset s.slots i f }
def State.modProg (s : State) (i : Nat) (f : Prog → Prog) : State :=
  s.modSlot i fun x => { x with prog := f x.prog }
def State.session (s : State) (i : Nat) : Session := Tbl.get Session.reset s.sessions i
def State.modSession (s : State) (i : Nat) (f : Session → Session) : State :=
  { s with sessions := Tbl.modify Session.reset s.sessions i f }
def State.fport (s : State) (p : Nat) : FabPort := Tbl.get FabPort.reset s.fports p
def State.modFport (s : State) (p : Nat) (f : FabPort → FabPort) : State :=
  { s with fports := Tbl.modify FabPort.reset s.fports p f }
def State.route (s : State) (r : Nat) : RouteEntry := Tbl.get RouteEntry.reset s.routes r
def State.setRoute (s : State) (r : Nat) (v : RouteEntry) : State :=
  { s with routes := Tbl.put RouteEntry.reset s.routes r v }
def State.cartridge (s : State) (n : Nat) : Cartridge := Tbl.get Cartridge.reset s.cartridges n
def State.modCartridge (s : State) (n : Nat) (f : Cartridge → Cartridge) : State :=
  { s with cartridges := Tbl.modify Cartridge.reset s.cartridges n f }
def State.engine (s : State) (n : Nat) : OptEngine := Tbl.get OptEngine.reset s.engines n
def State.modEngine (s : State) (n : Nat) (f : OptEngine → OptEngine) : State :=
  { s with engines := Tbl.modify OptEngine.reset s.engines n f }
def State.edition (s : State) (i : Nat) : Edition := Tbl.get Edition.reset s.editions i
def State.modEdition (s : State) (i : Nat) (f : Edition → Edition) : State :=
  { s with editions := Tbl.modify Edition.reset s.editions i f }
def State.accessionDie (s : State) (d : Nat) : AccDie := Tbl.get AccDie.reset s.accDie d
def State.modAccDie (s : State) (d : Nat) (f : AccDie → AccDie) : State :=
  { s with accDie := Tbl.modify AccDie.reset s.accDie d f }
def State.curator (s : State) (d : Nat) : Curator := Tbl.get Curator.reset s.curators d
def State.modCurator (s : State) (d : Nat) (f : Curator → Curator) : State :=
  { s with curators := Tbl.modify Curator.reset s.curators d f }
/-- The banks of die `d` for target 0, curator firmware, or 1, microcode. -/
def State.banks (s : State) (d target : Nat) : FwBanks :=
  Tbl.get FwBanks.shipped (if target = 0 then s.fwCur else s.fwOpt) d
def State.modBanks (s : State) (d target : Nat) (f : FwBanks → FwBanks) : State :=
  if target = 0 then { s with fwCur := Tbl.modify FwBanks.shipped s.fwCur d f }
  else { s with fwOpt := Tbl.modify FwBanks.shipped s.fwOpt d f }

/-- A saturating 32-bit count raised by `n` (R13 counters saturate where their rule says so). -/
def sat32 (v : W32) (n : Nat) : W32 := BitVec.ofNat 32 (min (v.toNat + n) 0xFFFFFFFF)

/-- The next free value's number, and the state with the count advanced. -/
def State.draw (s : State) : Nat × State := (s.freeCtr, { s with freeCtr := s.freeCtr + 1 })

/-- Sets bit `i` of a mask. -/
def setBit {w : Nat} (v : BitVec w) (i : Nat) : BitVec w := v ||| BitVec.ofNat w (2 ^ i)

/-- The bits of `v` that are 1, ascending, below `n`. -/
def onesBelow {w : Nat} (v : BitVec w) (n : Nat) : List Nat := (List.range n).filter fun i => v.getLsbD i

-- geometry (R20)

def dieOfCore (c : Nat) : Nat := c / 128
/-- Cluster number 16 × die + cluster of a core. -/
def clusterOf (c : Nat) : Nat := c / 8
/-- The eight cores of a cluster. -/
def clusterCores (k : Nat) : List Nat := (List.range 8).map fun i => 8 * k + i
/-- Ring neighbours within the cluster (R21, R135). -/
def nextCore (c : Nat) : Nat := 8 * (c / 8) + (c + 1) % 8
def prevCore (c : Nat) : Nat := 8 * (c / 8) + (c + 7) % 8

/-- R6, R11: a cluster that is fused off on grade B. -/
def State.fused (s : State) (k : Nat) : Bool :=
  decide (s.fuses.grade = .b) && decide (k % 16 = if k < 16 then s.fuses.fusedA.toNat else s.fuses.fusedB.toNat)

/-- The cores that exist (R6, R20). -/
def State.allCores (s : State) : List Nat := (List.range 256).filter fun c => !s.fused (clusterOf c)

/-- The call number of a carrel's first byte (R162). -/
def carrelBase (c : Nat) : Nat := c * 2 ^ 38
/-- The call number of a shelf's first byte. -/
def shelfBase (k : Nat) : Nat := 2 ^ 46 + k * 2 ^ 41
/-- The call number of a partition's first byte. -/
def partBase (k p : Nat) : Nat := shelfBase k + p * 2 ^ 26

def carrelBytes : Nat := 2 ^ 21
def partBytes : Nat := 2 ^ 26

-- page numbers: address bits [31:12] (R423, R424)

def modPageNo (index : Nat) : Nat := 0x10000 + index
def diePageNo (d index : Nat) : Nat := (2 + d) * 0x10000 + index
def genPage : Nat := modPageNo 0
def clkPage : Nat := modPageNo 1
def ldgPage : Nat := modPageNo 2
def latPage : Nat := modPageNo 3
def winPage : Nat := modPageNo 4
def accPage : Nat := modPageNo 5
def admPage : Nat := modPageNo 6
def catPage : Nat := modPageNo 7
def govPage : Nat := modPageNo 8
def fabPage : Nat := modPageNo 9
def optPage : Nat := modPageNo 0xA
def chtPage : Nat := modPageNo 0xB
def secPage : Nat := modPageNo 0xC
def pwrPage : Nat := modPageNo 0xD
def dieClkPage (d : Nat) : Nat := diePageNo d 1
def dieLdgPage (d : Nat) : Nat := diePageNo d 2
def dieAccPage (d : Nat) : Nat := diePageNo d 5
def dieChtPage (d : Nat) : Nat := diePageNo d 0xB
def dieSecPage (d : Nat) : Nat := diePageNo d 0xC
def evlPage (d : Nat) : Nat := diePageNo d 0xE
def tsdPage (p : Nat) : Nat := diePageNo p 0x10
def fportPage (n : Nat) : Nat := diePageNo (n / 32) (0x20 + n % 32)
def shfPage (k : Nat) : Nat := diePageNo (k / 16) (0x100 + k % 16)
/-- The page of a core in one of the blocks from 0x1000 (CORE) to 0x1500 (CAR). -/
def unitPage (block c : Nat) : Nat := diePageNo (c / 128) (0x1000 + 0x100 * block + c % 128)
def corePage (c : Nat) : Nat := unitPage 0 c
def mxePage (c : Nat) : Nat := unitPage 1 c
def vecPage (c : Nat) : Nat := unitPage 2 c
def rduPage (c : Nat) : Nat := unitPage 3 c
def xfePage (c : Nat) : Nat := unitPage 4 c
def carPage (c : Nat) : Nat := unitPage 5 c

end Sys2Proof.Machine
end

