-- ==== Sys2Proof/Machine/Crypto.lean ====
section
/-! DEFINITION. The checks that the manual names by their standards: SHA-512 (FIPS 180-4), ECDSA over P-521 (FIPS 186-4)
and the CRCs of R370, R374, R396, R398 and R509. -/

namespace Sys2Proof.Machine

open Sys2Proof

-- SHA-512

/-- The first 80 primes, from whose roots FIPS 180-4 takes its constants. -/
def firstPrimes : List Nat :=
  [2, 3, 5, 7, 11, 13, 17, 19, 23, 29, 31, 37, 41, 43, 47, 53, 59, 61, 67, 71, 73, 79, 83, 89, 97, 101, 103, 107, 109,
   113, 127, 131, 137, 139, 149, 151, 157, 163, 167, 173]
  ++ [179, 181, 191, 193, 197, 199, 211, 223, 227, 229, 233, 239, 241, 251, 257, 263, 269, 271, 277, 281, 283, 293, 307,
   311, 313, 317, 331, 337, 347, 349, 353, 359, 367, 373, 379, 383, 389, 397, 401, 409]

/-- The greatest `r` with `r ^ k ≤ v`, where `r` has the bits of `top` and below it `n` bits to find. -/
def rootBelow (k v : Nat) : Nat → Nat → Nat
  | 0, top => top
  | n + 1, top => rootBelow k v n (if (top + 2 ^ n) ^ k ≤ v then top + 2 ^ n else top)

/-- The first 64 bits of the fractional part of the k-th root of `p`. -/
def rootWord (k p : Nat) : W64 := BitVec.ofNat 64 (rootBelow k (p <<< (64 * k)) 69 0)

/-- The word added in each round: cube roots. -/
def roundWords : List W64 := firstPrimes.map (rootWord 3)

/-- Word `i` of the chaining value, counted from the least significant. -/
def chainWord (v : BitVec 512) (i : Nat) : W64 := v.extractLsb' (64 * i) 64

/-- Words into a chaining value, the first one least significant. -/
def chainOf (ws : List W64) : BitVec 512 := BitVec.ofNat 512 (ws.foldr (fun (w : W64) a => a * 2 ^ 64 + w.toNat) 0)

/-- The chaining value before the first block: square roots. -/
def chainStart : BitVec 512 := chainOf ((firstPrimes.take 8).map (rootWord 2))

/-- A big-endian number. -/
def beNat (bs : Bytes) : Nat := bs.foldl (fun (a : Nat) b => a * 256 + b.toNat) 0

/-- The `n` big-endian bytes of a number. -/
def beBytes (n v : Nat) : Bytes := (leBytes n v).reverse

/-- The message padded to whole blocks of 128 bytes. -/
def sha512Pad (m : Bytes) : Bytes :=
  m ++ 0x80#8 :: (List.replicate ((239 - m.length % 128) % 128) 0#8 ++ beBytes 16 (8 * m.length))

/-- Three rotations of a word, joined. -/
def spin (x : W64) (i j k : Nat) : W64 := x.rotateRight i ^^^ x.rotateRight j ^^^ x.rotateRight k

/-- The schedule, latest word first, with `n` words more. -/
def scheduleOn : Nat → List W64 → List W64
  | 0, ws => ws
  | n + 1, ws =>
    let near := ws.getD 1 0
    let far := ws.getD 14 0
    let mixed := (near.rotateRight 19 ^^^ near.rotateRight 61 ^^^ near >>> 6)
      + (far.rotateRight 1 ^^^ far.rotateRight 8 ^^^ far >>> 7)
    scheduleOn n ((mixed + ws.getD 6 0 + ws.getD 15 0) :: ws)

/-- One round on the chaining value as one shift register: every word moves up one place and the topmost falls out; the
word that enters the fifth place takes the sum, and the new first word holds both. -/
def turn (v : BitVec 512) (add : W64) : BitVec 512 :=
  let at_ := chainWord v
  let pick := at_ 6 ^^^ (at_ 4 &&& (at_ 5 ^^^ at_ 6))
  let most := (at_ 0 &&& at_ 1) ||| (at_ 2 &&& (at_ 0 ||| at_ 1))
  let sum := at_ 7 + add + pick + spin (at_ 4) 14 18 41
  chainOf [sum + most + spin (at_ 0) 28 34 39, at_ 0, at_ 1, at_ 2, at_ 3 + sum, at_ 4, at_ 5, at_ 6]

/-- One block of 128 bytes. -/
def absorb (v : BitVec 512) (block : Bytes) : BitVec 512 :=
  let first := (chunks 8 16 block).map fun c => BitVec.ofNat 64 (beNat c)
  let sched := (scheduleOn 64 first.reverse).reverse
  let out := (List.zipWith (fun (k w : W64) => k + w) roundWords sched).foldl turn v
  chainOf ((List.range 8).map fun i => chainWord v i + chainWord out i)

/-- SHA-512 over a byte string: 64 bytes (R12). -/
def sha512 (m : Bytes) : Bytes :=
  let p := sha512Pad m
  let out := (chunks 128 (p.length / 128) p).foldl absorb chainStart
  ((List.range 8).map fun i => beBytes 8 (chainWord out i).toNat).flatten

-- P-521

def p521 : Nat := 2 ^ 521 - 1
def p521B : Nat :=
  0x51953eb9618e1c9a1f929a21a0b68540eea2da725b99b315f3b8b489918ef109e156193951ec7e937b1652c0bd3bb1bf073573df883d2c34f1ef451fd46b503f00
def p521N : Nat :=
  0x1fffffffffffffffffffffffffffffffffffffffffffffffffffffffffffffffffa51868783bf2f966b7fcc0148f709a5d03bb5c9b8899c47aebb6fb71e91386409
def p521Gx : Nat :=
  0xc6858e06b70404e9cd9e3ecb662395b4429c648139053fb521f828af606b4d3dbaa14b5e77efe75928fe1dc127a2ffa8de3348b3c1856a429bf97e7e31c2e5bd66
def p521Gy : Nat :=
  0x11839296a789a3bc0045c8a5fb42c7d1bd998f54449579b446817afbd17273e662c97ee72995ef42640c550b9013fad0761353c7086a272c24088be94769fd16650

/-- `b ^ e mod m`, `n` bits of the exponent from the lowest. -/
def powMod (m : Nat) : Nat → Nat → Nat → Nat → Nat
  | 0, _, _, acc => acc
  | n + 1, b, e, acc => powMod m n (b * b % m) (e / 2) (if e % 2 = 1 then acc * b % m else acc)

/-- The inverse modulo a prime. -/
def invMod (m a : Nat) : Nat := powMod m 521 (a % m) (m - 2) 1

/-- A point in Jacobian coordinates; Z = 0 is the point at infinity. -/
structure JPoint where
  x : Nat
  y : Nat
  z : Nat
deriving DecidableEq, Repr

/-- Subtraction modulo p. -/
def subP (a b : Nat) : Nat := (a + (p521 - b % p521)) % p521

/-- Doubling on a curve with a = -3. -/
def JPoint.double (q : JPoint) : JPoint :=
  if q.z = 0 ∨ q.y = 0 then ⟨1, 1, 0⟩
  else
    let d := q.z * q.z % p521
    let g := q.y * q.y % p521
    let b := q.x * g % p521
    let a := 3 * (subP q.x d) * (q.x + d) % p521
    let x := subP (a * a) (8 * b)
    let z := 2 * q.y * q.z % p521
    ⟨x, subP (a * subP (4 * b) x) (8 * g * g), z⟩

/-- Addition of two points. -/
def JPoint.add (q r : JPoint) : JPoint :=
  if q.z = 0 then r
  else if r.z = 0 then q
  else
    let z1 := q.z * q.z % p521
    let z2 := r.z * r.z % p521
    let u1 := q.x * z2 % p521
    let u2 := r.x * z1 % p521
    let s1 := q.y * r.z * z2 % p521
    let s2 := r.y * q.z * z1 % p521
    let h := subP u2 u1
    let w := subP s2 s1
    if h = 0 then (if w = 0 then q.double else ⟨1, 1, 0⟩)
    else
      let hh := h * h % p521
      let hhh := h * hh % p521
      let v := u1 * hh % p521
      let x := subP (subP (w * w) hhh) (2 * v)
      ⟨x, subP (w * subP v x) (s1 * hhh), h * q.z * r.z % p521⟩

/-- The multiple of a point by the low `n` bits of `k`. -/
def JPoint.mul : Nat → Nat → JPoint → JPoint
  | 0, _, _ => ⟨1, 1, 0⟩
  | n + 1, k, q =>
    let r := JPoint.mul n (k / 2) q.double
    if k % 2 = 1 then r.add q else r

/-- The affine x coordinate. -/
def JPoint.affineX (q : JPoint) : Nat :=
  let i := invMod p521 q.z
  q.x * (i * i % p521) % p521

/-- R454, R466: the point lies on the P-521 curve. -/
def onCurve (x y : Nat) : Bool :=
  decide (x < p521) && decide (y < p521)
    && decide (y * y % p521 = (x * x * x + (p521 - 3) * x + p521B) % p521)

/-- ECDSA verification over a digest of 64 bytes. -/
def ecdsaVerify (x y : Nat) (digest : Bytes) (r sig : Nat) : Bool :=
  if r = 0 ∨ p521N ≤ r ∨ sig = 0 ∨ p521N ≤ sig ∨ !onCurve x y then false
  else
    let w := invMod p521N sig
    let u1 := beNat digest * w % p521N
    let u2 := r * w % p521N
    let q := (JPoint.mul 521 u1 ⟨p521Gx, p521Gy, 1⟩).add (JPoint.mul 521 u2 ⟨x, y, 1⟩)
    decide (q.z ≠ 0) && decide (q.affineX % p521N = r)

/-- A public key's KEY_ID: the first 8 bytes of SHA-512 over its uncompressed point form (R256). -/
def keyId (x y : Nat) : Bytes := (sha512 (0x04#8 :: (beBytes 66 x ++ beBytes 66 y))).take 8

-- CRCs

/-- One bit of a reflected CRC-32 with the polynomial of IEEE 802.3. -/
def crc32Bit : Nat → W32 → W32
  | 0, c => c
  | n + 1, c => crc32Bit n (if c.getLsbD 0 then (c >>> 1) ^^^ 0xEDB88320#32 else c >>> 1)

/-- CRC-32 of IEEE 802.3 with its bit order and final complement (R374, R396). -/
def crc32 (bs : Bytes) : W32 :=
  ~~~(bs.foldl (fun (c : W32) b => crc32Bit 8 (c ^^^ b.zeroExtend 32)) 0xFFFFFFFF#32)

def crc16Bit : Nat → BitVec 16 → BitVec 16
  | 0, c => c
  | n + 1, c => crc16Bit n (if c.getLsbD 15 then (c <<< 1) ^^^ 0x1021#16 else c <<< 1)

/-- CRC-16, polynomial 0x1021, initial value 0xFFFF (R370, R398). -/
def crc16 (bs : Bytes) : BitVec 16 :=
  bs.foldl (fun (c : BitVec 16) b => crc16Bit 8 (c ^^^ BitVec.ofNat 16 (256 * b.toNat))) 0xFFFF#16

def crc8Bit : Nat → BitVec 8 → BitVec 8
  | 0, c => c
  | n + 1, c => crc8Bit n (if c.getLsbD 7 then (c <<< 1) ^^^ 0x07#8 else c <<< 1)

/-- The SMBus packet error code, polynomial 0x07 (R509). -/
def crc8 (bs : Bytes) : BitVec 8 := bs.foldl (fun (c : BitVec 8) b => crc8Bit 8 (c ^^^ b)) 0#8

-- colophons

/-- What a colophon's bytes say (R256). -/
structure Colophon where
  keyId : Bytes
  r : Nat
  s : Nat
deriving DecidableEq, Repr

/-- Reads the 160 bytes of a colophon over a signed block of `len` bytes; none where it is malformed (R256). -/
def readColophon (b : Bytes) (len : Nat) : Option Colophon :=
  if b.length = 160 ∧ b.take 8 = [0x43#8, 0x4F#8, 0x4C#8, 0x50#8, 1#8, 0#8, 1#8, 0#8] ∧ leAt b 16 8 = len
      ∧ leAt b 156 4 = 0 then
    some ⟨(b.drop 8).take 8, beNat ((b.drop 24).take 66), beNat ((b.drop 90).take 66)⟩
  else none

end Sys2Proof.Machine
end

