-- ==== Sys2Proof/Machine/Ops.lean ====
section
/-! DEFINITION. The operations that most commands share: events and their logs (R421, R428 to R430, R440), packets
towards the control node (R396, R399, R402), completions (R403, R408, R409), and the charter's tests (R405). -/

namespace Sys2Proof.Machine

open Sys2Proof

-- packets

/-- Units of a packet's class (R402). -/
def packetUnits (payload : Bytes) : Nat := 1 + (payload.length + 63) / 64

/-- Bytes that a packet takes in the retry buffer (R399): header and payload. -/
def packetBytes (p : TxPacket) : Nat := 64 + p.payload.length

/-- The 64 header bytes of a packet that the module sends (R396). -/
def TxPacket.head (p : TxPacket) : Bytes :=
  [p.typ, BitVec.ofNat 8 p.cls, p.flags, p.code] ++ leBytes 4 p.payload.length ++ leBytes 2 p.lseq.toNat ++ [0, 0]
    ++ leBytes 4 p.tag.toNat ++ leBytes 4 0 ++ leBytes 8 p.ledger.toNat ++ List.replicate 36 0

/-- A packet as it is sent: header, payload, CRC-32 (R396). -/
def TxPacket.wire (p : TxPacket) : Bytes := p.head ++ p.payload ++ leBytes 4 (crc32 (p.head ++ p.payload)).toNat

/-- The module's receive buffer for a class, in units (R401). -/
def ownBuffer (cls : Nat) : Nat := [2048, 4096, 16384, 0].getD cls 0

/-- Bytes 0 to 13 of the link word that a port sends (R398): under INIT the module's own buffers, else the units freed. -/
def TsdPort.wordBody (t : TsdPort) (init : Bool) : Bytes :=
  [0x7F#8, BitVec.ofNat 8 (t.rxAny.toNat + 2 * t.nak.toNat + 4 * init.toNat)] ++ leBytes 2 (t.rxNext - 1).toNat
    ++ ([0, 1, 2, 3].flatMap fun c => leBytes 2 (if init then ownBuffer c else (Tbl.get 0 t.freed c).toNat)) ++ [0, 0]

/-- The port sends its link word (R398, R400). -/
def TsdPort.sendWord (t : TsdPort) (init : Bool) : TsdPort :=
  { t with word := t.wordBody init ++ leBytes 2 (crc16 (t.wordBody init)).toNat }

/-- The first waiting packet of a class. -/
def TsdPort.headOf (t : TsdPort) (cls : Nat) : Option TxPacket := t.txQueue.find? fun p => p.cls = cls

/-- A class that has a packet and the credits for it. -/
def TsdPort.ready (t : TsdPort) (cls : Nat) : Bool :=
  match t.headOf cls with
  | some p => decide (packetUnits p.payload ≤ Tbl.get 0 t.credits cls)
  | none => false

/-- The class sent next (R402): 0, 1, 3, 2, with class 3 and class 2 each after 7 packets of higher classes. -/
def TsdPort.choose (t : TsdPort) : Option Nat :=
  if decide (7 ≤ t.above3) && t.ready 3 then some 3
  else if decide (7 ≤ t.above2) && t.ready 2 then some 2
  else [0, 1, 3, 2].find? t.ready

/-- The retry buffer of 1 MiB has room for a packet (R399). -/
def TsdPort.room (t : TsdPort) (p : TxPacket) : Bool := decide ((t.retry.map packetBytes).sum + packetBytes p ≤ 1048576)

/-- Sends one packet of class `c`, and a link word after it: it takes the next LSEQ, its credits and a place in the retry
buffer (R398, R399, R402). -/
def TsdPort.sendOne (t : TsdPort) (c : Nat) (p : TxPacket) (now : W64) : TsdPort :=
  let sent := { p with lseq := t.txNext, ledger := now }
  { t.sendWord false with
    wire := sent.wire, txNext := t.txNext + 1, retry := t.retry ++ [sent], txQueue := t.txQueue.erase p
    credits := Tbl.modify 0 t.credits c fun v => v - packetUnits p.payload
    above3 := if c = 0 ∨ c = 1 then t.above3 + 1 else 0
    above2 := if c = 2 then 0 else t.above2 + 1 }

/-- Sends waiting packets while the port is UP, credits allow it and the retry buffer of 1 MiB has room. -/
def TsdPort.pump : Nat → TsdPort → W64 → TsdPort
  | 0, t, _ => t
  | n + 1, t, now =>
    if t.state ≠ .up then t
    else
      match t.choose with
      | none => t
      | some c =>
        match t.headOf c with
        | none => t
        | some p =>
          if t.room p then TsdPort.pump n (t.sendOne c p now) now else t

/-- The 32 bytes of an event record (R421). -/
def EvRec.bytes (r : EvRec) : Bytes :=
  leBytes 4 r.page.toNat ++ [BitVec.ofNat 8 r.bit, if r.lost then 1#8 else 0#8, 0#8, 0#8]
    ++ leBytes 8 r.ledger.toNat ++ r.detail.take 16 ++ List.replicate (16 - r.detail.length) 0#8

/-- Closes an EVENT packet of up to 64 records (R421). -/
def TsdPort.closeEvents (t : TsdPort) : TsdPort :=
  if t.state = .up ∧ t.events = true ∧ t.evtQueue ≠ [] ∧ (t.headOf 3).isNone then
    let body := ((t.evtQueue.take 64).map EvRec.bytes).flatten
    let p : TxPacket := ⟨4, 3, 3, 0, 0, 0, 0, body⟩
    { t with evtQueue := t.evtQueue.drop 64, txQueue := t.txQueue ++ [p] }
  else t

/-- Closes a full EVENT packet, then sends what can be sent, on one port. -/
def State.pumpPort (s : State) (p : Nat) : State :=
  s.modPort p fun t =>
    let t := if 64 ≤ t.evtQueue.length then t.closeEvents else t
    TsdPort.pump t.txQueue.length t (s.dieLedger p).now

/-- Puts a packet in a port's send queue and sends what can be sent. -/
def State.sendPacket (s : State) (p : Nat) (q : TxPacket) : State :=
  (s.modPort p fun t => { t with txQueue := t.txQueue ++ [q] }).pumpPort p

-- events

/-- The die that stamps, queues and logs an occurrence on a page (R428, R429, R451): the page's own die; for region 0x1
the charter holder's, die A while the lease is VACANT, none before the first grant. -/
def State.eventDie (s : State) (page : Nat) : Option Nat :=
  if page / 0x10000 = 1 then
    if s.charter.granted then some (if s.charter.lease = .dieB then 1 else 0) else none
  else some (page / 0x10000 - 2)

/-- Of two records of one stamp, `r` comes before `x`: the lower page address, then the lower bit (R429). -/
def EvRec.before (r x : EvRec) : Bool :=
  decide (r.ledger = x.ledger) && decide (r.page.toNat * 32 + r.bit < x.page.toNat * 32 + x.bit)

/-- The place of a record among those already there: after all but the latest that it comes before (R429). -/
def EvRec.into (r : EvRec) (l : List EvRec) : List EvRec :=
  let n := l.length - (l.reverse.takeWhile r.before).length
  l.take n ++ r :: l.drop n

/-- Enters a record in a die's log of 2,048 records (R440). -/
def EvLog.enter (l : EvLog) (r : EvRec) : EvLog :=
  if l.records.length < 2048 then { l with records := r.into l.records, next := l.next + 1 }
  else { l with records := r.into (l.records.drop 1), next := l.next + 1, overwritten := sat32 l.overwritten 1 }

/-- Queues a record on a port of 4,096 records (R421). -/
def TsdPort.enqueue (t : TsdPort) (r : EvRec) : TsdPort :=
  if !t.events then t
  else if t.evtQueue.length < 4096 then 
    { t with evtQueue := EvRec.into { r with lost := t.evtLost } t.evtQueue, evtLost := false }
  else { t with evtDrop := sat32 t.evtDrop 1, evtLost := true }

/-- Whether queuing a record on the port discards it. -/
def TsdPort.full (t : TsdPort) : Bool := t.events && decide (4096 ≤ t.evtQueue.length)

/-- An occurrence of event `bit` of a page (R428), with the WRAP and EVT_OVERFLOW occurrences that its record causes:
`fuel` bounds that chain. -/
def State.emit : Nat → State → Nat → Nat → Bytes → State
  | 0, s, _, _, _ => s
  | fuel + 1, s, page, bit, detail =>
    let masked := (s.page page).mask.getLsbD bit
    let s := s.modPage page fun h => { h with evtRaw := setBit h.evtRaw bit }
    match s.eventDie page with
    | none => s
    | some d =>
      let r : EvRec := ⟨BitVec.ofNat 20 page, bit, false, (s.dieLedger d).now, detail⟩
      let full := decide (2048 ≤ (s.log d).records.length)
      let s :=
        if masked && !(s.log d).logMasked then s
        else
          let s := s.modLog d fun l => l.enter r
          if full && !(s.page (evlPage d)).evtRaw.getLsbD 0 then s.emit fuel (evlPage d) 0 [] else s
      if masked then s
      else
        [0, 1].foldl (fun (s : State) p =>
          let drops := (s.port p).full && !(s.page (tsdPage p)).evtRaw.getLsbD 4
          let s := s.modPort p fun t => t.enqueue r
          if drops then s.emit fuel (tsdPage p) 4 [] else s) s

/-- An occurrence of an event with its DETAIL bytes, record bytes 16 and up (R421). -/
def State.raise (s : State) (page bit : Nat) (detail : Bytes) : State :=
  ((s.emit 6 page bit detail).pumpPort 0).pumpPort 1

/-- An occurrence with no detail. -/
def State.raise0 (s : State) (page bit : Nat) : State := s.raise page bit []

/-- The 16 DETAIL bytes of a capturing occurrence: ERR_CAPTURE0 to ERR_CAPTURE3 (R430). -/
def capDetail (caps : List W32) : Bytes := ((caps.take 4).map fun w => leBytes 4 w.toNat).flatten

/-- A capturing occurrence (R430): the capture is taken when `take` holds; ERR_CAPTURE4 and 5 take the ledger stamp where
the layout leaves them free. -/
def State.raiseCap (s : State) (page bit : Nat) (caps : List W32) (take : Bool) : State :=
  let now := (s.dieLedger (page / 0x10000 - 2)).now
  let six := if caps.length = 6 then caps
             else caps.take 4 ++ List.replicate (4 - caps.length) 0
                    ++ [now.extractLsb' 0 32, now.extractLsb' 32 32]
  let six := if caps.length = 5 then caps ++ [now.extractLsb' 32 32] else six
  let s := if take then s.modPage page fun h => { h with caps := six } else s
  s.raise page bit (capDetail caps)

/-- A capturing occurrence under the rule of R430: the first since the bit was last cleared. -/
def State.capture (s : State) (page bit : Nat) (caps : List W32) : State :=
  s.raiseCap page bit caps (!(s.page page).evtRaw.getLsbD bit)

/-- Counts an expiry of a page's timeout (R431). -/
def State.countTmo (s : State) (page : Nat) : State :=
  s.modPage page fun h => { h with tmoCount := sat32 h.tmoCount 1 }

/-- TMO_CFG of a page, with its reset value (R431). -/
def State.tmo (s : State) (page : Nat) (reset : W32) : W32 := (s.page page).tmoCfg.getD reset

-- status codes (R16)

def stOk : Nat := 0
def stMalformed : Nat := 1
def stUnknown : Nat := 2
def stNotPermitted : Nat := 3
def stWrongState : Nat := 4
def stNoResource : Nat := 5
def stTimeout : Nat := 6
def stIntegrity : Nat := 7
def stStampMismatch : Nat := 8
def stPresence : Nat := 9
def stCancelled : Nat := 0xA
def stFault : Nat := 0xB
def stRefused : Nat := 0xC
def stStale : Nat := 0xD
def stPartnerLost : Nat := 0xE
def stBusy : Nat := 0xF

def Reply.ok (result : Bytes) : Reply := ⟨0, 0, 0, 0, 0, 0, result⟩
/-- A refusal with a status code alone. -/
def Reply.err (status : Nat) : Reply := ⟨status, 0, 0, 0, 0, 0, []⟩
/-- A refusal that names the entry at fault. -/
def Reply.errAt (status index : Nat) : Reply := ⟨status, 0, 0, 0, 0, index, []⟩
/-- The first of `n` entries that is at fault, 0 without one (R408 INDEX). -/
def firstBad (n : Nat) (bad : Nat → Bool) : Nat := ((List.range n).find? bad).getD 0
/-- WRONG_STATE with the state, its space and the accepting states (R18, R409). -/
def Reply.wrong (space state accepted index : Nat) : Reply := ⟨stWrongState, 0, state, space, accepted, index, []⟩
/-- STAMP_MISMATCH with its reason (R263). -/
def Reply.stamp (reason : Nat) : Reply := ⟨stStampMismatch, reason, 0, 0, 0, 0, []⟩

def Reply.bytes (r : Reply) : Bytes :=
  [BitVec.ofNat 8 r.status, BitVec.ofNat 8 r.detail, BitVec.ofNat 8 r.state, BitVec.ofNat 8 r.space]
    ++ leBytes 4 r.accepted ++ leBytes 4 r.index ++ List.replicate 4 0#8 ++ r.result

/-- The COMPLETION packet of a command (R396, R408): FIRST and LAST set, DUP_TAG where asked. -/
def completionPacket (tag : BitVec 32) (code : BitVec 8) (cls : Nat) (dup : Bool) (r : Reply) : TxPacket :=
  ⟨2, cls, if dup then 7 else 3, code, 0, tag, 0, r.bytes⟩

/-- Completes a command in progress: it leaves the port's list, and its COMPLETION is sent (R19). -/
def State.complete (s : State) (p : Nat) (tag : BitVec 32) (r : Reply) : State :=
  match (s.port p).cmds.find? fun c => c.tag = tag with
  | none => s
  | some c =>
    (s.modPort p fun t => { t with cmds := t.cmds.filter fun x => x.tag ≠ tag }).sendPacket p
      (completionPacket c.tag c.code c.cls false r)

/-- What a command waited for when it ended otherwise no longer answers it (R353, R354, R449, R451, R458). -/
def State.endWait (s : State) (w : CmdWait) : State :=
  match w with
  | .commit i => s.modEdition i fun e => { e with talk := none }
  | .switch i => s.modEdition i fun e => { e with talk := none }
  | .retire i => s.modEdition i fun e => { e with talk := none }
  | .yield => { s with charter := { s.charter with yieldPending := none } }
  | .activate d => s.modCurator d fun x => { x with activation := none }
  | _ => s

/-- Completes every command in progress whose wait satisfies `sel` with `r`, on both ports. -/
def State.completeWhere (s : State) (sel : CmdWait → Bool) (r : Reply) : State :=
  [0, 1].foldl (fun (s : State) p =>
    ((s.port p).cmds.filter fun c => sel c.wait).foldl (fun (s : State) c => s.complete p c.tag r) s) s

/-- Completes every command in progress on one port. -/
def State.completeAll (s : State) (p : Nat) (r : Reply) : State :=
  (s.port p).cmds.foldl (fun (s : State) c => (s.complete p c.tag r).endWait c.wait) s

/-- Whether the command of this port and tag is still in progress. -/
def State.inProgress (s : State) (p : Nat) (tag : BitVec 32) : Bool := (s.port p).cmds.any fun c => c.tag = tag

-- the charter

/-- The lease of a die's curator. -/
def leaseOf (d : Nat) : Lease := if d = 0 then .dieA else .dieB

/-- The curator of die `d` holds the charter. -/
def State.holds (s : State) (d : Nat) : Bool := decide (s.charter.lease = leaseOf d)

/-- The leading die (R234). -/
def State.leadDie (s : State) : Nat := if s.charter.lease = .dieB then 1 else 0

/-- R407: the WRONG_STATE of a command that the reading room refuses (R513). -/
def Reply.readingRoom : Reply := Reply.wrong 1 1 4 0

/-- Whether a curator takes commands (R444, R445). -/
def State.curatorUp (s : State) (d : Nat) : Bool := decide ((s.curator d).run = .running)

/-- The curator of port `p` cannot reach die `d`: the interface retrains (R486) or the curator there does not take
commands (R444). -/
def State.dieBusy (s : State) (p d : Nat) : Bool := decide (d ≠ p) && (s.gen.d2dDown || !s.curatorUp d)

-- commands

/-- What a command's operation answers: a completion now, or what it waits for. -/
inductive Answer where
  | done (r : Reply)
  | waits (w : CmdWait)
deriving DecidableEq, Repr

/-- The class of a command's code (R407). -/
def classOf (code : BitVec 8) : Nat :=
  if code = 0x04 ∨ code = 0x10 ∨ code = 0x28 ∨ code = 0x29 ∨ code = 0x41 then 2
  else if code = 0x20 ∨ code = 0x21 ∨ code = 0x22 ∨ code = 0x23 then 1 else 0

/-- The codes of R407. -/
def knownCodes : List (BitVec 8) :=
  [0x01, 0x02, 0x03, 0x04, 0x10, 0x11, 0x12, 0x18, 0x19, 0x20, 0x21, 0x22, 0x23, 0x28, 0x29, 0x2A, 0x2B, 0x2C, 0x30,
   0x31, 0x38, 0x39, 0x40, 0x41, 0x42, 0x43]

/-- Takes a command's first packet (R403, R404, R444): BUSY while the curator restarts, MALFORMED with DUP_TAG under a tag
in use, BUSY beyond 256 commands; otherwise the command is in progress. Answers whether it began. -/
def State.beginCmd (s : State) (p : Nat) (tag : BitVec 32) (code : BitVec 8) (cls : Nat) : State × Bool :=
  if !s.curatorUp p then (s.sendPacket p (completionPacket tag code cls false (Reply.err stBusy)), false)
  else if s.inProgress p tag then
    (s.sendPacket p (completionPacket tag code cls true (Reply.err stMalformed)), false)
  else if 256 ≤ (s.port p).cmds.length then
    ((s.modPort p fun t => { t with busy := sat32 t.busy 1 }).sendPacket p
      (completionPacket tag code cls false (Reply.err stBusy)), false)
  else (s.modPort p fun t => { t with cmds := t.cmds ++ [⟨tag, code, cls, 1, [], .packets⟩] }, true)

/-- Sets what a command in progress waits for. -/
def State.setWait (s : State) (p : Nat) (tag : BitVec 32) (w : CmdWait) : State :=
  s.modPort p fun t => { t with cmds := t.cmds.map fun c => if c.tag = tag then { c with wait := w } else c }

/-- Runs the operation of a command in progress and completes it unless it waits. -/
def State.operate (s : State) (p : Nat) (tag : BitVec 32) (op : State → State × Answer) : State :=
  match op s with
  | (s, .done r) => s.complete p tag r
  | (s, .waits w) => if s.inProgress p tag then s.setWait p tag w else s

/-- A whole command of one packet, on an UP port (R403, R407). -/
def State.runCommand (s : State) (p : Nat) (tag : BitVec 32) (code : BitVec 8) (op : State → State × Answer) : State :=
  if (s.port p).state ≠ .up then s
  else
    match s.beginCmd p tag code (classOf code) with
    | (s, false) => s
    | (s, true) => s.operate p tag op

/-- An operation that completes at once with `r`. -/
def refuse (r : Reply) (s : State) : State × Answer := (s, .done r)

/-- Field of a payload: `n` little-endian bytes at offset `o`. -/
def fldAt (b : Bytes) (o n : Nat) : Nat := leAt b o n

/-- The bytes of a payload from `o` to `o + n` are zero. -/
def zeroAt (b : Bytes) (o n : Nat) : Bool := ((b.drop o).take n).all fun x => x = 0#8

end Sys2Proof.Machine
end

