-- ==== Sys2Proof/Machine/Ledger.lean ====
section
/-! DEFINITION. How a die's ledger counts (R232, R233): one die-network cycle, the share of a tick's slew, the advance
over the rest of a tick. -/

namespace Sys2Proof.Machine

open Sys2Proof

/-- Ledger units of a tick, 1 ms (R233). -/
def tickUnits : Nat := 16000000
/-- Die-network cycles of a tick (R233, R220). -/
def tickCycles : Nat := 2000000

/-- The part of a pending slew that fits in one tick, at most one unit per cycle (R233). -/
def slewShare (n : Int) : Int := max (-(tickCycles : Int)) (min tickCycles n)

/-- Slew units applied in the first `k` cycles of a tick, spread evenly. -/
def slewBy (n : Int) (k : Nat) : Int :=
  let m := (slewShare n).natAbs * k / tickCycles
  if n < 0 then -(m : Int) else m

/-- The rate accumulator after one cycle and its carry (R233). -/
def rateStep (acc rate : W32) : W32 × Int :=
  let sum := acc.toInt + rate.toInt
  (BitVec.ofInt 32 sum, if sum ≥ 2147483648 then 1 else if sum < -2147483648 then -1 else 0)

/-- One die-network cycle of a die's ledger: 8 + c + s units (R233). -/
def DieLedger.cycle (l : DieLedger) (rate : W32) : DieLedger :=
  let (acc, c) := rateStep l.acc rate
  let sl := slewBy l.slew (min (l.cyc + 1) tickCycles) - slewBy l.slew (min l.cyc tickCycles)
  { l with now := l.now + BitVec.ofInt 64 (8 + c + sl), acc := acc, cyc := l.cyc + 1 }

/-- Ledger units of `m` die-network cycles: the 8 of each, the carries of the rate accumulator, the slew of the tick
(R233). -/
def DieLedger.advance (l : DieLedger) (rate : W32) (m : Nat) : Int :=
  8 * m + (l.acc.toInt + rate.toInt * m + 2147483648) / 4294967296
    + (slewBy l.slew (min (l.cyc + m) tickCycles) - slewBy l.slew (min l.cyc tickCycles))

/-- A die's ledger after `m` cycles (R233). -/
def DieLedger.after (l : DieLedger) (rate : W32) (m : Nat) : DieLedger :=
  { l with now := l.now + BitVec.ofInt 64 (l.advance rate m), acc := BitVec.ofInt 32 (l.acc.toInt + rate.toInt * m)
           cyc := l.cyc + m }

/-- The least number from `lo` to `hi` at which a property that stays holds. -/
def bisect (p : Nat → Bool) : Nat → Nat → Nat → Nat
  | 0, _, hi => hi
  | fuel + 1, lo, hi =>
    if hi ≤ lo then hi else if p ((lo + hi) / 2) then bisect p fuel lo ((lo + hi) / 2) else bisect p fuel ((lo + hi) / 2 + 1) hi

/-- The cycles in which a ledger first reaches or passes `gap` units more (R233): each adds at least 6. -/
def DieLedger.cyclesTo (l : DieLedger) (rate : W32) (gap : Nat) : Nat :=
  bisect (fun m => decide ((gap : Int) ≤ l.advance rate m)) 64 0 (gap / 6 + 1)

/-- A tick begins: the slew that its cycles have applied is taken off what is pending (R233). -/
def DieLedger.endTick (l : DieLedger) : DieLedger := { l with slew := l.slew - slewBy l.slew (min l.cyc tickCycles), cyc := 0 }

/-- The ledgers run from power-good on (R232), as the die-network generators lock (DESIGN CHOICE, log 3). -/
def State.ledgersRun (s : State) : Bool := s.power.railsOn

/-- The internal alignment handshake has ended (R225, R511). -/
def State.aligned (s : State) : Bool := s.power.railsOn && s.power.boot.getLsbD 2

/-- What a step does with no command waiting: one die-network cycle on both dies (DESIGN CHOICE, log 3). -/
def idleCycle (s : State) : State :=
  if s.ledgersRun then
    (s.modDieLedger 0 fun l => l.cycle s.ledger.rate).modDieLedger 1 fun l => l.cycle s.ledger.rate
  else s

end Sys2Proof.Machine
end

