-- ==== Sys2Proof/Machine/MatrixOps.lean ====
section
/-! DEFINITION. The matrix engine's words over its own state and the byte memory (chapter "Matrix engine", R64 to R91,
and the tile-axis reductions R120 to R122), apart from the module around it. -/

namespace Sys2Proof.Machine

open Sys2Proof

/-- Bytes of a carrel (R162). -/
def carrelSize : Nat := 2 ^ 21

/-- Bits per element of a matrix format (R35, R69). -/
def mxBits (fmt : Nat) : Nat :=
  if fmt = 2 ∨ fmt = 3 then 6 else if fmt = 4 ∨ 0xA ≤ fmt then 4 else 8

/-- Formats legal as AFMT (R69). -/
def actFmtOk (fmt : Nat) : Bool := fmt ≤ 5

/-- Formats legal as WFMT with a shape (R69, R70). -/
def weightFmtOk (fmt shape : Nat) : Bool :=
  (fmt ≤ 5 || (8 ≤ fmt && fmt ≤ 0xC)) && (!(fmt == 9 || fmt == 0xB) || shape == 0 || shape == 1 || shape == 5)

/-- Whether a format carries an E8M0 scale per 32 elements (R39). -/
def isMx (fmt : Nat) : Bool := 2 ≤ fmt && fmt ≤ 5

/-- Elements per group of a group format, 0 for the others (R43). -/
def groupSize (fmt : Nat) : Nat :=
  if fmt = 8 ∨ fmt = 0xA then 32 else if fmt = 9 ∨ fmt = 0xB then 128 else 0

/-- The halves of a shape as (K, N), for presented width `w` (R70). -/
def shapeHalves (shape w : Nat) : List (Nat × Nat) :=
  match shape with
  | 0 => [(128, w)]
  | 1 => [(128, 64)]
  | 2 => [(64, w)]
  | 3 => [(32, w)]
  | 4 => [(64, w), (64, w)]
  | _ => [(128, 64), (128, w - 64)]

/-- Side-data bytes of one column of `k` elements (R76). -/
def columnSide (fmt k : Nat) : Nat :=
  if isMx fmt then k / 32 else if groupSize fmt = 0 then 0 else 3 * (k / groupSize fmt)

/-- Bytes of one half of a tile in memory (R76). -/
def halfBytes (fmt k n : Nat) : Nat :=
  n * (k * mxBits fmt / 8) + n * columnSide fmt k + (if fmt = 0xC then 32 else 0)

/-- Bytes of a tile in memory (R76, R77). -/
def tileBytes (fmt shape w : Nat) : Nat := ((shapeHalves shape w).map fun h => halfBytes fmt h.1 h.2).sum

/-- The `n` packed elements of `w` bits in a byte string (R41). -/
def unpackElems (w n : Nat) (bs : Bytes) : List Nat :=
  let v := leNat bs
  (List.range n).map fun j => bits v (w * j + w - 1) (w * j)

/-- The floating-point layout of a narrow format (R37). -/
def narrowFmt (fmt : Nat) : FloatFmt :=
  match fmt with
  | 0 => .e4m3
  | 1 => .e5m2
  | 2 => .e3m2
  | 3 => .e2m3
  | _ => .e2m1

/-- A sign-magnitude I-kind operand (R46). -/
def iKind (v : Int) : BitVec 9 := BitVec.ofNat 9 ((if v < 0 then 256 else 0) + v.natAbs)

/-- Widening of an element of a format without zero point or table (R46). -/
def widen (fmt code : Nat) : BitVec 9 :=
  if fmt = 5 then iKind (toSigned 8 code)
  else BitVec.ofNat 9 (FloatFmt.fkind.rne ((narrowFmt fmt).decode code))

/-- Whether the operands of a format are I-kind (R46). -/
def isIKind (fmt : Nat) : Bool := fmt == 5 || (8 ≤ fmt && fmt ≤ 0xB)

/-- The value of a 9-bit operand of a kind (R46). -/
def operandValue (ikind : Bool) (o : BitVec 9) : Exact :=
  if ikind then .fin (o.getLsbD 8) (o.toNat % 256) 0 else FloatFmt.fkind.decode o.toNat

/-- One column of a tile half from its element bytes, its side bytes and the half's table; none where its side data
break R45. -/
def tileColumn (fmt k : Nat) (elems side table : Bytes) : Option TileCol :=
  let codes := unpackElems (mxBits fmt) k elems
  if isMx fmt then
    some ⟨codes.map (widen fmt), (List.range (k / 32)).map fun s => (side.getD s 0).setWidth 16⟩
  else if fmt = 0xC then
    if (List.range 16).any (fun j => 512 ≤ leAt table (2 * j) 2) then none
    else some ⟨codes.map fun c => BitVec.ofNat 9 (leAt table (2 * c) 2), []⟩
  else if groupSize fmt = 0 then some ⟨codes.map (widen fmt), []⟩
  else
    let g := groupSize fmt
    let n := k / g
    let zero (j : Nat) := (side.getD (2 * n + j / g) 0).toNat
    if 0xA ≤ fmt ∧ (List.range n).any (fun q => 15 < (side.getD (2 * n + q) 0).toNat) then none
    else
      let diff (c j : Nat) : Int :=
        if 0xA ≤ fmt then (c : Int) - zero j else toSigned 8 c - toSigned 8 (zero j)
      some ⟨codes.mapIdx fun j c => iKind (diff c j),
        (List.range (k / 32)).map fun s => BitVec.ofNat 16 (leAt side (2 * (32 * s / g)) 2)⟩

/-- The columns of a tile half from its bytes (R76). -/
def tileHalf (fmt k n : Nat) (bs : Bytes) : Option (List TileCol) :=
  let cb := k * mxBits fmt / 8
  let sb := columnSide fmt k
  let side := bs.drop (n * cb)
  let table := side.take 32
  (List.range n).mapM fun c => tileColumn fmt k ((bs.drop (c * cb)).take cb) ((side.drop (c * sb)).take sb) table

/-- A tile from its bytes in memory, for presented width `w`; none where R45 faults it. -/
def tileOf (shape wfmt : Nat) (tw : W32) (w : Nat) (bs : Bytes) : Option Tile :=
  match shapeHalves shape w with
  | [(k, n)] =>
    match tileHalf wfmt k n bs with
    | some h => some ⟨BitVec.ofNat 3 shape, BitVec.ofNat 4 wfmt, tw, h, []⟩
    | none => none
  | [(k, n), (k', n')] =>
    match tileHalf wfmt k n bs, tileHalf wfmt k' n' (bs.drop (halfBytes wfmt k n)) with
    | some h, some h' => some ⟨BitVec.ofNat 3 shape, BitVec.ofNat 4 wfmt, tw, h, h'⟩
    | _, _ => none
  | _ => none

/-- One activation row: its operands and, per segment, the E8M0 byte of an MX format (R75). -/
structure ActRow where
  ops : List (BitVec 9)
  scales : Bytes
deriving DecidableEq, Repr

/-- Carrel bytes of the elements and of the scales of one activation row of `k` elements (R75). -/
def actRowBytes (fmt k : Nat) : Nat := k * mxBits fmt / 8

/-- Whether the bytes of source row `i` lie in the carrel (R75). -/
def actRowFits (d : ActDesc) (fmt k i : Nat) : Bool :=
  d.ebase.toNat + i * d.pitch.toNat * 16 + actRowBytes fmt k ≤ carrelSize &&
    (!isMx fmt || d.sbase.toNat + i * (k / 32) + k / 32 ≤ carrelSize)

/-- Source row `i` through a descriptor, from the carrel at call number `base` (R75). -/
def actRow (mem : Memory) (base : Nat) (d : ActDesc) (fmt k i : Nat) : ActRow :=
  let elems := mem.read (base + d.ebase.toNat + i * d.pitch.toNat * 16) (actRowBytes fmt k)
  ⟨(unpackElems (mxBits fmt) k elems).map (widen fmt),
    if isMx fmt then mem.read (base + d.sbase.toNat + i * (k / 32)) (k / 32) else []⟩

/-- The exponent that an operand's block scale and MXINT8 factor contribute to k of R49; none for the scale 0xFF. -/
def segExp (fmt : Nat) (scale : Byte) : Option Int :=
  if isMx fmt then (e8m0 scale).map fun e => e - (if fmt = 5 then 6 else 0) else some 0

/-- The result of one segment (R48 to R50). -/
def segResult (products : List (Exact × Exact)) (k : Option Int) (c : W32) : W32 :=
  let p : Exact := products.foldl (fun (acc : Exact) q => acc.add (q.1.mul q.2)) (.fin false 0 0)
  let r : Exact :=
    match p, k, fp32 c with
    | .nan, _, _ => .nan
    | _, none, _ => .nan
    | _, _, .nan => .nan
    | .inf s, some _, .fin _ _ _ => .inf s
    | .inf s, some _, .inf t => .inf (s != t)
    | .fin s m _, some _, .inf t => if m = 0 then .nan else .inf (s != t)
    | .fin s m e, some k, .fin t n f =>
      if m = 0 then .fin false 0 0 else .fin (s != t) (m * n) (e + f + k)
  toFp32 r

/-- The factor c of R49: the two per-tensor scales and the group scale, each product rounded to FP32. -/
def segFactor (ta tw : W32) (group : Option (BitVec 16)) : W32 :=
  let t := toFp32 ((fp32 ta).mul (fp32 tw))
  match group with
  | none => t
  | some g => toFp32 ((fp32 t).mul (FloatFmt.fp16.decode g.toNat))

/-- One output element: the segment results added in order (R51). -/
def mulElem (afmt wfmt k : Nat) (ta tw : W32) (a : ActRow) (col : TileCol) (acc : W32) : W32 :=
  (List.range (k / 32)).foldl (fun acc s =>
    let av := ((a.ops.drop (32 * s)).take 32).map (operandValue (isIKind afmt))
    let wv := ((col.ops.drop (32 * s)).take 32).map (operandValue (isIKind wfmt))
    let ka := segExp afmt (a.scales.getD s 0)
    let kw := segExp wfmt ((col.scales.getD s 0).setWidth 8)
    let exp := match ka, kw with | some x, some y => some (x + y) | _, _ => none
    let group := if groupSize wfmt = 0 then none else some (col.scales.getD s 0)
    fp32Add acc (segResult (av.zip wv) exp (segFactor ta tw group))) acc

/-- One output row of a half: columns that the half names get their sums, the others keep their values (R51, R70). -/
def mulRow (afmt : Nat) (t : Tile) (k : Nat) (cols : List TileCol) (ta : W32) (acc : Bool) (a : ActRow)
    (old : List W32) : List W32 :=
  old.mapIdx fun n v =>
    match cols[n]? with
    | none => v
    | some col => mulElem afmt t.wfmt.toNat k ta t.tw a col (if acc then v else 0)

/-- Row `r` of tile register `t`. -/
def MatrixUnit.row (m : MatrixUnit) (t r : Nat) : List W32 := Tbl.get zeroRow m.tiles (128 * t + r)

/-- The engine with row `r` of tile register `t` set. -/
def MatrixUnit.setRow (m : MatrixUnit) (t r : Nat) (v : List W32) : MatrixUnit :=
  { m with tiles := Tbl.put zeroRow m.tiles (128 * t + r) v }

/-- Row `r` of tile register `t` is written without being read: its parity is good again (R91). -/
def MatrixUnit.renewRow (m : MatrixUnit) (t r : Nat) : MatrixUnit :=
  { m with badRows := m.badRows.filter (· ≠ 128 * t + r) }

/-- A parity error stands in one of `n` rows from row `r` of tile register `t` (R91). -/
def MatrixUnit.rowsBad (m : MatrixUnit) (t r n : Nat) : Bool :=
  m.badRows.any fun k => decide (128 * t + r ≤ k) && decide (k < 128 * t + r + n)

/-- A scale register; register 0 reads 1.0 (R42, R74). -/
def MatrixUnit.scale (m : MatrixUnit) (i : Nat) : W32 := if i = 0 then fp32One else Tbl.get fp32One m.scales i

/-- An activation descriptor (R74). -/
def MatrixUnit.act (m : MatrixUnit) (i : Nat) : ActDesc := Tbl.get ActDesc.reset m.adesc i

/-- A matrix fault cause (R90, R484). -/
abbrev MxCause := Nat

def mxIllegal : MxCause := 0x01
def mxTileFormat : MxCause := 0x02
def mxTileShape : MxCause := 0x03
def mxNoTile : MxCause := 0x04
def mxAddress : MxCause := 0x05
def mxBounds : MxCause := 0x06
def mxParity : MxCause := 0x07
def mxWrongState : MxCause := 0x08
def mxEccUe : MxCause := 0x09

/-- Bits of a word. -/
def fld (w : W64) (hi lo : Nat) : Nat := bits w.toNat hi lo

/-- The fields of MX.MUL (R68, R72). -/
structure MulWord where
  shape : Nat
  afmt : Nat
  acc : Bool
  tdst : Nat
  tdst2 : Nat
  mrow0 : Nat
  mcount : Nat
  tscale : Nat
  adesc : Nat
  adesc2 : Nat
  arow0 : Nat
  sw : Bool
deriving DecidableEq, Repr

def mulWord (w : W64) : MulWord :=
  { shape := fld w 57 55, afmt := fld w 54 51, acc := fld w 50 50 == 1, tdst := fld w 49 47, tdst2 := fld w 46 44
    mrow0 := fld w 43 37, mcount := fld w 36 30, tscale := fld w 29 26, adesc := fld w 25 22, adesc2 := fld w 21 18
    arow0 := fld w 17 11, sw := fld w 10 10 == 1 }

/-- The plane that is active after the swap that a MUL asks for (R72, R78). -/
def planeAfter (m : MatrixUnit) (sw : Bool) : Option Tile :=
  if sw then (match m.shadow with | .full t => some t | _ => none) else m.active

/-- A parity error in what a MUL reads: the plane it streams through, and the rows it accumulates into where it continues
an accumulation (R72, R91). -/
def MatrixUnit.mulParity (m : MatrixUnit) (f : MulWord) : Bool :=
  (if f.sw then m.badShadow else m.badActive)
    || (f.acc && (m.rowsBad f.tdst f.mrow0 (f.mcount + 1)
        || ((f.shape == 4 || f.shape == 5) && m.rowsBad f.tdst2 f.mrow0 (f.mcount + 1))))

/-- The check of MX.MUL: the first cause that fails (R69, R70, R72, R74, R75, R78, R90, R91). -/
def mulFault (m : MatrixUnit) (w : W64) : Option MxCause :=
  let f := mulWord w
  let pk := f.shape == 4
  let paired := pk || f.shape == 5
  let k := if pk ∨ f.shape = 2 then 64 else if f.shape = 3 then 32 else 128
  let d := m.act f.adesc
  let d2 := m.act f.adesc2
  if fld w 9 0 ≠ 0 ∨ 6 ≤ f.shape ∨ !actFmtOk f.afmt ∨ 127 < f.mrow0 + f.mcount
      ∨ (!paired && (f.tdst2 ≠ 0 || f.adesc2 ≠ 0)) ∨ d.pitch = 0 ∨ (pk && d2.pitch = 0) then some mxIllegal
  else
    match planeAfter m f.sw with
    | none => some mxNoTile
    | some t =>
      if t.shape.toNat ≠ f.shape then some mxTileShape
      else if !(actRowFits d f.afmt k (f.arow0 + f.mcount) && (!pk || actRowFits d2 f.afmt k (f.arow0 + f.mcount)))
      then some mxAddress
      else if m.mulParity f then some mxParity
      else none

/-- A MUL puts a row: all of it but for the 64-column shapes, so that its parity is good again (R70, R91). -/
def MatrixUnit.mulInto (m : MatrixUnit) (f : MulWord) (t r : Nat) (v : List W32) : MatrixUnit :=
  if f.shape = 1 ∨ f.shape = 5 then m.setRow t r v else (m.setRow t r v).renewRow t r

/-- Streams row `j` of a MUL through the active plane (R72, R75, R51). -/
def mulStream (mem : Memory) (base : Nat) (f : MulWord) (t : Tile) (m : MatrixUnit) (j : Nat) : MatrixUnit :=
  let pk := f.shape == 4
  let k := if pk ∨ f.shape = 2 then 64 else if f.shape = 3 then 32 else 128
  let a := actRow mem base (m.act f.adesc) f.afmt k (f.arow0 + j)
  let r := f.mrow0 + j
  let ta := m.scale f.tscale
  let m := m.mulInto f f.tdst r (mulRow f.afmt t k t.half0 ta f.acc a (m.row f.tdst r))
  if pk || f.shape == 5 then
    let a2 := if pk then actRow mem base (m.act f.adesc2) f.afmt k (f.arow0 + j) else a
    m.mulInto f f.tdst2 r (mulRow f.afmt t k t.half1 ta f.acc a2 (m.row f.tdst2 r))
  else m

/-- MX.MUL of a word that passes its check (R65, R72, R86). -/
def mulRun (mem : Memory) (base : Nat) (m : MatrixUnit) (w : W64) : MatrixUnit :=
  let f := mulWord w
  match planeAfter m f.sw with
  | none => m
  | some t =>
    let m := if f.sw then { m with active := some t, shadow := .empty, badActive := m.badShadow, badShadow := false } else m
    let m := (List.range (f.mcount + 1)).foldl (mulStream mem base f t) m
    { m with rows := m.rows + BitVec.ofNat 64 (f.mcount + 1) }

/-- The carrel ranges that a MUL reads, as (offset, length) (R75). -/
def mulReads (m : MatrixUnit) (w : W64) : List (Nat × Nat) :=
  let f := mulWord w
  let pk := f.shape == 4
  let k := if pk ∨ f.shape = 2 then 64 else if f.shape = 3 then 32 else 128
  let one (d : ActDesc) : List (Nat × Nat) :=
    (List.range (f.mcount + 1)).flatMap fun j =>
      let i := f.arow0 + j
      (d.ebase.toNat + i * d.pitch.toNat * 16, actRowBytes f.afmt k) ::
        (if isMx f.afmt then [(d.sbase.toNat + i * (k / 32), k / 32)] else [])
  one (m.act f.adesc) ++ (if pk then one (m.act f.adesc2) else [])

/-- The row range of MX.STORE and of the tile-axis words. -/
def rowsOver (w : W64) : Bool := 127 < fld w 54 48 + fld w 47 41

/-- The check of MX.STORE at presented width `width` (R73, R90, R91). -/
def storeFault (width : Nat) (m : MatrixUnit) (w : W64) : Option MxCause :=
  if fld w 10 0 ≠ 0 ∨ rowsOver w ∨ fld w 19 12 * 64 < 4 * width then some mxIllegal
  else if carrelSize < fld w 40 20 + fld w 47 41 * fld w 19 12 * 64 + 4 * width then some mxAddress
  else if m.rowsBad (fld w 57 55) (fld w 54 48) (fld w 47 41 + 1) then some mxParity
  else none

/-- The carrel ranges that MX.STORE writes, as (offset, length) (R73). -/
def storeWrites (width : Nat) (w : W64) : List (Nat × Nat) :=
  (List.range (fld w 47 41 + 1)).map fun j => (fld w 40 20 + j * fld w 19 12 * 64, 4 * width)

/-- The bytes of the first `width` columns of a row (R73). -/
def rowBytes (width : Nat) (row : List W32) : Bytes := (row.take width).flatMap fun v => leBytes 4 v.toNat

/-- MX.STORE of a word that passes its check (R73). DESIGN CHOICE (log 141): row j of the rule counts from the first row
stored, not from row 0 of the tile register. -/
def storeRun (width base : Nat) (m : MatrixUnit) (mem : Memory) (w : W64) : MatrixUnit × Memory :=
  (List.range (fld w 47 41 + 1)).foldl (fun (p : MatrixUnit × Memory) j =>
    let r := fld w 54 48 + j
    let row := p.1.row (fld w 57 55) r
    (if fld w 11 11 = 1 then (p.1.setRow (fld w 57 55) r zeroRow).renewRow (fld w 57 55) r else p.1,
      p.2.write (base + fld w 40 20 + j * fld w 19 12 * 64) (rowBytes width row))) (m, mem)

/-- MX.SETA (R74). -/
def setaFault (w : W64) : Option MxCause := if fld w 3 0 ≠ 0 then some mxIllegal else none

def setaRun (m : MatrixUnit) (w : W64) : MatrixUnit :=
  let d : ActDesc := ⟨BitVec.ofNat 21 (fld w 53 33), BitVec.ofNat 21 (fld w 32 12), BitVec.ofNat 8 (fld w 11 4)⟩
  { m with adesc := Tbl.put ActDesc.reset m.adesc (fld w 57 54) d }

/-- MX.SETS (R74). -/
def setsFault (w : W64) : Option MxCause := if fld w 53 32 ≠ 0 ∨ fld w 57 54 = 0 then some mxIllegal else none

def setsRun (m : MatrixUnit) (w : W64) : MatrixUnit :=
  { m with scales := Tbl.put fp32One m.scales (fld w 57 54) (BitVec.ofNat 32 (fld w 31 0)) }

/-- The form check of MX.LOAD (R69, R70, R71, R163 order 1). -/
def loadIllegal (w : W64) : Bool :=
  fld w 16 0 ≠ 0 || 6 ≤ fld w 57 55 || !weightFmtOk (fld w 54 51) (fld w 57 55) || fld w 45 17 % 64 ≠ 0 ||
    (fld w 46 46 == 0 && fld w 45 38 ≠ 0)

/-- MX.LOAD of a word that passes its checks: the shadow plane is LOADING (R65, R71, R77). -/
def loadRun (m : MatrixUnit) (w : W64) (place : WordAt) : MatrixUnit :=
  let l : ShadowLoad :=
    { shape := BitVec.ofNat 3 (fld w 57 55), wfmt := BitVec.ofNat 4 (fld w 54 51), tw := m.scale (fld w 50 47)
      spc := fld w 46 46 == 1, src := fld w 45 17, word := w, place := place }
  { m with shadow := .loading l, badShadow := false }

/-- The check of a tile-axis word (R120 to R122): the state of the core decides WRONG_STATE. DESIGN CHOICE (log 145):
a word that is ill-formed too faults with MX_ILLEGAL. -/
def trFault (width : Nat) (columns : Bool) (mode : CoreMode) (m : MatrixUnit) (w : W64) : Option MxCause :=
  let n := if columns then width else fld w 47 41 + 1
  if fld w 19 0 ≠ 0 ∨ rowsOver w then some mxIllegal
  else if mode ≠ .diag ∧ mode ≠ .recovery then some mxWrongState
  else if carrelSize < fld w 40 20 + 4 * n then some mxAddress
  else if m.rowsBad (fld w 57 55) (fld w 54 48) (fld w 47 41 + 1) then some mxParity
  else none

/-- The fold of R121, in ascending order from the first element. -/
def foldRow (maximum : Bool) : List W32 → W32
  | [] => 0
  | x :: xs => xs.foldl (fun a b => if maximum then toFp32 ((fp32 a).max (fp32 b)) else fp32Add a b) x

/-- The results of a tile-axis word (R120, R121). -/
def trResults (width : Nat) (columns maximum : Bool) (m : MatrixUnit) (w : W64) : List W32 :=
  let rows := (List.range (fld w 47 41 + 1)).map fun j => m.row (fld w 57 55) (fld w 54 48 + j)
  if columns then (List.range width).map fun n => foldRow maximum (rows.map fun r => r.getD n 0)
  else rows.map fun r => foldRow maximum (r.take width)

/-- The bytes that a tile-axis word writes (R121). -/
def trBytes (width : Nat) (columns maximum : Bool) (m : MatrixUnit) (w : W64) : Bytes :=
  (trResults width columns maximum m w).flatMap fun v => leBytes 4 v.toNat

end Sys2Proof.Machine
end

