-- ==== Sys2Proof/Machine/Special.lean ====
section
/-! DEFINITION. The special functions of R106, correctly rounded. VX.RCP and VX.RSQRT are exact integer arithmetic with a
sticky bit. The others bracket the exact value between two fixed-point bounds and round both; where the two bounds round
apart, the precision grows (log entry 5). -/

namespace Sys2Proof

/-- Bounds of a value, in steps of 2^-p. -/
structure Bounds where
  lo : Nat
  hi : Nat
deriving DecidableEq, Repr

/-- Quotient rounded up. -/
def divUp (a b : Nat) : Nat := (a + (b - 1)) / b

/-- Bounds of m × 2^e × 2^p. -/
def boundsOf (p m : Nat) (e : Int) : Bounds :=
  let k := e + p
  if 0 ≤ k then ⟨m * 2 ^ k.toNat, m * 2 ^ k.toNat⟩
  else ⟨m / 2 ^ (-k).toNat, divUp m (2 ^ (-k).toNat)⟩

/-- Bounds of a product. -/
def Bounds.mul (p : Nat) (a b : Bounds) : Bounds := ⟨a.lo * b.lo / 2 ^ p, divUp (a.hi * b.hi) (2 ^ p)⟩

/-- Bounds of a quotient by a number. -/
def Bounds.div (a : Bounds) (n : Nat) : Bounds := ⟨a.lo / n, divUp a.hi n⟩

/-- Bounds of a sum. -/
def Bounds.add (a b : Bounds) : Bounds := ⟨a.lo + b.lo, a.hi + b.hi⟩

/-- Bounds of a reciprocal. -/
def Bounds.inv (p : Nat) (a : Bounds) : Bounds := ⟨2 ^ (2 * p) / a.hi, divUp (2 ^ (2 * p)) a.lo⟩

/-- The Taylor series of e^t from term `n` on, `fuel` terms, with a last term doubled for the rest (t below 1/2). -/
def expSeries (p : Nat) (t : Bounds) : Nat → Nat → Bounds → Bounds → Bounds
  | 0, _, term, acc => ⟨acc.lo, acc.hi + 2 * term.hi⟩
  | fuel + 1, n, term, acc =>
    let next := (term.mul p t).div n
    expSeries p t fuel (n + 1) next (acc.add next)

/-- Repeated squaring. -/
def squares (p : Nat) : Nat → Bounds → Bounds
  | 0, b => b
  | k + 1, b => squares p k (b.mul p b)

/-- Bounds of e^y for y from 0 to below 128. -/
def expBounds (p : Nat) (y : Bounds) : Bounds :=
  let one : Bounds := ⟨2 ^ p, 2 ^ p⟩
  squares p 8 (expSeries p (y.div 256) p 1 one one)

/-- The sum of 2^p / (k × 2^k) for k from `k` on, `fuel` terms. -/
def ln2Sum (p : Nat) : Nat → Nat → Nat
  | 0, _ => 0
  | fuel + 1, k => 2 ^ p / (k * 2 ^ k) + ln2Sum p fuel (k + 1)

/-- Bounds of the natural logarithm of 2. -/
def ln2Bounds (p : Nat) : Bounds := let s := ln2Sum p p 1; ⟨s, s + p + 2⟩

/-- The arctangent series of 1/k, `fuel` terms from term `n`, each rounded down. -/
def atanSum (p k : Nat) : Nat → Nat → Int
  | 0, _ => 0
  | fuel + 1, n =>
    let t : Int := (2 ^ p / ((2 * n + 1) * k ^ (2 * n + 1)) : Nat)
    (if n % 2 = 0 then t else -t) + atanSum p k fuel (n + 1)

/-- Bounds of π by Machin's formula. -/
def piBounds (p : Nat) : Bounds :=
  let s := (16 * atanSum p 5 p 0 - 4 * atanSum p 239 p 0).toNat
  ⟨s - 20 * (p + 2), s + 20 * (p + 2)⟩

/-- The integer square root, bit by bit from bit `k - 1` down. -/
def isqrtBits (n : Nat) : Nat → Nat → Nat
  | 0, r => r
  | k + 1, r => if (r + 2 ^ k) * (r + 2 ^ k) ≤ n then isqrtBits n k (r + 2 ^ k) else isqrtBits n k r

/-- The integer square root. -/
def isqrt (n : Nat) : Nat := isqrtBits n (n.log2 / 2 + 1) 0

/-- Bounds of 1 / √(2π). -/
def invSqrt2PiBounds (p : Nat) : Bounds :=
  let pi := piBounds p
  Bounds.inv p ⟨isqrt (2 * pi.lo * 2 ^ p), isqrt (2 * pi.hi * 2 ^ p) + 1⟩

/-- The alternating series of √(2π) × (Φ(a) − 1/2): term `n`, `fuel` terms, h = a²/2; positive and negative terms are
summed apart. -/
def phiSeries (p : Nat) (h : Bounds) : Nat → Nat → Bounds → Bounds → Bounds → Bounds
  | 0, _, u, pos, neg => ⟨pos.lo - (neg.hi + u.hi), pos.hi + u.hi - neg.lo⟩
  | fuel + 1, n, u, pos, neg =>
    let term := u.div (2 * n + 1)
    let next := (u.mul p h).div (n + 1)
    if n % 2 = 0 then phiSeries p h fuel (n + 1) next (pos.add term) neg
    else phiSeries p h fuel (n + 1) next pos (neg.add term)

/-- Bounds of Φ(±a). -/
def phiBounds (p : Nat) (neg : Bool) (a : Bounds) : Bounds :=
  let h := (a.mul p a).div 2
  let s := phiSeries p h (2 * p + 64) 0 a ⟨0, 0⟩ ⟨0, 0⟩
  let t := s.mul p (invSqrt2PiBounds p)
  let half := 2 ^ p / 2
  if neg then ⟨half - t.hi, half - t.lo⟩ else ⟨half + t.lo, half + t.hi⟩

/-- The first precision of a list at which both bounds round to one FP32 encoding; the value has the sign `neg` and the
bounds are scaled by 2^k. -/
def roundBounds (neg : Bool) (k : Int) (f : Nat → Bounds) : List Nat → Nat
  | [] => 0
  | p :: ps =>
    let b := f p
    let lo := FloatFmt.fp32.rne (.fin neg b.lo (k - p))
    let hi := FloatFmt.fp32.rne (.fin neg b.hi (k - p))
    if lo = hi ∨ ps = [] then lo else roundBounds neg k f ps

/-- The precisions tried, in fraction bits. -/
def precisions : List Nat := [192, 448, 1024]

/-- +∞ in FP32. -/
def fp32Inf : Nat := 0x7F800000

/-- A special-function result that overflowed (R106). -/
def overflowRes (neg : Bool) : LaneRes := { val := FloatFmt.fp32.signed neg fp32Inf, fpOvf := true }

/-- The result of a finite, unlisted input, counted as overflow where it is infinite (R106). -/
def specialRes (v : Nat) : LaneRes := { val := v, fpOvf := v == fp32Inf }

/-- The canonical NaN of a NaN input. -/
def nanRes : LaneRes := { val := FloatFmt.fp32.nanEnc }

/-- Floor of the base-2 logarithm of m × 2^e, m nonzero. -/
def topBit (m : Nat) (e : Int) : Int := (m.log2 : Int) + e

/-- VX.EXP of a value (R106). -/
def specExp (x : Exact) : LaneRes :=
  match x with
  | .nan => nanRes
  | .inf s => { val := if s then 0 else fp32Inf }
  | .fin s m e =>
    if m = 0 then { val := fp32One.toNat }
    else if 7 ≤ topBit m e then (if s then { val := 0 } else overflowRes false)
    else specialRes (roundBounds false 0 (fun p =>
      let b := expBounds p (boundsOf p m e)
      if s then b.inv p else b) precisions)

/-- VX.EXP2 of a value (R106). -/
def specExp2 (x : Exact) : LaneRes :=
  match x with
  | .nan => nanRes
  | .inf s => { val := if s then 0 else fp32Inf }
  | .fin s m e =>
    if m = 0 then { val := fp32One.toNat }
    else if 8 ≤ topBit m e then (if s then { val := 0 } else overflowRes false)
    else
      let d := (-e).toNat
      let v : Int := (m * 2 ^ e.toNat : Nat)
      let v := if s then -v else v
      let n := v / (2 ^ d : Nat)
      let r := (v % (2 ^ d : Nat)).toNat
      specialRes (roundBounds false n (fun p =>
        let l := ln2Bounds p
        expBounds p ⟨r * l.lo / 2 ^ d, divUp (r * l.hi) (2 ^ d)⟩) precisions)

/-- VX.RCP of a value (R106). -/
def specRcp (x : Exact) : LaneRes :=
  match x with
  | .nan => nanRes
  | .inf s => { val := FloatFmt.fp32.signed s 0 }
  | .fin s m e =>
    if m = 0 then overflowRes s
    else
      let k := m.log2 + 64
      let q := 2 ^ k / m
      let sticky := if 2 ^ k % m = 0 then 0 else 1
      let r := FloatFmt.fp32.rne (.fin s (2 * q + sticky) (-(k : Int) - 1 - e))
      { val := r, fpOvf := r % 2 ^ 31 == fp32Inf }

/-- VX.RSQRT of a value (R106). -/
def specRsqrt (x : Exact) : LaneRes :=
  match x with
  | .nan => nanRes
  | .inf s => if s then { val := FloatFmt.fp32.nanEnc, invalid := true } else { val := 0 }
  | .fin s m e =>
    if m = 0 then overflowRes s
    else if s then { val := FloatFmt.fp32.nanEnc, invalid := true }
    else
      let m' := if e % 2 = 0 then m else 2 * m
      let e' := if e % 2 = 0 then e else e - 1
      let k := m'.log2 + 64
      let q := isqrt (4 ^ k / m')
      let sticky := if q * q * m' = 4 ^ k then 0 else 1
      { val := FloatFmt.fp32.rne (.fin false (2 * q + sticky) (-(k : Int) - 1 - e' / 2)) }

/-- VX.SIGM of a value (R106). -/
def specSigm (x : Exact) : LaneRes :=
  match x with
  | .nan => nanRes
  | .inf s => { val := if s then 0 else fp32One.toNat }
  | .fin s m e =>
    if m = 0 then { val := 0x3F000000 }
    else if 7 ≤ topBit m e then { val := if s then 0 else fp32One.toNat }
    else { val := roundBounds false 0 (fun p =>
      let y := expBounds p (boundsOf p m e)
      let one := 2 ^ p
      if s then ⟨one * one / (y.hi + one), divUp (one * one) (y.lo + one)⟩
      else ⟨y.lo * one / (y.lo + one), divUp (y.hi * one) (y.hi + one)⟩) precisions }

/-- VX.GELU of a value (R106). -/
def specGelu (x : Exact) : LaneRes :=
  match x with
  | .nan => nanRes
  | .inf s => { val := if s then FloatFmt.fp32.signBit else fp32Inf }
  | .fin s m e =>
    if m = 0 then { val := 0 }
    else if (Exact.abs x).order (.fin false 8 0) = some .gt then
      { val := if s then FloatFmt.fp32.signBit else FloatFmt.fp32.rne x }
    else { val := roundBounds s 0 (fun p =>
      let a := boundsOf p m e
      let f := phiBounds p s a
      if 0 ≤ e + p then f.mul p a
      else ⟨f.lo * m / 2 ^ (-e).toNat, divUp (f.hi * m) (2 ^ (-e).toNat)⟩) precisions }

end Sys2Proof
end

