-- ==== Sys2Proof/Machine/VectorOps.lean ====
section
/-! DEFINITION. The vector engine's words over its own state and the byte memory (chapter "Vector engine and reduction
unit", R92 to R111), apart from the module around it. -/

namespace Sys2Proof.Machine

open Sys2Proof

/-- A saturating 32-bit counter (R123, R159, R188). -/
def satAdd (c : W32) (n : Nat) : W32 := BitVec.ofNat 32 (min (c.toNat + n) (2 ^ 32 - 1))

/-- The fields of a vector word (R98). -/
structure VxWord where
  op : Nat
  n : Nat
  dst : Nat
  srca : Nat
  srcb : Nat
  srcc : Nat
  mset : Nat
  minv : Bool
  typ : Nat
  low : Nat
deriving DecidableEq, Repr

def vxWord (w : W64) : VxWord :=
  { op := fld w 63 56, n := fld w 55 43 + 1, dst := fld w 42 39, srca := fld w 38 35, srcb := fld w 34 31
    srcc := fld w 30 27, mset := fld w 26 25, minv := fld w 24 24 == 1, typ := fld w 23 20, low := fld w 19 0 }

/-- BSC, CSC and SAT of an arithmetic word (R100). -/
def VxWord.bsc (v : VxWord) : Bool := bits v.low 19 19 == 1
def VxWord.csc (v : VxWord) : Bool := bits v.low 18 18 == 1
def VxWord.sat (v : VxWord) : Bool := bits v.low 17 17 == 1
/-- The conversion fields (R103). -/
def VxWord.rm (v : VxWord) : Nat := bits v.low 19 18
def VxWord.srb (v : VxWord) : Nat := bits v.low 16 13
def VxWord.sidx (v : VxWord) : Nat := bits v.low 12 9
def VxWord.batchRow (v : VxWord) : Nat := v.low % 512
def VxWord.isConv (v : VxWord) : Bool := v.op == 0x18 || v.op == 0x19 || v.op == 0x1A
def VxWord.packsMx (v : VxWord) : Bool := (v.op == 0x19 || v.op == 0x1A) && 2 ≤ v.srcc

/-- Opcodes of R100 (VX.SETD and VX.SETS apart). -/
def vxOpOk (op : Nat) : Bool := op ≤ 0x12 || (0x18 ≤ op && op ≤ 0x1A) || (0x20 ≤ op && op ≤ 0x25) || op == 0x32 || op == 0x33

/-- Which of SRCA, SRCB, SRCC and DST name descriptors for an opcode (R100, R104). -/
def VxWord.usesA (v : VxWord) : Bool := v.op ≠ 0x00 && v.op ≠ 0x33
def VxWord.usesB (v : VxWord) : Bool :=
  (1 ≤ v.op && v.op ≤ 6) || (9 ≤ v.op && v.op ≤ 0xE) || v.op == 0x11 || v.op == 0x12 || v.packsMx
def VxWord.usesC (v : VxWord) : Bool := v.op == 0x04
def VxWord.usesD (v : VxWord) : Bool := v.op ≠ 0x00 && v.op ≠ 0x11 && v.op ≠ 0x32

/-- Whether the opcode uses a mask set. -/
def VxWord.usesMask (v : VxWord) : Bool := v.op ≠ 0x00 && v.op < 0x30

/-- Whether TYPE is legal for the opcode (R99, R100). -/
def VxWord.typeOk (v : VxWord) : Bool :=
  if v.op = 0x00 ∨ 0x30 ≤ v.op then v.typ == 0
  else if v.op = 0x04 ∨ v.op = 0x19 ∨ v.op = 0x1A then 8 ≤ v.typ && v.typ ≤ 0xA
  else if 0x20 ≤ v.op then v.typ == 8
  else if 9 ≤ v.op ∧ v.op ≤ 0xD then 0xB ≤ v.typ && v.typ ≤ 0xD
  else 8 ≤ v.typ && v.typ ≤ 0xD

/-- The bits of [19:0] that an opcode defines (R100, R103). -/
def VxWord.lowMask (v : VxWord) : Nat :=
  if v.isConv then 0xFFFFF
  else match v.op with
    | 0x01 | 0x02 | 0x03 | 0x05 | 0x06 => 0xE0000
    | 0x04 => 0xC0000
    | 0x07 | 0x08 => 0x20000
    | 0x09 | 0x0A | 0x0B | 0x0D => 0x80000
    | 0x0C => 0xA0000
    | 0x11 => 0xFC000
    | 0x32 | 0x33 => 0xC0000
    | _ => 0

/-- Bits per element of a packed format (R41). -/
def VxWord.packBits (v : VxWord) : Nat := mxBits v.srcc

/-- Element bytes of the source and of the destination lanes. -/
def laneSize (code : Nat) : Nat := match laneFmt code with | some l => l.size | none => 1

/-- A scale register; register 0 reads 1.0 (R105). -/
def VectorUnit.scale (u : VectorUnit) (i : Nat) : W32 := if i = 0 then fp32One else Tbl.get fp32One u.scales i

/-- A descriptor's BASE (R94). -/
def VectorUnit.base (u : VectorUnit) (i : Nat) : Nat := (Tbl.get 0#21 u.desc i).toNat

/-- Lane `l`'s word of mask set `q`; Q0 reads as all ones (R95). -/
def VectorUnit.maskWord (u : VectorUnit) (q l : Nat) : BitVec 16 :=
  if q = 0 then 0xFFFF else Tbl.get 0#16 u.masks (256 * q + l)

/-- Whether element `e` is enabled (R95). -/
def VectorUnit.enabled (u : VectorUnit) (q : Nat) (minv : Bool) (e : Nat) : Bool :=
  (u.maskWord q (e % 256)).getLsbD ((e / 256) % 16) != minv

/-- Whether an FP32 value is zero or a positive power of two (R104). -/
def isPow2OrZero (w : W32) : Bool :=
  match fp32 w with
  | .fin neg m _ => m == 0 || (!neg && m == 2 ^ m.log2)
  | _ => false

/-- Required alignment of an operand of the word: SRCA, SRCB, SRCC or DST (R94, R102, R104). -/
def VxWord.alignA (v : VxWord) : Nat :=
  if v.op = 0x32 then 2 else if v.op = 0x1A then (if v.packsMx then 8 else 1) else laneSize v.typ
def VxWord.alignB (v : VxWord) : Nat := if v.packsMx then 1 else if v.op = 0x12 then 4 else laneSize v.typ
def VxWord.alignD (v : VxWord) : Nat :=
  if v.op = 0x33 then 2 else if v.op = 0x18 then laneSize v.srcc
  else if v.op = 0x19 then (if v.packsMx then 8 else 1) else laneSize v.typ

/-- Whether a word faults with VX_ILLEGAL, SETD and SETS apart (R94, R97 to R105). -/
def vxIllegalWord (u : VectorUnit) (v : VxWord) : Bool :=
  !vxOpOk v.op || !v.typeOk || v.low &&& (0xFFFFF - v.lowMask) ≠ 0 ||
  (!v.usesA && v.srca ≠ 0) || (!v.usesB && v.srcb ≠ 0) || (!v.usesC && !v.isConv && v.srcc ≠ 0) ||
  (!v.usesD && v.dst ≠ 0) || (!v.usesMask && (v.mset ≠ 0 || v.minv)) ||
  (v.op == 0x32 && bits v.low 19 18 == 0) ||
  (v.op == 0x11 && (4096 < v.n || bits v.low 15 14 == 0)) ||
  (v.isConv && (v.rm == 3 || 12 < v.srb || (v.rm < 2 && v.srb ≠ 0))) ||
  (v.op == 0x18 && !(8 ≤ v.srcc && v.srcc ≤ 0xD)) ||
  ((v.op == 0x19 || v.op == 0x1A) && 5 < v.srcc) ||
  (v.op == 0x19 && v.packsMx && (v.n % 32 ≠ 0 || v.sidx ≠ 0 || v.mset ≠ 0 || v.minv)) ||
  (v.op == 0x1A && (!isPow2OrZero (u.scale v.sidx) || (v.packsMx && v.n % 32 ≠ 0))) ||
  (v.usesA && u.base v.srca % v.alignA ≠ 0) || (v.usesB && u.base v.srcb % v.alignB ≠ 0) ||
  (v.usesC && u.base v.srcc % laneSize v.typ ≠ 0) || (v.usesD && u.base v.dst % v.alignD ≠ 0)

/-- VX.SETD and VX.SETS faults (R105). -/
def setdIllegal (w : W64) : Bool := fld w 30 0 ≠ 0
def vsetsIllegal (w : W64) : Bool := fld w 51 32 ≠ 0 || fld w 55 52 == 0

def setdRun (u : VectorUnit) (w : W64) : VectorUnit :=
  { u with desc := Tbl.put 0#21 u.desc (fld w 55 52) (BitVec.ofNat 21 (fld w 51 31)) }

def vsetsRun (u : VectorUnit) (w : W64) : VectorUnit :=
  { u with scales := Tbl.put fp32One u.scales (fld w 55 52) (BitVec.ofNat 32 (fld w 31 0)) }

/-- Vector fault causes (R109, R484). -/
def vxIllegal : Nat := 0x01
def vxAddress : Nat := 0x02
def vxFpInvalid : Nat := 0x03
def vxFpOverflow : Nat := 0x04
def vxIntOverflow : Nat := 0x05
def vxEccUe : Nat := 0x06

/-- What one element, or one MX block, does: the lowest position it stands for, its writes as (carrel offset, bytes),
mask bits it writes as (position, bit), the conditions it counts, and its fault. -/
structure Item where
  pos : Nat
  writes : List (Nat × Bytes) := []
  maskBits : List (Nat × Bool) := []
  invalid : Bool := false
  fpOvf : Bool := false
  intOvf : Bool := false
  fault : Option Nat := none
deriving DecidableEq, Repr

/-- The surroundings of a vector word: the carrel's base call number, the draws' shared inputs, the unit as it was. -/
structure VxCtx where
  base : Nat
  seed : SrSeed
  unit : VectorUnit
deriving DecidableEq, Repr

/-- The number in `n` bytes at a carrel offset. -/
def VxCtx.load (c : VxCtx) (mem : Memory) (off n : Nat) : Nat := leNat (mem.read (c.base + off) n)

/-- The rounding mode of element `e` (R54, R60, R61, R103). -/
def VxCtx.mode (c : VxCtx) (v : VxWord) (e : Nat) : RMode :=
  match v.rm with
  | 0 => .rne
  | 1 => .rtz
  | _ =>
    let lane := e % 256
    let draw := Tbl.get 0#32 c.unit.draws lane + BitVec.ofNat 32 (e / 256)
    .sr (v.srb + 4) (srDraw c.seed draw (BitVec.ofNat 8 lane) (v.srb + 4))

/-- Whether the bytes of a contiguous element lie past the carrel (R94). -/
def pastCarrel (off len : Nat) : Bool := carrelSize < off + len

/-- The extent faults of element `e` over the contiguous operands of the word (R94). -/
def VxCtx.extent (c : VxCtx) (v : VxWord) (e : Nat) : Bool :=
  let u := c.unit
  let s := laneSize v.typ
  let a := u.base v.srca
  let b := u.base v.srcb
  let d := u.base v.dst
  let packed (o : Nat) : Bool := pastCarrel o (((e + 1) * v.packBits + 7) / 8)
  let lane (o i sz : Nat) : Bool := pastCarrel (o + i * sz) sz
  match v.op with
  | 0x12 => lane b e 4 || lane d e s
  | 0x18 => lane a e s || lane d e (laneSize v.srcc)
  | 0x19 => lane a e s || packed d || (v.packsMx && lane b (e / 32) 1)
  | 0x1A => packed a || lane d e s || (v.packsMx && lane b (e / 32) 1)
  | 0x10 => lane a 0 s || lane d e s
  | _ =>
    (v.usesA && lane a e s) || (v.usesB && lane b (if v.op ≠ 0xE ∧ v.bsc then 0 else e) s) ||
      (v.usesC && lane (u.base v.srcc) (if v.csc then 0 else e) s) || (v.usesD && lane d e s)

/-- The conversion of an exact value to a lane format; FP32 takes no SAT and its overflow is not counted (R53 to
R57, R104). -/
def convertLane (l : LaneFmt) (mode : RMode) (sat : Bool) (x : Exact) : LaneRes :=
  match l with
  | .int w => let r := convertInt w mode x; { val := r.enc, fpOvf := r.overflow }
  | .flt f =>
    if f = .fp32 then { val := (f.convert mode false x).enc }
    else let r := f.convert mode sat x; { val := r.enc, fpOvf := r.overflow }

/-- The product of an element and a scale register; register 0 leaves the element (R104). -/
def scaled (u : VectorUnit) (sidx : Nat) (x : Exact) : Exact := if sidx = 0 then x else x.mul (fp32 (u.scale sidx))

/-- Whether a product is invalid: NaN from numbers (R108). DESIGN CHOICE (log 138): also where the target is an
integer, to which the NaN converts as 0 (R57). -/
def scaledInvalid (u : VectorUnit) (sidx : Nat) (x : Exact) : Bool :=
  sidx ≠ 0 && scaled u sidx x == .nan && x != .nan && fp32 (u.scale sidx) != .nan

/-- The value of a packed element of a narrow format, its block scale apart (R37, R39). -/
def narrowValue (fmt code : Nat) : Exact :=
  if fmt = 5 then (Exact.ofInt (toSigned 8 code)).scale (-6) else (narrowFmt fmt).decode code

/-- The block scale of element `e` of an MX operand. -/
def VxCtx.blockScale (c : VxCtx) (v : VxWord) (mem : Memory) (e : Nat) : Byte :=
  BitVec.ofNat 8 (c.load mem (c.unit.base v.srcb + e / 32) 1)

/-- The code of packed element `e` (R41). -/
def VxCtx.packedCode (c : VxCtx) (v : VxWord) (mem : Memory) (e : Nat) : Nat :=
  let w := v.packBits
  let o := e * w
  bits (c.load mem (c.unit.base v.srca + o / 8) 2) (o % 8 + w - 1) (o % 8)

/-- VX.UNPACK of element `e` (R104, R53). DESIGN CHOICE (log 136): a product to FP32 that no FP32 value holds, below the
subnormals, is rounded under RM; R53 and R104 call the product exact and give RM for BF16 and FP16 alone. -/
def VxCtx.unpackElem (c : VxCtx) (v : VxWord) (mem : Memory) (l : LaneFmt) (e : Nat) : LaneRes :=
  let x := narrowValue v.srcc (c.packedCode v mem e)
  let x : Exact :=
    if isMx v.srcc then (match e8m0 (c.blockScale v mem e) with | some k => x.scale k | none => .nan) else x
  let y := scaled c.unit v.sidx x
  let inv := scaledInvalid c.unit v.sidx x
  match l with
  | .flt f =>
    if f = .fp32 then
      let r := f.convert .rne false y
      { val := if r.overflow then r.enc else (f.convert (c.mode v e) false y).enc, invalid := inv }
    else { convertLane l (c.mode v e) v.sat y with invalid := inv }
  | .int _ => { val := 0 }

/-- A copied code: of a NaN the canonical one of its format (R38; DEDUCED, log 137). -/
def canonCode (l : LaneFmt) (code : Nat) : Nat :=
  match l with
  | .flt f => if f.decode code = .nan then f.nanEnc else code
  | .int _ => code

/-- The lane result of element `e` of every opcode that writes one lane element (R100 to R106). -/
def VxCtx.elem (c : VxCtx) (v : VxWord) (mem : Memory) (e : Nat) : LaneRes :=
  let u := c.unit
  let s := laneSize v.typ
  let a := c.load mem (u.base v.srca + e * s) s
  let b := c.load mem (u.base v.srcb + (if v.op ≠ 0xE ∧ v.bsc then 0 else e) * s) s
  match laneFmt v.typ with
  | none => { val := 0 }
  | some l =>
    let w := l.width
    match v.op with
    | 0x01 => laneBin .add l v.sat a b
    | 0x02 => laneBin .sub l v.sat a b
    | 0x03 => laneBin .mul l v.sat a b
    | 0x04 =>
      match l with
      | .flt f => laneFma f a b (c.load mem (u.base v.srcc + (if v.csc then 0 else e) * s) s)
      | .int _ => { val := 0 }
    | 0x05 => laneBin .min l v.sat a b
    | 0x06 => laneBin .max l v.sat a b
    | 0x07 => laneSign false l v.sat a
    | 0x08 => laneSign true l v.sat a
    | 0x09 => { val := a &&& b }
    | 0x0A => { val := a ||| b }
    | 0x0B => { val := a ^^^ b }
    | 0x0C => intRes w v.sat (toSigned w a * (2 ^ (b % w) : Nat))
    | 0x0D => { val := ofSigned w (toSigned w a / (2 ^ (b % w) : Nat)) }
    | 0x0E => { val := canonCode l (if u.enabled v.mset v.minv e then a else b) }
    | 0x0F => { val := canonCode l a }
    | 0x10 => { val := canonCode l (c.load mem (u.base v.srca) s) }
    | 0x18 =>
      match laneFmt v.srcc with
      | none => { val := 0 }
      | some t =>
        let x := l.decode a
        { convertLane t (c.mode v e) v.sat (scaled u v.sidx x) with invalid := scaledInvalid u v.sidx x }
    | 0x1A => c.unpackElem v mem l e
    | 0x20 => specExp (l.decode a)
    | 0x21 => specExp2 (l.decode a)
    | 0x22 => specRcp (l.decode a)
    | 0x23 => specRsqrt (l.decode a)
    | 0x24 => specSigm (l.decode a)
    | 0x25 => specGelu (l.decode a)
    | _ => { val := 0 }

/-- The trap that a lane result takes, in the order of the causes (R108, R109). -/
def trapOf (u : VectorUnit) (r : LaneRes) : Option Nat :=
  if r.invalid ∧ u.trap.getLsbD 0 then some vxFpInvalid
  else if r.fpOvf ∧ u.trap.getLsbD 1 then some vxFpOverflow
  else if r.intOvf ∧ u.trap.getLsbD 2 then some vxIntOverflow
  else none

/-- An item that writes one lane element with its counts and trap. -/
def laneItem (u : VectorUnit) (e off size : Nat) (r : LaneRes) : Item :=
  { pos := e, writes := [(off, leBytes size r.val)], invalid := r.invalid, fpOvf := r.fpOvf, intOvf := r.intOvf
    fault := trapOf u r }

/-- An infinite value that a narrow format without infinities takes as NaN (R56): an invalid operation (R108). -/
def madeNan (fmt : Nat) (x : Exact) (code : Nat) : Bool :=
  !x.isFin && x != .nan && (narrowFmt fmt).decode code == .nan

/-- One element as an item (R92 to R109). -/
def VxCtx.item (c : VxCtx) (v : VxWord) (mem : Memory) (e : Nat) : Item :=
  let u := c.unit
  let on := u.enabled v.mset v.minv e
  if c.extent v e then { pos := e, fault := some vxAddress }
  else match v.op with
    | 0x11 =>
      let s := laneSize v.typ
      let a := c.load mem (u.base v.srca + e * s) s
      let b := c.load mem (u.base v.srcb + (if v.bsc then 0 else e) * s) s
      match laneFmt v.typ with
      | none => { pos := e }
      | some l => { pos := e, maskBits := [(e, on && laneCmp (bits v.low 18 16) l a b)] }
    | 0x12 =>
      let s := laneSize v.typ
      let idx := toSigned 32 (c.load mem (u.base v.srcb + e * 4) 4)
      let addr : Int := (u.base v.srca : Int) + idx * s
      if !on then { pos := e }
      else if addr < 0 ∨ (carrelSize : Int) < addr + s then { pos := e, fault := some vxAddress }
      else match laneFmt v.typ with
        | none => { pos := e }
        | some l => { pos := e, writes := [(u.base v.dst + e * s, leBytes s (canonCode l (c.load mem addr.toNat s)))] }
    | 0x19 =>
      match laneFmt v.typ with
      | none => { pos := e }
      | some l =>
        let x := l.decode (c.load mem (u.base v.srca + e * laneSize v.typ) (laneSize v.typ))
        let y := scaled u v.sidx x
        let r := (narrowFmt v.srcc).convert (c.mode v e) v.sat y
        if on then
          laneItem u e (u.base v.dst + e) 1
            { val := r.enc, fpOvf := r.overflow, invalid := scaledInvalid u v.sidx x || madeNan v.srcc y r.enc }
        else { pos := e }
    | 0x0E => laneItem u e (u.base v.dst + e * laneSize v.typ) (laneSize v.typ) (c.elem v mem e)
    | _ =>
      let s := if v.op = 0x18 then laneSize v.srcc else laneSize v.typ
      if on then laneItem u e (u.base v.dst + e * s) s (c.elem v mem e) else { pos := e }

/-- The largest magnitude of a list. -/
def maxAbs (xs : List Exact) : Exact := xs.foldl (fun m x => m.max x.abs) (.fin false 0 0)

/-- An MX block's scale byte and element codes, one rounding mode for each element (R58). -/
def packBlock (fmt : Nat) (xs : List (Exact × RMode)) : Byte × List Nat :=
  let emax : Int := if fmt = 5 then 0 else if fmt = 2 then 4 else 2
  let sign (x : Exact) : Nat := if fmt ≠ 5 ∧ x.isNeg then (narrowFmt fmt).signBit else 0
  if xs.any (fun x => !x.1.isFin) then (0xFF, xs.map fun _ => 0)
  else match maxAbs (xs.map Prod.fst) with
    | .fin _ m e =>
      if m = 0 then (0x7F, xs.map fun x => sign x.1)
      else
        let k := (m.log2 : Int) + e - emax
        let k := if k < -127 then -127 else if 127 < k then 127 else k
        (BitVec.ofInt 8 (k + 127), xs.map fun x =>
          if fmt = 5 then (convertInt 8 x.2 (x.1.scale (6 - k))).enc
          else ((narrowFmt fmt).convert x.2 true (x.1.scale (-k))).enc)
    | _ => (0xFF, xs.map fun _ => 0)

/-- Packs codes of `w` bits into bytes (R41). -/
def packCodes (w : Nat) (codes : List Nat) : Bytes :=
  leBytes (codes.length * w / 8) (codes.foldr (fun c acc => c + 2 ^ w * acc) 0)

/-- An MX block of VX.PACK as an item (R58, R104, R109). -/
def VxCtx.blockItem (c : VxCtx) (v : VxWord) (mem : Memory) (blk : Nat) : Item :=
  let es := (List.range 32).map fun j => 32 * blk + j
  match es.find? (c.extent v) with
  | some e => { pos := e, fault := some vxAddress }
  | none =>
    match laneFmt v.typ with
    | none => { pos := 32 * blk }
    | some l =>
      let s := laneSize v.typ
      let xs := es.map fun e => (l.decode (c.load mem (c.unit.base v.srca + e * s) s), c.mode v e)
      let r := packBlock v.srcc xs
      { pos := 32 * blk
        writes := [(c.unit.base v.dst + blk * (4 * v.packBits), packCodes v.packBits r.2),
          (c.unit.base v.srcb + blk, [r.1])] }

/-- The items of one pass, in ascending position (R92). -/
def VxCtx.passItems (c : VxCtx) (v : VxWord) (mem : Memory) (p : Nat) : List Item :=
  let last := min v.n (256 * (p + 1))
  if v.op = 0x19 ∧ v.packsMx then
    (List.range ((last - 256 * p) / 32)).map fun j => c.blockItem v mem (8 * p + j)
  else (List.range (last - 256 * p)).map fun j => c.item v mem (256 * p + j)

/-- Applies the writes of items. -/
def applyWrites (base : Nat) (mem : Memory) (ws : List (Nat × Bytes)) : Memory :=
  ws.foldl (fun m w => m.write (base + w.1) w.2) mem

/-- Cycles per pass and result latency of an opcode (R110). -/
def VxWord.timing (v : VxWord) : Nat × Nat :=
  let isInt := 0xB ≤ v.typ
  if 0x20 ≤ v.op then (4, 14)
  else if v.op = 0x12 then (4, 8)
  else if v.op = 0x04 ∨ v.isConv then (1, 6)
  else if (1 ≤ v.op ∧ v.op ≤ 8) ∧ !isInt then (1, 5)
  else (1, 3)

/-- How many passes later a pass reads what this one writes (R110). -/
def VxWord.lag (v : VxWord) : Nat := (v.timing.1 - 1 + v.timing.2) / v.timing.1 + 1

/-- Spans with each that begins where the one before ends joined to it. -/
def joinRuns : List (Nat × Nat) → List (Nat × Nat)
  | [] => []
  | x :: r =>
    match joinRuns r with
    | [] => [x]
    | y :: t => if x.1 + x.2 = y.1 then (x.1, x.2 + y.2) :: t else x :: y :: t

/-- The spans that items write: their elements, or their blocks' scale bytes. -/
def itemRuns (scales : Bool) (is : List Item) : List (Nat × Nat) :=
  joinRuns (is.filterMap fun i => (i.writes[scales.toNat]?).map fun w => (w.1, w.2.length))

/-- The progress of a word over its passes: memory as the next pass reads it, writes not yet in it, oldest first, the
spans of elements and of scale bytes written, mask bits written, counts, and the fault that stopped it. -/
structure VxRun where
  mem : Memory
  waiting : List (List (Nat × Bytes))
  elems : List (Nat × Nat)
  scales : List (Nat × Nat)
  maskBits : List (Nat × Bool)
  invalid : Nat
  fpOvf : Nat
  intOvf : Nat
  fault : Option (Nat × Nat)
deriving DecidableEq, Repr

/-- The items below the first faulting one, and that one. -/
def splitFault : List Item → List Item × Option Item
  | [] => ([], none)
  | i :: is => if i.fault.isSome then ([], some i) else let r := splitFault is; (i :: r.1, r.2)

/-- The position that a faulting item records: an MX block faults at its lowest faulting position (R109). -/
def Item.cause (i : Item) : Option (Nat × Nat) := i.fault.map fun c => (c, i.pos)

def countOf (f : Item → Bool) (is : List Item) : Nat := (is.filter f).length

/-- One pass: reads, computes, queues its writes (R109, R110). `ue` is the pass at which a read meets an uncorrectable
error (R484). -/
def VxCtx.pass (c : VxCtx) (v : VxWord) (ue : Option Nat) (r : VxRun) (p : Nat) : VxRun :=
  if r.fault.isSome then r
  else if ue = some p then { r with fault := some (vxEccUe, 256 * p) }
  else
    let due := r.waiting.length + 1 - v.lag
    let mem := (r.waiting.take due).foldl (applyWrites c.base) r.mem
    let is := c.passItems v mem p
    let (good, bad) := splitFault is
    let counted := good ++ bad.toList
    { mem := mem
      waiting := r.waiting.drop due ++ [good.flatMap Item.writes]
      elems := r.elems ++ itemRuns false good
      scales := r.scales ++ itemRuns true good
      maskBits := r.maskBits ++ good.flatMap Item.maskBits
      invalid := r.invalid + countOf Item.invalid counted
      fpOvf := r.fpOvf + countOf Item.fpOvf counted
      intOvf := r.intOvf + countOf Item.intOvf counted
      fault := bad.bind Item.cause }

/-- Sets or clears the mask bit of position `e` in set `q` (R95). -/
def VectorUnit.setMaskBit (q : Nat) (u : VectorUnit) (eb : Nat × Bool) : VectorUnit :=
  let k := 256 * q + eb.1 % 256
  let w := Tbl.get 0#16 u.masks k
  let b := 1#16 <<< ((eb.1 / 256) % 16)
  { u with masks := Tbl.put 0#16 u.masks k (if eb.2 then w ||| b else w &&& ~~~b) }

/-- Advances the draw counters by the positions below `n` that each lane converted (R61). -/
def VectorUnit.advanceDraws (u : VectorUnit) (n : Nat) : VectorUnit :=
  { u with draws := (List.range (min n 256)).foldl (fun t l =>
      Tbl.put 0#32 t l (Tbl.get 0#32 t l + BitVec.ofNat 32 ((n - l + 255) / 256))) u.draws }

/-- What a vector word leaves: the unit, memory, if it faulted the cause and the element position, and the carrel spans it
wrote. -/
structure VxOut where
  unit : VectorUnit
  mem : Memory
  fault : Option (Nat × Nat)
  wrote : List (Nat × Nat)
deriving DecidableEq, Repr

/-- A word of R98 that is legal: every element-wise opcode (R100 to R109). -/
def VxCtx.run (c : VxCtx) (v : VxWord) (ue : Option Nat) (mem : Memory) : VxOut :=
  let r := (List.range ((v.n + 255) / 256)).foldl (c.pass v ue)
    { mem := mem, waiting := [], elems := [], scales := [], maskBits := [], invalid := 0, fpOvf := 0, intOvf := 0, fault := none }
  let mem := r.waiting.foldl (applyWrites c.base) r.mem
  let u := c.unit
  let tail : List (Nat × Bool) :=
    if v.op = 0x11 ∧ r.fault.isNone then (List.range (4096 - v.n)).map fun i => (v.n + i, false) else []
  let u := (r.maskBits ++ tail).foldl (VectorUnit.setMaskBit (bits v.low 15 14)) u
  let done := match r.fault with | some (_, p) => p | none => v.n
  let u := if v.isConv ∧ v.rm = 2 then u.advanceDraws done else u
  { unit := { u with
      fpInvalid := satAdd u.fpInvalid r.invalid, fpOverflow := satAdd u.fpOverflow r.fpOvf
      intOverflow := satAdd u.intOverflow r.intOvf }
    mem := mem, fault := r.fault, wrote := joinRuns r.elems ++ joinRuns r.scales }

/-- The 512 bytes of a mask set (R100). -/
def VectorUnit.maskBytes (u : VectorUnit) (q : Nat) : Bytes :=
  (List.range 256).flatMap fun l => leBytes 2 (u.maskWord q l).toNat

/-- VX.SETQ (R95, R100). -/
def VxCtx.runSetq (c : VxCtx) (v : VxWord) (mem : Memory) : VxOut :=
  let o := c.unit.base v.srca
  if pastCarrel o 512 then ⟨c.unit, mem, some (vxAddress, 0), []⟩
  else
    let q := bits v.low 19 18
    let bs := mem.read (c.base + o) 512
    ⟨{ c.unit with masks := (List.range 256).foldl (fun t l =>
        Tbl.put 0#16 t (256 * q + l) (BitVec.ofNat 16 (leAt bs (2 * l) 2))) c.unit.masks }, mem, none, []⟩

/-- VX.STQ (R95, R100). -/
def VxCtx.runStq (c : VxCtx) (v : VxWord) (mem : Memory) : VxOut :=
  let o := c.unit.base v.dst
  if pastCarrel o 512 then ⟨c.unit, mem, some (vxAddress, 0), []⟩
  else ⟨c.unit, mem.write (c.base + o) (c.unit.maskBytes (bits v.low 19 18)), none, [(o, 512)]⟩

/-- The carrel ranges that pass `p` reads, as (offset, length), for the interlocks and the ECC checks. -/
def VxCtx.passReads (c : VxCtx) (v : VxWord) (mem : Memory) (p : Nat) : List (Nat × Nat) :=
  let u := c.unit
  let first := 256 * p
  let m := min v.n (first + 256) - first
  let s := laneSize v.typ
  let lanes (o sz : Nat) : Nat × Nat := (o + first * sz, m * sz)
  let packed (o : Nat) : Nat × Nat := (o + first * v.packBits / 8, m * v.packBits / 8)
  let a := if v.op = 0x1A then [packed (u.base v.srca)]
    else if v.op = 0x10 then [(u.base v.srca, s)]
    else if v.op = 0x32 then [(u.base v.srca, 512)]
    else if v.op = 0x12 then (List.range m).filterMap fun j =>
      let addr : Int := (u.base v.srca : Int) + toSigned 32 (c.load mem (u.base v.srcb + (first + j) * 4) 4) * s
      if u.enabled v.mset v.minv (first + j) ∧ 0 ≤ addr then some (addr.toNat, s) else none
    else if v.usesA then [lanes (u.base v.srca) s] else []
  let b := if v.op = 0x1A ∧ v.packsMx then [(u.base v.srcb + first / 32, m / 32)]
    else if v.op = 0x12 then [lanes (u.base v.srcb) 4]
    else if v.usesB ∧ v.op ≠ 0x19 then [if v.op ≠ 0xE ∧ v.bsc then (u.base v.srcb, s) else lanes (u.base v.srcb) s]
    else []
  let d := if v.usesC then [if v.csc then (u.base v.srcc, s) else lanes (u.base v.srcc) s] else []
  a ++ b ++ d

/-- The carrel ranges that pass `p` may write, as (offset, length). -/
def VxCtx.passWrites (c : VxCtx) (v : VxWord) (p : Nat) : List (Nat × Nat) :=
  let u := c.unit
  let first := 256 * p
  let m := min v.n (first + 256) - first
  let s := if v.op = 0x18 then laneSize v.srcc else laneSize v.typ
  if v.op = 0x19 then
    (u.base v.dst + first * v.packBits / 8, m * v.packBits / 8) ::
      (if v.packsMx then [(u.base v.srcb + first / 32, m / 32)] else [])
  else if v.op = 0x33 then [(u.base v.dst, 512)]
  else if v.usesD then [(u.base v.dst + first * s, m * s)] else []

end Sys2Proof.Machine
end

