-- ==== Sys2Proof/Machine/ReductionOps.lean ====
section
/-! DEFINITION. The reduction unit's words over the carrel's bytes (chapter "Vector engine and reduction unit", R112 to
R119), apart from the module around it. -/

namespace Sys2Proof.Machine

open Sys2Proof

/-- The fields of a reduction word (R112). -/
structure RdWord where
  op : Nat
  n : Nat
  src : Nat
  dst : Nat
  typ : Nat
  group : Nat
  mset : Nat
  minv : Bool
  low : Nat
deriving DecidableEq, Repr

def rdWord (w : W64) : RdWord :=
  { op := fld w 63 58, n := fld w 57 45 + 1, src := fld w 44 41, dst := fld w 40 37, typ := fld w 36 33
    group := fld w 32 29, mset := fld w 28 27, minv := fld w 26 26 == 1, low := fld w 25 0 }

/-- Reduction fault causes (R118, R484). -/
def rdIllegal : Nat := 0x01
def rdAddress : Nat := 0x02
def rdUnavailable : Nat := 0x03
def rdEccUe : Nat := 0x04

/-- Elements per group (R112). -/
def RdWord.groupLen (r : RdWord) : Nat := if r.group = 0 then r.n else 2 ^ r.group

/-- Result bytes per group (R113). -/
def RdWord.resultBytes (r : RdWord) : Nat := if r.op = 3 ∨ r.op = 5 then 8 else 4

/-- Bytes of all results. -/
def RdWord.outBytes (r : RdWord) : Nat := r.n / r.groupLen * r.resultBytes

/-- Whether a word other than RD.NOP faults with RD_ILLEGAL (R94, R112, R113). DESIGN CHOICE (log 144): the element
size s of R94 is 4 for the 8-byte results of RD.ARGMAX and RD.LSE too. -/
def rdIllegalWord (u : VectorUnit) (r : RdWord) : Bool :=
  r.low ≠ 0 || r.op == 0 || 5 < r.op ||
  !(r.typ == 8 || r.typ == 9 || r.typ == 0xA || (r.typ == 0xB && (r.op == 1 || r.op == 2 || r.op == 3))) ||
  !(r.group == 0 || (5 ≤ r.group && r.group ≤ 13)) || r.n % r.groupLen ≠ 0 ||
  u.base r.src % laneSize r.typ ≠ 0 || u.base r.dst % 4 ≠ 0

/-- Whether its operands extend past the carrel (R94). -/
def rdPast (u : VectorUnit) (r : RdWord) : Bool :=
  pastCarrel (u.base r.src) (r.n * laneSize r.typ) || pastCarrel (u.base r.dst) r.outBytes

/-- Half of a tree over `n` elements: the greatest power of two below `n` (R114). -/
def treeHalf (n : Nat) : Nat := 2 ^ (n - 1).log2

/-- The tree of R114; `fuel` is at least the length. -/
def treeFold {α : Type} (op : α → α → α) (z : α) : Nat → List α → α
  | 0, _ => z
  | _ + 1, [] => z
  | _ + 1, [x] => x
  | fuel + 1, x :: y :: xs =>
    let l := x :: y :: xs
    let h := treeHalf l.length
    op (treeFold op z fuel (l.take h)) (treeFold op z fuel (l.drop h))

/-- The tree over a list. -/
def tree {α : Type} (op : α → α → α) (z : α) (xs : List α) : α := treeFold op z xs.length xs

def negZero : W32 := 0x80000000#32
def negInf : W32 := 0xFF800000#32
def fp32Nan : W32 := 0x7FC00000#32

def fp32Max (a b : W32) : W32 := toFp32 ((fp32 a).max (fp32 b))

/-- FP32 value of an element of a floating-point TYPE, widened exactly (R112). -/
def widenFp32 (typ code : Nat) : W32 :=
  match laneFmt typ with
  | some (.flt f) => toFp32 (f.decode code)
  | _ => BitVec.ofNat 32 code

/-- The choice of RD.ARGMAX between two pairs (R115); −1 as an index marks an identity pair. -/
def argmaxOp (isInt : Bool) (a b : W32 × Int) : W32 × Int :=
  if a.2 < 0 then (if b.2 < 0 then a else b)
  else if b.2 < 0 then a
  else if isInt then (if a.1.toInt < b.1.toInt then b else a)
  else if fp32 a.1 = .nan then a
  else if fp32 b.1 = .nan then b
  else match (fp32 a.1).order (fp32 b.1) with
    | some .lt => b
    | some .eq => if (fp32 a.1).isNeg ∧ !(fp32 b.1).isNeg then b else a
    | _ => a

/-- The result bytes of one group, its elements as words with their enable bits (R113 to R116). -/
def groupResult (op : Nat) (isInt : Bool) (xs : List (W32 × Bool)) : Bytes :=
  let w (v : W32) : Bytes := leBytes 4 v.toNat
  let with_ (identity : W32) : List W32 := xs.map fun x => if x.2 then x.1 else identity
  match op with
  | 1 => if isInt then w (tree (· + ·) 0 (with_ 0)) else w (tree fp32Add 0 (with_ negZero))
  | 2 =>
    if isInt then w (tree (fun a b => if a.toInt < b.toInt then b else a) 0 (with_ 0x80000000))
    else w (tree fp32Max 0 (with_ negInf))
  | 3 =>
    let id : W32 × Int := (if isInt then 0x80000000 else negInf, -1)
    let r := tree (argmaxOp isInt) id (xs.mapIdx fun i x => if x.2 then (x.1, (i : Int)) else id)
    w r.1 ++ w (BitVec.ofInt 32 r.2)
  | 4 => w (tree fp32Add 0 (xs.map fun x => if x.2 then toFp32 ((fp32 x.1).mul (fp32 x.1)) else negZero))
  | _ =>
    let m := tree fp32Max 0 (with_ negInf)
    match fp32 m with
    | .inf true => w m ++ w 0
    | .fin _ _ _ =>
      let e (x : W32) : W32 :=
        BitVec.ofNat 32 (specExp (fp32 (toFp32 ((fp32 x).add (fp32 m).neg)))).val
      w m ++ w (tree fp32Add 0 (xs.map fun x => if x.2 then e x.1 else negZero))
    | _ => w m ++ w fp32Nan

/-- The elements of a reduction word with their enable bits (R95, R112). -/
def rdElems (base : Nat) (u : VectorUnit) (r : RdWord) (mem : Memory) : List (W32 × Bool) :=
  let s := laneSize r.typ
  (List.range r.n).map fun e =>
    (widenFp32 r.typ (leNat (mem.read (base + u.base r.src + e * s) s)), u.enabled r.mset r.minv e)

/-- The bytes a reduction word writes at DST (R113). -/
def rdBytes (base : Nat) (u : VectorUnit) (r : RdWord) (mem : Memory) : Bytes :=
  let xs := rdElems base u r mem
  (List.range (r.n / r.groupLen)).flatMap fun g =>
    groupResult r.op (r.typ == 0xB) ((xs.drop (g * r.groupLen)).take r.groupLen)

end Sys2Proof.Machine
end

