-- ==== Sys2Proof/Machine/MemOps.lean ====
section
/-! DEFINITION. Carrels and shelves under their code: reads that correct or meet an error, writes that make a correct
code, injections, clearing, and the reach and extent checks of call numbers (R162 to R165, R174 to R184, R189, R190). -/

namespace Sys2Proof.Machine

open Sys2Proof

/-- A call number in shelf space. -/
def isShelf (a : Nat) : Bool := decide (2 ^ 46 ≤ a)
/-- The core whose carrel holds a call number. -/
def coreAt (a : Nat) : Nat := a / 2 ^ 38
/-- The cluster beneath the shelf that holds a call number, and the partition. -/
def shelfAt (a : Nat) : Nat := (a - 2 ^ 46) / 2 ^ 41 % 32
def partAt (a : Nat) : Nat := a / 2 ^ 26 % 8

/-- Bytes of a code word: 8 in a carrel, 16 in a shelf (R174). -/
def wordBytes (a : Nat) : Nat := if isShelf a then 16 else 8

/-- R181: memory with no owner, which holds only zeros. -/
def State.unowned (s : State) (a : Nat) : Bool :=
  if isShelf a then decide ((s.part (shelfAt a) (partAt a)).kind = .free) else (s.core (coreAt a)).sq.tenant.isNone

/-- The tenant that owns the memory of a call number. -/
def State.ownerOf (s : State) (a : Nat) : Option Nat :=
  if isShelf a then ((s.part (shelfAt a) (partAt a)).owner.map BitVec.toNat)
  else ((s.core (coreAt a)).sq.tenant.map BitVec.toNat)

/-- The bits that an injection flips in a code word: each below `top`, a bit named twice not at all. -/
def Inject.flips (i : Inject) (top : Nat) : List Nat :=
  if i.bita = i.bitb then [] else ([i.bita.toNat, i.bitb.toNat].filter fun b => b ≤ top)

/-- Writes a word whole with a correct code, in unowned memory with the armed injection's flips (R189, R190). -/
def State.rewriteWord (s : State) (w : Nat) : State :=
  let s := { s with upsets := Tbl.erase s.upsets w }
  if isShelf w then
    let k := shelfAt w
    let i := (s.cluster k).inject
    if i.arm ∧ i.part.toNat = partAt w ∧ s.unowned w = true then
      let s := s.modCluster k fun c => { c with inject := { i with arm := false } }
      { s with upsets := Tbl.put [] s.upsets w (i.flips 136) }
    else s
  else
    let c := coreAt w
    let i := (s.core c).car.inject
    if i.arm ∧ s.unowned w = true then
      let s := s.modCar c fun k => { k with inject := { i with arm := false } }
      { s with upsets := Tbl.put [] s.upsets w (i.flips 71) }
    else s

/-- Who reads memory: a unit of a core (0 matrix, 1 vector, 2 reduction, 3 transfer), the die-network port for an
engine of the module, or the scrubber. -/
inductive Reader where
  | unit (core unit : Nat)
  | net
  | scrub
deriving DecidableEq, Repr

/-- SOURCE of a capture (R180) for a word read by `r`. -/
def Reader.source (r : Reader) (w : Nat) : Nat :=
  match r with
  | .scrub => 9
  | .net => 8
  | .unit c u =>
    if isShelf w then (if clusterOf c = shelfAt w then c % 8 else 8)
    else if coreAt w = c then u else 4

/-- Counts engine cycles of a deviation cause on a core (R151). -/
def Core.countDev (k : Core) (cause n : Nat) : Core :=
  let q := k.sq
  { k with sq := { q with dev := Tbl.modify 0 q.dev cause fun v => sat32 v n
                          devSince := Tbl.modify 0 q.devSince cause fun v => v + n } }

/-- The capture words of an ECC error; the syndrome is a free nonzero value (R180). -/
def eccCaps (s : State) (src cause w bit : Nat) : List W32 :=
  let n := if isShelf w then 511 else 255
  let off := if isShelf w then w % 2 ^ 29 else w % 2 ^ 21
  [BitVec.ofNat 32 (256 * src + cause), BitVec.ofNat 32 off,
   BitVec.ofNat 32 ((Config.freeWord s.freeCtr).toNat % n + 1), BitVec.ofNat 32 bit]

/-- The page that reports a word's errors. -/
def eccPage (w : Nat) : Nat := if isShelf w then shfPage (shelfAt w) else carPage (coreAt w)

/-- The granule of a shelf word. -/
def granuleOf (w : Nat) : Nat := w % 2 ^ 26 / 128

/-- The write-back of a corrected word (R175): in a shelf it takes its bank in the next shelf cycle; that of a scrub waits
for an unused bank, and the word keeps its error until then (R179). A carrel's takes a bank cycle of its own at once. -/
def State.writeBack (s : State) (r : Reader) (w : Nat) : State :=
  if !isShelf w then s.rewriteWord w
  else if r = .scrub then s.modCluster (shelfAt w) fun c =>
    { c with scrubBacks := if c.scrubBacks.contains w then c.scrubBacks else c.scrubBacks ++ [w] }
  else (s.rewriteWord w).modCluster (shelfAt w) fun c => { c with writeBacks := c.writeBacks ++ [(partAt w, granuleOf w)] }

/-- A single-bit error found: corrected, written back, counted, reported (R175, R179, R180). -/
def State.eccCe (s : State) (r : Reader) (w bit : Nat) : State :=
  let caps := eccCaps s (r.source w) 1 w bit
  let raw := (s.page (eccPage w)).evtRaw
  let take := !raw.getLsbD 0 && !raw.getLsbD 1
  let s := s.draw.2
  let s := if isShelf w then s.modCluster (shelfAt w) fun c => { c with ce := sat32 c.ce 1 }
           else s.modCar (coreAt w) fun c => { c with ce := sat32 c.ce 1 }
  let s := match r with
    | .unit c _ => s.modCore c fun k => k.countDev 3 2
    | _ => s
  (s.writeBack r w).raiseCap (eccPage w) 0 caps take

/-- An uncorrectable error found: counted, reported, and in unowned memory the word is written with zero (R176, R179). -/
def State.eccUe (s : State) (r : Reader) (w : Nat) : State :=
  let caps := eccCaps s (r.source w) 2 w 0xFF
  let take := !(s.page (eccPage w)).evtRaw.getLsbD 1
  let s := s.draw.2
  let s := if isShelf w then s.modCluster (shelfAt w) fun c => { c with ue := sat32 c.ue 1 }
           else s.modCar (coreAt w) fun c => { c with ue := sat32 c.ue 1 }
  let s := s.raiseCap (eccPage w) 1 caps take
  if s.unowned w then { (s.rewriteWord w) with mem := s.mem.clear w (wordBytes w) } else s

/-- The words with flipped bits that a span of `n` bytes from `a` touches, ascending. -/
def State.upsetsIn (s : State) (a n : Nat) : List (Nat × List Nat) :=
  s.upsets.filter fun e => decide (e.1 < a + n) && decide (a < e.1 + wordBytes e.1)

/-- Reads a span through its code: single-bit errors are corrected on the way, and the first uncorrectable word in
owned memory stops the read (R175, R176). -/
def State.readSpan (s : State) (r : Reader) (a n : Nat) : State × Option Nat :=
  (s.upsetsIn a n).foldl (fun (p : State × Option Nat) e =>
    match p.2, e.2 with
    | some _, _ => p
    | none, [b] => (p.1.eccCe r e.1 b, none)
    | none, _ => (p.1.eccUe r e.1, if p.1.unowned e.1 then none else some e.1)) (s, none)

/-- Reads several spans in order. -/
def State.readSpans (s : State) (r : Reader) (spans : List (Nat × Nat)) : State × Option Nat :=
  spans.foldl (fun (p : State × Option Nat) x =>
    match p.2 with
    | some _ => p
    | none => p.1.readSpan r x.1 x.2) (s, none)

-- requests to shelves

/-- Offers the granules of a span to their shelf, if it lies in one: from the own cluster's core under the core's number,
from elsewhere at the die-network port (R168, R525). -/
def State.offer (s : State) (owner : Nat) (unit : ReqUnit) (write : Bool) (a n : Nat) : State :=
  if !isShelf a || decide (n = 0) then s
  else
    let k := shelfAt a
    let source := if owner < 256 ∧ clusterOf owner = k then owner % 8 else 8
    s.modCluster k fun c => { c with waiting := c.waiting ++ [⟨source, owner, unit, write, a % 2 ^ 29, n⟩] }

/-- Offers several spans in order. -/
def State.offers (s : State) (owner : Nat) (unit : ReqUnit) (write : Bool) (spans : List (Nat × Nat)) : State :=
  spans.foldl (fun (s : State) x => s.offer owner unit write x.1 x.2) s

/-- The words that a write of `n` bytes at `a` covers in part. -/
def partialWords (a n : Nat) : List Nat :=
  let b := wordBytes a
  let first := if a % b = 0 then [] else [a - a % b]
  let e := a + n
  let last := if e % b = 0 then [] else [e - e % b]
  if first = last then first else first ++ last

/-- The merge reads of a write (R177): single-bit errors of partly written words are corrected, and an uncorrectable one
stops the write. -/
def State.mergeSpan (s : State) (r : Reader) (a n : Nat) : State × Option Nat :=
  if n = 0 then (s, none) else s.readSpans r ((partialWords a n).map fun w => (w, wordBytes w))

/-- The words that a write of `n` bytes at `a` covers whole get a correct code. -/
def State.cleanSpan (s : State) (a n : Nat) : State :=
  let gone := s.upsets.filter fun e => decide (a ≤ e.1) && decide (e.1 + wordBytes e.1 ≤ a + n)
  gone.foldl (fun (s : State) e => { s with upsets := Tbl.erase s.upsets e.1 }) s

/-- Writes bytes at a call number: a correct code for the words covered whole, unless a merge read meets an
uncorrectable error, which it answers (R174, R177). An armed injection of an unbound carrel takes the first word written
(R190). -/
def State.writeSpan (s : State) (r : Reader) (a : Nat) (bs : Bytes) : State × Option Nat :=
  match s.mergeSpan r a bs.length with
  | (s, some w) => (s, some w)
  | (s, none) =>
    let s := s.cleanSpan a bs.length
    let s := { s with mem := s.mem.write a bs }
    let armed := !isShelf a && (s.core (coreAt a)).car.inject.arm && s.unowned a
    (if armed then s.rewriteWord (a - a % 8) else s, none)

/-- Zeros over a range, every word whole, with an armed injection's flips in the first word (R182, R189). -/
def State.clearSpan (s : State) (a n : Nat) : State :=
  let s := s.cleanSpan a n
  ({ s with mem := s.mem.clear a n }).rewriteWord a

-- reach and extent

/-- Two cores bound to one tenant, neither carrel clearing (R164, R184). -/
def State.sameTenant (s : State) (c d : Nat) : Bool :=
  (s.core c).sq.tenant.isSome && decide ((s.core c).sq.tenant = (s.core d).sq.tenant) && !(s.core d).car.clearing

/-- The reach check of R163 for core `c` and a call number in carrel or shelf space (R164, R165, R184). -/
def State.reaches (s : State) (c a : Nat) : Bool :=
  if isShelf a then
    let p := s.part (shelfAt a) (partAt a)
    match (s.core c).sq.tenant with
    | some t => decide (p.owner = some t) && (decide (p.kind = .resident) || decide (p.kind = .working))
    | none => false
  else if coreAt a = c then !(s.core c).car.clearing
  else (decide (coreAt a = nextCore c) || decide (coreAt a = prevCore c)) && s.sameTenant c (coreAt a)

/-- The form check of R163: a legal space and no reserved bit. -/
def formOk (a : Nat) : Bool :=
  match bits a 47 46 with
  | 0 => bits a 37 21 = 0
  | 1 => bits a 40 29 = 0
  | 2 => true
  | _ => false

/-- The extent check of R163: `len` bytes at `a` stay in the carrel or partition. -/
def extentOk (a len : Nat) : Bool :=
  if isShelf a then decide (a % 2 ^ 26 + len ≤ 2 ^ 26) else decide (a % 2 ^ 21 + len ≤ 2 ^ 21)

end Sys2Proof.Machine
end

