-- ==== Sys2Proof/Machine/FabricOps.lean ====
section
/-! DEFINITION. Sending on the fabric: the egress of a port, its arbiter, credits and retry buffer (R371, R372, R377,
R378), flits of the module's own messages, and the routes they take (R373, R379 to R381, R385). -/

namespace Sys2Proof.Machine

open Sys2Proof

/-- Receive buffer of a virtual channel in flits (R377). -/
def vcDepth (vc : Nat) : Nat := if vc = 0 then 512 else if vc = 3 then 64 else 1024

/-- The virtual channel that a TYPE names, none for an unknown type (R375). -/
def vcOfType (t : BitVec 8) : Option Nat :=
  if t = 0x10 ∨ t = 0x11 then some 0
  else if 0x20 ≤ t.toNat ∧ t.toNat ≤ 0x25 then some 1
  else if 0x30 ≤ t.toNat ∧ t.toNat ≤ 0x33 then some 2
  else if 0x40 ≤ t.toNat ∧ t.toNat ≤ 0x44 then some 3
  else none

-- the bytes on the wire

/-- Bytes 0 to 11 of a flit (R373). -/
def flitHead (f : Flit) : Bytes :=
  leBytes 4 (f.src ++ f.rsvd18 ++ f.hopidx ++ f.hops ++ BitVec.ofBool f.waited ++ BitVec.ofBool f.mark ++ f.vc ++ f.typ).toNat
    ++ leBytes 4 (f.tsf ++ f.lseq).toNat ++ leBytes 4 (f.rsvd30 ++ f.route).toNat

/-- The 64 bytes of a flit, with the CRC-32 that every transmitter computes afresh (R373, R374). -/
def flitWire (f : Flit) : Bytes := flitHead f ++ leBytes 4 (crc32 (flitHead f ++ f.payload)).toNat ++ f.payload

/-- Bits 47 to 0 of the link word that a port sends (R370): the last flit accepted, NAK, the flits freed by VC. -/
def FabPort.wordBody (p : FabPort) : BitVec 48 :=
  Tbl.get 0 p.freed 3 ++ Tbl.get 0 p.freed 2 ++ Tbl.get 0 p.freed 1 ++ Tbl.get 0 p.freed 0
    ++ (0#2 ++ BitVec.ofBool p.nak ++ BitVec.ofBool p.rxAny ++ (p.rxNext - 1))

/-- The link word that a port sends: those bits under their CRC-16 (R370). -/
def FabPort.ownWord (p : FabPort) : W64 := crc16 (leBytes 6 p.wordBody.toNat) ++ p.wordBody

/-- A port sends its link word, once in eight slots (R370). -/
def FabPort.sendWord (p : FabPort) : FabPort := { p with word := p.ownWord, slots := 0 }

-- the egress

def FabPort.queue (p : FabPort) (vc : Nat) : List (Nat × Flit) := Tbl.get [] p.queues vc
/-- A flit waits and a credit is held for it. -/
def FabPort.vcReady (p : FabPort) (vc : Nat) : Bool :=
  decide (p.queue vc ≠ []) && decide (Tbl.get 0 p.used vc < vcDepth vc)
/-- A flit waits without a credit. -/
def FabPort.vcStarved (p : FabPort) (vc : Nat) : Bool :=
  decide (p.queue vc ≠ []) && decide (vcDepth vc ≤ Tbl.get 0 p.used vc)

/-- The virtual channel sent next (R378), and whether it takes a turn of VC1 and VC2. -/
def FabPort.arbitrate (p : FabPort) : Option Nat :=
  if p.vcReady 0 then some 0
  else if p.vcReady 3 && decide (7 ≤ p.since3) then some 3
  else if p.vcReady 1 && (decide (0 < p.turn1) || !p.vcReady 2) then some 1
  else if p.vcReady 2 then some 2
  else if p.vcReady 3 then some 3
  else none

/-- The VC0 flits that wait while the channel has no credit take MARK, and each is counted once (R372, R378). -/
def FabPort.markStarved (p : FabPort) : FabPort :=
  if !p.vcStarved 0 then p
  else
    { p with
      queues := Tbl.modify [] p.queues 0 fun l => l.map fun e => (e.1, { e.2 with mark := true })
      vc0Late := sat32 p.vc0Late ((p.queue 0).length - p.late), late := (p.queue 0).length }

/-- A flit takes a slot of the port (R370, R374, R392). -/
def FabPort.useSlot (p : FabPort) (f : Flit) : FabPort :=
  let p := { p with slots := p.slots + 1, slotsOf := Tbl.modify 0 p.slotsOf f.vc.toNat fun n => n + 1
                    otherVc := decide (f.vc ≠ 0), wire := flitWire f }
  if 8 ≤ p.slots then p.sendWord else p

/-- Counts a slot in which a ready flit of some channel lacks a credit (R392). -/
def FabPort.countWait (p : FabPort) (n : Nat) : FabPort :=
  if p.vcStarved 0 || p.vcStarved 1 || p.vcStarved 2 || p.vcStarved 3
  then { p with creditWait := sat32 p.creditWait n } else p

/-- Sends the head flit of a virtual channel: it takes the next LSEQ, a credit, a slot and a place in the retry buffer;
answers the ingress port whose buffer entry it frees. WAITED needs a slot of another channel just before (R378). -/
def FabPort.sendHead (p : FabPort) (vc w1 w2 : Nat) : FabPort × Option Nat :=
  match p.queue vc with
  | [] => (p, none)
  | (i, f) :: rest =>
    let f := { f with lseq := p.txNext, mark := f.mark || decide (0 < p.markLeft), waited := f.waited && p.otherVc }
    let reload := decide (vc = 1) && decide (p.turn1 = 0) || (decide (vc = 2) && decide (p.turn2 ≤ 1))
    let t1 := if reload then w1 else p.turn1
    let t2 := if reload then w2 else p.turn2
    ({ p.useSlot f with
        queues := Tbl.put [] p.queues vc rest, late := if vc = 0 then p.late - 1 else p.late, txNext := p.txNext + 1, retry := p.retry ++ [f]
        used := Tbl.modify 0 p.used vc fun n => n + 1
        since3 := if vc = 3 then 0 else p.since3 + 1
        turn1 := if vc = 1 then t1 - 1 else t1, turn2 := if vc = 2 ∧ !reload then t2 - 1 else t2
        markLeft := p.markLeft - 1 }, some i)

/-- Sends what an UP port can send; answers the ingress ports freed, with the channel. -/
def FabPort.pump : Nat → FabPort → Nat → Nat → List (Nat × Nat) → FabPort × List (Nat × Nat)
  | 0, p, _, _, acc => (p, acc)
  | n + 1, p, w1, w2, acc =>
    let p := p.markStarved
    if p.state ≠ .up ∨ 3072 ≤ p.retry.length then (p, acc)
    else
      match p.arbitrate with
      | none => (p, acc)
      | some vc =>
        match (p.countWait 1).sendHead vc w1 w2 with
        | (p, none) => (p, acc)
        | (p, some i) => FabPort.pump n p w1 w2 (if i = 64 then acc else acc ++ [(i, vc)])

/-- One flit of a channel's receive buffer is freed on port `i` (R370, R377); 65 and 66 stand for a unit of the class
of that number on a Tsudan port, which a relayed stream holds (R349). -/
def State.freeFlit (s : State) (i vc : Nat) : State :=
  if i < 64 then s.modFport i fun p => { p with freed := Tbl.modify 0 p.freed vc fun n => n + 1 }
  else s.modPort (i - 65) fun t =>
    ({ t with freed := Tbl.modify 0 t.freed vc fun n => n + 1 } : TsdPort).sendWord false

/-- Credits of VC2 or class 2 that were given back are withheld until relayed flits have left (R349). -/
def State.holdCredits (s : State) (i n : Nat) : State :=
  if i < 64 then s.modFport i fun p => { p with freed := Tbl.modify 0 p.freed 2 fun k => k - BitVec.ofNat 8 n }
  else if i = 64 then s
  else s.modPort (i - 65) fun t => { t with freed := Tbl.modify 0 t.freed 2 fun k => k - BitVec.ofNat 16 n }

/-- SRC of the module's flits (R373). -/
def State.srcId (s : State) : BitVec 12 := if s.fab.idValid then s.fab.device else 0

/-- A link retry delays the request of a tag, which counts once (R219, R372). -/
def TransferUnit.delay (u : TransferUnit) (tag : Nat) : TransferUnit :=
  match Tbl.get none u.tags tag with
  | some t =>
    if t.retry then u
    else { u with tags := Tbl.put none u.tags tag (some { t with retry := true }), retryReq := sat32 u.retryReq 1 }
  | none => u

/-- MARK on a flit of a window request that the module sends delays its request (R372). -/
def State.delayOwn (s : State) (fs : List Flit) : State :=
  fs.foldl (fun (s : State) f =>
    if f.mark = true ∧ f.src = s.srcId ∧ (f.typ = 0x20 ∨ f.typ = 0x21 ∨ f.typ = 0x22) then
      s.modXf (bits f.tsf.toNat 13 6) fun u => u.delay (bits f.tsf.toNat 5 0)
    else s) s

/-- Sends what a port can send. -/
def State.pumpFport (s : State) (n : Nat) : State :=
  let p := s.fport n
  let total := (p.queue 0).length + (p.queue 1).length + (p.queue 2).length + (p.queue 3).length
  let r := FabPort.pump total p s.fab.w1.toNat s.fab.w2.toNat []
  let s := r.2.foldl (fun (s : State) iv => s.freeFlit iv.1 iv.2) (s.modFport n fun _ => r.1)
  s.delayOwn (r.1.retry.drop p.retry.length)

/-- A flit as this module queues it: WAITED of a VC0 flit tells whether it became ready during the slot of another VC
(R378), which slots that the model does not time decide: a free bit, and 0 where no such slot came before (log 85). -/
def State.markWaited (s : State) (f : Flit) : State × Flit :=
  if f.vc = 0 then
    let d := s.draw
    (d.2, { f with waited := Config.freeBit d.1 })
  else (s, { f with waited := false })

/-- Puts a flit in a port's egress queue, with the ingress port that holds its entry (64 for the module's own), and sends
what can be sent. The port is UP. -/
def State.queueFlit (s : State) (n ingress : Nat) (f : Flit) : State :=
  let w := s.markWaited f
  (w.1.modFport n fun p =>
    { p with queues := Tbl.modify [] p.queues f.vc.toNat fun l => l ++ [(ingress, w.2)] }).pumpFport n

/-- Bytes filled with zeros to 48. -/
def pad48 (b : Bytes) : Bytes := b.take 48 ++ List.replicate (48 - b.length) 0#8

/-- A flit of the module's own (R373). -/
def State.flit (s : State) (typ vc hops route tsf : Nat) (payload : Bytes) : Flit :=
  { typ := BitVec.ofNat 8 typ, vc := BitVec.ofNat 2 vc, mark := false, waited := false, hops := BitVec.ofNat 3 hops
    hopidx := 0, rsvd18 := 0, src := s.srcId, lseq := 0, tsf := BitVec.ofNat 20 tsf, route := BitVec.ofNat 30 route
    rsvd30 := 0, payload := pad48 payload }

/-- A flit is discarded under R380 (R391). -/
def State.dropFlit (s : State) : State := ({ s with fab := { s.fab with drop := sat32 s.fab.drop 1 } }).raise0 fabPage 1

/-- Sends a flit of the module over a route table entry; a module without a valid ID originates none (R386), a flit
over an entry that is not VALID is dropped (R485), and a flit whose egress is not UP is discarded (R389). -/
def State.sendOver (s : State) (r : RouteEntry) (typ vc tsf : Nat) (payload : Bytes) : State :=
  if r.valid = false then s.dropFlit
  else if s.fab.idValid ∧ (s.fport r.egress).state = .up then
    s.queueFlit r.egress 64 (s.flit typ vc r.hops r.w1.toNat tsf payload)
  else s

/-- Sends a link-local flit on an UP port on behalf of an ingress port (R349, R373). -/
def State.sendLocalFrom (s : State) (n ingress typ vc : Nat) (payload : Bytes) : State :=
  if (s.fport n).state = .up then s.queueFlit n ingress (s.flit typ vc 0 0 0 payload) else s

/-- Sends a link-local flit of the module's own (R373). -/
def State.sendLocal (s : State) (n typ vc : Nat) (payload : Bytes) : State := s.sendLocalFrom n 64 typ vc payload

/-- The return route of a request as it reached this module: RET with this module's ingress port written (R381). -/
def retWith (ret port hopidx : Nat) : Nat :=
  let m := 2 ^ (6 * hopidx)
  ret - (ret / m % 64) * m + port * m

/-- ROUTE of an answer over the reverse route: entries RET HOPS − 2 down to RET 0 (R381). -/
def reverseRoute (ret hops : Nat) : Nat :=
  (List.range (hops - 1)).foldl (fun acc h => acc + (ret / 2 ^ (6 * (hops - 2 - h)) % 64) * 2 ^ (6 * h)) 0

/-- Answers a request over its reverse route, back through the port it came from (R381). -/
def State.answerFlit (s : State) (ret hops typ vc tsf : Nat) (payload : Bytes) : State :=
  let egress := ret / 2 ^ (6 * (hops - 1)) % 64
  if s.fab.idValid ∧ (s.fport egress).state = .up then
    s.queueFlit egress 64 (s.flit typ vc hops (reverseRoute ret hops) tsf payload)
  else s

/-- Types that carry a return route: WREQ, RREQ and the VC3 requests (R381). -/
def carriesRet (t : BitVec 8) : Bool := t = 0x20 || t = 0x22 || t = 0x41 || t = 0x43

/-- Offset of RET in the payload (R383, R385). -/
def retOffset (t : BitVec 8) : Nat := if t = 0x20 ∨ t = 0x22 then 16 else 24

/-- Payload of a NACK (R214). -/
def nackPayload (status reason tag hg req : Nat) (ledger : W64) (owner : BitVec 12) (done : Nat) : Bytes :=
  [BitVec.ofNat 8 status, BitVec.ofNat 8 reason] ++ leBytes 2 tag ++ leBytes 4 hg ++ leBytes 8 req ++ leBytes 8 ledger.toNat
    ++ leBytes 2 owner.toNat ++ leBytes 2 done

/-- A flit of hop `h` that came in on port `n` cannot be forwarded (R380): it is dropped, and the head of a request is
answered with PARTNER_LOST over the return route `ret`. A VC3 request carries no handle and no request word to be
returned: those bytes are free (log 87). -/
def State.unforwarded (s : State) (n : Nat) (f : Flit) (ret h : Nat) : State :=
  let s := s.dropFlit
  if carriesRet f.typ then
    let window := f.typ = 0x20 ∨ f.typ = 0x22
    let hg := if window then fldAt f.payload 0 4 else (Config.freeWord s.freeCtr).toNat % 2 ^ 32
    let req := if window then fldAt f.payload 4 8 else (Config.freeWord (s.freeCtr + 1)).toNat
    let s := if window then s else s.draw.2.draw.2
    s.answerFlit ret h 0x25 1 f.tsf.toNat
      (nackPayload stPartnerLost 0x0B (f.tsf.toNat % 64) hg req (s.dieLedger (n / 32)).now s.srcId 0)
  else s

/-- The route to a device for a VC3 request: the lowest entry of the requesting slot whose EGRESS is UP, then among
standing routes (R385). -/
def State.routeTo (s : State) (slot device : Nat) : Option RouteEntry :=
  let good (r : RouteEntry) : Bool := r.valid && decide (r.dest = device) && decide ((s.fport r.egress).state = .up)
  match s.routes.find? fun e => good e.2 && !e.2.standing && decide (e.2.slot = slot) with
  | some e => some e.2
  | none => (s.routes.find? fun e => good e.2 && e.2.standing).map Prod.snd

end Sys2Proof.Machine
end

