-- ==== Sys2Proof/Machine/Catalogue.lean ====
section
/-! DEFINITION. The catalogue's operations on one session: the completion record, token packets, the ends of a session
and the reference count of an edition (R287 to R291, R331 to R338, R357). -/

namespace Sys2Proof.Machine

open Sys2Proof

/-- The module ledger: the leading die's (R234). -/
def State.now (s : State) : W64 := (s.dieLedger s.leadDie).now

-- end reasons (R337)

def endStop : Nat := 1
def endLength : Nat := 2
def endTime : Nat := 3
def endCancelled : Nat := 4
def endTimeout : Nat := 5
def endFault : Nat := 6
def endRefused : Nat := 7
def endNumeric : Nat := 8
def endStalled : Nat := 9

/-- STATUS of a completion record (R337). -/
def endStatus (reason : Nat) : Nat :=
  if reason = endCancelled then stCancelled
  else if reason = endTimeout ∨ reason = endStalled then stTimeout
  else if reason = endFault ∨ reason = endNumeric then stFault
  else if reason = endRefused then stRefused
  else stOk

/-- A session handle (R288). -/
def sessHandle (i : Nat) (x : Session) : Nat := i * 2 ^ 20 + x.gen.toNat

/-- DETAIL of a completion record (R338). -/
def Session.recordDetail (x : Session) : Nat :=
  if x.endReason = endStop then x.endDetail else if x.endReason = endRefused then x.refuseReason else 0

/-- The 64 bytes of a completion record (R338). -/
def Session.record (i : Nat) (x : Session) : Bytes :=
  leBytes 4 (sessHandle i x)
    ++ [BitVec.ofNat 8 x.endReason,
        BitVec.ofNat 8 (x.cancelSeen.toNat + 2 * x.archival.toNat + 4 * x.speculative.toNat),
        BitVec.ofNat 8 x.recordDetail, BitVec.ofNat 8 (endStatus x.endReason)]
    ++ leBytes 4 x.promptTokens ++ leBytes 4 x.generated ++ leBytes 4 x.steps.toNat ++ leBytes 4 x.proposed.toNat
    ++ leBytes 4 x.accepted.toNat ++ leBytes 8 x.ledgerOpen.toNat ++ leBytes 8 x.ledgerFirst.toNat
    ++ leBytes 8 x.ledgerEnd.toNat ++ [BitVec.ofNat 8 (if x.ran then x.edition else 0xFF)] ++ List.replicate 11 0#8

/-- The payload of a TOKEN packet (R333). -/
def Session.tokenPayload (i : Nat) (x : Session) (p : TokPkt) : Bytes :=
  leBytes 4 (sessHandle i x)
    ++ [BitVec.ofNat 8 p.tokens.length, BitVec.ofNat 8 (p.final.toNat + 2 * p.first.toNat),
        BitVec.ofNat 8 x.logprobs, 0]
    ++ leBytes 4 p.seq ++ leBytes 4 0
    ++ leBytes 8 ((p.tokens.head?.map fun t => t.stamp.toNat).getD 0)
    ++ leBytes 8 ((p.tokens.getLast?.map fun t => t.stamp.toNat).getD 0)
    ++ (p.tokens.flatMap fun t => leBytes 4 t.id) ++ (p.tokens.flatMap fun t => t.logprob)
    ++ (if p.final then x.record i else [])

/-- The TOKEN packet of a payload, class 1 (R396, R420). -/
def tokenPacket (payload : Bytes) : TxPacket := ⟨3, 1, 3, 0, 0, 0, 0, payload⟩

/-- A free descriptor keeps its generation (R288). -/
def Session.freed (x : Session) : Session := { Session.reset with gen := x.gen }

/-- Sessions of a slot's deployment in one of the states that `sel` accepts, ascending. -/
def State.sessionsOf (s : State) (slot : Nat) (sel : SessState → Bool) : List (Nat × Session) :=
  s.sessions.filter fun e => sel e.2.state && decide (e.2.slot = slot)

/-- States in which a session counts as bound to its edition (R357). -/
def SessState.bound (x : SessState) : Bool :=
  decide (x = .opened) || decide (x = .admitted) || decide (x = .prefill) || decide (x = .decode) || decide (x = .ending)

/-- States in which a session counts in a batch (R298). -/
def SessState.inBatch (x : SessState) : Bool := decide (x = .admitted) || decide (x = .prefill) || decide (x = .decode)

/-- The reference count of an edition of a slot on the head (R357). -/
def State.refCount (s : State) (slot index : Nat) : Nat :=
  ((s.sessionsOf slot SessState.bound).filter fun e => e.2.edition = index).length
    + (if (s.slot slot).prog.rows.any fun r => (s.session r.index).edition = index then 1 else 0)

/-- Whether the slot holds the deployment's head: role 0 (R285). -/
def Slot.isHead (x : Slot) : Bool := match x.folio with | some f => f.role = 0 | none => false

/-- A slot's folio kind, 0 without one. -/
def Slot.kind (x : Slot) : Nat := match x.folio with | some f => f.kind | none => 0

/-- Whether the slot holds a deployment (R285). -/
def Slot.isDeployment (x : Slot) : Bool :=
  match x.folio with | some f => f.kind = 1 && f.sessions | none => false

/-- After CLOSED: FREE at once while AUTO_FREE is 1 (R290). -/
def State.autoFree (s : State) (i : Nat) : State :=
  if s.adm.autoFree ∧ (s.session i).state = .closed then s.modSession i Session.freed else s

/-- Every CLOSED descriptor becomes FREE while AUTO_FREE is 1 (R290). -/
def State.autoFreeAll (s : State) : State := (s.sessions.map Prod.fst).foldl (fun (s : State) i => s.autoFree i) s

/-- Takes a session out of its admission queue. -/
def State.unqueue (s : State) (i : Nat) : State :=
  let slot := (s.session i).slot
  (s.modSlot slot fun x => { x with queue := x.queue.filter (· ≠ i) }).modSession i fun x => { x with queued := false }

/-- OPEN or ADMITTED to CLOSED: pages and prompt store freed, the record sent in the same action (R290, R336). -/
def State.closeSession (s : State) (i reason : Nat) : State :=
  let s := s.unqueue i
  let now := s.now
  let s := s.modSession i fun x =>
    { x with state := .closed, endReason := reason, endDetail := 0, ledgerEnd := now, pages := 0, charge := 0
             punits := 0, row := 511, openPkt := none, closedPkts := [] }
  let x := s.session i
  (s.sendPacket x.port (tokenPacket (x.tokenPayload i ⟨x.generated, [], false, true⟩))).autoFree i

/-- A row's session to ENDING: pages and prompt store freed, the open packet closed with FINAL (R290, R334). -/
def State.endRow (s : State) (i reason detail : Nat) (stamp : W64) : State :=
  s.modSession i fun x =>
    let last := match x.openPkt with
      | some p => { p with final := true }
      | none => ⟨x.generated, [], false, true⟩
    { x with state := .ending, endReason := reason, endDetail := detail, ledgerEnd := stamp, pages := 0, punits := 0
             row := 511, openPkt := none, closedPkts := x.closedPkts ++ [last], tree := [] }

/-- The oldest closed packet leaves for its port; the one with the record ends the session (R290, R335, R336). -/
def State.sendToken (s : State) (i : Nat) : State :=
  let x := s.session i
  match x.closedPkts with
  | [] => s
  | p :: rest =>
    let s := s.sendPacket x.port (tokenPacket (x.tokenPayload i p))
    let s := s.modSession i fun x => { x with closedPkts := rest }
    if p.final then (s.modSession i fun x => { x with state := .closed, charge := 0 }).autoFree i else s

/-- Sends every closed packet of a session (R283). -/
def State.flushTokens (s : State) (i : Nat) : State :=
  (s.session i).closedPkts.foldl (fun (s : State) _ => s.sendToken i) s

/-- A program fault on its deployment's sessions (R290, R331). -/
def State.faultSessions (s : State) (slot : Nat) : State :=
  let now := s.now
  let s := (s.sessionsOf slot SessState.inBatch).foldl (fun (s : State) e => s.endRow e.1 endFault 0 now) s
  (s.sessionsOf slot fun x => x = .opened).foldl (fun (s : State) e => s.closeSession e.1 endFault) s

end Sys2Proof.Machine
end

