-- ==== Sys2Proof/Machine/Reclaim.lean ====
section
/-! DEFINITION. Giving memory, cores, slots and editions back: the close of windows over memory that is to be cleared
(R213), clearing (R81, R124, R156, R182, R192), an EMPTY slot (R273, R340), the retirement of an edition (R358), the
steps of TENANT_RELEASE (R283) and of TENANT_BIND (R280 to R282). -/

namespace Sys2Proof.Machine

open Sys2Proof

-- windows

/-- A window with an extent in partition `p` of shelf `k`. -/
def Window.over (w : Window) (k p : Nat) : Bool := w.extents.any fun e => shelfAt e.base = k && partAt e.base = p

/-- OPEN or CLOSING. -/
def Window.live (w : Window) : Bool := decide (w.state = .opened) || decide (w.state = .closing)

/-- Begins the close of an OPEN window (R210, R213). -/
def State.beginClose (s : State) (h : Nat) : State :=
  let now := s.now.toNat
  s.modWindow h fun w => if w.state = .opened then { w with state := .closing, closeBegun := now } else w

/-- Begins the close of every window that `sel` picks. -/
def State.beginCloses (s : State) (sel : Window → Bool) : State :=
  (s.windows.filter fun e => sel e.2).foldl (fun (s : State) e => s.beginClose e.1) s

/-- Admitted requests of a window that are not answered (R209). -/
def State.inflight (s : State) (h : Nat) : Nat := (s.admitted.filter fun a => a.handle = h).length

-- clearing

/-- Endpoint after a tenant change: unbound and emptied, its counters kept (R156). -/
def Endpoint.cleared (e : Endpoint) : Endpoint := { Endpoint.reset with hwm := e.hwm, stall := e.stall }

/-- The working state of a core is cleared; its counters stay (R62, R81, R124, R156, R192). -/
def Core.cleared (k : Core) : Core :=
  { k with
    mx := { MatrixUnit.reset with rows := k.mx.rows, swapWait := k.mx.swapWait, stall := k.mx.stall }
    vx := { k.vx with desc := [], scales := [], masks := [], trap := 0, draws := [] }
    sq := { k.sq with istore := [], parityBad := [], loops := [], calls := [], s := 0, step := 0, stamp := none
                      padded := false }
    queues := (k.queues.map fun e => (e.1, e.2.cleared)).filter fun e => e.2 ≠ Endpoint.reset
    xf := { k.xf with descs := [], running := [], out := [] } }

/-- Resets to unloaded every ring of the core's cluster that it produces or consumes (R156). -/
def State.unloadRings (s : State) (c : Nat) : State :=
  s.modCluster (clusterOf c) fun k =>
    let rings := k.rings.map fun e =>
      if e.2.valid ∧ (e.2.producer = c % 8 ∨ e.2.consumer = c % 8) then (e.1, { Ring.reset with stall := e.2.stall })
      else e
    { k with rings := rings.filter fun e => e.2 ≠ Ring.reset }

/-- Clears a core's working state (R81, R124, R156, R192). -/
def State.clearCore (s : State) (c : Nat) : State := (s.modCore c Core.cleared).unloadRings c

/-- Starts the clearing of a carrel and of its core's state; afterwards the core is bound to `next` (R182, R184). -/
def State.startCarrelClear (s : State) (c : Nat) (next : Option (BitVec 8)) (waitFor : Option Nat) : State :=
  let s := s.clearCore c
  let s := s.modSq c fun q => { q with tenant := if q.tenant = next then next else none }
  s.modCar c fun k => { k with clearing := true, nextTenant := next, waitFor := waitFor }

/-- Makes a clearing of a partition due, and begins the close of the windows over it (R213). -/
def State.markClear (s : State) (k p : Nat) (next : PartKind) (owner : Option (BitVec 8)) (waitFor : Option Nat) : State :=
  (s.modPart k p fun x => { x with next := next, nextOwner := owner, due := true, waitFor := waitFor }).beginCloses
    fun w => w.over k p

/-- Starts the due clearings whose windows are all closed (R213). -/
def State.startDue (s : State) : State :=
  let targets := s.clusters.flatMap fun c => (c.2.parts.filter fun e => e.2.due).map fun e => (c.1, e.1)
  targets.foldl (fun (s : State) (t : Nat × Nat) =>
    if s.windows.any fun w => w.2.live && w.2.over t.1 t.2 then s
    else s.modPart t.1 t.2 fun x => { x with kind := .clearing, owner := x.nextOwner, due := false, hash := none, clearRow := [] }) s

-- editions

/-- Bytes of a VC3 message, RET zero (R385). -/
def vc3Payload (kind index seq : Nat) (folio manifest : Bytes) (state : Nat) : Bytes :=
  [BitVec.ofNat 8 kind, BitVec.ofNat 8 index] ++ leBytes 2 seq ++ folio.take 8 ++ List.replicate (8 - folio.length) 0
    ++ manifest.take 8 ++ List.replicate (8 - manifest.length) 0 ++ [BitVec.ofNat 8 state, 0, 0, 0]

/-- Sends a VC3 request to a device on behalf of a slot; false where no route qualifies (R385). -/
def State.sendVc3 (s : State) (slot device typ : Nat) (payload : Bytes) : State × Bool :=
  match s.routeTo slot device with
  | some r => (s.sendOver r typ 3 0 payload, true)
  | none => (s, false)

/-- Digest of a slot's folio, empty without one. -/
def Slot.digest (x : Slot) : Bytes := match x.folio with | some f => f.digest | none => []

/-- Sends a request of a kind to every device named, with fresh numbers; answers which it waits for as (role, device,
SEQ), and the roles that no route leads to, ascending (R353, R354, R358, R385). -/
def State.askAll (s : State) (index typ kind : Nat) (devices : List Nat) : State × List (Nat × Nat × Nat) × List Nat :=
  let e := s.edition index
  let folio := (s.slot e.slot).digest
  let manifest := if typ = 0x41 then [] else e.digest
  (devices.zipIdx 1).foldl (fun (a : State × List (Nat × Nat × Nat) × List Nat) (d : Nat × Nat) =>
    let seq := a.1.acc.nextSeq
    let s := { a.1 with acc := { a.1.acc with nextSeq := seq + 1 } }
    let r := s.sendVc3 e.slot d.1 typ (vc3Payload kind index seq.toNat folio manifest 0)
    if r.2 then (r.1, a.2.1 ++ [(d.2, d.1, seq.toNat)], a.2.2) else (r.1, a.2.1, a.2.2 ++ [d.2])) (s, [], [])

/-- RESEND or RESEND_FAIL fields (R384). -/
def resendPayload (digest : Bytes) (shard reason : Nat) : Bytes :=
  digest.take 16 ++ leBytes 4 shard ++ [BitVec.ofNat 8 reason]

/-- Retires an entry: RETIRING, attempts stopped, held requests refused, notices sent on the head, the side's partitions
due for clearing (R358, R351). -/
def State.retireEdition (s : State) (index : Nat) : State :=
  let e := s.edition index
  if e.state = .free ∨ e.state = .retiring then s
  else
    let s := e.held.foldl (fun (s : State) h => s.sendLocal h.1 0x33 2 (resendPayload e.digest h.2 2)) s
    let notify := (s.slot e.slot).isHead && decide (e.named ≠ [])
    let r := if notify then s.askAll index 0x43 3 e.named else (s, [], [])
    let s := r.1.modEdition index fun e =>
      { e with
        state := .retiring, held := []
        shards := e.shards.map fun x => if x.state = .arriving then { x with state := .wanted } else x
        talk := if notify then some ⟨3, r.2.1, [], [], decide (r.2.2 ≠ [])⟩ else none }
    e.parts.foldl (fun (s : State) kp =>
      s.markClear kp.1 kp.2 .resident (s.part kp.1 kp.2).owner none) s

/-- A DRAINING edition of a slot that nothing references is retired at once on the head (R357). -/
def State.drainCheck (s : State) (slot : Nat) : State :=
  if (s.slot slot).isHead then
    (List.range 16).foldl (fun (s : State) i =>
      if (s.edition i).state = .draining ∧ (s.edition i).slot = slot ∧ s.refCount slot i = 0 then s.retireEdition i
      else s) s
  else s

-- slots

/-- The cores that a slot's folio claims (R258, R273). -/
def Slot.cores (x : Slot) : List Nat :=
  match x.folio with | some f => (onesBelow f.clusters 32).flatMap clusterCores | none => []

/-- The clusters that a slot's folio claims. -/
def Slot.claims (x : Slot) (k : Nat) : Bool := match x.folio with | some f => f.clusters.getLsbD k | none => false

/-- Partitions assigned to a slot's logical partitions (R265). -/
def Slot.parts (x : Slot) : List (Nat × Nat) :=
  match x.folio with | some f => f.lparts.filterMap LogPart.at_ | none => []

/-- Gives back the route entries that a slot holds (R379). -/
def State.dropRoutes (s : State) (slot : Nat) : State :=
  (s.routes.filter fun r => r.2.valid && !r.2.standing && decide (r.2.slot = slot)).foldl
    (fun (s : State) r => s.setRoute r.1 RouteEntry.reset) s

/-- Starts the clearing of a carrel whose core keeps its tenant (R182). -/
def State.wipeCarrel (s : State) (c : Nat) (waitFor : Option Nat) : State :=
  let t := (s.core c).sq.tenant
  s.modCar c fun k => { k with clearing := true, nextTenant := t, waitFor := waitFor }

/-- A slot becomes EMPTY: its cores are released and no longer pad, its routes are given back, its editions retire,
and the carrels of a reading-room or self-test folio are cleared (R273, R275, R340, R379, R514). -/
def State.emptySlot (s : State) (slot : Nat) : State :=
  let s := (List.range 16).foldl (fun (s : State) i =>
    if (s.edition i).slot = slot then s.retireEdition i else s) s
  let s := (s.slot slot).cores.foldl (fun (s : State) c => s.modSq c fun q => { q with padded := false }) s
  let test := match (s.slot slot).folio with | some f => f.kind = 3 || f.kind = 4 | none => false
  let s := if test then (s.slot slot).cores.foldl (fun (s : State) c => s.wipeCarrel c none) s else s
  let s := s.dropRoutes slot
  s.modSlot slot fun x => { x with state := .empty, load := none, check := LoadCheck.reset, folio := none, prog := Prog.reset, queue := []
                                   admits := [] }

/-- One endpoint of a core takes undefined bindings (R275). -/
def State.freeEndpoint (s : State) (n c q : Nat) : State :=
  let w := (Config.freeTable n (1024 + q)).toNat
  s.modQueue c q fun e =>
    { e with bound := decide (w % 2 = 1), packet := decide (w / 2 % 2 = 1), cut := w / 4 % 256, peerCore := w / 1024 % 256
             peerQep := w / 2 ^ 18 % 32, peerRole := w / 2 ^ 23 % 4096, route := w / 2 ^ 35 % 2048 }

/-- A core's instruction store and tables are undefined after a failed load (R275). -/
def State.freeCore (s : State) (c : Nat) : State :=
  let n := s.freeCtr
  let s := s.draw.2
  let t := Config.freeTable n
  let s := s.modCore c fun k =>
    { k with sq := { k.sq with istore := Config.freeStore n, padded := false }
             xf := { k.xf with
               descs := (List.range 256).map fun i => (i, ⟨t (4 * i), t (4 * i + 1), t (4 * i + 2), t (4 * i + 3)⟩)
               running := (List.range 256).map fun i => (i, ((t (1056 + 2 * i)).toNat % 2 ^ 48, (t (1057 + 2 * i)).toNat % 2 ^ 48)) } }
  (List.range 32).foldl (fun (s : State) q => s.freeEndpoint n c q) s

/-- A cluster's ring table is undefined after a failed load (R275). -/
def State.freeRings (s : State) (k : Nat) : State :=
  let n := s.freeCtr
  let s := s.draw.2
  (List.range 64).foldl (fun (s : State) r =>
    let w := (Config.freeTable n r).toNat
    s.modRing k r fun x =>
      { Ring.reset with
        valid := decide (w % 2 = 1), shelf := decide (w / 2 % 2 = 1), producer := w / 4 % 8, consumer := w / 32 % 8
        owner := w / 256 % 8, slotSize := 64 * (w / 2048 % 1024 + 1), slots := w / 2 ^ 21 % 4096 + 1
        base := (Config.freeTable n (64 + r)).toNat % 2 ^ 29, patience := BitVec.ofNat 16 (w / 2 ^ 33), stall := x.stall }) s

/-- The slot of a load that failed is EMPTY again; the cores that it claimed keep undefined stores and tables (R275). -/
def State.undoLoad (s : State) (slot : Nat) : State :=
  let x := s.slot slot
  let ks := (List.range 32).filter x.claims
  let s := (ks.flatMap clusterCores).foldl State.freeCore s
  let s := ks.foldl State.freeRings s
  s.emptySlot slot

/-- A load fails: its command completes and the slot is EMPTY (R275). -/
def State.failLoad (s : State) (slot : Nat) (r : Reply) : State :=
  match (s.slot slot).load with
  | some (p, tag) => (s.undoLoad slot).complete p tag r
  | none => s

-- TENANT_RELEASE and TENANT_BIND

/-- Everything a tenant holds or that is cleared on its behalf is given back. -/
def State.tenantClear (s : State) (t : Nat) : Bool :=
  (s.clusters.all fun c => c.2.parts.all fun e => decide (e.2.waitFor ≠ some t))
    && (s.cores.all fun c => decide (c.2.car.waitFor ≠ some t))

/-- Tenant number as a register field. -/
def tenantId (t : Nat) : Option (BitVec 8) := some (BitVec.ofNat 8 t)

/-- Sets VALID to 0 in every remote window entry of a tenant (R206). -/
def State.dropRemote (s : State) (t : Nat) : State :=
  (s.remote.filter fun e => e.2.valid && decide (e.2.tenant.toNat = t)).foldl
    (fun (s : State) e => s.modRemoteWin e.1 fun r => { r with valid := false }) s

/-- Steps 3 to 7 of R283, as far as they can go now. -/
def State.advanceRelease (s : State) (t : Nat) : State :=
  if s.slots.any fun e => decide (e.2.tenant = t) && decide (e.2.state ≠ .empty) then s
  else
    let s := (List.range 16).foldl (fun (s : State) i =>
      if (s.edition i).state ≠ .free ∧ (s.edition i).tenant = t then s.retireEdition i else s) s
    if s.editions.any fun e => decide (e.2.state ≠ .free) && decide (e.2.tenant = t) then s
    else
      let s := s.beginCloses fun w => w.tenant.toNat = t
      let s := s.dropRemote t
      if s.windows.any fun w => w.2.live && decide (w.2.tenant.toNat = t) then s
      else
        let parts := s.clusters.flatMap fun c =>
          (c.2.parts.filter fun e => decide (e.2.owner = tenantId t) && !e.2.due && decide (e.2.kind ≠ .clearing)).map
            fun e => (c.1, e.1)
        let s := parts.foldl (fun (s : State) kp => s.markClear kp.1 kp.2 .free none (some t)) s
        let s := s.startDue
        let cores := (s.cores.filter fun c => decide (c.2.sq.tenant = tenantId t) && !c.2.car.clearing).map Prod.fst
        let s := cores.foldl (fun (s : State) c => s.startCarrelClear c none (some t)) s
        let s := s.modTenant t fun x => { x with clusters := 0 }
        let held := (s.clusters.any fun c => c.2.parts.any fun e => decide (e.2.owner = tenantId t))
          || (s.cores.any fun c => decide (c.2.sq.tenant = tenantId t) || decide (c.2.car.nextTenant = tenantId t))
        if s.tenantClear t ∧ held = false then
          (s.modTenant t fun _ => Tenant.reset).completeWhere (fun w => decide (w = .release t)) (Reply.ok [])
        else s

/-- The owner that a partition has once its due clearing is over. -/
def Part.heir (p : Part) : Option (BitVec 8) := if p.due then p.nextOwner else p.owner

/-- The tenant whose grant names a cluster. -/
def State.clusterTenant (s : State) (k : Nat) : Option Nat :=
  (s.tenants.find? fun e => e.2.clusters.getLsbD k).map Prod.fst

/-- A TENANT_BIND payload (R413): the partitions it names as (cluster, partition, kind). -/
def bindParts (b : Bytes) : List (Nat × Nat × PartKind) :=
  (List.range (fldAt b 8 2)).map fun i =>
    let w := fldAt b (40 + 2 * i) 2
    (bits w 13 9, bits w 8 6, if bits w 15 14 = 1 then .resident else .working)

/-- Check order 1 of R282, with the fields' own ranges (R413, R284). -/
def bindMalformed (b : Bytes) : Bool :=
  let n := fldAt b 8 2
  let ws := (List.range n).map fun i => fldAt b (40 + 2 * i) 2
  decide (b.length < 40) || decide (512 < n) || decide (b.length ≠ 40 + 2 * n) || !zeroAt b 1 3 || !zeroAt b 10 2
    || !zeroAt b 21 3 || (ws.any fun w => decide (bits w 15 14 ≠ 1 ∧ bits w 15 14 ≠ 2) || decide (w % 64 ≠ 0))
    || !decide ((ws.map fun w => bits w 13 6).Nodup) || decide (4096 < fldAt b 12 4)

/-- A partition entry of TENANT_BIND with an unknown kind or an RSVD bit, or naming a partition again (R282 order 1). -/
def bindEntryBad (b : Bytes) (i : Nat) : Bool :=
  let w := fldAt b (40 + 2 * i) 2
  decide (bits w 15 14 ≠ 1 ∧ bits w 15 14 ≠ 2) || decide (w % 64 ≠ 0)
    || (List.range i).any fun j => decide (bits (fldAt b (40 + 2 * j) 2) 13 6 = bits w 13 6)

/-- INDEX of a MALFORMED TENANT_BIND (R408): the partition entry at fault, 0 where a field of the fixed part is. -/
def bindBadIndex (b : Bytes) : Nat :=
  let n := fldAt b 8 2
  if b.length < 40 ∨ 512 < n ∨ b.length ≠ 40 + 2 * n then 0 else firstBad n (bindEntryBad b)

/-- The owner that a partition would have after the grant. -/
def State.partAfter (s : State) (t : Nat) (named : List (Nat × Nat × PartKind)) (k p : Nat) : Option (BitVec 8) :=
  if named.any fun e => e.1 = k && e.2.1 = p then tenantId t
  else if (s.part k p).heir = tenantId t then none else (s.part k p).heir

/-- R281 after the grant: one tenant per shelf, and only its cluster's tenant above a bound cluster. -/
def State.bindFits (s : State) (t : Nat) (mask : BitVec 32) (named : List (Nat × Nat × PartKind)) : Bool :=
  (List.range 32).all fun k =>
    let owners := ((List.range 8).filterMap fun p => s.partAfter t named k p).map BitVec.toNat
    let cl := if mask.getLsbD k then some t
              else match s.clusterTenant k with
                | some u => if u = t then none else some u
                | none => none
    match cl with
    | some u => owners.all fun o => o = u
    | none => match owners with
      | [] => true
      | o :: os => os.all fun x => x = o

/-- Clusters that the grant removes or moves. -/
def State.bindMovesCluster (s : State) (t : Nat) (mask : BitVec 32) (k : Nat) : Bool :=
  match s.clusterTenant k with
  | some u => if u = t then !mask.getLsbD k else mask.getLsbD k
  | none => false

/-- Partitions that the grant removes or moves. -/
def State.bindMovesPart (s : State) (t : Nat) (named : List (Nat × Nat × PartKind)) (k p : Nat) : Bool :=
  match (s.part k p).heir with
  | some u => decide (s.partAfter t named k p ≠ some u)
  | none => false

/-- A slot in a state that refuses the move and what it claims moves (R282 order 4). -/
def State.bindBlocked (s : State) (t : Nat) (mask : BitVec 32) (named : List (Nat × Nat × PartKind)) (x : Slot) : Bool :=
  ((List.range 32).any fun k => x.claims k && s.bindMovesCluster t mask k)
    || (x.parts.any fun kp => s.bindMovesPart t named kp.1 kp.2)

/-- A RESIDENT partition that holds an edition not yet retired moves. -/
def State.bindEdition (s : State) (t : Nat) (named : List (Nat × Nat × PartKind)) (e : Edition) : Bool :=
  decide (e.state ≠ .free) && e.parts.any fun kp => s.bindMovesPart t named kp.1 kp.2

/-- The checks of R282 in order, with the module state and the charter (R405, R407) and debug access (R468); none
where the grant may be made. -/
def State.bindCheck (s : State) (port : Nat) (b : Bytes) : Option Reply :=
  let t := fldAt b 0 1
  let mask : BitVec 32 := BitVec.ofNat 32 (fldAt b 4 4)
  let named := bindParts b
  if bindMalformed b then some (Reply.errAt stMalformed (bindBadIndex b))
  else if !s.gen.service then some Reply.readingRoom
  else if !s.holds port then some (Reply.err stNotPermitted)
  else if s.sec.debugUnlocked || ((List.range 32).any fun k => mask.getLsbD k && s.fused k) || !s.bindFits t mask named then
    some (Reply.err stNotPermitted)
  else if (s.tenant t).state = .releasing then some (Reply.wrong 4 2 3 0)
  else
    match s.slots.find? fun e =>
        (decide (e.2.state = .loaded) || decide (e.2.state = .running) || decide (e.2.state = .faulted))
          && s.bindBlocked t mask named e.2 with
    | some e => some (Reply.wrong 2 e.2.state.code 3 0)
    | none =>
      match s.editions.find? fun e => s.bindEdition t named e.2 with
      | some e => some (Reply.wrong 5 e.2.state.code 1 0)
      | none => none

/-- Named memory is still being cleared for an earlier command (R184). -/
def State.bindMustWait (s : State) (mask : BitVec 32) (named : List (Nat × Nat × PartKind)) : Bool :=
  (named.any fun e => (s.part e.1 e.2.1).due || decide ((s.part e.1 e.2.1).kind = .clearing))
    || (onesBelow mask 32).any fun k => (clusterCores k).any fun c => (s.core c).car.clearing

/-- Grants, moves or keeps one partition (R280, R182, R189). -/
def State.bindPart (s : State) (t : Nat) (named : List (Nat × Nat × PartKind)) (k p : Nat) : State :=
  let x := s.part k p
  match named.find? fun e => e.1 = k && e.2.1 = p with
  | some (_, _, kind) =>
    if x.owner.isNone ∧ x.kind = .free ∧ x.due = false then
      let s := s.modPart k p fun x => { x with kind := kind, owner := tenantId t, hash := none }
      if (s.cluster k).inject.part.toNat = p then
        s.modCluster k fun c => { c with inject := { c.inject with arm := false } }
      else s
    else if x.owner = tenantId t ∧ x.kind = kind then s
    else s.markClear k p kind (tenantId t) (some t)
  | none => if x.heir = tenantId t then s.markClear k p .free none (some t) else s

/-- Grants, moves or keeps one cluster's cores (R280, R182, R190). -/
def State.bindCluster (s : State) (t : Nat) (mask : BitVec 32) (k : Nat) : State :=
  if s.bindMovesCluster t mask k then
    (clusterCores k).foldl (fun (s : State) c =>
      s.startCarrelClear c (if mask.getLsbD k then tenantId t else none) (some t)) s
  else if mask.getLsbD k ∧ s.clusterTenant k = none then
    (clusterCores k).foldl (fun (s : State) c =>
      (s.modSq c fun q => { q with tenant := tenantId t }).modCar c fun x =>
        { x with inject := { x.inject with arm := false } }) s
  else s

/-- Puts the grant in force: loads it disturbs end with CANCELLED, memory moves, other tenants lose what moves (R276,
R280, R282). The tenant is BOUND only when the command completes (R29). -/
def State.bindGrant (s : State) (b : Bytes) : State :=
  let t := fldAt b 0 1
  let mask : BitVec 32 := BitVec.ofNat 32 (fldAt b 4 4)
  let named := bindParts b
  let loads := (s.slots.filter fun e => decide (e.2.state = .loading) && s.bindBlocked t mask named e.2).map Prod.fst
  let s := loads.foldl (fun (s : State) i => s.failLoad i (Reply.err stCancelled)) s
  let s := (List.range 256).foldl (fun (s : State) i => s.bindPart t named (i / 8) (i % 8)) s
  let s := (List.range 32).foldl (fun (s : State) k => s.bindCluster t mask k) s
  let others := (s.tenants.filter fun e => decide (e.1 ≠ t)).map Prod.fst
  let s := others.foldl (fun (s : State) u => s.modTenant u fun x => { x with clusters := x.clusters &&& ~~~mask }) s
  (s.modTenant t fun x =>
    { state := x.state, clusters := mask, sessions := BitVec.ofNat 13 (fldAt b 12 4)
      kvMib := BitVec.ofNat 32 (fldAt b 16 4), share := BitVec.ofNat 8 (fldAt b 20 1)
      folioKeys := BitVec.ofNat 64 (fldAt b 24 8), publisherKeys := BitVec.ofNat 64 (fldAt b 32 8) }).startDue

/-- The binding command of a tenant completes (R29, R280). -/
def State.bound (s : State) (t : Nat) : State := s.modTenant t fun x => { x with state := .bound }

/-- TENANT_BIND, at its arrival and again after each wait for an earlier clearing (R282, R184). -/
def bindOp (port : Nat) (b : Bytes) (s : State) : State × Answer :=
  match s.bindCheck port b with
  | some r => (s, .done r)
  | none =>
    if s.bindMustWait (BitVec.ofNat 32 (fldAt b 4 4)) (bindParts b) then (s, .waits (.bind b))
    else
      let s := s.bindGrant b
      if s.tenantClear (fldAt b 0 1) then (s.bound (fldAt b 0 1), .done (Reply.ok [])) else (s, .waits (.bound (fldAt b 0 1)))

/-- Goes on with a TENANT_BIND that waits. -/
def State.advanceBind (s : State) (port : Nat) (c : Cmd) : State :=
  match c.wait with
  | .bind b => s.operate port c.tag (bindOp port b)
  | .bound t => if s.tenantClear t then (s.bound t).complete port c.tag (Reply.ok []) else s
  | _ => s

/-- After anything that may end a wait: due clearings start, releases and binds go on (R184, R213, R283). -/
def State.progress (s : State) : State :=
  let s := s.startDue
  let t := (s.tenants.filter fun e => decide (e.2.state = .releasing)).map Prod.fst
  let s := t.foldl State.advanceRelease s
  let s := (s.port 0).cmds.foldl (fun (s : State) c => s.advanceBind 0 c) s
  (s.port 1).cmds.foldl (fun (s : State) c => s.advanceBind 1 c) s

/-- A session's completion record is sent or a batch ends: DRAINING editions are checked (R357). -/
def State.sessionEnded (s : State) (slot : Nat) : State := (s.drainCheck slot).progress

end Sys2Proof.Machine
end

