-- ==== Sys2Proof/Machine/Faults.lean ====
section
/-! DEFINITION. Core faults, program faults and what the module does with them: the captures (R157, R90, R109, R118,
R219), PROGRAM_STOP, HOLD ABORT and the sessions (R331, R477 to R480), and a fabric port that goes down (R368, R388,
R389). -/

namespace Sys2Proof.Machine

open Sys2Proof

/-- A window request of the core still waits for its answer. -/
def TransferUnit.waiting (x : TransferUnit) : Bool := decide (x.tags ≠ [])

/-- The core leaves its state for FAULTED and abandons its descriptors; it reads RUN = 1 only while requests already
sent wait (R154, R479). -/
def Core.stopped (k : Core) : Core :=
  { k with sq := { k.sq with faultedFrom := k.sq.mode, mode := .faulted, stamp := none, run := k.xf.waiting }
           xf := { k.xf with out := [] } }

/-- A change of a core's state is reported (R433). -/
def State.raiseMode (s : State) (c : Nat) : State :=
  s.raise (corePage c) 4 [BitVec.ofNat 8 (s.core c).sq.mode.code]

/-- Moves a core to a state, reporting a change (R154, R433). -/
def State.setMode (s : State) (c : Nat) (m : CoreMode) : State :=
  if (s.core c).sq.mode = m then s else (s.modSq c fun q => { q with mode := m }).raiseMode c

-- PROGRAM_STOP reasons (R478)

def reasonCore : Nat := 1
def reasonAbort : Nat := 2
def reasonHoldTimeout : Nat := 3
def reasonHoldMismatch : Nat := 4
def reasonPartnerLost : Nat := 5
def reasonCatalogue : Nat := 6
def reasonMemory : Nat := 7
def reasonIsolate : Nat := 8
def reasonD2d : Nat := 9

/-- One core of a faulting program stops with PROGRAM_STOP (R478). -/
def State.programStop (s : State) (origin reason c : Nat) : State :=
  if (s.core c).sq.mode = .faulted ∨ (s.core c).sq.mode = .isolated ∨ (s.core c).sq.mode = .reset then s
  else
    let pc := (s.core c).sq.pc
    let s := s.modCore c Core.stopped
    (s.capture (corePage c) 0
      [BitVec.ofNat 32 (origin * 2 ^ 24 + reason * 2 ^ 16 + 9), BitVec.ofNat 32 (8 * pc), 0, 0]).raiseMode c

/-- Payload of a HOLD flit (R243). -/
def holdPayload (group id seq flags cause role : Nat) (ledger : W64) : Bytes :=
  leBytes 2 group ++ leBytes 2 id ++ leBytes 2 seq ++ [BitVec.ofNat 8 flags, BitVec.ofNat 8 cause] ++ leBytes 2 role
    ++ List.replicate 6 0#8 ++ leBytes 8 ledger.toNat

/-- Sends HOLD ABORT to every module of every group that spans modules (R244). -/
def State.sendAborts (s : State) (slot : Nat) : State :=
  match (s.slot slot).folio with
  | none => s
  | some f =>
    f.stamps.foldl (fun (s : State) g =>
      let r := Tbl.get GroupRun.reset (s.slot slot).prog.groups g.group
      g.peers.foldl (fun (s : State) p =>
        s.sendOver (s.route p.route) 0x11 0 0 (holdPayload g.group r.id.toNat r.seq.toNat 4 0 f.role s.now)) s) s

/-- A program fault (R477 to R480): a RUNNING slot becomes FAULTED, its cores stop, HOLD ABORT is sent and its sessions
end. Any other slot is unchanged. -/
def State.programFault (s : State) (slot reason : Nat) (origin : Option Nat) : State :=
  if (s.slot slot).state ≠ .running then s
  else
    let cores := (s.slot slot).cores
    let s := s.modSlot slot fun x => { x with state := .faulted }
    let s := cores.foldl (fun (s : State) c =>
      if origin = some c then s else s.programStop (origin.getD 0xFF) reason c) s
    let s := s.sendAborts slot
    (s.faultSessions slot).sessionEnded slot

/-- The RUNNING slot whose program a core belongs to. -/
def State.slotOf (s : State) (c : Nat) : Option Nat :=
  (s.slots.find? fun e => decide (e.2.state = .running) && e.2.claims (clusterOf c)).map Prod.fst

/-- The RUNNING programs that use the memory of a call number (R477). -/
def State.programsUsing (s : State) (a : Nat) : List Nat :=
  (s.slots.filter fun e => decide (e.2.state = .running) &&
    (if isShelf a then e.2.parts.any fun kp => kp.1 = shelfAt a && kp.2 = partAt a
     else e.2.claims (clusterOf (coreAt a)))).map Prod.fst

/-- Faults every RUNNING program that uses a bad word found by another requester (R176, R477). -/
def State.memoryFault (s : State) (a : Nat) : State :=
  (s.programsUsing a).foldl (fun (s : State) i => s.programFault i reasonMemory none) s

/-- A core faults (R157): the capture on the CORE page, the unit's own capture on its page, the state FAULTED. `unit` is
the code of R157; `word` the word of a sequencer cause. -/
def State.coreStop (s : State) (c unit cause offset : Nat) (word : W64) (unitPage : Option (Nat × List W32)) : State :=
  let s := s.modCore c Core.stopped
  let s := s.capture (corePage c) 0
    [BitVec.ofNat 32 (256 * unit + cause), BitVec.ofNat 32 offset, word.extractLsb' 0 32, word.extractLsb' 32 32]
  let s := match unitPage with
    | some (p, caps) => s.capture p 0 caps
    | none => s
  s.raiseMode c

/-- The states in which a core takes no further fault (R154). -/
def State.pastFault (s : State) (c : Nat) : Bool :=
  decide ((s.core c).sq.mode = .faulted) || decide ((s.core c).sq.mode = .isolated) || decide ((s.core c).sq.mode = .reset)

/-- The fault of the program that core `c` runs for, if one is RUNNING (R477). -/
def State.programOf (s : State) (c reason : Nat) (origin : Option Nat) : State :=
  match s.slotOf c with
  | some slot => s.programFault slot reason origin
  | none => s

/-- A core fault that faults its program (R157, R477). -/
def State.coreFault (s : State) (c unit cause offset : Nat) (word : W64) (unitPage : Option (Nat × List W32)) : State :=
  if s.pastFault c then s else (s.coreStop c unit cause offset word unitPage).programOf c reasonCore (some c)

/-- The captures of a faulting word of the matrix, vector or reduction slot: cause, word, the word's own offset (R90). -/
def wordCaps (cause : Nat) (word : W64) (place : WordAt) : List W32 :=
  [BitVec.ofNat 32 cause, word.extractLsb' 0 32, word.extractLsb' 32 32, BitVec.ofNat 32 place.word]

/-- A matrix fault (R90). -/
def State.matrixFault (s : State) (c cause : Nat) (word : W64) (place : WordAt) : State :=
  s.coreFault c 1 cause place.bundle 0 (some (mxePage c, wordCaps cause word place))

/-- A vector fault at an element position (R109). -/
def State.vectorFault (s : State) (c cause pos : Nat) (word : W64) (place : WordAt) : State :=
  s.coreFault c 2 cause place.bundle 0 (some (vecPage c, wordCaps cause word place ++ [BitVec.ofNat 32 pos]))

/-- A reduction fault (R118). -/
def State.reductionFault (s : State) (c cause : Nat) (word : W64) (place : WordAt) : State :=
  s.coreFault c 3 cause place.bundle 0 (some (rduPage c, wordCaps cause word place))

/-- The capture words of a transfer fault: ledger in 4 and 5 (R219). -/
def xferCaps (s : State) (c cause desc offset status reason hg woff : Nat) : List W32 :=
  let now := (s.dieLedger (dieOfCore c)).now
  [BitVec.ofNat 32 (reason * 2 ^ 24 + status * 2 ^ 16 + desc * 2 ^ 8 + cause), BitVec.ofNat 32 offset,
   BitVec.ofNat 32 hg, BitVec.ofNat 32 (woff / 64), now.extractLsb' 0 32, now.extractLsb' 32 32]

/-- A transfer fault: XFE keeps the first since EVT_RAW was last cleared (R219, R476). -/
def State.transferFault (s : State) (c cause desc offset : Nat) (status reason hg woff : Nat := 0) : State :=
  s.coreFault c 4 cause offset 0 (some (xfePage c, xferCaps s c cause desc offset status reason hg woff))

/-- A sequencer fault (R157). -/
def State.sequencerFault (s : State) (c cause offset : Nat) (word : W64) : State := s.coreFault c 0 cause offset word none

def sqIllegal : Nat := 1
def sqStack : Nat := 2
def sqParity : Nat := 3
def sqWatchdog : Nat := 4
def queueIllegal : Nat := 5
def slotEmptyTimeout : Nat := 6
def slotFullTimeout : Nat := 7
def ringOwner : Nat := 8

def xfIllegal : Nat := 1
def xfAddress : Nat := 2
def xfBounds : Nat := 3
def xfNack : Nat := 4
def xfTimeoutCause : Nat := 5
def xfPartnerLost : Nat := 6
def xfEccUeCause : Nat := 7

-- window requests of a core

/-- A request tag of a core. -/
def TransferUnit.tag (x : TransferUnit) (t : Nat) : Option WinTag := (Tbl.get none x.tags t)

/-- Sets a request tag. -/
def TransferUnit.setTag (x : TransferUnit) (t : Nat) (v : Option WinTag) : TransferUnit :=
  { x with tags := Tbl.put none x.tags t v }

/-- A stopped core reads RUN = 0 once no request of its own waits (R479). -/
def State.settle (s : State) (c : Nat) : State :=
  s.modCore c fun k =>
    if k.sq.mode = .faulted ∧ k.xf.waiting = false then { k with sq := { k.sq with run := false } } else k

/-- A request of a core ends with a fault of the core; a further fault of a stopped core is counted and does not replace
the capture (R215, R216, R479). -/
def State.requestStop (s : State) (c tag cause status reason : Nat) (t : WinTag) : State :=
  let s := s.modXf c fun x => x.setTag tag none
  let hg := t.handle * 2 ^ 20 + t.gen
  let caps := xferCaps s c cause t.desc t.offset status reason hg t.woff
  if (s.core c).sq.mode = .faulted then (s.capture (xfePage c) 0 caps).settle c
  else if s.pastFault c then s.settle c
  else (s.coreStop c 4 cause t.offset 0 (some (xfePage c, caps))).settle c

/-- The same with the fault of the core's program: for a lost partner PARTNER_LOST, which no core originates (R215, R477,
R478). -/
def State.requestFault (s : State) (c tag cause status reason : Nat) (t : WinTag) : State :=
  let first := !s.pastFault c
  let s := s.requestStop c tag cause status reason t
  if !first then s
  else if cause = xfPartnerLost then s.programOf c reasonPartnerLost none
  else s.programOf c reasonCore (some c)

-- a fabric port goes down

/-- A flit held for the egress of port `n` is discarded as R380 states (R368, R389): the entry it held on its ingress
port is freed, a routed flit counts, and the head of another module's request is answered. Link-local flits are not
forwarded and do not count (log 152). -/
def State.dropOne (s : State) (n ingress : Nat) (f : Flit) : State :=
  let s := if ingress ≠ 64 ∧ ingress ≠ n then s.freeFlit ingress f.vc.toNat else s
  if f.hops = 0 then s
  else if ingress < 64 then s.unforwarded ingress f (fldAt f.payload (retOffset f.typ) 8) f.hopidx.toNat
  else s.dropFlit

/-- Flits held for a port's egress are discarded (R368, R389). -/
def State.dropHeld (s : State) (n : Nat) : State :=
  let held := [0, 1, 2, 3].flatMap fun vc => (s.fport n).queue vc
  held.foldl (fun (s : State) e => s.dropOne n e.1 e.2) (s.modFport n fun p => { p with queues := [], late := 0 })

/-- A relay through port `n` stops for good (R389). -/
def State.stopRelays (s : State) (n : Nat) : State :=
  (List.range 16).foldl (fun (s : State) i =>
    let e := s.edition i
    if e.state ≠ .free ∧ e.relayOut = true ∧ e.nextPort = n then s.modEdition i fun e => { e with relayStopped := true }
    else s) s

/-- The partner of an UP port is lost or changed (R389): relays through it stop, the cores with requests outstanding
on it fault with XF_PARTNER_LOST (R215), and their programs and those with a route through the port with PARTNER_LOST.
-/
def State.partnerLost (s : State) (n : Nat) : State :=
  let slots := (s.slots.filter fun e => decide (e.2.state = .running) && (match e.2.folio with
    | some f => f.routes.any fun r => (s.route r).egress = n
    | none => false)).map Prod.fst
  let lost := s.cores.flatMap fun c => c.2.xf.tags.filterMap fun e => match e.2 with
    | some t => if (s.route t.route).egress = n then some (c.1, e.1, t) else none
    | none => none
  let s := lost.foldl (fun (s : State) x => s.requestStop x.1 x.2.1 xfPartnerLost 0 0 x.2.2) s
  let s := lost.foldl (fun (s : State) x => s.programOf x.1 reasonPartnerLost none) s
  (slots.foldl (fun (s : State) i => s.programFault i reasonPartnerLost none) s).stopRelays n

/-- A fabric port goes to `st`; leaving UP or TRAINING it takes a cause (R368, R388, R389): what it held is discarded, the
record of its partner is cleared, the programs and requests that used it fault with PARTNER_LOST. -/
def State.portFalls (s : State) (n : Nat) (st : LinkState) (cause : Nat) : State :=
  let s := s.dropHeld n
  let p := s.fport n
  let active := decide (p.state = .up) || decide (p.state = .training)
  let s := s.modFport n fun p =>
    { FabPort.reset with
      state := st, enable := p.enable, retrain := p.retrain, crcErr := p.crcErr, retries := p.retries
      cause := if active then BitVec.ofNat 4 cause else p.cause
      downs := if p.state = .up then sat32 p.downs 1 else p.downs
      vc0Late := p.vc0Late, slotsOf := p.slotsOf, occ := p.occ, creditWait := p.creditWait, badFlit := p.badFlit }
  let s := { s with admitted := s.admitted.filter fun a => decide (a.port ≠ n) }
  let s := if active then (s.raise0 (fportPage n) 1).raise0 (fportPage n) 3 else s
  if p.state = .up then s.partnerLost n else s

end Sys2Proof.Machine
end

