-- ==== Sys2Proof/Machine/UnitOps.lean ====
section
/-! DEFINITION. What the words of the matrix, vector and reduction slots share: which core may run a word, the faults found
at issue, the matrix, vector and reduction words run over a core and the byte memory with its code. -/

namespace Sys2Proof.Machine

open Sys2Proof

/-- A word of a 6-bit opcode and its 58 other bits. -/
def word58 (op : BitVec 6) (args : BitVec 58) : W64 := op ++ args
/-- A vector word of an 8-bit opcode and its 56 other bits (R98). -/
def word56 (op : BitVec 8) (args : BitVec 56) : W64 := op ++ args

/-- The core states in which words run (R153). -/
def CoreMode.runs : CoreMode → Bool
  | .diag => true
  | .service => true
  | .recovery => true
  | _ => false

/-- A core in a state that runs words. -/
def State.runs (s : State) (c : Nat) : Bool := (s.core c).sq.mode.runs

/-- A core's column map: every column where the fuses list none (R83, R84). -/
def State.colMap (s : State) (c : Nat) : BitVec 128 := Tbl.get (BitVec.allOnes 128) s.fuses.columns c

/-- The presented width W (R83). -/
def State.width (s : State) (c : Nat) : Nat := (onesBelow (s.colMap c) 128).length

/-- A fault found when a bundle issues: unit causes of R90, R109, R118, R217 and the sequencer's of R157. -/
inductive IssueFault where
  | matrix (cause : Nat)
  | vector (cause : Nat)
  | reduction (cause : Nat)
  | transfer (cause desc : Nat)
  | sequencer (cause : Nat)
deriving DecidableEq, Repr

/-- Takes a fault found at issue of word `w` that stands at `off` (R157). DEDUCED (log 140): the faulting word has no
effect (R90), so that an MX.LOAD that faults here leaves a FULL shadow plane FULL; R77 empties the plane of a load
that began. -/
def State.issueFault (s : State) (c : Nat) (w : W64) (off : WordAt) : IssueFault → State
  | .matrix k => s.matrixFault c k w off
  | .vector k => s.vectorFault c k 0 w off
  | .reduction k => s.reductionFault c k w off
  | .transfer k d => s.transferFault c k d off.bundle
  | .sequencer k => s.sequencerFault c k off.bundle w

/-- A word that wrote spans of memory, adjoining ones joined: words covered whole have a correct code, and an armed
injection of an unbound carrel takes the first (R174, R190). -/
def State.wrote (s : State) (spans : List (Nat × Nat)) : State :=
  let s := spans.foldl (fun (s : State) x => s.cleanSpan x.1 x.2) s
  match spans with
  | (a, _) :: _ =>
    if !isShelf a && (s.core (coreAt a)).car.inject.arm && s.unowned a then s.rewriteWord (a - a % 8) else s
  | [] => s

/-- Carrel ranges as call numbers. -/
def atBase (base : Nat) (spans : List (Nat × Nat)) : List (Nat × Nat) := spans.map fun x => (base + x.1, x.2)

-- matrix

/-- The call number that MX.LOAD reads (R71). -/
def loadSource (c : Nat) (shelf : Bool) (src : Nat) : Nat := if shelf then shelfBase (clusterOf c) + src else carrelBase c + src

/-- What MX.LOAD finds at issue (R69 to R71, R90, R163). -/
def State.loadFault (s : State) (c : Nat) (w : W64) : Option Nat :=
  let a := loadSource c (fld w 46 46 == 1) (fld w 45 17)
  if loadIllegal w then some mxIllegal
  else if !s.reaches c a then some mxBounds
  else if !extentOk a (tileBytes (fld w 54 51) (fld w 57 55) (s.width c)) then some mxAddress
  else none

/-- What a matrix word finds at issue (R68, R90). -/
def State.matrixIssue (s : State) (c : Nat) (w : W64) : Option Nat :=
  let m := (s.core c).mx
  let mode := (s.core c).sq.mode
  match fld w 63 58 with
  | 0x00 => if fld w 57 0 = 0 then none else some mxIllegal
  | 0x01 => s.loadFault c w
  | 0x02 => mulFault m w
  | 0x03 => storeFault (s.width c) m w
  | 0x04 => setaFault w
  | 0x05 => setsFault w
  | 0x10 => trFault (s.width c) false mode m w
  | 0x11 => trFault (s.width c) true mode m w
  | 0x12 => trFault (s.width c) false mode m w
  | 0x13 => trFault (s.width c) true mode m w
  | _ => some mxIllegal

/-- A matrix word that waits for the shadow load under way (R78, R80). -/
def State.matrixWaits (s : State) (c : Nat) (w : W64) : Bool :=
  match (s.core c).mx.shadow with
  | .loading _ => fld w 63 58 == 0x01 || (fld w 63 58 == 0x02 && fld w 10 10 == 1)
  | _ => false

/-- MX.LOAD issues: the shadow plane is LOADING, and a tile in a shelf is requested there (R65, R71, R525). -/
def State.runLoad (s : State) (c : Nat) (w : W64) (off : WordAt) : State :=
  (s.modMx c fun m => loadRun m w off).offer c .matrix false (loadSource c (fld w 46 46 == 1) (fld w 45 17))
    (tileBytes (fld w 54 51) (fld w 57 55) (s.width c))

/-- MX.MUL streams its rows, unless a read meets an uncorrectable error (R72, R75, R484). -/
def State.runMul (s : State) (c : Nat) (w : W64) (off : WordAt) : State :=
  match s.readSpans (.unit c 0) (atBase (carrelBase c) (mulReads (s.core c).mx w)) with
  | (s, some _) => s.matrixFault c mxEccUe w off
  | (s, none) => let mem := s.mem; s.modMx c fun m => mulRun mem (carrelBase c) m w

/-- MX.STORE writes its rows, unless a merge read meets an uncorrectable error (R73, R177). -/
def State.runStore (s : State) (c : Nat) (w : W64) (off : WordAt) : State :=
  let spans := atBase (carrelBase c) (storeWrites (s.width c) w)
  match s.readSpans (.unit c 0) (spans.flatMap fun x => (partialWords x.1 x.2).map fun a => (a, 8)) with
  | (s, some _) => s.matrixFault c mxEccUe w off
  | (s, none) =>
    let r := storeRun (s.width c) (carrelBase c) (s.core c).mx s.mem w
    (({ s with mem := r.2 } : State).modMx c fun _ => r.1).wrote spans

/-- MX.SETA and MX.SETS (R74). -/
def State.runSeta (s : State) (c : Nat) (w : W64) : State := s.modMx c fun m => setaRun m w
def State.runMxSets (s : State) (c : Nat) (w : W64) : State := s.modMx c fun m => setsRun m w

/-- A tile-axis reduction writes its results (R120, R121). -/
def State.runTileAxis (s : State) (c : Nat) (columns maximum : Bool) (w : W64) (off : WordAt) : State :=
  let bs := trBytes (s.width c) columns maximum (s.core c).mx w
  match s.writeSpan (.unit c 0) (carrelBase c + fld w 40 20) bs with
  | (s, some _) => s.matrixFault c mxEccUe w off
  | (s, none) => s

/-- A matrix word that passed its check at issue. -/
def State.matrixRun (s : State) (c : Nat) (w : W64) (off : WordAt) : State :=
  match fld w 63 58 with
  | 0x01 => s.runLoad c w off
  | 0x02 => s.runMul c w off
  | 0x03 => s.runStore c w off
  | 0x04 => s.runSeta c w
  | 0x05 => s.runMxSets c w
  | 0x10 => s.runTileAxis c false false w off
  | 0x11 => s.runTileAxis c true false w off
  | 0x12 => s.runTileAxis c false true w off
  | 0x13 => s.runTileAxis c true true w off
  | _ => s

/-- The last byte of a shadow load has arrived: FULL, or a fault that leaves the plane EMPTY (R45, R77, R484). -/
def State.shadowDone (s : State) (c : Nat) : State :=
  match (s.core c).mx.shadow with
  | .loading l =>
    let shape := l.shape.toNat
    let fmt := l.wfmt.toNat
    let a := loadSource c l.spc l.src
    let n := tileBytes fmt shape (s.width c)
    match s.readSpan (.unit c 0) a n with
    | (s, some _) => (s.modMx c fun m => { m with shadow := .empty }).matrixFault c mxEccUe l.word l.place
    | (s, none) =>
      match tileOf shape fmt l.tw (s.width c) (s.mem.read a n) with
      | some t => s.modMx c fun m => { m with shadow := .full t }
      | none => (s.modMx c fun m => { m with shadow := .empty }).matrixFault c mxTileFormat l.word l.place
  | _ => s

-- vector and reduction

/-- SESSION_SEED and STEPS of a batch row in the step that a core runs, if the step's batch holds the row (R61, R103). -/
def State.rowInputs (s : State) (c slot row : Nat) : Option (W64 × W32) :=
  match (s.slot slot).prog.batches.find? fun b => b.1 = (s.core c).sq.step with
  | some b => (b.2.find? fun r => r.1 = row).map Prod.snd
  | none => none

/-- The inputs of a stochastic draw that an instruction of core `c` shares among its lanes (R61). -/
def State.srSeed (s : State) (c row : Nat) : SrSeed :=
  match s.slotOf c with
  | none => ⟨0, 0, (s.core c).sq.step, 0, BitVec.ofNat 8 c⟩
  | some slot =>
    let f := (s.slot slot).folio
    let seed := match f with | some f => f.seed | none => 0
    let role := match f with | some f => f.role | none => 0
    match s.rowInputs c slot row with
    | some r => ⟨seed, r.1, r.2, BitVec.ofNat 12 role, BitVec.ofNat 8 c⟩
    | none => ⟨seed, 0, (s.core c).sq.step, BitVec.ofNat 12 role, BitVec.ofNat 8 c⟩

/-- What a vector word finds at issue (R98 to R105, R109). -/
def State.vectorIssue (s : State) (c : Nat) (w : W64) : Option Nat :=
  let bad := match fld w 63 56 with
    | 0x30 => setdIllegal w
    | 0x31 => vsetsIllegal w
    | _ => vxIllegalWord (s.core c).vx (vxWord w)
  if bad then some vxIllegal else none

/-- The surroundings of a vector word on a core. -/
def State.vxCtx (s : State) (c : Nat) (v : VxWord) : VxCtx :=
  ⟨carrelBase c, s.srSeed c (if v.isConv then v.batchRow else 511), (s.core c).vx⟩

/-- The carrel spans that pass `p` of a vector word writes, its disabled elements left out (R96, R97). -/
def VxCtx.passSpans (k : VxCtx) (v : VxWord) (p : Nat) : List (Nat × Nat) :=
  if (v.mset = 0 ∧ v.minv = false) ∨ !v.usesMask ∨ v.op = 0x0E then k.passWrites v p
  else
    let m := min v.n (256 * p + 256) - 256 * p
    let z := if v.op = 0x19 then 1 else if v.op = 0x18 then laneSize v.srcc else laneSize v.typ
    joinRuns (((List.range m).filter fun j => k.unit.enabled v.mset v.minv (256 * p + j)).map fun j =>
      (k.unit.base v.dst + (256 * p + j) * z, z))

/-- The code words that pass `p` of a vector word reads: its operands and the words it writes in part (R177). -/
def VxCtx.eccSpans (k : VxCtx) (v : VxWord) (mem : Memory) (p : Nat) : List (Nat × Nat) :=
  atBase k.base (k.passReads v mem p)
    ++ (atBase k.base (k.passSpans v p)).flatMap fun x => (partialWords x.1 x.2).map fun a => (a, 8)

/-- Reads a vector word's passes through the code, in order; the first that meets an uncorrectable error ends it
(R484). -/
def State.vectorEcc (s : State) (c : Nat) (k : VxCtx) (v : VxWord) : State × Option Nat :=
  if s.upsets = [] then (s, none)
  else (List.range ((v.n + 255) / 256)).foldl (fun (a : State × Option Nat) p =>
    match a.2 with
    | some _ => a
    | none => match a.1.readSpans (.unit c 1) (k.eccSpans v a.1.mem p) with
      | (s, some _) => (s, some p)
      | (s, none) => (s, none)) (s, none)

/-- A vector word that passed its check at issue, over its elements (R92 to R109). -/
def State.runVector (s : State) (c : Nat) (w : W64) (off : WordAt) : State :=
  let v := vxWord w
  let k := s.vxCtx c v
  match s.vectorEcc c k v with
  | (s, ue) =>
    let o := if v.op = 0x32 then (if ue.isSome then ⟨k.unit, s.mem, some (vxEccUe, 0), []⟩ else k.runSetq v s.mem)
             else if v.op = 0x33 then (if ue.isSome then ⟨k.unit, s.mem, some (vxEccUe, 0), []⟩ else k.runStq v s.mem)
             else k.run v ue s.mem
    let s := ({ s with mem := o.mem } : State).modVx c fun _ => o.unit
    let s := s.wrote (atBase k.base o.wrote)
    match o.fault with
    | some (cause, pos) => s.vectorFault c cause pos w off
    | none => s

/-- VX.SETD and VX.SETS (R105). -/
def State.runSetd (s : State) (c : Nat) (w : W64) : State := s.modVx c fun u => setdRun u w
def State.runVxSets (s : State) (c : Nat) (w : W64) : State := s.modVx c fun u => vsetsRun u w

/-- A vector word that passed its check at issue. -/
def State.vectorRun (s : State) (c : Nat) (w : W64) (off : WordAt) : State :=
  match fld w 63 56 with
  | 0x00 => s
  | 0x30 => s.runSetd c w
  | 0x31 => s.runVxSets c w
  | _ => s.runVector c w off

/-- What a reduction word finds at issue (R94, R112, R113, R118, R119). -/
def State.reductionIssue (s : State) (c : Nat) (w : W64) : Option Nat :=
  let u := (s.core c).vx
  let r := rdWord w
  if r.op = 0 then none
  else if (s.core c).rd.tested && !(s.core c).rd.pass then some rdUnavailable
  else if rdIllegalWord u r then some rdIllegal
  else if rdPast u r then some rdAddress
  else none

/-- A reduction word that passed its check at issue (R112 to R116, R118, R484). -/
def State.reductionRun (s : State) (c : Nat) (w : W64) (off : WordAt) : State :=
  let u := (s.core c).vx
  let r := rdWord w
  let base := carrelBase c
  if r.op = 0 then s
  else
    match s.readSpan (.unit c 2) (base + u.base r.src) (r.n * laneSize r.typ) with
    | (s, some _) => s.reductionFault c rdEccUe w off
    | (s, none) =>
      match s.writeSpan (.unit c 2) (base + u.base r.dst) (rdBytes base u r s.mem) with
      | (s, some _) => s.reductionFault c rdEccUe w off
      | (s, none) => s

/-- Where a word that a core runs alone stands: no bundle holds it, and both offsets are those of the pc (log 17). -/
def Sequencer.alone (q : Sequencer) : WordAt := ⟨8 * q.pc, 8 * q.pc⟩

/-- One word that a core runs alone: nothing in a state that runs no words; else its check at issue, then `run`. -/
def State.runAlone (s : State) (c : Nat) (w : W64) (check : Option IssueFault) (run : WordAt → State → State) : State :=
  if !s.runs c then s
  else match check with
    | some f => s.issueFault c w (s.core c).sq.alone f
    | none => run (s.core c).sq.alone s

/-- A matrix word that core `c` runs alone. DESIGN CHOICE (log 142): one that meets a LOADING shadow plane is taken
with no effect and counts nothing; BUNDLE_ISSUE counts such waits (R78, R80). -/
def State.matrixAlone (s : State) (c : Nat) (w : W64) (run : WordAt → State → State) : State :=
  if s.matrixWaits c w then s else s.runAlone c w ((s.matrixIssue c w).map .matrix) run

/-- A vector word that core `c` runs alone. -/
def State.vectorAlone (s : State) (c : Nat) (w : W64) (run : WordAt → State → State) : State :=
  s.runAlone c w ((s.vectorIssue c w).map .vector) run

/-- A reduction word that core `c` runs alone. -/
def State.reductionAlone (s : State) (c : Nat) (w : W64) : State :=
  s.runAlone c w ((s.reductionIssue c w).map .reduction) fun off s => s.reductionRun c w off

end Sys2Proof.Machine
end

