-- ==== Sys2Proof/Machine/QueueOps.lean ====
section
/-! DEFINITION. Queue endpoints and shelf rings (R135 to R147), QDATA of an outbound FQ (R138, R375, R376), and the latch
of the batch ring (R526). -/

namespace Sys2Proof.Machine

open Sys2Proof

-- queues

/-- The classes of R135, by their code in CORE_QINFO (R160). -/
def qepClass (q : Nat) : Option Nat :=
  if q = 0 ∨ q = 1 ∨ q = 16 ∨ q = 17 then some 0
  else if (2 ≤ q ∧ q ≤ 5) ∨ (18 ≤ q ∧ q ≤ 21) then some 1
  else if q = 6 ∨ q = 7 ∨ q = 22 ∨ q = 23 then some 2
  else if (8 ≤ q ∧ q ≤ 11) ∨ (24 ≤ q ∧ q ≤ 27) then some 3
  else none

/-- Depth in entries (R135). -/
def qepDepth (q : Nat) : Nat :=
  match qepClass q with
  | some 0 => 32
  | some 1 => 16
  | some 2 => 128
  | some 3 => 256
  | _ => 0

def qepInbound (q : Nat) : Bool := q < 16

/-- A QEP that words and descriptors may use: not reserved, and bound (R135; NQ always is). -/
def State.qepOk (s : State) (c q : Nat) : Bool :=
  match qepClass q with
  | some 0 => true
  | some _ => (s.queue c q).bound
  | none => false

/-- The inbound endpoint that an outbound one of this module feeds. -/
def State.sinkOf (s : State) (c q : Nat) : Nat × Nat :=
  if q = 16 then (nextCore c, 0) else if q = 17 then (prevCore c, 1)
  else ((s.queue c q).peerCore, (s.queue c q).peerQep)

/-- The outbound endpoint of this module that feeds an inbound one. -/
def State.sourceOf (s : State) (c q : Nat) : Nat × Nat :=
  if q = 0 then (prevCore c, 16) else if q = 1 then (nextCore c, 17)
  else ((s.queue c q).peerCore, (s.queue c q).peerQep)

/-- Occupancy of CORE_QINFO (R160). -/
def Endpoint.occ (q : Nat) (e : Endpoint) : Nat := if qepInbound q then e.entries.length else e.used

/-- Raises the high-water mark (R160). -/
def Endpoint.mark (q : Nat) (e : Endpoint) : Endpoint := { e with hwm := max e.hwm (e.occ q) }

/-- The message at the front of an outbound FQ's buffer, as its entries there and whether its last one is among them: a
packet, or in stream mode one entry (R139, R376; DESIGN CHOICE, log 149). -/
def Endpoint.message (e : Endpoint) : Nat × Bool :=
  if !e.packet then (min 1 e.entries.length, true)
  else
    let n := min 1 e.entries.length + ((e.entries.drop 1).takeWhile fun x => x.sop.isNone).length
    (n, decide (n < e.entries.length) || decide (e.packetLeft = 0))

/-- The message bytes that the next flit of an outbound FQ would carry, and the packet length of the entry that begins
in it (R375). -/
def Endpoint.flitBytes (e : Endpoint) : Bytes × Option Nat :=
  let n := e.message.1
  let all := ((e.entries.take n).flatMap QEntry.data).drop e.sentOff
  let begins := if e.sentOff = 0 then e.entries.head? else if 64 - e.sentOff < 48 ∧ 1 < n then e.entries[1]? else none
  (all.take 48, begins.bind fun x => x.sop)

/-- Sends the QDATA flits that are due, while the egress is UP: those whose 48 bytes are there, and the last flit of a
message, filled with zeros (R138, R375, R376). -/
def State.drainFq (s : State) (c q : Nat) : Nat → State
  | 0 => s
  | fuel + 1 =>
    let e := s.queue c q
    let r := s.route e.route
    let (n, ends) := e.message
    let left := n * 64 - e.sentOff
    if left = 0 ∨ (left < 48 ∧ ends = false) ∨ (s.fport r.egress).state ≠ .up then s
    else
      let (body, sop) := e.flitBytes
      let side := match sop with | some n => 0x80 + (n - 1) | none => 0
      let tsf := side + 2 ^ 8 * e.peerCore + 2 ^ 16 * (e.peerQep - 8)
      let s := s.modQueue c q fun e =>
        let o := if ends = true ∧ left ≤ 48 then 64 * n else e.sentOff + 48
        { e with entries := e.entries.drop (o / 64), sentOff := o % 64 }
      (s.sendOver r 0x10 0 tsf body).drainFq c q fuel

/-- Sends what outbound FQs hold for a port that has come UP (R138). -/
def State.drainPort (s : State) (n : Nat) : State :=
  (s.cores.flatMap fun c => (c.2.queues.filter fun e =>
      decide (qepClass e.1 = some 3) && !qepInbound e.1 && decide ((s.route e.2.route).egress = n)).map fun e => (c.1, e.1)).foldl
    (fun (s : State) x => s.drainFq x.1 x.2 512) s

/-- Whether an entry can be pushed now; an FQ at its depth whose buffer has sent entries draws whether its remote consumer
has returned a credit, which no flit of the manual shows (R136, R137; log 39). -/
def State.canPush (s : State) (c q : Nat) : State × Bool :=
  let e := s.queue c q
  if e.used < qepDepth q then (s, true)
  else if qepClass q = some 3 ∧ e.entries.length < e.used then
    let (n, s) := s.draw
    if Config.freeBit n then (s.modQueue c q fun e => { e with used := e.used - 1 }, true) else (s, false)
  else (s, false)

/-- Pushes one entry (R137, R139). -/
def State.push (s : State) (c q : Nat) (x : QEntry) : State :=
  let s := s.modQueue c q fun e =>
    Endpoint.mark q { e with
      used := e.used + 1
      packetLeft := match x.sop with | some n => n - 1 | none => e.packetLeft - 1
      entries := if qepClass q = some 3 then e.entries ++ [x] else e.entries }
  if qepClass q = some 3 then s.drainFq c q 4
  else
    let (d, p) := s.sinkOf c q
    s.modQueue d p fun e => Endpoint.mark p { e with entries := e.entries ++ [x] }

/-- Pops one entry and returns its credit (R136, R137). -/
def State.pop (s : State) (c q : Nat) : State :=
  let s := s.modQueue c q fun e =>
    { e with
      entries := e.entries.drop 1
      packetLeft := match e.entries.head?.bind QEntry.sop with | some n => n - 1 | none => e.packetLeft - 1 }
  if qepClass q = some 3 then s
  else
    let (d, p) := s.sourceOf c q
    s.modQueue d p fun e => { e with used := e.used - 1 }

/-- An inbound FQ (R135). -/
def inboundFq (q : Nat) : Bool := qepInbound q && decide (qepClass q = some 3)

/-- Counts `n` waiting cycles on an endpoint (R141, R160); those for the next entry of an inbound FQ are kept in mind
until the entry shows whether a link retry delayed it. -/
def State.qstall (s : State) (c q cause n : Nat) : State :=
  let s := s.modQueue c q fun e =>
    { e with stall := sat32 e.stall n, waited := if cause = 7 ∧ inboundFq q then e.waited + n else e.waited }
  s.modCore c fun k => k.countDev cause n

/-- The deviation cause of a wait for an endpoint (R141): LINK_RETRY once a flit of the entry awaited has come with the
mark. -/
def State.qcause (s : State) (c q : Nat) (input : Bool) : Nat :=
  if input then 6
  else if inboundFq q && s.fports.any fun p => p.2.streams.any fun x => decide (x.core = c) && decide (x.qep = q) && x.mark then 1
  else 7

/-- Cycles counted as QUEUE_STALL turn out to be LINK_RETRY. -/
def Core.recount (k : Core) (n : Nat) : Core :=
  let q := k.sq
  let m := min n (Tbl.get 0 q.dev 7).toNat
  let since := min n (Tbl.get 0 q.devSince 7)
  { k with sq := { q with
      dev := Tbl.modify 0 (Tbl.modify 0 q.dev 7 fun v => v - BitVec.ofNat 32 m) 1 fun v => sat32 v m
      devSince := Tbl.modify 0 (Tbl.modify 0 q.devSince 7 fun v => v - since) 1 fun v => v + since } }

/-- The entry that an inbound FQ waited for has come: with the mark, the cycles of the wait were LINK_RETRY (R141;
DEDUCED, log 150). -/
def State.settleWait (s : State) (c q : Nat) (mark : Bool) : State :=
  let n := (s.queue c q).waited
  let s := s.modQueue c q fun e => { e with waited := 0 }
  if mark ∧ 0 < n then s.modCore c fun k => k.recount n else s

-- rings

/-- The call number of slot `i` of a ring of cluster `k` (R143). -/
def Ring.slotAt (r : Ring) (k i : Nat) : Nat :=
  (if r.shelf then shelfBase k else carrelBase (8 * k + r.owner)) + r.base + i * r.slotSize

/-- The ring operation that core `c` may make: MODE 1 puts, MODE 0 takes (R143). -/
def State.ringMine (s : State) (c ring : Nat) (put : Bool) : Bool :=
  let r := s.ring (clusterOf c) ring
  r.valid && decide ((if put then r.producer else r.consumer) = c % 8)

/-- The condition of R144. -/
def Ring.ready (r : Ring) (put : Bool) : Bool := if put then !r.present.contains r.tail else r.present.contains r.head

/-- The cluster of a folio's batch ring (R311). -/
def Folio.batchCluster (f : Folio) : Nat := ((onesBelow f.clusters 32).head?).getD 0

/-- Whether R311 gives the folio a batch ring: a folio that serves sessions, or a DRAFT folio. -/
def Folio.hasBatch (f : Folio) : Bool := f.sessions || decide (f.kind = 2)

/-- The bytes of `n` consecutive slots of a ring from slot `i` (R312). -/
def State.ringBytes (s : State) (k : Nat) (r : Ring) (i n : Nat) : Bytes :=
  (List.range n).flatMap fun j => s.mem.read (r.slotAt k ((i + j) % r.slots)) r.slotSize

/-- Row number, SESSION_SEED and STEPS of the rows of a batch record (R314). -/
def batchRows (b : Bytes) : List (Nat × W64 × W32) :=
  (List.range (leAt b 6 2)).map fun i =>
    let o := 64 + 160 * i
    (leAt b (o + 8) 2 % 512, BitVec.ofNat 64 (leAt b (o + 40) 8), BitVec.ofNat 32 (leAt b (o + 48) 4))

/-- The last two of a list with one more. -/
def lastTwo {α : Type} (l : List α) (x : α) : List α := (l ++ [x]).drop ((l.length + 1) - 2)

/-- The batch ring's latch as slot `i` becomes present (R526): a record's first slot latches its header; its last
makes the rows known to the step's conversions (R61). -/
def State.latchSlot (s : State) (slot k i : Nat) : State :=
  let r := s.ring k 63
  let b := s.ringBytes k r i 1
  let s := s.modProg slot fun p =>
    if p.batchLeft = 0 then
      let hdr : BatchHdr := ⟨BitVec.ofNat 32 (leAt b 0 4), BitVec.ofNat 8 (leAt b 4 1), BitVec.ofNat 8 (leAt b 5 1)⟩
      { p with latched := lastTwo p.latched hdr, batchSlot := i, batchStep := hdr.step
               batchLeft := (leAt b 24 8 + r.slotSize - 1) / r.slotSize - 1 }
    else { p with batchLeft := p.batchLeft - 1 }
  let p := (s.slot slot).prog
  if p.batchLeft = 0 then
    let n := (i + r.slots - p.batchSlot) % r.slots + 1
    let rows := batchRows (s.ringBytes k r p.batchSlot n)
    s.modProg slot fun p => { p with batches := lastTwo p.batches (p.batchStep, rows) }
  else s

/-- The RUNNING slot whose batch ring is ring 63 of a cluster (R311). -/
def State.batchSlotOf (s : State) (k : Nat) : Option Nat :=
  (s.slots.find? fun e => decide (e.2.state = .running) && (match e.2.folio with
    | some f => f.hasBatch && decide (f.batchCluster = k)
    | none => false)).map Prod.fst

/-- A put sets the tail slot's presence bit and advances the tail (R146). -/
def State.ringPut (s : State) (k ring : Nat) : State :=
  let r := s.ring k ring
  let s := s.modRing k ring fun r => { r with present := r.present ++ [r.tail], tail := (r.tail + 1) % r.slots }
  if ring = 63 then
    match s.batchSlotOf k with
    | some slot => s.latchSlot slot k r.tail
    | none => s
  else s

/-- A take clears the head slot's presence bit and advances the head (R146). -/
def State.ringTake (s : State) (k ring : Nat) : State :=
  s.modRing k ring fun r => { r with present := r.present.filter (· ≠ r.head), head := (r.head + 1) % r.slots }

/-- Counts `n` waiting cycles of a ring condition (R145). -/
def State.ringStall (s : State) (c ring n : Nat) : State :=
  let s := s.modRing (clusterOf c) ring fun r => { r with stall := sat32 r.stall n }
  s.modCore c fun k => k.countDev 5 n

end Sys2Proof.Machine
end

