-- ==== Sys2Proof/Machine/TransferOps.lean ====
section
/-! DEFINITION. The transfer engine: the check of XF.GO (R191 to R200, R206), local moves and transposition, queue and ring
streams, window requests and their tags (R207), completion (R201). -/

namespace Sys2Proof.Machine

open Sys2Proof

/-- A descriptor's fields with its running operands (R193, R195): pitches in bytes. -/
structure Xfer where
  sk : Nat
  dk : Nat
  trans : Bool
  es : Nat
  si : Nat
  di : Nat
  rsvd : Nat
  sadv : Nat
  dadv : Nat
  sp : Nat
  dp : Nat
  rows : Nat
  len : Nat
  src : Nat
  dst : Nat
deriving DecidableEq, Repr

/-- The fields of a descriptor (R193). -/
def Desc.fields (d : Desc) (src dst : Nat) : Xfer :=
  { sk := fld d.w0 63 62, dk := fld d.w0 61 60, trans := fld d.w0 59 59 == 1, es := fld d.w0 58 57, si := fld d.w0 56 51
    di := fld d.w0 50 45, rsvd := fld d.w0 44 0, sadv := fld d.w1 63 48, dadv := fld d.w2 63 48
    sp := fld d.w3 63 48 * 16, dp := fld d.w3 47 32 * 16, rows := fld d.w3 31 24 + 1, len := fld d.w3 23 0 + 1
    src := src, dst := dst }

/-- Bits per element under TRANS (R193). -/
def Xfer.width (x : Xfer) : Nat := 4 * 2 ^ x.es

/-- Columns of a transposition (R196). -/
def Xfer.cols (x : Xfer) : Nat := x.len * 8 / x.width

/-- Bytes moved. -/
def Xfer.total (x : Xfer) : Nat := x.rows * x.len

/-- The space of a call number (R162). -/
def spaceOf (a : Nat) : Nat := a / 2 ^ 46 % 4

def isLocal (kind a : Nat) : Bool := kind = 0 && spaceOf a < 2
def isWindow (kind a : Nat) : Bool := kind = 0 && spaceOf a = 2

/-- A descriptor of a core as it would start now; running operands default to the descriptor's own (R192, R195). -/
def TransferUnit.xfer (u : TransferUnit) (i : Nat) : Xfer :=
  let d := Tbl.get Desc.zero u.descs i
  let r := Tbl.get (0, 0) u.running i
  d.fields r.1 r.2

/-- Whether the form of an operand breaks R163, R193 or R195. -/
def operandBad (kind idx a adv pitch : Nat) : Bool :=
  match kind with
  | 0 => idx ≠ 0 || !formOk a
  | 1 => a ≠ 0 || adv ≠ 0 || pitch ≠ 0
  | 2 => a ≠ 0 || adv ≠ 0 || pitch ≠ 0
  | _ => true

/-- The checks of form: XF_ILLEGAL (R193 to R196). -/
def Xfer.illegal (x : Xfer) : Bool :=
  x.sk = 3 || x.dk = 3 || x.rsvd ≠ 0 || (!x.trans && x.es ≠ 0) || operandBad x.sk x.si x.src x.sadv x.sp
    || operandBad x.dk x.di x.dst x.dadv x.dp || (!isLocal x.sk x.src && !isLocal x.dk x.dst)
    || (if x.trans then
          !isLocal x.sk x.src || !isLocal x.dk x.dst || x.len * 8 % x.width ≠ 0 || 128 < x.rows || 128 < x.cols
            || 16384 < x.total || (x.es = 0 && x.rows % 2 ≠ 0)
        else x.dk = 0 && x.dp = 0 && 1 < x.rows)

/-- Bytes from the first to past the last that an operand touches (R197). -/
def Xfer.span (x : Xfer) (dest : Bool) : Nat :=
  if dest then
    if x.trans then (x.cols - 1) * x.dp + (x.rows * x.width + 7) / 8 else (x.rows - 1) * x.dp + x.len
  else (x.rows - 1) * x.sp + x.len

/-- The handle field and the offset of a window call number (R162). -/
def winHandle (a : Nat) : Nat := a / 2 ^ 34 % 2 ^ 12
def winOffset (a : Nat) : Nat := a % 2 ^ 34

/-- The check of one operand (R197, R199, R200, R206). -/
def State.operandFault (s : State) (c desc : Nat) (x : Xfer) (dest : Bool) : Option IssueFault :=
  let kind := if dest then x.dk else x.sk
  let idx := if dest then x.di else x.si
  let a := if dest then x.dst else x.src
  let pitch := if dest then x.dp else x.sp
  if kind = 1 then
    if x.total % 64 ≠ 0 then some (.transfer xfIllegal desc)
    else if (if dest then !(decide (16 ≤ idx) && decide (idx ≤ 27)) else !decide (idx ≤ 11)) || !s.qepOk c idx then
      some (.sequencer queueIllegal)
    else if dest && (s.queue c idx).packet && decide (128 < x.total / 64) then some (.transfer xfIllegal desc)
    else none
  else if kind = 2 then
    if !s.ringMine c idx dest then some (.sequencer ringOwner)
    else if x.total ≠ (s.ring (clusterOf c) idx).slotSize then some (.transfer xfIllegal desc)
    else none
  else if spaceOf a = 2 then
    let w := s.remoteWin (winHandle a)
    if winOffset a % 64 ≠ 0 ∨ x.len % 64 ≠ 0 ∨ pitch % 64 ≠ 0 then some (.transfer xfIllegal desc)
    else if w.valid = false ∨ (s.core c).sq.tenant ≠ some w.tenant then some (.transfer xfBounds desc)
    else if w.pages.toNat * 4096 < winOffset a + x.span dest then some (.transfer xfAddress desc)
    else none
  else if !s.reaches c a then some (.transfer xfBounds desc)
  else if !extentOk a (x.span dest) then some (.transfer xfAddress desc)
  else none

/-- What a transfer word finds at issue (R191, R197, R217). -/
def State.transferIssue (s : State) (c : Nat) (w : W64) : Option IssueFault :=
  let i := fld w 57 50
  match fld w 63 58 with
  | 0 => if fld w 57 0 = 0 then none else some (.transfer xfIllegal 0)
  | 1 =>
    if fld w 48 0 ≠ 0 then some (.transfer xfIllegal i)
    else
      let x := (s.core c).xf.xfer i
      if x.illegal then some (.transfer xfIllegal i)
      else
        match s.operandFault c i x false with
        | some f => some f
        | none => s.operandFault c i x true
  | 2 => if fld w 49 0 = 0 then none else some (.transfer xfIllegal i)
  | 3 => if fld w 56 0 = 0 then none else some (.transfer xfIllegal 0)
  | _ => some (.transfer xfIllegal 0)

-- streams

/-- The pieces of rows that bytes `k` to `k + n - 1` of a stream lie in, as (call number, length). -/
def pieces (base pitch len k n : Nat) : List (Nat × Nat) :=
  if n = 0 then []
  else (List.range ((k + n - 1) / len - k / len + 1)).map fun i =>
    let r := k / len + i
    let lo := max k (r * len)
    (base + r * pitch + (lo - r * len), min (k + n) ((r + 1) * len) - lo)

/-- Reads pieces of local memory in order, through its code. -/
def State.readPieces (s : State) (c : Nat) (ps : List (Nat × Nat)) : State × Option Nat × Bytes :=
  match s.readSpans (.unit c 3) ps with
  | (s, some w) => (s, some w, [])
  | (s, none) => (s.offers c .transfer false ps, none, ps.flatMap fun p => s.mem.read p.1 p.2)

/-- Writes bytes of local memory, which a shelf sees as a request (R177, R525). -/
def State.writeLocal (s : State) (c a : Nat) (bs : Bytes) : State × Option Nat :=
  match s.writeSpan (.unit c 3) a bs with
  | (s, some w) => (s, some w)
  | (s, none) => (s.offer c .transfer true a bs.length, none)

/-- Writes bytes over pieces of local memory in order. -/
def State.writePieces (s : State) (c : Nat) (ps : List (Nat × Nat)) (bs : Bytes) : State × Option Nat :=
  let r := ps.foldl (fun (a : (State × Option Nat) × Bytes) p =>
    match a.1.2 with
    | some _ => a
    | none => (a.1.1.writeLocal c p.1 (a.2.take p.2), a.2.drop p.2)) ((s, none), bs)
  r.1

/-- Copies one row in ascending byte order (R195): byte by byte where the destination overlaps bytes still to be read. -/
def State.copyRow (s : State) (c src dst len : Nat) : State × Option Nat :=
  match s.readPieces c [(src, len)] with
  | (s, some w, _) => (s, some w)
  | (s, none, b) =>
    if src < dst ∧ dst < src + len then
      let m := (List.range len).foldl (fun (m : Memory) i => m.write (dst + i) [m.byte (src + i)]) s.mem
      s.writeLocal c dst (m.read dst len)
    else s.writeLocal c dst b

/-- A local move, row by row (R195). -/
def State.copyRows (s : State) (c : Nat) (x : Xfer) : State × Option Nat :=
  (List.range x.rows).foldl (fun (a : State × Option Nat) r =>
    match a.2 with
    | some _ => a
    | none => a.1.copyRow c (x.src + r * x.sp) (x.dst + r * x.dp) x.len) (s, none)

/-- Element `j` of each source row as destination row `j` (R196, R41). -/
def transposed (x : Xfer) (b : Bytes) (j : Nat) : Bytes :=
  let codes := (List.range x.rows).map fun r =>
    let o := r * x.len * 8 + j * x.width
    bits (leAt b (o / 8) 4) (o % 8 + x.width - 1) (o % 8)
  let v := codes.foldr (fun e acc => e + acc * 2 ^ x.width) 0
  leBytes ((x.rows * x.width + 7) / 8) v

/-- A transposing move (R196). -/
def State.copyTrans (s : State) (c : Nat) (x : Xfer) : State × Option Nat :=
  match s.readPieces c (pieces x.src x.sp x.len 0 x.total) with
  | (s, some w, _) => (s, some w)
  | (s, none, b) =>
    (List.range x.cols).foldl (fun (a : State × Option Nat) j =>
      match a.2 with
      | some _ => a
      | none => a.1.writeLocal c (x.dst + j * x.dp) (transposed x b j)) (s, none)

/-- Replaces an outstanding descriptor of the list, by place. -/
def TransferUnit.setOut (u : TransferUnit) (i : Nat) (o : Outst) : TransferUnit := { u with out := u.out.set i o }

/-- The operands of an outstanding descriptor. -/
def Outst.xfer (o : Outst) : Xfer := o.d.fields o.src o.dst

-- window requests

/-- The requests that a window operand is split into, as (row, offset in the row, length) (R207). -/
def windowPieces (x : Xfer) (window pitch : Nat) : List (Nat × Nat × Nat) :=
  (List.range x.rows).flatMap fun r =>
    let o := winOffset window + r * pitch
    (List.range ((o + x.len - 1) / 2048 - o / 2048 + 1)).map fun i =>
      let lo := max o ((o / 2048 + i) * 2048)
      (r, lo - o, min (o + x.len) ((o / 2048 + i + 1) * 2048) - lo)

/-- The payload of a window request (R383). -/
def requestPayload (handle gen woff len tenant : Nat) : Bytes :=
  leBytes 4 (handle * 2 ^ 20 + gen) ++ leBytes 8 ((len / 64 - 1) * 2 ^ 34 + woff) ++ [BitVec.ofNat 8 tenant, 0, 0, 0]

/-- The lowest free tag of 64. -/
def TransferUnit.freeTag (u : TransferUnit) : Option Nat := (List.range 64).find? fun t => (u.tag t).isNone

/-- Sends the data flits of a message (R376). -/
def State.sendData (s : State) (r : RouteEntry) (typ chan : Nat) (bs : Bytes) : State :=
  (chunks 48 ((bs.length + 47) / 48) bs).foldl (fun (s : State) b => s.sendOver r typ 1 chan b) s

/-- A request over a route whose first hop is down faults its core (R215, R383). -/
def State.checkHop (s : State) (c tag : Nat) (r : RouteEntry) (t : WinTag) : State :=
  if r.valid ∧ (s.fport r.egress).state ≠ .up then s.requestFault c tag xfPartnerLost 0 0 t else s

/-- Sends one window request of an outstanding descriptor (R206, R207). -/
def State.sendRequest (s : State) (c i tag : Nat) (o : Outst) (q : Nat × Nat × Nat) : State :=
  let x := o.xfer
  let write := isWindow x.dk x.dst
  let wa := if write then x.dst else x.src
  let woff := winOffset wa + q.1 * (if write then x.dp else x.sp) + q.2.1
  let lbase := (if write then x.src + q.1 * x.sp else x.dst + q.1 * x.dp) + q.2.1
  let w := s.remoteWin (winHandle wa)
  let r := s.route w.route.toNat
  let chan := c * 64 + tag
  let head := requestPayload w.handle.toNat w.gen.toNat woff q.2.2 w.tenant.toNat
  let t : WinTag := ⟨o.desc, o.inst, o.offset, write, w.handle.toNat, w.gen.toNat, w.route.toNat, r.dest, woff, q.2.2, lbase, 0, false⟩
  if write then
    match s.readPieces c [(lbase, q.2.2)] with
    | (s, some a, _) => s.modXf c fun u => u.setOut i { o with ueAt := some a }
    | (s, none, b) =>
      let s := s.modXf c fun u => (u.setOut i { o with toSend := o.toSend.drop 1 }).setTag tag (some t)
      ((s.sendOver r 0x20 1 chan head).sendData r 0x21 chan b).checkHop c tag r t
  else
    ((s.modXf c fun u => (u.setOut i { o with toSend := o.toSend.drop 1 }).setTag tag (some t)).sendOver r 0x22 1 chan head).checkHop c tag r t

/-- Sends the requests that free tags allow, oldest descriptor first (R207); only active descriptors send (R198). -/
def State.sendRequests (s : State) (c : Nat) : Nat → State
  | 0 => s
  | fuel + 1 =>
    let u := (s.core c).xf
    match (u.out.take 4).findIdx? fun o => o.started && decide (o.toSend ≠ []) && o.ueAt.isNone, u.freeTag with
    | some i, some tag =>
      match u.out[i]? with
      | some o =>
        match o.toSend with
        | q :: _ => (s.sendRequest c i tag o q).sendRequests c fuel
        | [] => s
      | none => s
    | _, _ => s

-- starting and completing

/-- Starts an outstanding descriptor: a local or ring move moves its bytes, a window operand its requests (R195, R196,
R200, R207). An uncorrectable word read stops it (R217). -/
def State.startOut (s : State) (c i : Nat) (o : Outst) : State :=
  let x := o.xfer
  let k := clusterOf c
  let o := { o with started := true }
  if x.sk = 1 ∨ x.dk = 1 then s.modXf c fun u => u.setOut i o
  else if isWindow x.sk x.src ∨ isWindow x.dk x.dst then
    let ps := if isWindow x.dk x.dst then windowPieces x x.dst x.dp else windowPieces x x.src x.sp
    s.modXf c fun u => u.setOut i { o with toSend := ps }
  else
    let r := if x.sk = 2 then
        let g := s.ring k x.si
        match s.readPieces c [(g.slotAt k g.head, g.slotSize)] with
        | (s, some a, _) => (s, some a)
        | (s, none, b) => s.writePieces c (pieces x.dst x.dp x.len 0 x.total) b
      else if x.dk = 2 then
        let g := s.ring k x.di
        match s.readPieces c (pieces x.src x.sp x.len 0 x.total) with
        | (s, some a, _) => (s, some a)
        | (s, none, b) => s.writePieces c [(g.slotAt k g.tail, g.slotSize)] b
      else if x.trans then s.copyTrans c x
      else s.copyRows c x
    r.1.modXf c fun u => u.setOut i { o with done := r.2.isNone, moved := if r.2.isNone then x.total else 0, ueAt := r.2 }

/-- Starts descriptors that are among the four active ones (R198), then sends what window requests can be sent. -/
def State.startActive (s : State) (c : Nat) : State :=
  let s := (List.range 4).foldl (fun (s : State) i =>
    match (s.core c).xf.out[i]? with
    | some o => if o.started then s else s.startOut c i o
    | none => s) s
  s.sendRequests c 64

/-- The signed advance of a call number's offset field, modulo the field (R195). -/
def advance (kind a adv : Nat) : Nat :=
  let m := if kind ≠ 0 then 1 else if spaceOf a = 0 then 2 ^ 21 else if spaceOf a = 1 then 2 ^ 29 else 2 ^ 34
  (a - a % m) + ((a % m : Int) + toSigned 16 adv * 64).emod m |>.toNat

/-- XF.GO that passed its check: the descriptor is outstanding (R191, R195, R198). -/
def State.runGo (s : State) (c : Nat) (w : W64) (off : Nat) : State :=
  let i := fld w 57 50
  let x := (s.core c).xf.xfer i
  let o : Outst :=
    { inst := (s.core c).xf.issued, desc := i, d := Tbl.get Desc.zero (s.core c).xf.descs i, src := x.src, dst := x.dst, offset := off, word := w
      moved := 0, started := false, done := false, toSend := [], ueAt := none }
  let s := s.modXf c fun u =>
    { u with
      out := u.out ++ [o], issued := u.issued + 1
      running := if fld w 49 49 = 1
        then Tbl.put (0, 0) u.running i (advance x.sk x.src x.sadv, advance x.dk x.dst x.dadv) else u.running }
  s.startActive c

/-- XF.RST (R191). -/
def State.runRst (s : State) (c : Nat) (w : W64) : State :=
  s.modXf c fun u =>
    let d := Tbl.get Desc.zero u.descs (fld w 57 50)
    { u with running := Tbl.put (0, 0) u.running (fld w 57 50) (fld d.w1 47 0, fld d.w2 47 0) }

/-- A transfer word that passed its check. -/
def State.transferRun (s : State) (c : Nat) (w : W64) (off : Nat) : State :=
  match fld w 63 58 with
  | 1 => s.runGo c w off
  | 2 => s.runRst c w
  | _ => s

/-- The ring that an outstanding descriptor names, if any. -/
def Xfer.ringOf (x : Xfer) : Option (Nat × Bool) :=
  if x.sk = 2 then some (x.si, false) else if x.dk = 2 then some (x.di, true) else none

/-- Whether a descriptor still has window requests to send or to see answered. -/
def TransferUnit.windowBusy (u : TransferUnit) (o : Outst) : Bool :=
  o.toSend ≠ [] || u.tags.any fun e => match e.2 with | some t => t.inst = o.inst | none => false

/-- An outstanding descriptor has nothing left but to complete (R201). -/
def TransferUnit.finished (u : TransferUnit) (o : Outst) : Bool :=
  let x := o.xfer
  if isWindow x.sk x.src || isWindow x.dk x.dst then o.started && o.ueAt.isNone && !u.windowBusy o else o.done

/-- A window descriptor that still waits for its place among the active ones (R198): its requests are not sent. -/
def Outst.unsent (o : Outst) : Bool :=
  decide (o.toSend ≠ []) || (!o.started && (isWindow o.xfer.sk o.xfer.src || isWindow o.xfer.dk o.xfer.dst))

/-- The waits of a transfer word's bundle by the engine's state (R198, R200, R201): a deviation cause, or the ring whose
condition does not hold. -/
inductive XfWait where
  | cause (n : Nat)
  | ring (n : Nat) (put : Bool)
deriving DecidableEq, Repr

def State.transferWait (s : State) (c : Nat) (w : W64) : Option XfWait :=
  let u := (s.core c).xf
  match fld w 63 58 with
  | 1 =>
    if 16 ≤ u.out.length then some (.cause 8)
    else
      match (u.xfer (fld w 57 50)).ringOf with
      | none => none
      | some (g, put) =>
        if s.ringMine c g put = false then none
        else if u.out.any fun o => o.xfer.ringOf.map Prod.fst = some g then some (.cause 8)
        else if (s.ring (clusterOf c) g).ready put then none
        else some (.ring g put)
  | 3 =>
    let live := u.tags.filterMap Prod.snd
    let held := if fld w 57 57 = 1 then decide (live ≠ []) || u.out.any Outst.unsent else decide (u.out ≠ [])
    if held then some (.cause (if live.any fun t => t.retry then 1 else 8)) else none
  | _ => none

/-- One engine cycle of the core's active queue descriptors (R137, R199): each queue moves one entry, oldest descriptor
first. Answers the queues that could not move their next entry. -/
def State.queueMove (s : State) (c i : Nat) (o : Outst) : State × Option Nat :=
  let x := o.xfer
  let n := x.total / 64
  if x.dk = 1 then
    match s.canPush c x.di with
    | (s, false) => (s, some x.di)
    | (s, true) =>
      let e := s.queue c x.di
      if e.packet ∧ o.moved = 0 ∧ 0 < e.packetLeft then (s.sequencerFault c queueIllegal o.offset o.word, none)
      else
        match s.readPieces c (pieces x.src x.sp x.len o.moved 64) with
        | (s, some a, _) => (s.modXf c fun u => u.setOut i { o with ueAt := some a }, none)
        | (s, none, b) =>
          let s := s.push c x.di ⟨b, if e.packet ∧ o.moved = 0 then some n else none, false⟩
          (s.modXf c fun u => u.setOut i { o with moved := o.moved + 64, done := decide (x.total ≤ o.moved + 64) }, none)
  else
    match (s.queue c x.si).entries with
    | [] => (s, some x.si)
    | e :: _ =>
      if (s.queue c x.si).packet ∧ o.moved = 0 ∧ e.sop ≠ some n then
        (s.sequencerFault c queueIllegal o.offset o.word, none)
      else
        match s.writePieces c (pieces x.dst x.dp x.len o.moved 64) e.data with
        | (s, some a) => (s.modXf c fun u => u.setOut i { o with ueAt := some a }, none)
        | (s, none) =>
          let s := s.pop c x.si
          (s.modXf c fun u => u.setOut i { o with moved := o.moved + 64, done := decide (x.total ≤ o.moved + 64) }, none)

/-- The queue that an outstanding descriptor moves, if it has entries left. -/
def Outst.queueOf (o : Outst) : Option (Nat × Bool) :=
  let x := o.xfer
  if o.done ∨ o.ueAt.isSome ∨ o.started = false then none
  else if x.dk = 1 then some (x.di, true) else if x.sk = 1 then some (x.si, false) else none

/-- One engine cycle of all active queue descriptors; answers the endpoints that held their bundle. -/
def State.queueCycle (s : State) (c : Nat) : State × List Nat :=
  let r := (List.range 4).foldl (fun (a : State × List Nat × List (Nat × Bool)) i =>
    match (a.1.core c).xf.out[i]? with
    | none => a
    | some o =>
      match o.queueOf with
      | none => a
      | some q =>
        if a.2.2.contains q then a
        else
          match a.1.queueMove c i o with
          | (s, some e) => (s, a.2.1 ++ [e], a.2.2 ++ [q])
          | (s, none) => (s, a.2.1, a.2.2 ++ [q])) (s, [], [])
  (r.1, r.2.1)

/-- A core that issues nothing more reads RUN = 0 when the last of its words completes (R132). -/
def Core.drained (k : Core) : Bool :=
  decide (k.xf.out = []) && !k.xf.waiting && (match k.mx.shadow with | .loading _ => false | _ => true)

/-- Completes the oldest outstanding instance of a descriptor that is finished (R198, R200, R201). -/
def State.completeDesc (s : State) (c desc : Nat) : State :=
  let u := (s.core c).xf
  match u.out.findIdx? fun o => decide (o.desc = desc) && u.finished o with
  | none => s
  | some i =>
    match u.out[i]? with
    | none => s
    | some o =>
      let s := s.modXf c fun u => { u with out := u.out.eraseIdx i }
      let s := match o.xfer.ringOf with
        | some (g, true) => s.ringPut (clusterOf c) g
        | some (g, false) => s.ringTake (clusterOf c) g
        | none => s
      s.startActive c

/-- A transfer word that core `c` runs alone, unless it waits. -/
def State.transferAlone (s : State) (c : Nat) (w : W64) (run : WordAt → State → State) : State :=
  if (s.transferWait c w).isSome then s else s.runAlone c w (s.transferIssue c w) run

end Sys2Proof.Machine
end

