-- ==== Sys2Proof/Machine/SequencerOps.lean ====
section
/-! DEFINITION. The sequencer: bundles and their waits (R125 to R128), control words (R129 to R131, R140, R145, R146), the
arrival at a barrier stamp and its HOLD flits (R148 to R151, R242, R243), the end of a run (R132). -/

namespace Sys2Proof.Machine

open Sys2Proof

/-- Words of an instruction store (R125). -/
def storeWords : Nat := 32768

/-- The slot words that a bundle header marks present, matrix first (R126). -/
def headerSlots (h : W64) : List Nat := [63, 62, 61, 60, 59].filter fun b => h.getLsbD b

/-- Engine cycles pass: S and the time of arrivals count them (R148, R149). -/
def Sequencer.passed (q : Sequencer) (n : Nat) : Sequencer := { q with s := (q.s + n) % 2 ^ 24, cycle := q.cycle + n }

/-- Where the word of header bit `b` stands in the bundle at word index `p` (R126). -/
def wordPlace (p : Nat) (ws : List (Nat × W64)) (b : Nat) : WordAt := ⟨8 * p, 8 * (p + 1 + ws.findIdx fun e => e.1 = b)⟩

/-- The words of the bundle at word index `p`, each with its header bit (R126). -/
def Sequencer.bundle (q : Sequencer) (p : Nat) : List (Nat × W64) :=
  (headerSlots (Tbl.get 0 q.istore p)).zipIdx.map fun b => (b.1, Tbl.get 0 q.istore (p + 1 + b.2))

/-- Words of the bundle at `p`, its header included. -/
def Sequencer.bundleLen (q : Sequencer) (p : Nat) : Nat := 1 + (headerSlots (Tbl.get 0 q.istore p)).length

/-- A fault of the header or the fetch at `p`: the cause and the word it records, none past the store, where no word
stands (R125, R126, R157). -/
def Sequencer.fetchFault (q : Sequencer) (p : Nat) : Option (Nat × Option W64) :=
  if storeWords ≤ p then some (sqIllegal, none)
  else if q.parityBad.contains p then some (sqParity, some 0)
  else
    let h := Tbl.get 0 q.istore p
    if fld h 58 0 ≠ 0 ∨ storeWords < p + q.bundleLen p then some (sqIllegal, some h)
    else if q.parityBad.any fun w => decide (p < w) && decide (w < p + q.bundleLen p) then some (sqParity, some 0)
    else none

-- control words

/-- Reserved low bits of each control word (R129). -/
def controlRsvd (op : Nat) : Option Nat :=
  match op with
  | 0x00 => some 58
  | 0x01 => some 19
  | 0x02 => some 43
  | 0x03 => some 58
  | 0x04 => some 43
  | 0x05 => some 34
  | 0x06 => some 58
  | 0x08 => some 43
  | 0x09 => some 51
  | 0x0A => some 51
  | 0x10 => some 12
  | 0x11 => some 12
  | _ => none

/-- Whether CT.WAITQ may name its endpoint (R135, R140). -/
def State.waitqOk (s : State) (c : Nat) (w : W64) : Bool :=
  let q := fld w 57 53
  s.qepOk c q && (fld w 52 52 = 0 || (qepInbound q && (s.queue c q).packet))

/-- The condition of CT.WAITQ (R140). -/
def State.waitqHolds (s : State) (c : Nat) (w : W64) : Bool :=
  let q := fld w 57 53
  let e := s.queue c q
  let n := fld w 50 43 + 1
  if fld w 52 52 = 1 then
    match e.entries.head? with
    | none => false
    | some x =>
      let r := if e.packetLeft = 0 then (match x.sop with | some l => l | none => 1) else e.packetLeft
      decide (min e.cut r ≤ e.entries.length)
  else if qepInbound q then decide (n ≤ e.entries.length)
  else decide (n + e.used ≤ qepDepth q)

/-- The memory that an operand of a descriptor of core `c` names, as (call number, length): its rows, or the slot that a
ring operand takes or puts next (R193, R200); nothing for a queue or a window. -/
def State.operandSpans (s : State) (c : Nat) (x : Xfer) (dest : Bool) : List (Nat × Nat) :=
  let kind := if dest then x.dk else x.sk
  let base := if dest then x.dst else x.src
  if kind = 2 then
    let k := clusterOf c
    let r := s.ring k (if dest then x.di else x.si)
    [(r.slotAt k (if dest then r.tail else r.head), r.slotSize)]
  else if isLocal kind base then
    let len := if dest && x.trans then (x.rows * x.width + 7) / 8 else x.len
    (List.range (if dest && x.trans then x.cols else x.rows)).map fun r => (base + r * (if dest then x.dp else x.sp), len)
  else []

/-- Two lists of memory ranges share a piece of `g` bytes aligned to `g`. -/
def overlap (g : Nat) (a b : List (Nat × Nat)) : Bool :=
  a.any fun x => b.any fun y =>
    decide (0 < x.2) && decide (0 < y.2) && decide (x.1 / g ≤ (y.1 + y.2 - 1) / g) && decide (y.1 / g ≤ (x.1 + x.2 - 1) / g)

/-- A descriptor has read its last local byte. -/
def Outst.readDone (o : Outst) : Bool :=
  o.done || (o.started && isWindow o.xfer.dk o.xfer.dst && decide (o.toSend = []))

/-- CT.RELR waits for earlier words whose bytes overlap the slot (R146). -/
def State.relrWaits (s : State) (c : Nat) (w : W64) : Bool :=
  let k := clusterOf c
  let r := s.ring k (fld w 57 52)
  let put := fld w 51 51 = 1
  let a := r.slotAt k (if put then r.tail else r.head)
  let load := match (s.core c).mx.shadow with
    | .loading l =>
      let b := loadSource c l.spc l.src
      !put && decide (b < a + r.slotSize) && decide (a < b + tileBytes l.wfmt.toNat l.shape.toNat (s.width c))
    | _ => false
  load || (s.core c).xf.out.any fun o => (put || !o.readDone) && overlap 1 (s.operandSpans c o.xfer put) [(a, r.slotSize)]

-- interlocks between units

/-- The ranges of the own carrel that a shadow load under way has still to read (R134). -/
def State.loadReads (s : State) (c : Nat) : List (Nat × Nat) :=
  match (s.core c).mx.shadow with
  | .loading l => if l.spc then [] else [(carrelBase c + l.src, tileBytes l.wfmt.toNat l.shape.toNat (s.width c))]
  | _ => []

/-- The ranges that the descriptors under way have still to read, or to write (R134). -/
def State.pendingSpans (s : State) (c : Nat) (dest : Bool) : List (Nat × Nat) :=
  ((s.core c).xf.out.filter fun o => if dest then !o.done else !o.readDone).flatMap fun o => s.operandSpans c o.xfer dest

/-- The ranges of the own carrel that a matrix word reads and those that it writes. -/
def State.matrixSpans (s : State) (c : Nat) (w : W64) : List (Nat × Nat) × List (Nat × Nat) :=
  let base := carrelBase c
  match fld w 63 58 with
  | 0x01 => (if fld w 46 46 = 1 then [] else [(base + fld w 45 17, tileBytes (fld w 54 51) (fld w 57 55) (s.width c))], [])
  | 0x02 => (atBase base (mulReads (s.core c).mx w), [])
  | 0x03 => ([], atBase base (storeWrites (s.width c) w))
  | 0x10 => ([], [(base + fld w 40 20, 4 * (fld w 47 41 + 1))])
  | 0x12 => ([], [(base + fld w 40 20, 4 * (fld w 47 41 + 1))])
  | 0x11 => ([], [(base + fld w 40 20, 4 * s.width c)])
  | 0x13 => ([], [(base + fld w 40 20, 4 * s.width c)])
  | _ => ([], [])

/-- Those of a vector word. -/
def State.vectorSpans (s : State) (c : Nat) (w : W64) : List (Nat × Nat) × List (Nat × Nat) :=
  let v := vxWord w
  if v.op = 0 ∨ v.op = 0x30 ∨ v.op = 0x31 then ([], [])
  else
    let k := s.vxCtx c v
    let ps := List.range ((v.n + 255) / 256)
    (atBase k.base (ps.flatMap fun p => k.passReads v s.mem p), atBase k.base (ps.flatMap fun p => k.passWrites v p))

/-- Those of a reduction word. -/
def State.reductionSpans (s : State) (c : Nat) (w : W64) : List (Nat × Nat) × List (Nat × Nat) :=
  let u := (s.core c).vx
  let r := rdWord w
  let base := carrelBase c
  if r.op = 0 then ([], []) else ([(base + u.base r.src, r.n * laneSize r.typ)], [(base + u.base r.dst, r.outBytes)])

/-- Those of a transfer word. -/
def State.transferSpans (s : State) (c : Nat) (w : W64) : List (Nat × Nat) × List (Nat × Nat) :=
  if fld w 63 58 = 1 then
    let x := (s.core c).xf.xfer (fld w 57 50)
    (s.operandSpans c x false, s.operandSpans c x true)
  else ([], [])

/-- A bundle waits for an earlier word of another unit (R134): one of its words that passes its check reads a 64-byte
granule of the own carrel that the other unit has still to write, or writes one that it has still to read. -/
def State.granuleWaits (s : State) (c : Nat) (m v r t : W64) : Bool :=
  let own (l : List (Nat × Nat)) : List (Nat × Nat) := l.filter fun x => !isShelf x.1 && decide (coreAt x.1 = c)
  let toRead := own (s.pendingSpans c false)
  let toWrite := own (s.pendingSpans c true)
  let loads := s.loadReads c
  let hit (reads writes : List (Nat × Nat)) (x : List (Nat × Nat) × List (Nat × Nat)) : Bool :=
    overlap 64 (own x.1) writes || overlap 64 (own x.2) reads
  if toRead = [] ∧ toWrite = [] ∧ loads = [] then false
  else
    ((s.matrixIssue c m).isNone && hit toRead toWrite (s.matrixSpans c m))
      || ((s.vectorIssue c v).isNone && hit (toRead ++ loads) toWrite (s.vectorSpans c v))
      || ((s.reductionIssue c r).isNone && hit (toRead ++ loads) toWrite (s.reductionSpans c r))
      || ((s.transferIssue c t).isNone && hit loads [] (s.transferSpans c t))

/-- A CT.WAITQ for credits of an outbound FQ that are not free learns how many its remote consumer has returned: a free
number, of the entries that have left the buffer (R136, R140; log 39). -/
def State.returnCredits (s : State) (c : Nat) (w : W64) : State :=
  let q := fld w 57 53
  let e := s.queue c q
  if fld w 63 58 = 0x08 ∧ s.waitqOk c w = true ∧ s.waitqHolds c w = false ∧ qepInbound q = false ∧ qepClass q = some 3 then
    let (n, s) := s.draw
    let back := (Config.freeWord n).toNat % (e.used - e.entries.length + 1)
    s.modQueue c q fun e => { e with used := e.used - back }
  else s

/-- What a control word waits for. -/
inductive CtWait where
  | queue (q : Nat) (input : Bool)
  | ring (n : Nat) (put : Bool)
  | unit
deriving DecidableEq, Repr

/-- The wait of a control word (R140, R145, R146). -/
def State.controlWait (s : State) (c : Nat) (w : W64) : Option CtWait :=
  let g := fld w 57 52
  let put := fld w 51 51 = 1
  match fld w 63 58 with
  | 0x08 => if s.waitqOk c w && !s.waitqHolds c w then some (.queue (fld w 57 53) (fld w 51 51 = 1)) else none
  | 0x09 => if s.ringMine c g put && !(s.ring (clusterOf c) g).ready put then some (.ring g put) else none
  | 0x0A => if s.ringMine c g put && s.relrWaits c w then some .unit else none
  | _ => none

/-- What a control word finds at issue in the bundle at word index `p` (R129 to R131, R140, R143, R146, R149). DESIGN
CHOICE (log 146): a nonzero reserved bit, a nonzero COUNT under PKT = 1 and PLAN = 0 fault with SQ_ILLEGAL. -/
def State.controlIssue (s : State) (c p : Nat) (w : W64) : Option Nat :=
  let q := (s.core c).sq
  let op := fld w 63 58
  let g := fld w 57 52
  let put := fld w 51 51 = 1
  match controlRsvd op with
  | none => some sqIllegal
  | some n =>
    if w.toNat % 2 ^ n ≠ 0 then some sqIllegal
    else match op with
      | 0x01 => if fld w 33 19 < p then some sqIllegal else if 8 ≤ q.loops.length then some sqStack else none
      | 0x02 => if 8 ≤ q.calls.length then some sqStack else none
      | 0x03 => if q.calls = [] then some sqStack else none
      | 0x08 =>
        if fld w 52 52 = 1 ∧ fld w 50 43 ≠ 0 then some sqIllegal
        else if s.waitqOk c w then none else some queueIllegal
      | 0x09 => if s.ringMine c g put then none else some ringOwner
      | 0x0A =>
        if !s.ringMine c g put then some ringOwner
        else if (s.ring (clusterOf c) g).ready put then none
        else some (if put then slotFullTimeout else slotEmptyTimeout)
      | 0x10 => if fld w 35 12 = 0 then some sqIllegal else none
      | 0x11 => if fld w 35 12 = 0 then some sqIllegal else none
      | _ => none

/-- The loop rule over the stack, top first (R130): the continuation and the stack after it. -/
def loopRule (p depth next : Nat) : List LoopEntry → Nat × List LoopEntry
  | [] => (next, [])
  | t :: r =>
    if t.last = p ∧ t.depth = depth then
      if 1 < t.remaining then (t.start, { t with remaining := t.remaining - 1 } :: r) else loopRule p depth next r
    else (next, t :: r)

/-- CT.LOOP pushes an entry for the bundles that follow `next` (R130). -/
def Sequencer.pushLoop (q : Sequencer) (next : Nat) (w : W64) : Sequencer :=
  { q with loops := ⟨next, fld w 33 19, fld w 57 34 + 1, q.calls.length⟩ :: q.loops }

/-- The continuation after the bundle at `p` of `len` words, its loops counted (R130). -/
def Sequencer.follow (q : Sequencer) (p len : Nat) : Sequencer :=
  let r := loopRule p q.calls.length (p + len) q.loops
  { q with pc := r.1, loops := r.2 }

def Sequencer.runCall (q : Sequencer) (w : W64) : Sequencer :=
  { q with calls := q.pc :: q.calls, pc := fld w 57 43, delay := 1, planned := false }

def Sequencer.runRet (q : Sequencer) : Sequencer :=
  { q with calls := q.calls.drop 1, pc := q.calls.head?.getD 0, delay := 1, planned := false }

def Sequencer.runJump (q : Sequencer) (w : W64) : Sequencer := { q with pc := fld w 57 43, delay := 1, planned := false }

def Sequencer.runDelay (q : Sequencer) (w : W64) : Sequencer := { q with delay := fld w 57 34, planned := true }

def Sequencer.runHalt (q : Sequencer) : Sequencer := { q with halted := true }

-- stamps

/-- The dominant cause since the previous release (R151). -/
def dominant (d : Tbl Nat) : Nat :=
  let best := [1, 2, 3, 4, 5, 6, 7].foldl (fun b c => if Tbl.get 0 d b < Tbl.get 0 d c then c else b) 1
  if 0 < Tbl.get 0 d best then best else if 0 < Tbl.get 0 d 8 then 8 else 0

/-- The cause that a member reports with its arrival (R150). -/
def arrivalCause (st : StampWait) (d : Tbl Nat) : Nat :=
  if st.plan < st.s then dominant d else if 0 < Tbl.get 0 d 2 then 2 else 0

/-- The stamp group of a slot's folio. -/
def Slot.group (x : Slot) (g : Nat) : Option StampEntry :=
  match x.folio with | some f => f.stamps.find? fun e => e.group = g | none => none

/-- The local members of a group are all there. -/
def groupFull (e : StampEntry) (r : GroupRun) : Bool := e.members.all fun c => r.arrived.contains c

/-- Sends the HOLD flits of a group whose last local member has arrived (R242, R243). -/
def State.sendHolds (s : State) (slot c : Nat) (e : StampEntry) (r : GroupRun) (st : StampWait) : State :=
  let role := match (s.slot slot).folio with | some f => f.role | none => 0
  let throttled := decide (0 < Tbl.get 0 (s.core c).sq.devSince 2)
  let flags := (if st.plan < st.s then 1 else 0) + (if throttled then 2 else 0)
  let now := (s.dieLedger (dieOfCore c)).now
  e.peers.foldl (fun (s : State) p =>
    s.sendOver (s.route p.route) 0x11 0 0 (holdPayload e.group r.id.toNat r.seq.toNat flags st.cause role now)) s

/-- A core arrives at its stamp (R149): its cause is fixed, and the group's last local arrival sends the HOLD flits. -/
def State.arrive (s : State) (c : Nat) : State :=
  match (s.core c).sq.stamp, s.slotOf c with
  | some st, some slot =>
    if st.arrived then s
    else
      let st := { st with arrived := true, cause := arrivalCause st (s.core c).sq.devSince, time := (s.core c).sq.cycle }
      let s := s.modSq c fun q => { q with stamp := some st }
      let r := Tbl.get GroupRun.reset (s.slot slot).prog.groups st.group
      if r.remote ≠ [] ∧ r.id ≠ st.id then (s.raise0 (corePage c) 2).programFault slot reasonHoldMismatch none
      else
      let s := s.modProg slot fun p =>
        { p with groups := Tbl.modify GroupRun.reset p.groups st.group fun r =>
            { r with id := st.id, arrived := r.arrived ++ [c] } }
      let r := Tbl.get GroupRun.reset (s.slot slot).prog.groups st.group
      match (s.slot slot).group st.group with
      | some e => if groupFull e r then s.sendHolds slot c e r st else s
      | none => s
  | _, _ => s

/-- A core that waits at a stamp arrives in the cycle in which its S reaches PLAN (R149). -/
def State.reachPlan (s : State) (c : Nat) : State :=
  match (s.core c).sq.stamp with
  | some st => if st.plan ≤ (s.core c).sq.s then s.arrive c else s
  | none => s

/-- CT.STAMP and CT.STEP stop issue; a core whose S is at PLAN or past it arrives at once (R149). -/
def State.runStamp (s : State) (c : Nat) (ends : Bool) (w : W64) : State :=
  let n := (s.core c).sq.s
  let st : StampWait := ⟨BitVec.ofNat 12 (fld w 57 46), fld w 45 36, fld w 35 12, n, ends, false, 0, 0⟩
  let s := s.modSq c fun q => { q with stamp := some st, stampId := st.id }
  if st.plan ≤ n then s.arrive c else s

/-- CT.RELR of a word that passed its check (R146). -/
def State.runRelr (s : State) (c : Nat) (w : W64) : State :=
  if fld w 51 51 = 1 then s.ringPut (clusterOf c) (fld w 57 52) else s.ringTake (clusterOf c) (fld w 57 52)

/-- A control word that passed its check; the pc already stands at the continuation (R129, R130). -/
def State.controlRun (s : State) (c : Nat) (w : W64) : State :=
  match fld w 63 58 with
  | 0x02 => s.modSq c fun q => q.runCall w
  | 0x03 => s.modSq c fun q => q.runRet
  | 0x04 => s.modSq c fun q => q.runJump w
  | 0x05 => s.modSq c fun q => q.runDelay w
  | 0x06 => s.modSq c fun q => q.runHalt
  | 0x0A => s.runRelr c w
  | 0x10 => s.runStamp c false w
  | 0x11 => s.runStamp c true w
  | _ => s

-- bundles

/-- Unit waits on timing: the stall counters, UNIT_STALL once per cycle, LINK_RETRY of the die-to-die
interface, and S (R80, R110, R111, R117, R134, R148, R151). -/
def State.countWaits (s : State) (c : Nat) (w : UnitWaits) : State :=
  let n := max (max w.mx w.vx) (max w.rd w.other)
  if n = 0 ∧ w.link = 0 then s
  else s.modCore c fun k =>
    let k := (k.countDev 8 n).countDev 1 w.link
    { k with mx := { k.mx with stall := sat32 k.mx.stall w.mx }
             vx := { k.vx with stall := sat32 k.vx.stall w.vx }
             rd := { k.rd with stall := sat32 k.rd.stall w.rd }
             sq := k.sq.passed (max n w.link) }

/-- One engine cycle of the core passes: S counts it (R148). -/
def State.passCycle (s : State) (c : Nat) : State := s.modSq c fun q => q.passed 1

/-- TMO_CFG of a CORE page at reset: WDOG_LOG2 20 (R158). -/
def coreTmoReset : W32 := 20

/-- Cycles without a bundle at which the watchdog of a core expires (R158). -/
def State.watchdogLimit (s : State) (c : Nat) : Nat := 2 ^ ((s.tmo (corePage c) coreTmoReset).extractLsb' 0 5).toNat

/-- The bundle watchdog expires (R158). No word raised it: the captured word is free (log 33). -/
def State.watchdogFault (s : State) (c : Nat) : State :=
  (s.draw.2.countTmo (corePage c)).sequencerFault c sqWatchdog (8 * (s.core c).sq.pc) (Config.freeWord s.freeCtr)

/-- A cycle in which the bundle at the pc does not issue: the watchdog counts it, and faults the core at its limit
(R158). -/
def State.heldCycle (s : State) (c : Nat) : State :=
  let s := s.modSq c fun q => { q.passed 1 with idle := q.idle + 1 }
  if s.watchdogLimit c ≤ (s.core c).sq.idle then s.watchdogFault c else s

/-- The word of a slot, named by its header bit. -/
def slotWord (ws : List (Nat × W64)) (b : Nat) : W64 := match ws.find? fun e => e.1 = b with | some e => e.2 | none => 0

/-- The ring that a bundle waits for, as its number, whether it puts, and the word that raises its timeout (R145,
R200): the control word's before the transfer word's. -/
def State.ringAwaits (s : State) (c : Nat) (ws : List (Nat × W64)) : List (Nat × Bool × W64) :=
  (match s.controlWait c (slotWord ws 59) with | some (.ring g put) => [(g, put, slotWord ws 59)] | _ => [])
    ++ (match s.transferWait c (slotWord ws 60) with | some (.ring g put) => [(g, put, slotWord ws 60)] | _ => [])

/-- Counts `n` cycles in which a bundle waits, in each of its slots; answers whether any slot waits (R127, R78, R80, R134,
R141, R145, R146, R198 to R201). -/
def State.bundleWaits (s : State) (c : Nat) (ws : List (Nat × W64)) (n : Nat) : State × Bool :=
  let m := slotWord ws 63
  let t := s.transferWait c (slotWord ws 60)
  let k := s.controlWait c (slotWord ws 59)
  let mw := s.matrixWaits c m
  let gw := s.granuleWaits c m (slotWord ws 62) (slotWord ws 61) (slotWord ws 60)
  let load := mw && fld m 63 58 == 0x01
  let unit := load || gw || decide (t = some (.cause 8)) || decide (k = some .unit)
  let rings := s.ringAwaits c ws
  let s := if mw then s.modMx c fun x =>
      if load then { x with stall := sat32 x.stall n } else { x with swapWait := sat32 x.swapWait n } else s
  let s := if unit then s.modCore c fun x => x.countDev 8 n else s
  let s := match t with
    | some (.cause 1) => s.modCore c fun x => x.countDev 1 n
    | _ => s
  let s := match k with
    | some (.queue q input) => s.qstall c q (s.qcause c q input) n
    | _ => s
  let s := rings.foldl (fun (s : State) e => s.ringStall c e.1 n) s
  let s := if rings = [] then s else s.modSq c fun q => { q with ringWait := q.ringWait + n }
  (s, mw || gw || t.isSome || k.isSome)

/-- The ring wait of a bundle that is past its patience (R145). -/
def State.pastPatience (s : State) (c : Nat) (ws : List (Nat × W64)) : Option (Bool × W64) :=
  ((s.ringAwaits c ws).find? fun e => decide ((s.ring (clusterOf c) e.1).patience.toNat ≤ (s.core c).sq.ringWait)).map
    fun e => e.2

/-- A ring wait ends in its timeout (R145, R200). -/
def State.ringFault (s : State) (c : Nat) (put : Bool) (w : W64) : State :=
  s.sequencerFault c (if put then slotFullTimeout else slotEmptyTimeout) (8 * (s.core c).sq.pc) w

/-- The fault of one slot's word at issue (R157). -/
def State.slotIssue (s : State) (c p : Nat) (b : Nat) (w : W64) : Option IssueFault :=
  match b with
  | 63 => (s.matrixIssue c w).map .matrix
  | 62 => (s.vectorIssue c w).map .vector
  | 61 => (s.reductionIssue c w).map .reduction
  | 60 => s.transferIssue c w
  | _ => (s.controlIssue c p w).map .sequencer

/-- Runs one slot's word, which stands at `o`; the control word acts on the loops' continuation (R130). -/
def State.slotRun (s : State) (c p len : Nat) (b : Nat) (w : W64) (o : WordAt) : State :=
  match b with
  | 63 => s.matrixRun c w o
  | 62 => s.vectorRun c w o
  | 61 => s.reductionRun c w o
  | 60 => s.transferRun c w o.bundle
  | _ =>
    let s := if fld w 63 58 = 0x01 then s.modSq c fun q => q.pushLoop (p + len) w else s
    (s.modSq c fun q => q.follow p len).controlRun c w

/-- Issues the words of a bundle in the order of R128: a fault found at issue in any slot leaves the whole bundle
unissued; a fault while a word runs keeps the later slots from acting (R157). DESIGN CHOICE (log 143): of two vector
words of different latency that write the same bytes, in two bundles, the later one's stay; R111 names no wait between
them. -/
def State.issueBundle (s : State) (c p len : Nat) (ws : List (Nat × W64)) : State :=
  let s := s.modSq c fun q => { q with idle := 0, ringWait := 0 }
  let start := if ws.any fun e => e.1 = 59 then s else s.modSq c fun q => q.follow p len
  let r := ws.foldl (fun (a : State × Option (Nat × W64 × IssueFault)) e =>
    if a.2.isSome then a
    else match a.1.slotIssue c p e.1 e.2 with
      | some f => (a.1, some (e.1, e.2, f))
      | none => (if a.1.runs c then a.1.slotRun c p len e.1 e.2 (wordPlace p ws e.1) else a.1, none)) (start, none)
  match r.2 with
  | some (b, w, f) => s.issueFault c w (wordPlace p ws b) f
  | none =>
    if r.1.runs c then r.1.passCycle c
    else if ws.any fun e => e.1 = 59 then r.1.modSq c fun q => if q.pc = p then q.follow p len else q
    else r.1

/-- Counts the queue descriptors that cannot move their next entry in this cycle (R137, R141, R199). -/
def State.countBlocked (s : State) (c : Nat) (blocked : List Nat) : State :=
  blocked.foldl (fun (s : State) e => s.qstall c e (s.qcause c e false) 1) s

/-- An engine cycle in which requests of the core waited at a shelf: once as BANK_CONFLICT for a conflict, the limit
or want of room at any shelf, once as ECC_WRITEBACK behind a write-back (R151, R172, R525). -/
def State.countShelfWaits (s : State) (c : Nat) : State :=
  let s := if s.clusters.any fun k => k.2.delayed.contains c then s.modCore c fun k => k.countDev 4 1 else s
  if s.clusters.any fun k => k.2.behind.contains c then s.modCore c fun k => k.countDev 3 1 else s

/-- The bundle at the pc of a core is offered (R127): it faults at its fetch or past a ring's patience, waits, or
issues. -/
def State.offerBundle (s : State) (c : Nat) (w : UnitWaits) : State :=
  let p := (s.core c).sq.pc
  match (s.core c).sq.fetchFault p with
  | some (cause, some word) => s.sequencerFault c cause (8 * p) word
  | some (cause, none) => s.draw.2.sequencerFault c cause (8 * p) (Config.freeWord s.freeCtr)
  | none =>
    let ws := (s.core c).sq.bundle p
    let s := s.returnCredits c (slotWord ws 59)
    match s.pastPatience c ws with
    | some (put, word) => s.ringFault c put word
    | none =>
      match s.bundleWaits c ws 1 with
      | (s, true) => s.heldCycle c
      | (s, false) => (s.countWaits c w).issueBundle c p ((s.core c).sq.bundleLen p) ws

/-- One engine cycle of a core's sequencer (R127): queue descriptors move, then the bundle at the pc issues or waits. The
curator's own recovery folio runs out of the model's sight: no rule gives its code (R482). -/
def State.bundleCycle (s : State) (c : Nat) (w : UnitWaits) : State :=
  let q := (s.core c).sq
  if !s.runs c || !q.run || (s.cluster (clusterOf c)).recovering then s
  else
    let (s, blocked) := (s.countShelfWaits c).queueCycle c
    if !s.runs c then s
    else
      let s := s.countBlocked c blocked
      if q.stamp.isSome || q.halted then (s.passCycle c).reachPlan c
      else if 0 < q.delay then
        let s := s.modSq c fun q => { q with delay := q.delay - 1 }
        if q.planned then s.passCycle c else s.heldCycle c
      else if blocked ≠ [] then s.heldCycle c
      else s.offerBundle c w

-- the end of a run

/-- Inbound endpoints and consumed rings that still hold something (R132). -/
def State.residue (s : State) (c : Nat) : Nat :=
  ((List.range 12).filter fun q => (s.queue c q).entries ≠ []).length
    + ((s.cluster (clusterOf c)).rings.filter fun e =>
        e.2.valid && decide (e.2.consumer = c % 8) && decide (e.2.present ≠ [])).length

/-- The last word of a halted core completes: RUN = 0, residues are counted (R132). -/
def State.endRun (s : State) (c : Nat) : State :=
  let k := s.core c
  if k.sq.run = true ∧ k.sq.halted = true ∧ k.drained = true then
    let n := s.residue c
    let s := s.modSq c fun q => { q with run := false, residue := sat32 q.residue n }
    if n = 0 then s else s.raise0 (corePage c) 1
  else s

/-- A control word that core `c` runs alone, as the control word of the bundle at its pc: nothing while it waits, but that
credits may come back (R140). -/
def State.controlAlone (s : State) (c : Nat) (w : W64) (run : WordAt → State → State) : State :=
  if (s.controlWait c w).isSome then s.returnCredits c w
  else s.runAlone c w ((s.controlIssue c (s.core c).sq.pc w).map .sequencer) run

end Sys2Proof.Machine
end

