-- ==== Sys2Proof/Machine/RepairOps.lean ====
section
/-! DEFINITION. Clusters taken out of service and brought back: the column-map digest (R87, R490), isolation (R489), the
clearing of a FAULTED slot (R481), recovery runs (R482), the end of a HALT (R278). -/

namespace Sys2Proof.Machine

open Sys2Proof

/-- The 16 bytes of a core's column map; zeros for a core that does not exist or is ISOLATED (R87, R490). -/
def State.mapBytes (s : State) (c : Nat) : Bytes :=
  if s.fused (clusterOf c) ∨ (s.core c).sq.mode = .isolated then List.replicate 16 0#8 else leBytes 16 (s.colMap c).toNat

/-- GEN_COLMAP_DIGEST (R87). -/
def State.columnDigest (s : State) : Bytes := (sha512 ((List.range 256).flatMap s.mapBytes)).take 8

/-- Computes GEN_COLMAP_DIGEST again (R87, R490). -/
def State.redigest (s : State) : State := { s with gen := { s.gen with colmap := s.columnDigest } }

/-- SHF_STATUS.ISOLATED (R488). -/
def State.isolated (s : State) (k : Nat) : Bool := (clusterCores k).all fun c => decide ((s.core c).sq.mode = .isolated)

/-- A write of ISOLATE or MAPOUT with one cluster fewer to wait for. -/
def Cmd.isolated (c : Cmd) (k : Nat) : Cmd :=
  match c.wait with
  | .isolate l => { c with wait := .isolate (l.filter (· ≠ k)) }
  | _ => c

/-- No command waits for cluster `k` any longer. -/
def State.dropIsolation (s : State) (k : Nat) : State :=
  [0, 1].foldl (fun (s : State) p => s.modPort p fun t => { t with cmds := t.cmds.map fun c => c.isolated k }) s

/-- Every core of a cluster moves to ISOLATED; commands that wait for it complete with OK (R154, R489, R490). -/
def State.isolateCluster (s : State) (k : Nat) : State :=
  let s := (clusterCores k).foldl (fun (s : State) c =>
    (s.modSq c fun q => { q with run := false }).setMode c .isolated) s
  let s := s.modCluster k fun x => { x with isolating := false, recovering := false }
  (s.redigest.dropIsolation k).completeWhere (fun w => decide (w = .isolate [])) (Reply.ok [])

/-- No core of the cluster is in RESET or reads RUN = 1 (R154). -/
def State.canIsolate (s : State) (k : Nat) : Bool :=
  (clusterCores k).all fun c => !(s.core c).sq.run && decide ((s.core c).sq.mode ≠ .reset)

/-- Isolates a cluster now, or as soon as its cores have stopped (R154, R489). -/
def State.startIsolation (s : State) (k : Nat) : State :=
  if s.canIsolate k then s.isolateCluster k else s.modCluster k fun x => { x with isolating := true }

/-- Isolations that wait only for cores to stop. -/
def State.finishIsolations (s : State) : State :=
  ((s.clusters.filter fun e => e.2.isolating).map Prod.fst).foldl (fun (s : State) k =>
    if s.canIsolate k then s.isolateCluster k else s) s

/-- Every core of a slot reads RUN = 0. -/
def State.slotStopped (s : State) (slot : Nat) : Bool := (s.slot slot).cores.all fun c => !(s.core c).sq.run

/-- What the curators make of one cluster of a FAULTED slot (R154, R481, R489): cleared, then, unless it is ISOLATED
already, DIAG after a reading-room or self-test folio, ISOLATED after a fault in RECOVERY or a forced isolation, else
RECOVERY. -/
def State.clearFaulted (s : State) (kind k : Nat) : State :=
  let bad := (clusterCores k).any fun c =>
    decide ((s.core c).sq.mode = .faulted) && decide ((s.core c).sq.faultedFrom = .recovery)
  let s := (clusterCores k).foldl (fun (s : State) c => (s.clearCore c).wipeCarrel c none) s
  if s.isolated k then s
  else if (s.cluster k).isolating ∨ bad then s.isolateCluster k
  else
    (clusterCores k).foldl (fun (s : State) c =>
      s.setMode c (if kind = 3 ∨ kind = 4 then .diag else .recovery)) s

/-- The curators clear a FAULTED slot whose cores all read RUN = 0 (R481); a HALT under way completes with FAULT
(R278). -/
def State.clearFaultedSlot (s : State) (slot : Nat) : State :=
  if (s.slot slot).state ≠ .faulted ∨ s.slotStopped slot = false then s
  else
    let s := s.completeWhere (fun w => decide (w = .halt slot)) (Reply.err stFault)
    let kind := (s.slot slot).kind
    let ks := (List.range 32).filter (s.slot slot).claims
    let s := ks.foldl (fun (s : State) k => s.clearFaulted kind k) s
    (s.emptySlot slot).progress

/-- The end of a HALT (R278): once every core reads RUN = 0 the slot is LOADED again, or the HALT of a program that has
faulted completes with FAULT. -/
def State.endHalt (s : State) (slot : Nat) : State :=
  if (s.slot slot).prog.haltPending = false ∨ s.slotStopped slot = false then s
  else
    let faulted := decide ((s.slot slot).state = .faulted)
    let s := s.modSlot slot fun x =>
      { x with prog := { x.prog with haltPending := false, started := false }
               state := if x.state = .running then .loaded else x.state }
    s.completeWhere (fun w => decide (w = .halt slot)) (if faulted then Reply.err stFault else Reply.ok [])

/-- A HALT takes effect: every core of the program stops issuing (R278). -/
def State.haltCores (s : State) (slot : Nat) : State :=
  (s.slot slot).cores.foldl (fun (s : State) c => s.modSq c fun q => { q with halted := true, stamp := none }) s

/-- The slot that claims a cluster, if any is not EMPTY. -/
def State.claimant (s : State) (k : Nat) : Option Nat :=
  (s.slots.find? fun e => decide (e.2.state ≠ .empty) && e.2.claims k).map Prod.fst

/-- Every core of a cluster is in a state. -/
def State.clusterIn (s : State) (k : Nat) (m : CoreMode) : Bool :=
  (clusterCores k).all fun c => decide ((s.core c).sq.mode = m)

/-- A load of KIND RECOVERY under way may claim a cluster: its first packet has come, its STAMP has not, and the
cluster is its tenant's (R482; DESIGN CHOICE, log 156). -/
def State.mayClaim (s : State) (k : Nat) : Bool :=
  s.slots.any fun e => decide (e.2.state = .loading) && decide (e.2.check.kind = 5) && decide (e.2.check.stage = 0)
    && (clusterCores k).all fun c => decide ((s.core c).sq.tenant = tenantId e.2.tenant)

/-- The curator starts its recovery run on a cluster whose cores are all in RECOVERY and held by no slot (R482);
not where a load may still claim it. -/
def State.startRecovery (s : State) (k : Nat) : State :=
  if s.clusterIn k .recovery ∧ s.claimant k = none ∧ s.mayClaim k = false ∧ (s.cluster k).recovering = false then
    (clusterCores k).foldl (fun (s : State) c => s.modSq c fun q => { q with run := true })
      (s.modCluster k fun x => { x with recovering := true })
  else s

/-- A core has reached CT.HALT with the pass mark in its carrel (R482). -/
def State.recoveryMark (s : State) (c : Nat) : Bool :=
  let q := (s.core c).sq
  q.halted && !q.run && decide (leNat (s.mem.read (carrelBase c + 0x1FFFF8) 8) = 0x50415353)

/-- A recovery run passed: the carrels are cleared again and the cores enter SERVICE (R482). -/
def State.recoveryPass (s : State) (k : Nat) : State :=
  let s := s.modCluster k fun x => { x with recovering := false }
  (clusterCores k).foldl (fun (s : State) c =>
    ((s.wipeCarrel c none).modSq c fun q => { q with run := false }).setMode c .service) s

/-- The end of a recovery run (R482): of the curator's, with the outcome observed; of a software RECOVERY folio,
passed only with every core's halt and mark in time. -/
def State.endRecovery (s : State) (k : Nat) (passed : Bool) : State :=
  let software := match s.claimant k with
    | some i => (s.slot i).kind = 5 && decide ((s.slot i).state ≠ .faulted)
    | none => false
  if (s.cluster k).recovering then
    (if passed && !(s.cluster k).isolating then s.recoveryPass k else s.isolateCluster k)
  else if software && s.clusterIn k .recovery then
    (if passed && (clusterCores k).all s.recoveryMark then s.recoveryPass k else s.isolateCluster k)
  else s

end Sys2Proof.Machine
end

