-- ==== Sys2Proof/Machine/FlitOps.lean ====
section
/-! DEFINITION. Flits that arrive: acceptance into the link sequence, forwarding (R371, R375, R380, R381), the owner's
service of window requests (R202, R208, R209, R211, R214), the requester's responses (R215, R216), queue streams (R138, R375,
R376), HOLD flits (R242 to R244). -/

namespace Sys2Proof.Machine

open Sys2Proof

/-- The return route of a request as it reached this module on port `n` (R381). -/
def flitRet (f : Flit) (n : Nat) : Nat := retWith (fldAt f.payload (retOffset f.typ) 8) n f.hopidx.toNat

/-- The flit with this module's ingress port in its return route (R381). -/
def flitWithRet (f : Flit) (n : Nat) : Flit :=
  if carriesRet f.typ then
    let o := retOffset f.typ
    { f with payload := f.payload.take o ++ leBytes 8 (flitRet f n) ++ f.payload.drop (o + 8) }
  else f

/-- Forwards a routed flit, or drops it (R380). -/
def State.forwardFlit (s : State) (n : Nat) (f : Flit) : State :=
  let h := f.hopidx.toNat + 1
  let egress := f.route.toNat / 2 ^ (6 * (h - 1)) % 64
  if s.fab.idValid ∧ (s.fport egress).state = .up then
    s.queueFlit egress n { flitWithRet f n with hopidx := BitVec.ofNat 3 h }
  else (s.freeFlit n f.vc.toNat).unforwarded n f (flitRet f n) h

/-- A received flit that is not the next of its link's sequence is discarded and NAK is set (R371). -/
def State.rejectFlit (s : State) (n : Nat) : State := s.modFport n fun p => { p with nak := true }

/-- Takes an intact flit into the link sequence of an UP port (R371). -/
def State.acceptFlit (s : State) (n : Nat) : State :=
  s.modFport n fun p => { p with rxNext := p.rxNext + 1, rxAny := true, nak := false }

/-- A flit of an unknown type or of another virtual channel is accepted, discarded and counted (R375). -/
def State.badFlit (s : State) (n vc : Nat) : State :=
  (s.modFport n fun p => { p with badFlit := sat32 p.badFlit 1 }).freeFlit n vc

/-- Receives an intact flit on an UP port and delivers it locally with `act` on its last hop, or forwards it (R371, R375,
R380). -/
def State.receive (s : State) (n : Nat) (f : Flit) (act : State → State) : State :=
  if (s.fport n).state ≠ .up then s
  else if f.lseq ≠ (s.fport n).rxNext then s.rejectFlit n
  else
    let s := s.acceptFlit n
    if vcOfType f.typ ≠ some f.vc.toNat then s.badFlit n f.vc.toNat
    else if f.hops = 0 ∨ f.hopidx.toNat + 1 = f.hops.toNat then act (s.freeFlit n f.vc.toNat)
    else s.forwardFlit n f

-- the owner of a window

/-- Length of a window in bytes. -/
def Window.length (w : Window) : Nat := (w.extents.map Extent.len).sum

/-- The pieces of memory that bytes `o` to `o + n - 1` of a window lie in, as (call number, length) (R202). -/
def extentPieces : List Extent → Nat → Nat → List (Nat × Nat)
  | [], _, _ => []
  | e :: r, o, n =>
    if n = 0 then []
    else if e.len ≤ o then extentPieces r (o - e.len) n
    else
      let k := min n (e.len - o)
      (e.base + o, k) :: extentPieces r 0 (n - k)

/-- The check of a request header: status and reason of the first failing check (R208). -/
def State.checkRequest (s : State) (h gen tenant src off len : Nat) (write : Bool) : Option (Nat × Nat) :=
  let w := s.window h
  if 2048 < off % 2048 + len then some (stMalformed, 0x01)
  else if w.state = .free then some (stStale, 0x02)
  else if src < w.devLo.toNat ∨ w.devHi.toNat < src then some (stNotPermitted, 0x06)
  else if tenant ≠ w.peerTenant.toNat then some (stNotPermitted, 0x07)
  else if w.gen.map BitVec.toNat ≠ some gen then some (stStale, 0x04)
  else if w.state = .closed then some (stStale, 0x02)
  else if w.state = .closing then some (stStale, 0x03)
  else if w.access.getLsbD (if write then 1 else 0) = false then some (stNotPermitted, 0x08)
  else if w.length < off + len then some (stNotPermitted, 0x09)
  else none

/-- Answers a request with a NACK (R214). -/
def State.nackRequest (s : State) (a : Admitted) (hops status reason done : Nat) : State :=
  s.answerFlit a.route hops 0x25 1 (a.core * 64 + a.tag)
    (nackPayload status reason a.tag (a.handle * 2 ^ 20 + a.gen) ((a.len / 64 - 1) * 2 ^ 34 + a.woff)
      (s.dieLedger (a.port / 32)).now s.srcId done)

/-- Counts a request discarded before admission (R218); STALE_WRITE marks a stale write, DENIED a denied request. -/
def State.countRefused (s : State) (status : Nat) (write : Bool) : State :=
  if status = stStale then
    let s := { s with win := { s.win with stale := sat32 s.win.stale 1 } }
    if write then s.raise0 winPage 0 else s
  else ({ s with win := { s.win with denied := sat32 s.win.denied 1 } }).raise0 winPage 1

/-- Removes an admitted request, answered. -/
def State.answered (s : State) (a : Admitted) : State := { s with admitted := s.admitted.erase a }

/-- Sends the next data flit of an admitted read, or the NACK of an uncorrectable word (R209). -/
def State.serveFlit (s : State) (a : Admitted) (hops : Nat) : State :=
  let o := 48 * a.sent
  let n := min 48 (a.len - o)
  let ps := extentPieces (s.window a.handle).extents (a.woff + o) n
  match s.readSpans .net ps with
  | (s, some w) => ((s.answered a).nackRequest a hops stFault 0x0A (o / 64)).memoryFault w
  | (s, none) =>
    let b := ps.flatMap fun p => s.mem.read p.1 p.2
    let s := (s.offers 256 .window false ps).answerFlit a.route hops 0x23 1 (a.core * 64 + a.tag) b
    let s := { s with win := { s.win with bytesOut := s.win.bytesOut + n } }
    if a.len ≤ o + n then s.answered a
    else { s with admitted := s.admitted.map fun x => if x = a then { a with sent := a.sent + 1 } else x }

/-- Serves the admitted reads of a port in order while its VC1 flits leave. -/
def State.serveReads (s : State) (n : Nat) : Nat → State
  | 0 => s
  | fuel + 1 =>
    match s.admitted.find? fun a => decide (a.port = n) && !a.write with
    | none => s
    | some a =>
      if (s.fport n).queue 1 ≠ [] then s else (s.serveFlit a a.hops).serveReads n fuel

/-- The request that a flit's header names. -/
def requestOf (n : Nat) (f : Flit) (write : Bool) : Admitted :=
  let hg := fldAt f.payload 0 4
  let req := fldAt f.payload 4 8
  { port := n, handle := hg / 2 ^ 20, gen := hg % 2 ^ 20, write := write, src := f.src.toNat, tenant := fldAt f.payload 12 1
    core := bits f.tsf.toNat 13 6, tag := bits f.tsf.toNat 5 0, woff := bits req 33 0, len := 64 * (bits req 45 34 + 1)
    got := [], route := flitRet f n, hops := f.hops.toNat, sent := 0 }

/-- Checks a request header, and admits it or answers it with a NACK (R208). -/
def State.checkHeader (s : State) (n : Nat) (f : Flit) (write : Bool) : State :=
  let a := requestOf n f write
  match s.checkRequest a.handle a.gen a.tenant a.src a.woff a.len write with
  | some (status, reason) => (s.countRefused status write).nackRequest a a.hops status reason 0
  | none =>
    let s := { s with admitted := s.admitted ++ [a], win := { s.win with admitted := sat32 s.win.admitted 1 } }
    if write then s else s.serveReads n 64

/-- Lands a write whose last flit has arrived, in one piece, and acknowledges it (R209). -/
def State.landWrite (s : State) (a : Admitted) : State :=
  let ps := extentPieces (s.window a.handle).extents a.woff a.len
  let r := ps.foldl (fun (x : (State × Option Nat) × Bytes) p =>
    match x.1.2 with
    | some _ => x
    | none => (x.1.1.writeSpan .net p.1 (x.2.take p.2), x.2.drop p.2)) ((s, none), a.got.take a.len)
  match r.1 with
  | (s, some w) => ((s.answered a).nackRequest a a.hops stFault 0x0A 0).memoryFault w
  | (s, none) =>
    let s := s.offers 256 .window true ps
    let s := { (s.answered a) with win := { s.win with bytesIn := s.win.bytesIn + a.len } }
    s.answerFlit a.route a.hops 0x24 1 (a.core * 64 + a.tag)
      (leBytes 4 (a.handle * 2 ^ 20 + a.gen) ++ leBytes 8 ((a.len / 64 - 1) * 2 ^ 34 + a.woff))

/-- Write data for an admitted write of its SRC and CHAN (R209, R376); data of a refused request is discarded. -/
def State.takeWriteData (s : State) (n : Nat) (f : Flit) : State :=
  let mine (a : Admitted) : Bool := decide (a.port = n) && a.write && decide (a.src = f.src.toNat)
    && decide (a.core * 64 + a.tag = f.tsf.toNat % 2 ^ 14)
  match s.admitted.find? mine with
  | none => s
  | some a =>
    let b := { a with got := a.got ++ f.payload }
    let s := { s with admitted := s.admitted.map fun x => if x = a then b else x }
    if a.len ≤ b.got.length then s.landWrite b else s

/-- The drain time has passed: admitted requests of a CLOSING window are discarded with a NACK (R211). -/
def State.expireDrain (s : State) (h : Nat) : State :=
  let left := s.admitted.filter fun a => a.handle = h
  left.foldl (fun (s : State) a =>
    let s := { (s.answered a) with win := { s.win with drainDiscard := sat32 s.win.drainDiscard 1 } }
    s.nackRequest a a.hops stStale 0x05 (if a.write then 0 else 48 * a.sent / 64)) s

/-- A CLOSING window becomes CLOSED: its WINDOW_CLOSE completes, and what waited for it goes on (R203, R210, R213). -/
def State.endClose (s : State) (h : Nat) : State :=
  let now := s.now.toNat
  let s := s.modWindow h fun w => { w with state := .closed, closedAt := now }
  ((s.completeWhere (fun w => decide (w = .close h)) (Reply.ok [])).raise0 winPage 3).progress

-- the requester

/-- A response for a tag that holds no such request (R216). -/
def State.lateResponse (s : State) (c : Nat) : State :=
  (s.modXf c fun u => { u with lateResp := sat32 u.lateResp 1 }).raise0 (xfePage c) 1

/-- A response flit with MARK delays its request (R372). -/
def State.markRequest (s : State) (c tag : Nat) (t : WinTag) (mark : Bool) : State × WinTag :=
  if mark then (s.modXf c fun u => u.delay tag, { t with retry := true }) else (s, t)

/-- The request that a response on CHAN answers, if it comes from the device that was asked (R376). -/
def State.asked (s : State) (f : Flit) : Option WinTag :=
  match (s.core (bits f.tsf.toNat 13 6)).xf.tag (bits f.tsf.toNat 5 0) with
  | some t => if t.dest = f.src.toNat then some t else none
  | none => none

/-- A request has its last answer: its tag is free, the core's next request may go, a stopped core may settle (R207,
R479). -/
def State.endRequest (s : State) (c tag : Nat) : State :=
  ((s.modXf c fun u => u.setTag tag none).sendRequests c 64).settle c

/-- The core and tag of a response. -/
def flitChan (f : Flit) : Nat × Nat := (bits f.tsf.toNat 13 6, bits f.tsf.toNat 5 0)

/-- Read data for a request of a core: written locally unless the core has stopped (R201, R479). -/
def State.takeReadData (s : State) (f : Flit) : State :=
  let (c, tag) := flitChan f
  match s.asked f with
  | some t =>
    if t.write then s.lateResponse c
    else
      let (s, t) := s.markRequest c tag t f.mark
      let n := min 48 (t.len - t.got)
      let stopped := decide ((s.core c).sq.mode = .faulted)
      match if stopped then (s, none) else s.writeLocal c (t.lbase + t.got) (f.payload.take n) with
      | (s, some _) => s.transferFault c xfEccUeCause t.desc t.offset
      | (s, none) =>
        if t.len ≤ t.got + n then s.endRequest c tag
        else s.modXf c fun u => u.setTag tag (some { t with got := t.got + n })
  | none => s.lateResponse c

/-- The HANDLE_GEN and the request word that a response echoes are those of the request (R216, R383). -/
def WinTag.echoed (t : WinTag) (hg req : Nat) : Bool :=
  decide (hg = t.handle * 2 ^ 20 + t.gen) && decide (req = (t.len / 64 - 1) * 2 ^ 34 + t.woff)

/-- An ACK for a request of a core (R201); one that echoes another request is no response of the tag. -/
def State.takeAck (s : State) (f : Flit) : State :=
  let (c, tag) := flitChan f
  match s.asked f with
  | some t =>
    if t.write && t.echoed (fldAt f.payload 0 4) (fldAt f.payload 4 8) then
      ((s.markRequest c tag t f.mark).1).endRequest c tag
    else s.lateResponse c
  | none => s.lateResponse c

/-- A NACK for a request of a core (R215, R383); one that echoes another request is no response of the tag. A forwarding
module that cannot reach the owner answers under its own SRC (R380). -/
def State.takeNack (s : State) (f : Flit) : State :=
  let (c, tag) := flitChan f
  let t := if fldAt f.payload 0 1 = stPartnerLost then (s.core c).xf.tag tag else s.asked f
  match t with
  | some t =>
    if !t.echoed (fldAt f.payload 4 4) (fldAt f.payload 8 8) then s.lateResponse c
    else
      let status := fldAt f.payload 0 1
      let s := s.modXf c fun u => { u with nacks := sat32 u.nacks 1 }
      s.requestFault c tag (if status = stPartnerLost then xfPartnerLost else xfNack) status (fldAt f.payload 1 1) t
  | none => s.lateResponse c

-- queue streams

/-- Takes the stream bytes of a QDATA flit, without what fills a message's last flit; answers the stream and the entry it
completes (R138, R375, R376). -/
def QStream.take (q : QStream) (f : Flit) : QStream × Option QEntry :=
  let side := f.tsf.extractLsb' 0 8
  let due := if q.left ≠ 0 then q.left else if side.getLsbD 7 then 64 * ((side.extractLsb' 0 7).toNat + 1) else 64
  let had := q.buf.length
  let buf := q.buf ++ f.payload.take due
  let q := { q with left := due - 48 }
  if buf.length < 64 then
    ({ q with buf := buf, side := if had = 0 then some side else q.side, mark := q.mark || f.mark }, none)
  else
    let sd := if had = 0 then some side else q.side
    let sop := match sd with
      | some b => if b.getLsbD 7 then some ((b.extractLsb' 0 7).toNat + 1) else none
      | none => none
    let rest := buf.drop 64
    ({ q with buf := rest, side := if rest = [] then none else some side, mark := decide (rest ≠ []) && f.mark },
     some ⟨buf.take 64, sop, q.mark || f.mark⟩)

/-- Delivers a QDATA flit to its inbound endpoint (R375). -/
def State.takeQueueData (s : State) (n : Nat) (f : Flit) : State :=
  let c := bits f.tsf.toNat 15 8
  let qep := bits f.tsf.toNat 17 16 + 8
  let same (q : QStream) : Bool := decide (q.src = f.src.toNat) && decide (q.core = c) && decide (q.qep = qep)
  let p := s.fport n
  let q := match p.streams.find? same with | some q => q | none => ⟨f.src.toNat, c, qep, [], none, false, 0⟩
  let (q, e) := q.take f
  let s := s.modFport n fun p => { p with streams := p.streams.filter (fun x => !same x) ++ (if q.left = 0 then [] else [q]) }
  match e with
  | some e => if (s.queue c qep).bound then
      (s.settleWait c qep e.mark).modQueue c qep fun x => Endpoint.mark qep { x with entries := x.entries ++ [e] }
    else s
  | none => s

-- HOLD flits

/-- The RUNNING slot that a HOLD of a sender and role belongs to, the one that has the group first. -/
def State.holdSlot (s : State) (src role group : Nat) : Option Nat :=
  let fits (x : Slot) : Bool := decide (x.state = .running) && (match x.folio with
    | some f => decide (f.devices[role]? = some src)
    | none => false)
  match s.slots.find? fun e => fits e.2 && (e.2.group group).isSome with
  | some e => some e.1
  | none => (s.slots.find? fun e => fits e.2).map Prod.fst

/-- A HOLD flit that differs from what its module awaits (R244): HOLD_MISMATCH on the lowest local member's CORE page. -/
def State.holdMismatch (s : State) (slot group : Nat) : State :=
  let c := match (s.slot slot).group group with
    | some e => e.members.head?.getD 0
    | none => (s.slot slot).cores.head?.getD 0
  ((s.raise0 (corePage c) 2).programFault slot reasonHoldMismatch none).progress

/-- A HOLD flit: an ABORT faults the program at once, a mismatch too, another records the sender's arrival (R242 to R244);
a flit for no RUNNING program is discarded. -/
def State.takeHold (s : State) (f : Flit) : State :=
  let g := fldAt f.payload 0 2 % 1024
  let id : BitVec 12 := BitVec.ofNat 12 (fldAt f.payload 2 2)
  let sq : BitVec 16 := BitVec.ofNat 16 (fldAt f.payload 4 2)
  let role := fldAt f.payload 8 2 % 4096
  match s.holdSlot f.src.toNat role g with
  | none => s
  | some slot =>
    if fldAt f.payload 6 1 / 4 % 2 = 1 then (s.programFault slot reasonAbort none).progress
    else
      let r := Tbl.get GroupRun.reset (s.slot slot).prog.groups g
      let known := decide (r.arrived ≠ []) || decide (r.remote ≠ [])
      let peer := match (s.slot slot).group g with
        | some e => e.peers.any fun p => p.role = role
        | none => false
      if peer = false ∨ sq ≠ r.seq ∨ (known = true ∧ id ≠ r.id) then s.holdMismatch slot g
      else
        let r := { r with id := id, remote := r.remote ++ [⟨role, fldAt f.payload 7 1 % 16, f.mark⟩] }
        s.modProg slot fun p => { p with groups := Tbl.put GroupRun.reset p.groups g r }

end Sys2Proof.Machine
end

