-- ==== Sys2Proof/Machine/LinkOps.lean ====
section
/-! DEFINITION. The fabric link: timeouts of a page (R431), acknowledgement, credits and replay (R370 to R372, R377), call slips
(R386 to R388), the optical engines and their cartridges (R365, R366, R494, R495, R511). -/

namespace Sys2Proof.Machine

open Sys2Proof

/-- TMO_CFG of a fabric port's page: RETRY_LIMIT 16, ACK_TMO_US 8, SLIP_MISS 3 (R392). -/
def fabTmoReset : W32 := 0x00030810

/-- The flits still unacknowledged after an ACKSEQ (R371). -/
def retryAfter (ack : BitVec 12) (l : List Flit) : List Flit :=
  match l.findIdx? fun f => f.lseq = ack with
  | some i => l.drop (i + 1)
  | none => l

/-- The ACKSEQ that a replay starts after: the one before the oldest unacknowledged flit (R371). -/
def FabPort.replayPoint (p : FabPort) : Option (BitVec 12) := p.retry.head?.map fun f => f.lseq - 1

/-- A replay from the oldest unacknowledged flit, or the port goes down at the retry limit, whose expiry counts as well
(R371, R372, R431). -/
def State.replayFab (s : State) (n : Nat) : State :=
  let p := s.fport n
  if p.retry = [] then s
  else if ((s.tmo (fportPage n) fabTmoReset).extractLsb' 0 8).toNat ≤ p.replaysRun then
    ((s.countTmo (fportPage n)).portFalls n .down 4).progress
  else
    let resent := p.retry.map fun f => { f with mark := true }
    let s := s.modFport n fun p =>
      resent.foldl FabPort.useSlot
        { p with retries := sat32 p.retries 1, replaysRun := p.replaysRun + 1, markLeft := 64, replayedFrom := p.replayPoint
                 retry := resent }
    (s.delayOwn resent).raise0 (fportPage n) 4

/-- An intact link word: acknowledgement, credits, NAK; eight slots have passed since the last one, and the port sends its
own (R370, R371, R377, R392; DESIGN CHOICE, log 153). -/
def State.linkWord (s : State) (n : Nat) (w : BitVec 64) : State :=
  let ack := w.extractLsb' 0 12
  let acked := w.getLsbD 12
  let s := s.modFport n fun p =>
    let p := (p.countWait (8 - p.slots)).sendWord
    let left := if acked then retryAfter ack p.retry else p.retry
    let p := if left.length < p.retry.length then { p with retry := left, replaysRun := 0, replayedFrom := none } else p
    [0, 1, 2, 3].foldl (fun (p : FabPort) vc =>
      let cred : BitVec 8 := w.extractLsb' (16 + 8 * vc) 8
      let back := (cred - Tbl.get 0 p.credSeen vc).toNat
      { p with used := Tbl.modify 0 p.used vc fun u => u - back, credSeen := Tbl.put 0 p.credSeen vc cred }) p
  let s := if w.getLsbD 13 && decide ((s.fport n).replayedFrom ≠ (s.fport n).replayPoint) then s.replayFab n else s
  (s.pumpFport n).serveReads n 64

-- call slips

/-- The digest of the module's serial number (R386). -/
def State.serialDigest (s : State) : Bytes := (sha512 s.fuses.serial).take 8

/-- A valid call slip fills or updates the record of its port's partner and its time fields (R386 to R388, R237);
another root raises LDG_ROOT_CONFLICT (R235). -/
def State.takeSlip (s : State) (n : Nat) (f : Flit) : State :=
  let b := f.payload
  let dev := fldAt b 32 2
  let nb : Neighbour :=
    { serial := BitVec.ofNat 64 (fldAt b 0 8), device := BitVec.ofNat 12 dev, idValid := decide (dev / 4096 % 2 = 1)
      port := BitVec.ofNat 6 (fldAt b 34 1), mstate := BitVec.ofNat 4 (fldAt b 35 1), epoch := BitVec.ofNat 32 (fldAt b 36 4) }
  let root := fldAt b 40 2
  let slip : SlipRec :=
    { tx := BitVec.ofNat 64 (fldAt b 8 8), echoTx := BitVec.ofNat 64 (fldAt b 16 8), echoRx := BitVec.ofNat 64 (fldAt b 24 8)
      arrival := (s.dieLedger (n / 32)).now, rootId := BitVec.ofNat 12 root, dist := BitVec.ofNat 4 (root / 4096)
      ldg := BitVec.ofNat 3 (fldAt b 42 1) }
  let old := (s.fport n).nb
  let s := s.modFport n fun p => { p with nb := some nb, slip := some slip }
  let s := if s.fab.idValid ∧ nb.idValid = true ∧ nb.device = s.fab.device ∧ b.take 8 ≠ s.serialDigest then s.raise0 fabPage 0 else s
  let s := if slip.dist ≠ 15 ∧ s.ledger.dist ≠ 15 ∧ slip.rootId ≠ s.ledger.rootId then s.raise0 ldgPage 1 else s
  match old with
  | none => s.raise0 (fportPage n) 2
  | some o =>
    if o.serial = nb.serial ∧ o.device = nb.device ∧ o.idValid = nb.idValid ∧ o.port = nb.port then s
    else ((((s.raise0 (fportPage n) 3).raise0 (fportPage n) 2).dropHeld n).partnerLost n).progress

-- optics

/-- The optical engine of a port (R362). -/
def engineOf (n : Nat) : Nat := n / 4
/-- The ports of an engine (R362). -/
def enginePorts (e : Nat) : List Nat := [4 * e, 4 * e + 1, 4 * e + 2, 4 * e + 3]

/-- The heater range that an engine uses (R366): reaching 922 of 1,023 raises TRACK_LIMIT. -/
def State.setTrack (s : State) (e : Nat) (track : BitVec 10) : State :=
  let was := (s.engine e).track.toNat
  let s := s.modEngine e fun x => { x with track := track }
  if was < 922 ∧ 922 ≤ track.toNat then s.raise0 optPage 2 else s

/-- An engine begins its calibration with its die's active microcode (R366, R458, R511). -/
def State.startCalibration (s : State) (e : Nat) : State :=
  let image := (s.banks (e / 8) 1).active
  s.modEngine e fun x => { x with state := .calibrating, ucode := some (image.svn, image.meas) }

/-- Engines that the active cartridges can power (R365, R494). -/
def State.powered (s : State) : Nat :=
  min 16 (4 * ((List.range 5).filter fun n => (s.cartridge n).active && !(s.cartridge n).fault).length)

/-- Takes every port of an engine down (R365, R366). -/
def State.engineDown (s : State) (e cause : Nat) : State :=
  (enginePorts e).foldl (fun (s : State) n =>
    if (s.fport n).state = .disabled then s else s.portFalls n .down cause) s

/-- Bits of PWR_BOOT (R511, R522). -/
def bootCleared : Nat := 3
def bootSelftest : Nat := 4
def bootOptics : Nat := 5
def bootReadingRoom : Nat := 6
def bootService : Nat := 7

/-- The bring-up step of a PWR_BOOT bit has ended. -/
def State.booted (s : State) (bit : Nat) : Bool := s.power.boot.getLsbD bit

/-- Sets a bit of PWR_BOOT. -/
def State.setBoot (s : State) (bit : Nat) : State := { s with power := { s.power with boot := setBit s.power.boot bit } }

/-- The engine of a die that bring-up calibrates next: the lowest powered one that has not been calibrated (R511). -/
def State.nextEngine (s : State) (d : Nat) : Option Nat :=
  ((List.range 8).map fun i => 8 * d + i).find? fun e => decide (e < s.powered) && decide ((s.engine e).state = .shed)

/-- An engine of the die is being calibrated. -/
def State.calibrating (s : State) (d : Nat) : Bool :=
  (List.range 8).any fun i => decide ((s.engine (8 * d + i)).state = .calibrating)

/-- Step 7 of bring-up, as far as it can go: once every fitted cartridge is ACTIVE or FAULT, each die whose curator runs
calibrates its engines one by one; OPTICS sets when both are done (R511). -/
def State.optics (s : State) : State :=
  let settled := (List.range 5).all fun n => !(s.cartridge n).present || (s.cartridge n).active || (s.cartridge n).fault
  if s.booted bootOptics || !s.booted bootReadingRoom || !settled then s
  else
    let s := [0, 1].foldl (fun (s : State) d =>
      if s.calibrating d || !s.curatorUp d then s
      else match s.nextEngine d with
        | some e => s.startCalibration e
        | none => s) s
    let done := [0, 1].all fun d => s.curatorUp d && !s.calibrating d && (s.nextEngine d).isNone
    if done then s.setBoot bootOptics else s

/-- Sheds or restores engines after a change of the active cartridges (R365, R495). -/
def State.balance (s : State) : State :=
  let k := s.powered
  let s := (List.range 16).foldl (fun (s : State) i =>
    let e := 15 - i
    if k ≤ e ∧ ((s.engine e).state = .active ∨ (s.engine e).state = .calibrating) then
      ((s.modEngine e fun x => { x with state := .shed, calibrate := false }).raise0 optPage 1).engineDown e 7
    else s) s
  let s := (List.range 16).foldl (fun (s : State) e =>
    if e < k ∧ (s.engine e).state = .shed ∧ s.booted bootOptics then
      if (s.engine e).calibrated then s.modEngine e fun x => { x with state := .active } else s.startCalibration e
    else s) s
  s.optics

/-- Changes a cartridge's record, raising LC_CHANGE for each of PRESENT, ACTIVE and FAULT that changes (R494). -/
def State.changeCartridge (s : State) (n : Nat) (f : Cartridge → Cartridge) : State :=
  let old := s.cartridge n
  let s := s.modCartridge n f
  let new := s.cartridge n
  let changes := [old.present != new.present, old.active != new.active, old.fault != new.fault].filter id
  let s := changes.foldl (fun (s : State) _ => s.raise optPage 0 [BitVec.ofNat 8 n]) s
  if old.active != new.active || old.fault != new.fault || old.present != new.present then s.balance.progress else s

/-- A calibration ends (R366, R511): in bring-up a first failure is repeated, a second leaves the engine in FAULT. -/
def State.endCalibration (s : State) (e : Nat) (ok : Bool) : State :=
  let x := s.engine e
  if x.state ≠ .calibrating then s
  else
    let again := !ok && !s.booted bootOptics && !x.retried
    let s := s.modEngine e fun x =>
      { x with cals := sat32 x.cals 1, calibrated := x.calibrated || ok, retried := again, calibrate := false
               state := if ok then .active else .fault }
    let s := if again then s.startCalibration e else s
    (s.raise0 optPage (if ok then 3 else 4)).optics

end Sys2Proof.Machine
end

