-- ==== Sys2Proof/Machine/ClockOps.lean ====
section
/-! DEFINITION. What happens at a tick in the clocks, the timing tree, the shelves' advisory and the supply (R173, R229 to
R239, R382, R387, R494, R497, R518, R522, R523). -/

namespace Sys2Proof.Machine

open Sys2Proof

-- the ledgers at a tick (R233, R234)

/-- Takes both ledgers through the cycles to the next multiple of 1 ms on the leading die, or through none if it has
passed one since the last tick (DESIGN CHOICE, log 4). -/
def State.ledgerTick (s : State) : State :=
  let l := s.dieLedger s.leadDie
  let gap := (l.now.toNat / tickUnits + 1) * tickUnits - l.now.toNat
  let m := if (s.ledger.lastTick + 1) * tickUnits ≤ l.now.toNat then 0 else l.cyclesTo s.ledger.rate gap
  let s := (s.modDieLedger 0 fun l => (l.after s.ledger.rate m).endTick).modDieLedger 1 fun l =>
    (l.after s.ledger.rate m).endTick
  { s with ledger := { s.ledger with lastTick := (s.dieLedger s.leadDie).now.toNat / tickUnits } }

/-- No slew is applied in HOLDOVER and while the lease is VACANT (R236, R451). -/
def State.dropSlew (s : State) : State :=
  (s.modDieLedger 0 fun l => { l with slew := 0, cyc := 0 }).modDieLedger 1 fun l => { l with slew := 0, cyc := 0 }

/-- The tick's comparison of the dies (R234): the other die slews to the leading one, besides what both slew by. -/
def State.compareDies (s : State) : State :=
  if s.gen.d2dDown then s
  else
    let skew := ((s.dieLedger 1).now - (s.dieLedger 0).now).toInt
    let s := { s with ledger := { s.ledger with skew := BitVec.ofInt 32 skew } }
    if 16 < skew.natAbs then
      let lead := s.dieLedger s.leadDie
      let gap := (lead.now - (s.dieLedger (1 - s.leadDie)).now).toInt
      (if s.charter.lease = .vacant then s
       else s.modDieLedger (1 - s.leadDie) fun l => { l with slew := lead.slew + gap, cyc := lead.cyc }).raise0 ldgPage 2
    else s

/-- Aligns the other die's ledger to the leading die's (R234, R486); one that is ahead does not step back but slews
(R232). -/
def State.alignDies (s : State) : State :=
  let lead := s.dieLedger s.leadDie
  s.modDieLedger (1 - s.leadDie) fun l =>
    let gap := (lead.now - l.now).toInt
    if 0 ≤ gap then { l with now := lead.now, slew := lead.slew, cyc := lead.cyc }
    else { l with slew := if s.charter.lease = .vacant then 0 else lead.slew + gap, cyc := lead.cyc }

-- the timing tree

/-- A change of the ledger state is reported (R236, R438); HOLDOVER ends a slew. -/
def State.setLdg (s : State) (st : LdgState) : State :=
  if s.ledger.state = st then s
  else
    let s := if st = .holdover then s.dropSlew else s
    ({ s with ledger := { s.ledger with state := st, goodRun := 0, missed := 0 } }).raise ldgPage 0 [BitVec.ofNat 8 st.code]

/-- A port that may be a parent: UP, its partner ROOT or LOCKED (R235); its key orders the choice. -/
def State.parentKey (s : State) (n : Nat) : Option Nat :=
  let p := s.fport n
  match p.state, p.slip, p.nb with
  | .up, some sl, some nb =>
    if sl.ldg = 4 ∨ sl.ldg = 2 then some ((sl.dist.toNat * 4096 + nb.device.toNat) * 64 + n) else none
  | _, _, _ => none

/-- The parent port of this tick (R235). -/
def State.chooseParent (s : State) : Option FPort :=
  let pick (ports : List Nat) : Option Nat :=
    (ports.foldl (fun (b : Option (Nat × Nat)) n =>
      match s.parentKey n, b with
      | some k, some (k', _) => if k < k' then some (k, n) else b
      | some k, none => some (k, n)
      | none, _ => b) none).map Prod.snd
  let n := match s.ledger.role with
    | 0 => pick (List.range 64)
    | 1 => pick [s.ledger.parentPort.toNat]
    | _ => none
  n.map fun n => Fin.ofNat 64 n

/-- Re-chooses the parent, DIST and ROOT_ID, and the state that follows from having a parent or none (R235, R236). -/
def State.treeTick (s : State) : State :=
  let parent := s.chooseParent
  let role := s.ledger.role
  let slip := parent.bind fun n => (s.fport n).slip
  let dist : BitVec 4 := if role = 2 then 0 else match slip with
    | some x => BitVec.ofNat 4 (min 14 (x.dist.toNat + 1))
    | none => 15
  let root := if role = 2 then s.srcId else match slip with
    | some x => x.rootId
    | none => s.ledger.rootId
  let s := { s with ledger := { s.ledger with parent := parent, dist := dist, rootId := root } }
  match s.ledger.state with
  | .free => if parent.isSome then s.setLdg .acquire else s
  | .holdover => if parent.isSome then s.setLdg .acquire else s
  | .acquire => if parent.isSome then s else s.setLdg .holdover
  | .locked => if parent.isSome then s else s.setLdg .holdover
  | .root => s

/-- θ and delay of the latest slip of a port whose echo is of one of the last four slips sent (R238). -/
def State.sample (s : State) (n : Nat) : Option (Int × Int) :=
  let p := s.fport n
  match p.slip with
  | none => none
  | some x =>
    if p.sentTx.contains x.echoTx then
      some (((x.echoRx - x.echoTx).toInt + (x.tx - x.arrival).toInt) >>> (1 : Nat),
            ((x.arrival - x.echoTx).toInt - (x.tx - x.echoRx).toInt) >>> (1 : Nat))
    else none

/-- LINK_LAT of a delay in ledger units: ceil((D + 2.5 ns) × f) (R382). -/
def linkLat (g : Grade) (delay : Nat) : Nat := ((delay + 40) * (if g = .l then 14 else 17) + 159) / 160

/-- Every UP port's delay sample (R238). -/
def State.delaySamples (s : State) : State :=
  (List.range 64).foldl (fun (s : State) n =>
    if (s.fport n).state ≠ .up then s
    else match s.sample n with
      | none => s
      | some (_, d) =>
        if d < 0 ∨ 2 ^ 20 < d then { s with ledger := { s.ledger with badSample := sat32 s.ledger.badSample 1 } }
        else if (s.fport n).latValid then s
        else s.modFport n fun p =>
          { p with latValid := true, delay := BitVec.ofInt 32 d, linkLat := BitVec.ofNat 16 (linkLat s.fuses.grade d.toNat) }) s

/-- Steps both ledgers forward in one cycle (R233, R238, R239). -/
def State.stepLedgers (s : State) (n : Int) : State :=
  let s := (s.modDieLedger 0 fun l => { l with now := l.now + BitVec.ofInt 64 n }).modDieLedger 1 fun l =>
    { l with now := l.now + BitVec.ofInt 64 n }
  { s with ledger := { s.ledger with steps := sat32 s.ledger.steps 1 } }

/-- The greatest TX of the latest slips on UP ports, with the link delay last measured on its port; 0 where none has been
(R239). -/
def State.latestTx (s : State) : Option (Nat × Nat) :=
  (List.range 64).foldl (fun (best : Option (Nat × Nat)) n =>
    match (s.fport n).state, (s.fport n).slip with
    | .up, some x =>
      match best with
      | some b => if b.1 < x.tx.toNat then some (x.tx.toNat, (s.fport n).delay.toNat) else best
      | none => some (x.tx.toNat, (s.fport n).delay.toNat)
    | _, _ => best) none

/-- A module entering ROOT steps its ledgers forward to what its up neighbours' latest slips say (R239). -/
def State.rootForward (s : State) : State :=
  match s.latestTx with
  | some (tx, delay) =>
    let own := (s.dieLedger s.leadDie).now.toNat
    if own < tx + delay then s.stepLedgers ((tx + delay - own : Nat) : Int) else s
  | none => s

/-- Both ledgers slew by `n` from the next cycle on (R238). -/
def State.slewLedgers (s : State) (n : Int) : State :=
  (s.modDieLedger 0 fun l => { l with slew := n, cyc := 0 }).modDieLedger 1 fun l => { l with slew := n, cyc := 0 }

/-- A number saturated to a signed 32-bit register. -/
def signed32 (n : Int) : W32 := BitVec.ofInt 32 (max (-2147483648) (min 2147483647 n))

/-- The rate, slew or step that a valid sample calls for (R238); none while the lease is VACANT (R451). -/
def State.followSample (s : State) (theta : Int) : State :=
  if s.charter.lease = .vacant then s
  else
    let locked := decide (s.ledger.state = .locked)
    let s := if !locked && decide (2 ^ 16 < theta) then s.stepLedgers theta else s.slewLedgers theta
    if locked then
      { s with ledger := { s.ledger with
          rate := BitVec.ofInt 32 (max (-(2 ^ 24 : Int)) (min (2 ^ 24) (s.ledger.rate.toInt + 268 * theta))) } }
    else s

/-- The sample of a follower's tick on its parent port (R236, R238). -/
def State.parentSample (s : State) : State :=
  match s.ledger.state, s.ledger.parent with
  | .acquire, some n | .locked, some n =>
    match s.sample n with
    | none => { s with ledger := { s.ledger with missed := s.ledger.missed + 1 } }
    | some (theta, delay) =>
      if delay < 0 ∨ 2 ^ 20 < delay then { s with ledger := { s.ledger with missed := s.ledger.missed + 1 } }
      else
        let locked := decide (s.ledger.state = .locked)
        let s := { s with ledger := { s.ledger with offset := signed32 theta, delay := signed32 delay, missed := 0 } }
        let s := s.followSample theta
        if locked then if 1024 < theta.natAbs then s.setLdg .acquire else s
        else
          let run := if theta.natAbs ≤ 32 then s.ledger.goodRun + 1 else 0
          let s := { s with ledger := { s.ledger with goodRun := run } }
          if 8 ≤ run then s.setLdg .locked else s
  | _, _ => s

/-- The payload of a call slip of port `n` (R387). -/
def State.slipPayload (s : State) (n : Nat) : Bytes :=
  let p := s.fport n
  let now := (s.dieLedger (n / 32)).now
  let echo := match p.slip with | some x => (x.tx.toNat, x.arrival.toNat) | none => (0, 0)
  s.serialDigest ++ leBytes 8 now.toNat ++ leBytes 8 echo.1 ++ leBytes 8 echo.2
    ++ leBytes 2 (s.srcId.toNat + (if s.fab.idValid then 4096 else 0)) ++ [BitVec.ofNat 8 n]
    ++ [if s.gen.service then 2#8 else 1#8] ++ leBytes 4 s.charter.epoch.toNat
    ++ leBytes 2 (s.ledger.rootId.toNat + 4096 * s.ledger.dist.toNat) ++ [BitVec.ofNat 8 s.ledger.state.code]

/-- Every UP port sends its call slip (R387). -/
def State.sendSlips (s : State) : State :=
  (List.range 64).foldl (fun (s : State) n =>
    if (s.fport n).state ≠ .up then s
    else
      let b := s.slipPayload n
      let now := (s.dieLedger (n / 32)).now
      (s.modFport n fun p => { p with sentTx := (now :: p.sentTx).take 4 }).sendLocal n 0x40 3 b) s

-- throttling

/-- Engine-generator periods of a tick (R220). -/
def tickPeriods (g : Grade) : Nat := if g = .l then 1400000 else 1700000

/-- The swallow level of a region (R230). -/
def State.swallowLevel (s : State) (r : Nat) : Nat := max (max (s.region r).kThermal (s.region r).kDroop) s.clock.kPower

/-- A level one up or down, held between 0 and 8 (R230). -/
def levelStep (k : Nat) (up down : Bool) : Nat := if up then min 8 (k + 1) else if down then k - 1 else k

/-- Periods swallowed among `n` from period `i` of a window on, at level `k` (R229). -/
def swallowedIn (k i n : Nat) : Nat := (i + n) * k / 64 - i * k / 64

/-- Pulses that a region swallowed in a tick of `n` generator periods: by its thermal and power levels, which change at a
window boundary, and `droop` more, at most what level 8 swallows, where a droop hold stood in the tick (R229, R230; DESIGN
CHOICE, log 154). -/
def Region.swallowed (x : Region) (k n droop : Nat) : Nat :=
  let m := (64 - x.phase) % 64
  let base := swallowedIn x.kPrev x.phase m + swallowedIn k 0 (n - m)
  if x.drooped then base + min droop (swallowedIn 8 x.phase n - base) else base

/-- A region's temperature, thermal level and the pulses that it swallowed in the tick that ends, which every core
above it counts (R31, R229 to R231). -/
def State.regionTick (s : State) (r temp droop : Nat) : State :=
  if s.fused r then s
  else
    let thr := (s.dieClock (r / 16)).tThr.toNat
    let n := tickPeriods s.fuses.grade
    let k := max (s.region r).kThermal s.clock.kPower
    let swallowed := (s.region r).swallowed k n droop
    let now := decide (n ≤ 64 * swallowed)
    let was := (s.region r).throttled
    let s := s.modRegion r fun x =>
      { x with temp := temp, kThermal := levelStep x.kThermal (decide (thr < temp)) (decide (temp + 3 < thr))
               phase := (x.phase + n) % 64, kPrev := k, drooped := decide (x.kDroop ≠ 0), throttled := now, pulses := x.pulses + BitVec.ofNat 64 swallowed
               thrTicks := if now then sat32 x.thrTicks 1 else x.thrTicks }
    let s := if swallowed = 0 then s else
      (clusterCores r).foldl (fun (s : State) c =>
        (s.modCore c fun k => k.countDev 2 swallowed).modSq c fun q =>
          if q.run then { q with cycle := q.cycle + swallowed } else q) s
    if now && !was then s.raise (dieClkPage (r / 16)) 0 [BitVec.ofNat 8 (r % 16)]
    else if was && !now then s.raise (dieClkPage (r / 16)) 1 [BitVec.ofNat 8 (r % 16)]
    else s

/-- HASH_PRESSURE's count of a shelf over the shelf cycles of the tick, those that rows showed and the others (R173);
it is raised once until a tick re-arms it (R428). -/
def State.shelfTick (s : State) (k others : Nat) : State :=
  let c := s.cluster k
  let rate := 1024 * (c.confCycles + others) / 1400000
  let above := decide (c.thr.toNat < rate)
  let run := if above then min 65535 (c.hpRun.toNat + 1) else 0
  let due := above && decide (c.thr ≠ 0) && decide (c.ticks.toNat ≤ run) && !c.hpRaised
  let s := s.modCluster k fun c =>
    { c with lastRate := BitVec.ofNat 10 (min 1023 rate), hpRun := BitVec.ofNat 16 run, confCycles := 0
             hpRaised := above && (c.hpRaised || due) }
  if due then s.raise0 (shfPage k) 2 else s

-- the supply

/-- The INPUT field after a tick's average, with its hysteresis (R497). -/
def inputLevel (old mv : Nat) : Nat :=
  if mv < 36000 ∨ (old = 1 ∧ mv < 36200) then 1 else if 44000 < mv ∨ (old = 2 ∧ 43800 < mv) then 2 else 0

/-- Limits of R27 that a tick's averages exceed, and whether they are below 97% of every limit. -/
def powerOver (g : Grade) (t : TickInputs) : Bool := decide (45000 < t.iinMa) || decide ((if g = .l then 1300 else 1800) < t.pinW)
def powerBelow (g : Grade) (t : TickInputs) : Bool :=
  decide (t.iinMa * 100 < 45000 * 97) && decide (t.pinW * 100 < (if g = .l then 1300 else 1800) * 97)

/-- The hottest region and its temperature. -/
def hottest (l : List Nat) : Nat × Nat :=
  l.zipIdx.foldl (fun (b : Nat × Nat) (e : Nat × Nat) => if b.2 < e.1 then (e.2, e.1) else b) (0, l.head?.getD 0)

/-- Telemetry, the throttle policy, the power limit and the supply's events at a tick (R29, R230, R497, R518, R522,
R523). -/
def State.powerTick (s : State) (t : TickInputs) : State :=
  let old := s.power.input.toNat
  let input := inputLevel old t.vinMv
  let k := s.clock.kPower
  let hit := powerOver s.fuses.grade t
  let k' := levelStep k hit (powerBelow s.fuses.grade t)
  let hot := hottest t.temps
  let p := s.power
  let p := { p with shedNow := p.shed, input := BitVec.ofNat 2 input, vin := BitVec.ofNat 16 t.vinMv, iin := BitVec.ofNat 16 t.iinMa
                    pin := BitVec.ofNat 16 t.pinW, ipeak := BitVec.ofNat 16 (max p.ipeak.toNat t.ipeakMa)
                    energy := p.energy + BitVec.ofNat 64 t.energyMj }
  let p := { p with inlet := BitVec.ofNat 16 t.inlet, outlet := BitVec.ofNat 16 t.outlet, tjRegion := BitVec.ofNat 6 hot.1
                    tjTemp := BitVec.ofNat 8 hot.2, sinceGood := p.sinceGood + 1
                    kPowerTicks := if k' = 8 ∧ hit = true then p.kPowerTicks + 1 else 0 }
  let s := { s with power := p, clock := { s.clock with kPower := k' } }
  let s := if input = old then s else s.raise pwrPage 0 [BitVec.ofNat 8 input]
  let s := if k = 0 ∧ 0 < k' then s.raise0 pwrPage 1 else if 0 < k ∧ k' = 0 then s.raise0 pwrPage 2 else s
  let s := if 450 < t.inlet then s.raise0 pwrPage 3 else s
  if t.inlet + 200 < t.outlet then s.raise0 pwrPage 4 else s

/-- The SEAL loop is found open: the fuse is blown once (R467). -/
def State.senseSeal (s : State) (isOpen : Bool) : State :=
  let s := { s with power := { s.power with sealOpen := isOpen } }
  if isOpen && !s.fuses.sealBroken then ({ s with fuses := { s.fuses with sealBroken := true } }).raise0 secPage 3 else s

/-- The samples of the cartridges (R494): one whose power falls below its limit, or without a wavelength, takes FAULT. One
still in its ramp has not yet been at its limit (log 89). -/
def State.cartridgeTick (s : State) (l : List (Nat × Bool)) : State :=
  l.zipIdx.foldl (fun (s : State) (e : (Nat × Bool) × Nat) =>
    s.changeCartridge e.2 fun c =>
      let falls := decide (e.1.1 < 2000) && (c.active || decide (2000 ≤ c.power.toNat))
      let c := { c with power := if c.present then BitVec.ofNat 16 e.1.1 else 0 }
      if c.present && (falls || !e.1.2) then { c with active := false, fault := true } else c) s

/-- Flit slots used in the tick that ends (R392). -/
def State.occupancyTick (s : State) : State :=
  s.fports.foldl (fun (s : State) e => s.modFport e.1 fun p =>
    { p with occ := p.slotsOf.map fun v => (v.1, BitVec.ofNat 32 v.2), slotsOf := [] }) s

/-- The tick's evaluations of clocks, supply, optics, shelves and timing tree, in this order (R233). -/
def State.clockTick (s : State) (t : TickInputs) : State :=
  let s := s.ledgerTick
  let s := (List.range 32).foldl (fun (s : State) r => s.regionTick r (t.temps[r]?.getD 0) (t.swallowed[r]?.getD 0)) s
  let s := (List.range 32).foldl (fun (s : State) k => s.shelfTick k (t.conflicts[k]?.getD 0)) s
  let s := ((s.powerTick t).senseSeal t.sealOpen).cartridgeTick t.cartridges
  let s := t.tracks.zipIdx.foldl (fun (s : State) e => s.setTrack e.2 (BitVec.ofNat 10 e.1)) s
  s.occupancyTick.delaySamples.treeTick.parentSample.compareDies.sendSlips

end Sys2Proof.Machine
end

