-- ==== Sys2Proof/Machine/CharterOps.lean ====
section
/-! DEFINITION. The charter lease: its changes (R446 to R451), what its first grant starts (R429, R512), heartbeats. -/

namespace Sys2Proof.Machine

open Sys2Proof

/-- LEASE_TICKS of the module CHT page (R470). -/
def State.leaseTicks (s : State) : Nat := (s.tmo chtPage 3).toNat % 16

/-- Ticks since the last heartbeat of a die's curator (R446). -/
def State.since (s : State) (d : Nat) : Option Nat := if d = 0 then s.charter.sinceA else s.charter.sinceB

/-- LEASE_TICKS of the interval that began at a curator's last heartbeat (R431). -/
def State.term (s : State) (d : Nat) : Nat := if d = 0 then s.charter.termA else s.charter.termB

/-- A curator sent a heartbeat within LEASE_TICKS ticks (R446). -/
def State.live (s : State) (d : Nat) : Bool := match s.since d with | some n => n < s.term d | none => false

/-- A curator's heartbeat begins a new interval (R431, R446). -/
def State.beat (s : State) (d : Nat) : State :=
  let n := s.leaseTicks
  { s with charter := if d = 0 then { s.charter with sinceA := some 0, termA := n } else { s.charter with sinceB := some 0, termB := n } }

/-- The die whose curator holds the lease. -/
def Lease.die : Lease → Option Nat
  | .vacant => none
  | .dieA => some 0
  | .dieB => some 1

/-- Codes of the commands that need the charter (R452). -/
def needsCharter (code : BitVec 8) : Bool :=
  [0x18#8, 0x19#8, 0x28#8, 0x29#8, 0x2A#8, 0x2B#8, 0x2C#8, 0x38#8, 0x39#8, 0x41#8, 0x42#8, 0x43#8].contains code

/-- Commands in progress that need the charter complete with NOT_PERMITTED on the curator that lost it (R451). -/
def State.dropChartered (s : State) (d : Nat) : State :=
  ((s.port d).cmds.filter fun c => needsCharter c.code).foldl
    (fun (s : State) c => (s.complete d c.tag (Reply.err stNotPermitted)).endWait c.wait) s

/-- The records of region 0x1 events held in EVT_RAW before the first grant (R429). -/
def State.heldEvents (s : State) : State :=
  let pages := s.pages.filter fun e => decide (e.1 / 0x10000 = 1)
  let held := pages.flatMap fun e => (onesBelow e.2.evtRaw 32).map fun b => (e.1, b)
  held.foldl (fun (s : State) e => s.raise0 e.1 e.2) s

/-- A curator begins the self-test of its die's cores (R154, R512): mapped-out clusters go to ISOLATED, the others to
DIAG. -/
def State.beginSelftest (s : State) (d : Nat) : State :=
  let ks := (List.range 16).map fun i => 16 * d + i
  ks.foldl (fun (s : State) k =>
    if s.fused k ∨ s.clusterIn k .reset = false then s
    else if (s.cluster k).mapout then
      (clusterCores k).foldl (fun (s : State) c => s.setMode c .isolated)
        { s with gen := { s.gen with mappedOut := setBit s.gen.mappedOut k } }
    else (clusterCores k).foldl (fun (s : State) c => s.setMode c .diag) s) s

/-- Self-test begins on every die whose curator runs, once the lease has been granted (R512). -/
def State.beginSelftests (s : State) : State :=
  ([0, 1].foldl (fun (s : State) d => if s.charter.granted && s.curatorUp d then s.beginSelftest d else s) s).finishIsolations

/-- The lease changes to `l` with a cause (R446, R448, R450, R451); a VACANT lease ends a slew. -/
def State.setLease (s : State) (l : Lease) (cause : Nat) : State :=
  let s := match s.charter.lease.die with
    | some d => s.dropChartered d
    | none => s
  let first := !s.charter.granted && decide (l ≠ .vacant)
  let c := s.charter
  let epoch := if l = .vacant then c.epoch else if c.epoch = 0xFFFFFFFF then 1 else c.epoch + 1
  let now := match l.die with | some d => (s.dieLedger d).now | none => (s.dieLedger 0).now
  let c := { c with lease := l, epoch := epoch, lastCause := BitVec.ofNat 3 cause, changes := sat32 c.changes 1
                    changeLedger := now, granted := c.granted || first, arbitrating := false }
  let s := { s with charter := c }
  let s := if l = .vacant then s.dropSlew else s
  let s := match l.die with
    | some d => s.modCurator d fun x => { x with believes := some epoch }
    | none => s
  let s := if first then s.heldEvents.beginSelftests else s
  let s := s.raise chtPage 0 ([BitVec.ofNat 8 l.code, BitVec.ofNat 8 cause, 0, 0] ++ leBytes 4 epoch.toNat)
  if l = .vacant then s.raise0 chtPage 1 else s

/-- A yield that was pending is applied: the lease passes and the REG_WRITE completes with OK (R449). -/
def State.applyYield (s : State) (d : Nat) : State :=
  match s.charter.yieldPending with
  | none => s
  | some (p, tag) =>
    let s := { s with charter := { s.charter with yieldPending := none } }
    let s := s.modCurator (1 - d) fun x => { x with believes := none }
    (s.setLease (leaseOf d) 2).complete p tag (Reply.ok [])

/-- A lapse or an expired watchdog of the holder: the lease passes to a live other curator, else falls VACANT (R446); a
pending yield is dropped with the holder's command. -/
def State.lapse (s : State) (cause : Nat) (other : Bool) : State :=
  match s.charter.lease.die with
  | none => s
  | some d =>
    let s := match s.charter.yieldPending with
      | some (p, tag) =>
        ({ s with charter := { s.charter with yieldPending := none } }).complete p tag (Reply.err stNotPermitted)
      | none => s
    s.setLease (if other then leaseOf (1 - d) else .vacant) cause

/-- Heartbeats of the tick that ends (R446): a curator that learns that another holds the lease it believed in raises
DUAL_CLAIM (R450). -/
def State.heartbeat (s : State) (d : Nat) (sent : Bool) : State :=
  let sent := sent && s.curatorUp d
  let v := (s.since d).map (· + 1)
  let s := if sent then s.beat d
    else { s with charter := if d = 0 then { s.charter with sinceA := v } else { s.charter with sinceB := v } }
  match sent, (s.curator d).believes with
  | true, some e =>
    if s.holds d then s
    else
      let s := s.modCurator d fun x => { x with believes := none }
      s.raise (dieChtPage d) 1 (leBytes 4 e.toNat ++ leBytes 4 s.charter.epoch.toNat)
  | _, _ => s

/-- Orders 4 and 5 of R446 at a tick; orders 1 to 3 have rows of their own. -/
def State.leaseTick (s : State) (a b : Bool) : State :=
  let s := (s.heartbeat 0 a).heartbeat 1 b
  let s := { s with charter := { s.charter with sinceGood := s.charter.sinceGood + 1 } }
  if s.charter.arbitrating then s
  else match s.charter.lease.die with
    | some d =>
      if s.live d && s.charter.yieldPending.isSome && s.live (1 - d) then s.applyYield (1 - d) else s
    | none =>
      let sa := s.charter.sinceA = some 0
      let sb := s.charter.sinceB = some 0
      if sa && sb then s.setLease (if s.charter.prefB then .dieB else .dieA) 5
      else if sa then s.setLease .dieA 5
      else if sb then s.setLease .dieB 5
      else s

/-- Power-on arbitration decides (R447): the preferred die once it has sent a heartbeat, after 100 ticks the first that
did. -/
def State.arbitrate (s : State) (first : Nat) : State :=
  let pref := if s.charter.prefB then 1 else 0
  if s.charter.arbitrating = false then s
  else if (s.since pref).isSome then s.setLease (leaseOf pref) 1
  else if 100 ≤ s.charter.sinceGood ∧ (s.since first).isSome = true then s.setLease (leaseOf first) 1
  else s

end Sys2Proof.Machine
end

