-- ==== Sys2Proof/Machine/Charter.lean ====
section
/-! DEFINITION. The curators' boots and restarts (R444, R445, R458, R459) and the meanings of the rows on the charter and the
curators. -/

namespace Sys2Proof.Machine

open Sys2Proof

/-- The holder has sent no heartbeat for LEASE_TICKS ticks (R446), an expiry that the module CHT page counts (R431,
R474): `other` tells whether the other curator has; nothing where the ticks do not bear it out. -/
def execLeaseLapse (other : Bool) (s : State) : Host.Outcome State Fault Refusal :=
  .next (match s.charter.lease.die with
    | some d => if s.charter.arbitrating || s.live d || (s.live (1 - d) != other) then s
        else (s.countTmo chtPage).lapse 3 other
    | none => s)

/-- A tick boundary of power-on arbitration (R447); `first` is the die whose curator was first to send a heartbeat. -/
def execPowerOnArbitration (first : Die) (s : State) : Host.Outcome State Fault Refusal := .next (s.arbitrate first)

/-- Loads that a restart of die `d`'s curator ends: those on its port and those that write its cores (R276, R444). -/
def State.restartLoads (s : State) (d : Nat) : State :=
  let l := (s.slots.filter fun e => decide (e.2.state = .loading)
    && ((match e.2.load with | some (p, _) => decide (p = d) | none => false)
      || (List.range 16).any fun i => e.2.claims (16 * d + i))).map Prod.fst
  l.foldl (fun (s : State) i => s.failLoad i (Reply.err stTimeout)) s

/-- A curator restarts with a cause: every command in progress on its port completes with TIMEOUT (R444, R458, R471). -/
def State.restartCurator (s : State) (d cause : Nat) : State :=
  let s := ((s.restartLoads d).completeAll d (Reply.err stTimeout)).modCurator d fun x =>
    { x with run := .starting, believes := none, restarts := sat32 x.restarts 1 }
  (s.raise (dieChtPage d) 0 [BitVec.ofNat 8 cause]).progress

/-- A curator's watchdog expires (R444): the charter is withdrawn first; nothing while the curator does not run. -/
def execCuratorWatchdog (die : Die) (s : State) : Host.Outcome State Fault Refusal :=
  .next (if s.curatorUp die then
      let s := s.countTmo (dieChtPage die)
      let s := if s.holds die then s.lapse 4 (s.live (1 - die)) else s
      s.restartCurator die 1
    else s)

/-- The activation that a boot decides completes (R458). -/
def State.endActivation (s : State) (d : Nat) (r : Reply) : State :=
  match (s.curator d).activation with
  | some (p, tag) => (s.modCurator d fun x => { x with activation := none }).complete p tag r
  | none => s

/-- A newly activated bank has booted: the floor rises, FW_ACTIVATED is raised (R459, R473). -/
def State.provenBank (s : State) (d target : Nat) : State :=
  (s.modBanks d target fun b => { b with floor := max b.floor b.active.svn }).raise (dieSecPage d) 1 [BitVec.ofNat 8 target]

/-- A curator's first heartbeat after starting (R445, R511); nothing unless it is starting on aligned dies. -/
def execCuratorBoot (die : Die) (s : State) : Host.Outcome State Fault Refusal :=
  let x := s.curator die
  .next (if x.run ≠ .starting ∨ s.aligned = false then s
    else
      let s := s.modCurator die fun x => { x with run := .running, bootedOnce := true, fellBack := false, fresh := false }
      let s := (s.setBoot die).modBanks die 0 fun b => { b with bootFails := 0 }
      let s := s.beat die
      let s := if x.fresh then s.provenBank die 0 else s
      (s.endActivation die (Reply.ok [])).beginSelftests.optics)

/-- The die switches to its other bank (R445). -/
def State.fallBack (s : State) (d : Nat) (image : FwImage) : State :=
  let s := s.modBanks d 0 fun b => { b with activeBank := !b.activeBank, active := image, other := some b.active }
  let s := s.modCurator d fun x => { x with fellBack := true, fresh := false, restarts := sat32 x.restarts 1 }
  let s := (s.raise0 (dieChtPage d) 2).raise (dieChtPage d) 0 [3]
  s.endActivation d (Reply.err stFault)

/-- A boot fails (R445): it is retried; the second failure in a row from one bank makes the die switch banks, or leaves
the curator down when no other bank is left to boot. -/
def execBootFail (die : Die) (s : State) : Host.Outcome State Fault Refusal :=
  let x := s.curator die
  .next (if x.run ≠ .starting ∨ s.aligned = false then s
    else
      let s := s.modBanks die 0 fun b => { b with bootFails := min 7 (b.bootFails + 1) }
      let b := s.banks die 0
      if b.bootFails % 2 = 1 then s
      else match x.fellBack, b.other with
        | false, some image => s.fallBack die image
        | _, _ => (s.modCurator die fun x => { x with run := .down }).endActivation die (Reply.err stFault))

end Sys2Proof.Machine
end

