-- ==== Sys2Proof/Machine/SessionOps.lean ====
section
/-! DEFINITION. Sessions: the checks and effects of the session commands (R285 to R293, R319, R327, R332, R414, R415) and
admission (R296 to R301). -/

namespace Sys2Proof.Machine

open Sys2Proof

-- admission

/-- T of R298. -/
def Session.total (x : Session) : Nat := x.promptTokens + x.maxNew + (if x.speculative then 64 else 0)

/-- The SERVING section of a slot's folio, empty without one. -/
def Slot.serving (x : Slot) : Serving :=
  ((x.folio.bind Folio.serving).getD ⟨0, 0, 0, [], []⟩)

/-- Number of ratio variants. -/
def Slot.variants (x : Slot) : Nat := match x.folio with | some f => f.prefill.length | none => 0

/-- The step-time record of a variant, of its archival twin if `arch` (R270). -/
def Slot.record (x : Slot) (v : Nat) (arch : Bool) : StepModel :=
  (x.serving.models[if arch then x.variants + v else v]?).getD ⟨0, 0, 0, 0, 0⟩

/-- f of R298: the engine clock in MHz. -/
def State.clockMhz (s : State) : Nat := if s.fuses.grade = .l then 1400 else 1700

/-- Sessions that a batch counts (R298). -/
def State.batchSessions (s : State) (slot : Nat) : List (Nat × Session) := s.sessionsOf slot SessState.inBatch

/-- Any session of the batch is archival (R251). -/
def State.anyArchival (s : State) (slot : Nat) : Bool := (s.batchSessions slot).any fun e => e.2.archival

/-- W of R298, which ADM_DBACKLOG shows. -/
def State.backlog (s : State) (slot : Nat) : Nat :=
  ((s.sessionsOf slot fun x => x = .admitted || x = .prefill).map fun e => e.2.promptTokens - e.2.pos).sum

/-- Free pages of a deployment's pool. -/
def State.freePages (s : State) (slot : Nat) : Nat :=
  (s.slot slot).pool.toNat - ((s.sessionsOf slot fun _ => true).map fun e => e.2.pages).sum

/-- KV in use of a tenant, in MiB (R284). -/
def State.kvUse (s : State) (t : Nat) : Nat :=
  ((s.sessions.filter fun e => decide (e.2.state ≠ .free) && decide (e.2.tenant = t)).map fun e => e.2.charge).sum

/-- Descriptors of a tenant that are not FREE (R284). -/
def State.descriptorUse (s : State) (t : Nat) : Nat :=
  (s.sessions.filter fun e => decide (e.2.state ≠ .free) && decide (e.2.tenant = t)).length

/-- The quantities of an evaluation (R298). -/
structure Evaluation where
  pages : Nat
  charge : Nat
  b : Nat
  step : Nat
  ttft : Nat
  aloneStep : Nat
  aloneTtft : Nat
  goal : Nat
  maxBatch : Nat
deriving DecidableEq, Repr

/-- step of R298 for a batch of `b` sessions and context `c`. -/
def StepModel.step (m : StepModel) (b c : Nat) : Nat :=
  m.decodeBase + b * m.decodeSession + (c + 1023) / 1024 * m.decodeKtoken

/-- R298 for session `x`. -/
def State.evaluation (s : State) (x : Session) : Evaluation :=
  let d := s.slot x.slot
  let live := s.batchSessions x.slot
  let m := d.record d.prog.current (x.archival || s.anyArchival x.slot)
  let pages := (x.total + 63) / 64
  let b := 1 + live.length
  let step := m.step b (x.total + (live.map fun e => e.2.total).sum)
  let alone := m.step 1 x.total
  let goals := (x.lat.interval.toNat :: live.map fun e => e.2.lat.interval.toNat).filter (· ≠ 0)
  { pages := pages, charge := (pages * 64 * d.dkv.toNat + 1048575) / 1048576, b := b, step := step
    ttft := (s.backlog x.slot + x.promptTokens) * m.prefillCyc + step, aloneStep := alone
    aloneTtft := x.promptTokens * m.prefillCyc + alone, goal := goals.foldl min (goals.head?.getD 0), maxBatch := m.maxBatch }

/-- step ÷ f × 1,000 exceeds an interval goal; a goal of 0 is none (R295). -/
def State.overInterval (s : State) (step goal : Nat) : Bool := decide (goal ≠ 0) && decide (goal * s.clockMhz < step * 1000)

/-- ttft ÷ f exceeds TTFT_US − elapsed; a goal of 0 is none (R295). -/
def State.overTtft (s : State) (x : Session) (ttft : Nat) : Bool :=
  let elapsed := (s.now - x.ledgerOpen).toNat
  decide (x.lat.ttft ≠ 0) &&
    decide (((x.lat.ttft.toNat * 16000 : Nat) - (elapsed : Int)) * s.clockMhz < ((ttft * 16000 : Nat) : Int))

-- reason codes of R299

def refuseMemory : Nat := 1
def refuseTime : Nat := 2
def refuseQuota : Nat := 3
def refuseTenant : Nat := 4

/-- The refusal tests of R299, in order. -/
def State.refusal (s : State) (x : Session) (e : Evaluation) : Option Nat :=
  let t := s.tenant x.tenant
  if t.state = .releasing ∨ t.share = 0 then some refuseTenant
  else if (s.slot x.slot).pool.toNat < e.pages then some refuseMemory
  else if t.kvMib.toNat < e.charge then some refuseQuota
  else if s.overInterval e.aloneStep x.lat.interval.toNat || s.overTtft x e.aloneTtft then some refuseTime
  else none

/-- The queue tests of R299, in order. -/
def State.queueing (s : State) (x : Session) (e : Evaluation) : Option Nat :=
  if s.freePages x.slot < e.pages then some refuseMemory
  else if (s.tenant x.tenant).kvMib.toNat < e.charge + s.kvUse x.tenant then some refuseQuota
  else if decide (e.maxBatch < e.b) || s.overInterval e.step e.goal || s.overTtft x e.ttft then some refuseTime
  else none

/-- A refusal is counted and raises REFUSED (R301, R308). -/
def State.countRefusal (s : State) (reason : Nat) : State :=
  let a := s.adm
  let a := if reason = refuseMemory then { a with refMemory := sat32 a.refMemory 1 }
    else if reason = refuseTime then { a with refTime := sat32 a.refTime 1 }
    else if reason = refuseQuota then { a with refQuota := sat32 a.refQuota 1 }
    else { a with refTenant := sat32 a.refTenant 1 }
  ({ s with adm := a }).raise0 admPage 0

/-- Marks a session refused; `closeRefused` then closes it. -/
def State.refuseSession (s : State) (i reason : Nat) : State :=
  ((s.unqueue i).modSession i fun x => { x with refuseReason := reason, endReason := endRefused }).countRefusal reason

/-- Closes a session that admission has refused; its record follows (R290, R293). -/
def State.closeRefused (s : State) (i : Nat) : State :=
  if (s.session i).state = .opened ∧ (s.session i).endReason = endRefused then
    let slot := (s.session i).slot
    (s.closeSession i endRefused).sessionEnded slot
  else s

/-- A quotient to the unit: rounded to nearest and rounded up both fit the manual's example, and where they differ the
value is free. -/
def State.predict (s : State) (num den : Nat) : State × Nat :=
  let q := num / den
  let r := num % den
  if r = 0 then (s, q) else if den ≤ 2 * r then (s, q + 1) else (s.draw.2, if Config.freeBit s.freeCtr then q + 1 else q)

/-- A session is admitted (R290, R299, R328). -/
def State.admitSession (s : State) (i : Nat) (e : Evaluation) : State :=
  let s := s.unqueue i
  let r := s.predict e.ttft s.clockMhz
  let s := r.1
  let q := s.predict (e.step * 1000) s.clockMhz
  let s := q.1
  let now := s.now
  let s := s.modSession i fun x =>
    { x with state := .admitted, pages := e.pages, charge := e.charge, refuseReason := 0, ledgerAdmit := now
             predTtft := BitVec.ofNat 32 r.2, predStep := BitVec.ofNat 32 q.2
             hwm := x.promptTokens + (if x.speculative then 64 else 0)
             spare := if x.speculative then (List.range 64).map fun n => x.promptTokens + n else [] }
  let s := s.modSlot (s.session i).slot fun d => { d with admits := (d.admits.filter (· ≠ i)) ++ [i] }
  { s with adm := { s.adm with admitted := sat32 s.adm.admitted 1 } }

/-- A session joins its deployment's queue (R294, R297). -/
def State.enqueue (s : State) (i : Nat) : State :=
  if (s.session i).queued then s
  else
    let now := s.now
    let s := s.modSlot (s.session i).slot fun d => { d with queue := d.queue ++ [i] }
    let s := s.modSession i fun x => { x with queued := true, queuedAt := now }
    { s with adm := { s.adm with queued := sat32 s.adm.queued 1 } }

/-- One evaluation (R299). -/
def State.evaluate (s : State) (i : Nat) : State :=
  let x := s.session i
  let e := s.evaluation x
  match s.refusal x e with
  | some r => s.refuseSession i r
  | none =>
    match s.queueing x e with
    | some r => (s.enqueue i).modSession i fun y => { y with refuseReason := r }
    | none => s.admitSession i e

/-- Admission as a prompt becomes complete (R296, R297). -/
def State.startAdmission (s : State) (i : Nat) : State :=
  if (s.slot (s.session i).slot).queue ≠ [] then s.enqueue i else s.evaluate i

/-- Evaluates a queue from its head until one is queued again or `n` evaluations are made; answers how many were
(R297). -/
def State.serveQueue (s : State) (slot : Nat) : Nat → State × Nat × Bool
  | 0 => (s, 0, false)
  | n + 1 =>
    match (s.slot slot).queue with
    | [] => (s, 0, true)
    | i :: _ =>
      let s := (s.evaluate i).closeRefused i
      if (s.session i).queued then (s, 1, true)
      else
        let r := s.serveQueue slot n
        (r.1, r.2.1 + 1, r.2.2)

/-- Deployments whose queues hold sessions, ascending. -/
def State.queuedSlots (s : State) : List Nat :=
  (s.slots.filter fun e => decide (e.2.queue ≠ []) && decide (e.2.state = .running)).map Prod.fst

/-- One tenant's turn in a round: up to `n` evaluations over its deployments in slot order; answers the deployments
that are done and the evaluations made (R300). -/
def State.serveTenant (s : State) (t n : Nat) (done : List Nat) : State × List Nat × Nat :=
  (s.queuedSlots.filter fun i => decide ((s.slot i).tenant = t)).foldl (fun (a : State × List Nat × Nat) i =>
    if a.2.1.contains i then a
    else
      let r := a.1.serveQueue i (n - a.2.2)
      (r.1, if r.2.2 then i :: a.2.1 else a.2.1, a.2.2 + r.2.1)) (s, done, 0)

/-- Rounds over the tenants while evaluations are left (R300). -/
def State.serveRounds : Nat → State → Nat → List Nat → State
  | 0, s, _, _ => s
  | fuel + 1, s, left, done =>
    let ts := ((s.queuedSlots.filter fun i => !done.contains i).map fun i => (s.slot i).tenant).dedup
    let from_ := s.adm.lastServed
    let order := ((List.range 256).map fun i => (from_ + 1 + i) % 256).filter ts.contains
    let r := order.foldl (fun (a : State × List Nat × Nat) t =>
      let share := (a.1.tenant t).share.toNat
      let q := a.1.serveTenant t (min a.2.2 ((share + 15) / 16)) a.2.1
      (if q.2.2 = 0 then q.1 else { q.1 with adm := { q.1.adm with lastServed := t } }, q.2.1, a.2.2 - q.2.2)) (s, done, left)
    if r.2.2 = left ∨ r.2.2 = 0 then r.1 else State.serveRounds fuel r.1 r.2.2 r.2.1

/-- Every queue from its head until one of its sessions is queued again; answers how many evaluations that needs. -/
def State.serveAll (s : State) : State × Nat :=
  s.queuedSlots.foldl (fun (a : State × Nat) i =>
    let t := (a.1.slot i).tenant
    let r := a.1.serveQueue i 4096
    ({ r.1 with adm := { r.1.adm with lastServed := t } }, a.2 + r.2.1)) (s, 0)

/-- The evaluations of a tick (R297, R300): in rounds where the queued sessions need more than 256. -/
def State.admissionTick (s : State) : State :=
  let r := s.serveAll
  if r.2 ≤ 256 then r.1 else s.serveRounds 256 256 []

-- SESSION_OPEN

/-- A SESSION_OPEN payload's stop entries, as token lists (R321). -/
def openStops (b : Bytes) : List (List Nat) :=
  (List.range (fldAt b 6 1)).map fun i =>
    (List.range (fldAt b (64 + 64 * i) 1)).map fun k => fldAt b (68 + 64 * i + 3 * k) 3

/-- Nodes of a tree entry as (token, parent) (R324). -/
def treeNodes (e : Bytes) : List (Nat × Nat) :=
  (List.range (fldAt e 4 2)).map fun i => (fldAt e (64 + 4 * i) 3, fldAt e (67 + 4 * i) 1)

/-- Depth of each node, counted in nodes, parents first; none where a parent is no earlier node. -/
def nodeDepths : List (Nat × Nat) → List Nat → Option (List Nat)
  | [], acc => some acc
  | (_, p) :: r, acc =>
    if p = 0xFF then nodeDepths r (acc ++ [1])
    else match acc[p]? with
      | some d => nodeDepths r (acc ++ [d + 1])
      | none => none

/-- R327: the tree of an entry is valid for a vocabulary. -/
def treeValid (e : Bytes) (vocab : Nat) : Bool :=
  let n := fldAt e 4 2
  let depth := fldAt e 6 1
  decide (1 ≤ n) && decide (n ≤ 64) && decide (1 ≤ depth) && decide (depth ≤ 8)
    && (treeNodes e).all (fun x => decide (x.1 < vocab))
    && match nodeDepths (treeNodes e) [] with
      | some l => decide (l.foldl max 0 = depth)
      | none => false

/-- A FP32 encoding is neither infinite nor NaN. -/
def finite32 (w : W32) : Bool := decide (w.extractLsb' 23 8 ≠ 0xFF)

/-- R319: TEMPERATURE is finite and not negative. -/
def temperatureOk (w : W32) : Bool := finite32 w && (!w.getLsbD 31 || decide (w = 0x80000000))
/-- R319: TOP_P lies in (0, 1]. -/
def topPOk (w : W32) : Bool := decide (0 < w.toNat) && decide (w.toNat ≤ 0x3F800000)
/-- R319: REP_PENALTY is finite and positive. -/
def penaltyOk (w : W32) : Bool := finite32 w && !w.getLsbD 31 && decide (w ≠ 0)

/-- The tree of a SESSION_OPEN payload. -/
def openTree (b : Bytes) : Bytes := (b.drop (64 + 64 * fldAt b 6 1)).take 320

/-- Parts of check order 1 that the payload alone decides (R292, R319, R323, R414). -/
def sessionOpenBad (b : Bytes) : Bool :=
  let modes := fldAt b 3 1
  let spec := modes / 2 % 2 = 1
  let tree := modes / 4 % 2
  let stops := fldAt b 6 1
  let f (o : Nat) : W32 := BitVec.ofNat 32 (fldAt b o 4)
  decide (b.length < 64) || decide (8 < stops) || decide (b.length ≠ 64 + 64 * stops + 320 * tree) || decide (7 < modes)
    || decide (15 < fldAt b 2 1) || decide (8 < fldAt b 4 1)
    || !zeroAt b 7 1 || !zeroAt b 48 16
    || decide (fldAt b 8 4 = 0) || decide (fldAt b 12 4 = 0)
    || ((List.range stops).any fun i => decide (16 < fldAt b (64 + 64 * i) 1) || !zeroAt b (65 + 64 * i) 3
        || !zeroAt b (116 + 64 * i) 12)
    || !temperatureOk (f 32) || !topPOk (f 36) || !penaltyOk (f 44)
    || (decide (tree = 1) && (!decide spec || decide (fldAt b 5 1 ≠ 0xFF) || !zeroAt (openTree b) 7 57))
    || (decide spec && decide (fldAt b 5 1 = 0xFF) && decide (tree = 0))

/-- Parts of check order 1 that need the deployment's SERVING section (R292, R319, R327). -/
def sessionOpenOver (b : Bytes) (v : Serving) : Bool :=
  decide (v.maxContext < fldAt b 8 4 + fldAt b 12 4) || decide (v.vocab < fldAt b 40 4)
    || ((openStops b).any fun l => l.any fun t => decide (v.vocab ≤ t))
    || (decide (fldAt b 3 1 / 4 % 2 = 1) && !treeValid (openTree b) v.vocab)

/-- The lowest FREE descriptor (R288). -/
def State.freeDescriptor (s : State) : Option Nat :=
  (List.range 4096).find? fun i => decide ((s.session i).state = .free)

/-- The lowest fit of `n` contiguous units in a deployment's prompt store (R287). -/
def State.promptUnits (s : State) (slot n : Nat) : Option Nat :=
  let held := (s.sessionsOf slot fun _ => true).filter fun e => decide (0 < e.2.punits)
  let starts := 0 :: held.map fun e => e.2.pstore + e.2.punits
  let free (a : Nat) : Bool := decide (a + n ≤ (s.slot slot).units.toNat) &&
    held.all fun e => decide (a + n ≤ e.2.pstore) || decide (e.2.pstore + e.2.punits ≤ a)
  (starts.filter free).foldl (fun (b : Option Nat) a => match b with | some x => some (min x a) | none => some a) none

/-- A region of the deployment's clusters is throttled (R31). -/
def State.slotThrottled (s : State) (slot : Nat) : Bool :=
  (List.range 32).any fun k => (s.slot slot).claims k && (s.region k).throttled

/-- One more generation of a descriptor, skipping 0 (R288). -/
def genNext (g : BitVec 20) : BitVec 20 := if g + 1 = 0 then 1 else g + 1

/-- The index of a slot's ACTIVE edition, 0xFF without one (R355). -/
def State.activeEdition (s : State) (slot : Nat) : Nat :=
  match s.editions.find? fun e => decide (e.2.slot = slot) && decide (e.2.state = .active) with
  | some e => e.1
  | none => 0xFF

/-- Opens a session on a descriptor (R289, R290). -/
def State.openSession (s : State) (i port pstore units : Nat) (b : Bytes) : State :=
  let now := s.now
  let slot := fldAt b 1 1
  let ed := s.activeEdition slot
  let arch := s.gen.archivalOnly || decide (fldAt b 3 1 % 2 = 1)
  let f (o : Nat) : W32 := BitVec.ofNat 32 (fldAt b o 4)
  let tree := if fldAt b 3 1 / 4 % 2 = 1 then treeNodes (openTree b) else []
  s.modSession i fun x =>
    { Session.reset with
      state := .opened, gen := genNext x.gen, archival := arch, speculative := fldAt b 3 1 / 2 % 2 = 1, port := port
      tenant := fldAt b 0 1, slot := slot, cls := fldAt b 2 1, logprobs := fldAt b 4 1, promptTokens := fldAt b 8 4
      maxNew := fldAt b 12 4, draftSlot := fldAt b 5 1, pstore := pstore, punits := units
      seed := BitVec.ofNat 64 (fldAt b 24 8), ledgerOpen := now
      deadline := if fldAt b 16 8 = 0 then 0 else now + BitVec.ofNat 64 (fldAt b 16 8)
      temperature := f 32, topP := f 36, topK := f 40, repPenalty := f 44
      lat := Tbl.get LatClass.reset s.adm.classes (fldAt b 2 1), stops := openStops b, tree := tree, edition := ed }

/-- A REFUSED_ADMISSION with its reason (R408). -/
def Reply.refused (reason : Nat) (result : Bytes) : Reply := ⟨stRefused, reason, 0, 0, 0, 0, result⟩

/-- SESSION_OPEN (R292). -/
def sessionOpenOp (port : Nat) (b : Bytes) (s : State) : State × Answer :=
  let t := fldAt b 0 1
  let slot := fldAt b 1 1
  let x := s.slot slot
  let draft := fldAt b 5 1
  let units := (fldAt b 8 4 + 1023) / 1024
  let arch := s.gen.archivalOnly || decide (fldAt b 3 1 % 2 = 1)
  let twins := match x.folio with | some f => f.archival | none => false
  if sessionOpenBad b || (x.isDeployment && sessionOpenOver b x.serving) then refuse (Reply.err stMalformed) s
  else if (s.tenant t).state ≠ .bound ∨ x.state = .empty ∨ x.tenant ≠ t ∨ x.isHead = false ∨ x.isDeployment = false
      ∨ (arch = true ∧ twins = false)
      ∨ (draft ≠ 0xFF ∧ ((s.slot draft).kind ≠ 2 ∨ (s.slot draft).tenant ≠ t ∨ (s.slot draft).state = .empty)) then
    refuse (Reply.err stNotPermitted) s
  else if !s.gen.service then refuse Reply.readingRoom s
  else if x.state ≠ .running then refuse (Reply.wrong 2 x.state.code 8 0) s
  else match s.freeDescriptor with
    | none => refuse (Reply.err stNoResource) (s.raise0 catPage 0)
    | some i =>
      match s.promptUnits slot units with
      | none => refuse (Reply.err stNoResource) s
      | some first =>
        if (s.tenant t).share = 0 then refuse (Reply.refused refuseTenant []) (s.countRefusal refuseTenant)
        else if (s.tenant t).sessions.toNat ≤ s.descriptorUse t then
          refuse (Reply.refused refuseQuota []) (s.countRefusal refuseQuota)
        else if s.power.shedNow && s.slotThrottled slot then refuse (Reply.refused refuseTime []) (s.countRefusal refuseTime)
        else
          let s := s.openSession i port first units b
          let y := s.session i
          (s, .done (Reply.ok (leBytes 4 (sessHandle i y)
            ++ [BitVec.ofNat 8 (y.archival.toNat + 2 * y.speculative.toNat), 0, 0, 0] ++ leBytes 8 y.ledgerOpen.toNat)))

-- commands that name a handle

/-- The checks of R288 on a handle in bytes 0 to 3 and a tenant in byte 4. -/
def State.handleFault (s : State) (port : Nat) (b : Bytes) : Option Reply :=
  let x := s.session (fldAt b 0 4 / 2 ^ 20)
  if x.state = .free ∨ x.gen.toNat ≠ fldAt b 0 4 % 2 ^ 20 then some (Reply.err stStale)
  else if x.port ≠ port ∨ x.tenant ≠ fldAt b 4 1 then some (Reply.err stNotPermitted)
  else none

/-- The descriptor index that a payload's handle names. -/
def handleIndex (b : Bytes) : Nat := fldAt b 0 4 / 2 ^ 20

/-- PROMPT_APPEND's result (R415). -/
def Session.appendResult (x : Session) : Bytes :=
  let refused := decide (x.endReason = endRefused)
  [BitVec.ofNat 8 (if refused then SessState.closed.code else x.state.code), BitVec.ofNat 8 x.queued.toNat,
   BitVec.ofNat 8 x.refuseReason, 0] ++ leBytes 4 x.promptReceived

/-- The call number of token `n` of a session's prompt (R287). -/
def State.promptAddr (s : State) (x : Session) (n : Nat) : Option Nat :=
  (((s.slot x.slot).folio.bind fun f => f.lparts[(s.slot x.slot).lpart.toNat]?).bind LogPart.at_).map fun kp =>
    partBase kp.1 kp.2 + 4096 * x.pstore + 4 * n

/-- A token ID of a PROMPT_APPEND is VOCAB or above (R293); not where the session's deployment is gone. -/
def State.tokensOver (s : State) (slot : Nat) (b : Bytes) (n : Nat) : Bool :=
  (s.slot slot).isDeployment && (List.range n).any fun k => decide ((s.slot slot).serving.vocab ≤ fldAt b (16 + 4 * k) 3)

/-- PROMPT_APPEND (R293, R415): the MALFORMED checks come before the session's state, but for the length of a prompt
that is complete (DEDUCED, log 69). -/
def promptAppendOp (port : Nat) (b : Bytes) (s : State) : State × Answer :=
  let n := fldAt b 8 4
  let i := handleIndex b
  let x := s.session i
  let bad := decide (b.length ≠ 16 + 4 * n) || decide (n = 0) || decide (16380 < n) || !zeroAt b 5 3 || !zeroAt b 12 4
    || (List.range n).any fun k => !zeroAt b (19 + 4 * k) 1
  let excess := s.tokensOver x.slot b n
    || (decide (x.promptReceived ≠ x.promptTokens) && decide (x.promptTokens < x.promptReceived + n))
  if bad then refuse (Reply.err stMalformed) s
  else if !s.gen.service then refuse Reply.readingRoom s
  else match s.handleFault port b with
    | some r => refuse r s
    | none =>
      if excess then refuse (Reply.err stMalformed) s
      else if x.state ≠ .opened ∨ x.promptReceived = x.promptTokens then refuse (Reply.wrong 3 x.state.code 2 0) s
      else
        let s := match s.promptAddr x x.promptReceived with
          | some a => (s.writeSpan .net a (b.drop 16)).1
          | none => s
        let s := s.modSession i fun x => { x with promptReceived := x.promptReceived + n }
        let s := if x.promptReceived + n = x.promptTokens then s.startAdmission i else s
        let y := s.session i
        (s, .done (if y.endReason = endRefused then Reply.refused y.refuseReason y.appendResult else Reply.ok y.appendResult))

/-- SESSION_CANCEL (R290, R291, R332). -/
def sessionCancelOp (port : Nat) (b : Bytes) (s : State) : State × Answer :=
  let i := handleIndex b
  let x := s.session i
  if b.length ≠ 5 then refuse (Reply.err stMalformed) s
  else if !s.gen.service then refuse Reply.readingRoom s
  else match s.handleFault port b with
    | some r => refuse r s
    | none =>
      let s := s.modSession i fun x => { x with cancelSeen := true }
      let s :=
        if x.state = .opened ∨ x.state = .admitted then (s.closeSession i endCancelled).sessionEnded x.slot
        else if x.state = .prefill ∨ x.state = .decode then s.modSession i fun x => { x with cancelPending := true }
        else s
      (s, .done (Reply.ok [BitVec.ofNat 8 (s.session i).state.code]))

/-- SESSION_CLOSE (R291). -/
def sessionCloseOp (port : Nat) (b : Bytes) (s : State) : State × Answer :=
  let i := handleIndex b
  let x := s.session i
  if b.length ≠ 5 then refuse (Reply.err stMalformed) s
  else if !s.gen.service then refuse Reply.readingRoom s
  else match s.handleFault port b with
    | some r => refuse r s
    | none =>
      if x.state ≠ .closed then refuse (Reply.wrong 3 x.state.code 64 0) s
      else (s.modSession i Session.freed, .done (Reply.ok []))

/-- After a command: a session that admission refused is closed and its record sent, behind the completion (R293). -/
def State.settleRefused (s : State) : State :=
  ((s.sessions.filter fun e => decide (e.2.state = .opened) && decide (e.2.endReason = endRefused)).map Prod.fst).foldl
    State.closeRefused s

end Sys2Proof.Machine
end

