-- ==== Sys2Proof/Machine/Clock.lean ====
section
/-! DEFINITION. The meanings of the rows on ticks, references, throttling and the die-to-die interface (chapter "Clocks, ledger
time and determinism" and R486, R519). -/

namespace Sys2Proof.Machine

open Sys2Proof

/-- A tick: the evaluations of clocks and supply, the lease, then admission (R233, R297, R446); nothing before the ledgers
run. -/
def execTick (inputs : TickInputs) (s : State) : Host.Outcome State Fault Refusal :=
  .next (if s.ledgersRun then
      (((s.clockTick inputs).leaseTick inputs.heartbeatA inputs.heartbeatB).admissionTick).progress
    else s)

/-- The selected reference fails (R223); nothing in holdover. -/
def execRefHoldover (s : State) : Host.Outcome State Fault Refusal :=
  .next (if s.aligned = false ∨ s.clock.holdover = true then s
    else
      ({ s with clock := { s.clock with refLock := false, holdover := true, holdovers := sat32 s.clock.holdovers 1 } }).raise0
        clkPage 0)

/-- The loop locks to the selected reference, whose offset is measured (R223, R436); nothing while it is locked. -/
def execRefLocked (ppb : BitVec 32) (s : State) : Host.Outcome State Fault Refusal :=
  .next (if s.aligned = false ∨ s.clock.refLock = true then s
    else
      ({ s with clock := { s.clock with refLock := true, holdover := false
                                        refOffset := if s.clock.refSel = 0 then 0 else ppb } }).raise0 clkPage 1)

/-- Three ticks in a row gave no valid sample (R236); nothing before the third. -/
def execLdgHoldover (s : State) : Host.Outcome State Fault Refusal :=
  .next (if (s.ledger.state = .acquire ∨ s.ledger.state = .locked) ∧ 3 ≤ s.ledger.missed then s.setLdg .holdover else s)

/-- A droop event of a region (R230, R231). -/
def execDroop (cluster : ClusterId) (s : State) : Host.Outcome State Fault Refusal :=
  .next (if s.power.railsOn = false ∨ s.fused cluster = true then s
    else
      (s.modRegion cluster fun x => { x with kDroop := 8, drooped := true, droops := sat32 x.droops 1 }).raise
        (dieClkPage (cluster / 16)) 2 [BitVec.ofNat 8 (cluster % 16)])

/-- 512 generator periods have passed since the last droop event of a region (R230). -/
def execDroopHoldEnd (cluster : ClusterId) (s : State) : Host.Outcome State Fault Refusal :=
  .next (s.modRegion cluster fun x => { x with kDroop := 0 })

/-- A region's junction reaches 110 °C (R519). -/
def execJunctionNear (region : ClusterId) (temp : Nat) (s : State) : Host.Outcome State Fault Refusal :=
  .next (if s.power.railsOn = false ∨ s.fused region = true ∨ temp < 110 then s
    else (s.modRegion region fun x => { x with temp := temp }).raise pwrPage 5 [BitVec.ofNat 8 region])

-- alignment

/-- ALIGN_FAIL of a die for a crossing (R225, R437). -/
def State.alignFail (s : State) (d crossing : Nat) : State := s.capture (dieClkPage d) 3 [BitVec.ofNat 32 crossing]

/-- What the handshake leaves on one die (R225, R437). -/
def State.alignDie (s : State) (clusterOk : BitVec 32) (net d2d : Bool) (d : Nat) : State :=
  let s := s.modDieClock d fun x =>
    { x with alignDone := true, d2dOk := d2d, netOk := net, clusterOk := clusterOk.extractLsb' (16 * d) 16 }
  let bad := (List.range 16).filter fun i => !clusterOk.getLsbD (16 * d + i) && !s.fused (16 * d + i)
  let s := bad.foldl (fun (s : State) i =>
    ({ s with gen := { s.gen with alignFailed := setBit s.gen.alignFailed (16 * d + i) } }).alignFail d i) s
  let s := if net then s else s.alignFail d 16
  if d2d then s else s.alignFail d 17

/-- The internal alignment handshake ends (R225, R234, R511): the ledgers are aligned to each other. -/
def execAlignmentDone (clusterOk : BitVec 32) (netOk : BitVec 2) (d2dOk : Bool) (s : State) :
    Host.Outcome State Fault Refusal :=
  .next (if s.power.railsOn = false ∨ s.aligned = true then s
    else
      let s := (s.setBoot 2).alignDie clusterOk (netOk.getLsbD 0) d2dOk 0
      let s := s.alignDie clusterOk (netOk.getLsbD 1) d2dOk 1
      ({ s with clock := { s.clock with refLock := true } }).alignDies)

-- the die-to-die interface

/-- The folio uses both dies: cores on both, or a logical partition on another die than some core (R486). -/
def Slot.spansDies (x : Slot) : Bool :=
  let ks := (List.range 32).filter x.claims
  let places := ks ++ x.parts.map Prod.fst
  (places.any fun k => k < 16) && places.any fun k => decide (16 ≤ k)

/-- The interface retrains (R486). -/
def execD2dRetrain (s : State) : Host.Outcome State Fault Refusal :=
  .next (if s.power.railsOn = false then s
    else
      let s := { s with gen := { s.gen with d2dDown := true } }
      let slots := (s.slots.filter fun e => decide (e.2.state = .running) && e.2.spansDies).map Prod.fst
      (slots.foldl (fun (s : State) i => s.programFault i reasonD2d none) s).progress)

/-- A retrain completes and the other die's ledger is aligned again, or 10 ms pass, the module leaves service and
ALIGN_FAIL is raised (R234, R486); nothing while the interface does not retrain. -/
def execD2dRetrainEnd (completed : Bool) (s : State) : Host.Outcome State Fault Refusal :=
  .next (if s.gen.d2dDown = false then s
    else if completed then ({ s with gen := { s.gen with d2dDown := false } }).alignDies
    else ({ s with gen := { s.gen with service := false } }).alignFail 1 17)

end Sys2Proof.Machine
end

