-- ==== Sys2Proof/Machine/Control.lean ====
section
/-! DEFINITION. The meanings of BUNDLE_ISSUE, of the control words and of the sequencer's own events (chapter "Core
sequencer, queues and rings"). -/

namespace Sys2Proof.Machine

open Sys2Proof

/-- One engine cycle in which the sequencer offers the bundle at its pc (R127). -/
def execBundleIssue (core : CoreId) (waits : UnitWaits) (s : State) : Host.Outcome State Fault Refusal :=
  .next (s.bundleCycle core waits)

/-- A branch that a core runs alone leaves from the end of the bundle at its pc, whose loops are counted (R130, R131). -/
def State.afterBundle (s : State) (c : Nat) (f : Sequencer → Sequencer) : State :=
  s.modSq c fun q => f (q.follow q.pc (q.bundleLen q.pc))

/-- CT.NOP: none; its other bits are RSVD (R129). -/
def execCtNop (core : CoreId) (args : BitVec 58) (s : State) : Host.Outcome State Fault Refusal :=
  .next (s.controlAlone core (word58 0x00 args) fun _ s => s)

/-- CT.LOOP: it pushes a loop over the bundles that follow (R130). -/
def execCtLoop (core : CoreId) (args : BitVec 58) (s : State) : Host.Outcome State Fault Refusal :=
  .next (s.controlAlone core (word58 0x01 args) fun _ s => s.modSq core fun q => q.pushLoop (q.pc + q.bundleLen q.pc) (word58 0x01 args))

/-- CT.CALL: (R131). -/
def execCtCall (core : CoreId) (args : BitVec 58) (s : State) : Host.Outcome State Fault Refusal :=
  .next (s.controlAlone core (word58 0x02 args) fun _ s => s.afterBundle core fun q => q.runCall (word58 0x02 args))

/-- CT.RET: (R131). -/
def execCtRet (core : CoreId) (args : BitVec 58) (s : State) : Host.Outcome State Fault Refusal :=
  .next (s.controlAlone core (word58 0x03 args) fun _ s => s.afterBundle core fun q => q.runRet)

/-- CT.JUMP: (R131). -/
def execCtJump (core : CoreId) (args : BitVec 58) (s : State) : Host.Outcome State Fault Refusal :=
  .next (s.controlAlone core (word58 0x04 args) fun _ s => s.afterBundle core fun q => q.runJump (word58 0x04 args))

/-- CT.DELAY: (R131). -/
def execCtDelay (core : CoreId) (args : BitVec 58) (s : State) : Host.Outcome State Fault Refusal :=
  .next (s.controlAlone core (word58 0x05 args) fun _ s => s.modSq core fun q => q.runDelay (word58 0x05 args))

/-- CT.HALT: (R132). -/
def execCtHalt (core : CoreId) (args : BitVec 58) (s : State) : Host.Outcome State Fault Refusal :=
  .next (s.controlAlone core (word58 0x06 args) fun _ s => s.modSq core fun q => q.runHalt)

/-- CT.WAITQ: it only waits (R140). -/
def execCtWaitq (core : CoreId) (args : BitVec 58) (s : State) : Host.Outcome State Fault Refusal :=
  .next (s.controlAlone core (word58 0x08 args) fun _ s => s)

/-- CT.ACQR: it only waits (R145). -/
def execCtAcqr (core : CoreId) (args : BitVec 58) (s : State) : Host.Outcome State Fault Refusal :=
  .next (s.controlAlone core (word58 0x09 args) fun _ s => s)

/-- CT.RELR: (R146). -/
def execCtRelr (core : CoreId) (args : BitVec 58) (s : State) : Host.Outcome State Fault Refusal :=
  .next (s.controlAlone core (word58 0x0A args) fun _ s => s.runRelr core (word58 0x0A args))

/-- CT.STAMP: (R149). -/
def execCtStamp (core : CoreId) (args : BitVec 58) (s : State) : Host.Outcome State Fault Refusal :=
  .next (s.controlAlone core (word58 0x10 args) fun _ s => s.runStamp core false (word58 0x10 args))

/-- CT.STEP: (R149). -/
def execCtStep (core : CoreId) (args : BitVec 58) (s : State) : Host.Outcome State Fault Refusal :=
  .next (s.controlAlone core (word58 0x11 args) fun _ s => s.runStamp core true (word58 0x11 args))

/-- A core that waits at a stamp arrives: its S reaches PLAN (R149). -/
def execStampArrival (core : CoreId) (s : State) : Host.Outcome State Fault Refusal :=
  .next ((s.modSq core fun q => match q.stamp with
    | some st => if st.arrived then q else { q with s := max q.s st.plan, cycle := q.cycle + (st.plan - q.s) }
    | none => q).arrive core)

/-- After CT.HALT the last earlier word has completed (R132). -/
def execCoreRunEnd (core : CoreId) (s : State) : Host.Outcome State Fault Refusal := .next (s.endRun core)

/-- The ring condition that the bundle at the pc of a core waits for, with its word. -/
def State.ringAwaited (s : State) (c : Nat) (put : Bool) : Option W64 :=
  let q := (s.core c).sq
  if !s.runs c || !q.run || q.stamp.isSome || q.halted then none
  else
    let ws := q.bundle q.pc
    let t := slotWord ws 60
    let k := slotWord ws 59
    match s.controlWait c k, s.transferWait c t with
    | some (.ring _ p), some (.ring _ p') => if p = put then some k else if p' = put then some t else none
    | some (.ring _ p), _ => if p = put then some k else none
    | _, some (.ring _ p) => if p = put then some t else none
    | _, _ => none

/-- The cycles that the bundle at the pc of a core still waits for a ring condition before its patience ends (R145). -/
def State.patienceLeft (s : State) (c : Nat) (put : Bool) : Nat :=
  match (s.ringAwaits c ((s.core c).sq.bundle (s.core c).sq.pc)).find? fun e => e.2.1 = put with
  | some e => (s.ring (clusterOf c) e.1).patience.toNat - (s.core c).sq.ringWait
  | none => 0

/-- `n` cycles pass in which the bundle at the pc waits, each counted as BUNDLE_ISSUE counts it (R141, R145, R148,
R158). -/
def State.waitCycles (s : State) (c n : Nat) : State :=
  ((s.bundleWaits c ((s.core c).sq.bundle (s.core c).sq.pc) n).1).modSq c fun q => { q.passed n with idle := q.idle + n }

/-- A ring wait goes on until its patience ends, and the core faults in the cycle after (R145, R200; DEDUCED, log 151). -/
def State.ringTimeout (s : State) (c : Nat) (put : Bool) : State :=
  match s.ringAwaited c put with
  | some w => (s.waitCycles c (s.patienceLeft c put)).ringFault c put w
  | none => s

/-- A take waits past its patience (R145); nothing where the core waits for no take. -/
def execSlotEmptyTimeout (core : CoreId) (s : State) : Host.Outcome State Fault Refusal := .next (s.ringTimeout core false)

/-- A put waits past its patience (R145); nothing where the core waits for no put. -/
def execSlotFullTimeout (core : CoreId) (s : State) : Host.Outcome State Fault Refusal := .next (s.ringTimeout core true)

/-- The cycles that the watchdog of a core still counts before it expires (R158). -/
def State.watchdogLeft (s : State) (c : Nat) : Nat := s.watchdogLimit c - (s.core c).sq.idle

/-- No bundle issues until the watchdog expires (R158; DEDUCED, log 151); nothing at a stamp, in a CT.DELAY or after
CT.HALT, which it does not count. -/
def execSqWatchdog (core : CoreId) (s : State) : Host.Outcome State Fault Refusal :=
  let q := (s.core core).sq
  .next (if !s.runs core || !q.run || q.stamp.isSome || q.halted || decide (0 < q.delay) && q.planned then s
    else (s.waitCycles core (s.watchdogLeft core)).watchdogFault core)

end Sys2Proof.Machine
end

