-- ==== Sys2Proof/Machine/FolioOps.lean ====
section
/-! DEFINITION. Folios: the payload of FOLIO_LOAD (R412), header and section table (R253 to R255), the manifest's values
(R260), the sections' contents and their checks (R135, R139, R142, R149, R242, R258, R264 to R268, R270, R311, R339). -/

namespace Sys2Proof.Machine

open Sys2Proof

-- the payload

/-- DEVICE_COUNT and WINDOW_COUNT of a FOLIO_LOAD payload, and the offsets at which its parts begin (R412). -/
def loadDevices (b : Bytes) : Nat := fldAt b 4 2
def loadWindows (b : Bytes) : Nat := fldAt b 6 2
def loadPad (b : Bytes) : Nat := 16 + 2 * loadDevices b
def loadBind (b : Bytes) : Nat := (loadPad b + 7) / 8 * 8
def loadBlockAt (b : Bytes) : Nat := loadBind b + 16 * loadWindows b
/-- Bytes of the signed block: header and section table (R253, R254). -/
def loadBlockLen (b : Bytes) : Nat := 256 + 96 * fldAt b (loadBlockAt b + 24) 2
/-- Offset of the first section: after the colophon. -/
def loadBody (b : Bytes) : Nat := loadBlockAt b + loadBlockLen b + 160

/-- The first packets hold everything up to the colophon (R274). -/
def loadHeadThere (b : Bytes) : Bool :=
  decide (16 ≤ b.length) && decide (loadBlockAt b + 256 ≤ b.length) && decide (loadBody b ≤ b.length)

/-- The fixed part breaks R412. -/
def loadFixedBad (b : Bytes) : Bool :=
  !loadHeadThere b || decide (63 < fldAt b 0 1) || decide (4096 < loadWindows b) || !zeroAt b 8 8

/-- The window bindings, 16 bytes each (R412). -/
def loadBindings (b : Bytes) : List Bytes :=
  (List.range (loadWindows b)).map fun i => (b.drop (loadBind b + 16 * i)).take 16

/-- A set RSVD bit of the binding table, or a window symbol bound twice (R268, R412). -/
def loadBindingBad (b : Bytes) : Bool :=
  ((List.range (loadDevices b)).any fun r => decide (4095 < fldAt b (16 + 2 * r) 2))
    || !zeroAt b (loadPad b) (loadBind b - loadPad b)
    || ((loadBindings b).any fun w => decide (4095 < fldAt w 6 2) || decide (0xFFFFF < fldAt w 8 4))
    || !decide ((loadBindings b).map fun w => fldAt w 0 4).Nodup

-- header and section table

/-- An entry of the section table (R254). -/
structure Sect where
  typ : Nat
  role : Nat
  offset : Nat
  len : Nat
  digest : Bytes
deriving DecidableEq, Repr

/-- The section table of a signed block. -/
def blockSections (k : Bytes) : List Sect :=
  (List.range (fldAt k 24 2)).map fun i =>
    let o := 256 + 96 * i
    ⟨fldAt k o 2, fldAt k (o + 2) 2, fldAt k (o + 8) 8, fldAt k (o + 16) 8, (k.drop (o + 32)).take 64⟩

def sharedTypes : List Nat := [1, 2]
/-- Per-role types that every role has (R255). -/
def roleTypes (sessions : Bool) : List Nat :=
  [3, 4, 0x10, 0x11, 0x12, 0x13, 0x14, 0x15, 0x16] ++ if sessions then [5] else []

/-- A section's type and scope are legal (R255). -/
def Sect.scopeOk (x : Sect) : Bool :=
  if sharedTypes.contains x.typ then x.role = 0xFFFF
  else if x.typ = 5 ∨ x.typ = 0x17 ∨ x.typ = 0x18 ∨ (roleTypes false).contains x.typ then x.role ≠ 0xFFFF
  else 0x8000 ≤ x.typ

/-- Sections lie in ascending order from `lo` without overlap, at multiples of 64, and end at or before `hi` (R254). -/
def sectionsOrdered : Nat → Nat → List Sect → Bool
  | lo, hi, [] => decide (lo ≤ hi)
  | lo, hi, x :: r => decide (lo ≤ x.offset) && decide (x.offset % 64 = 0) && sectionsOrdered (x.offset + x.len) hi r

/-- The required sections of a role are there. -/
def roleComplete (l : List Sect) (sessions : Bool) (role : Nat) : Bool :=
  (roleTypes sessions).all fun t => l.any fun x => x.typ = t && x.role = role

/-- Roles that the section table names. -/
def rolesNamed (l : List Sect) : List Nat := ((l.map Sect.role).filter (· ≠ 0xFFFF)).dedup

/-- The header and section table of a signed block break R253 to R255. That a section stands for every role below
MODULE_COUNT is checked once STAMP gives that count. -/
def blockBad (k : Bytes) : Bool :=
  let l := blockSections k
  let flags := fldAt k 7 1
  decide (k.take 4 ≠ [0x42#8, 0x46#8, 0x4C#8, 0x4F#8]) || decide (fldAt k 5 1 ≠ 1) || decide (fldAt k 6 1 = 0)
    || decide (5 < fldAt k 6 1) || decide (3 < flags) || decide (fldAt k 24 2 = 0) || !zeroAt k 26 2
    || decide (7 < fldAt k 28 4) || !zeroAt k 40 216
    || ((List.range (fldAt k 24 2)).any fun i => !zeroAt k (260 + 96 * i) 4 || !zeroAt k (280 + 96 * i) 8)
    || !sectionsOrdered (256 + 96 * fldAt k 24 2) (fldAt k 16 8 - 160) l || decide (fldAt k 16 8 < 160)
    || !l.all Sect.scopeOk
    || !decide ((l.filter fun x => decide (x.typ < 0x8000) && decide (x.typ ≠ 0x17)).map fun x => (x.typ, x.role)).Nodup
    || !(sharedTypes.all fun t => l.any fun x => x.typ = t)
    || !((0 :: rolesNamed l).all (roleComplete l (flags / 2 % 2 = 1)))

/-- The sections that FOLIO_LOAD carries, each with its bytes if they have all arrived (R274, R412). -/
def cutSections : List Sect → Bytes → List (Sect × Option Bytes)
  | [], _ => []
  | x :: r, b => (x, if x.len ≤ b.length then some (b.take x.len) else none) :: cutSections r (b.drop x.len)

/-- What a load works on. -/
structure LoadReq where
  slot : Nat
  tenant : Nat
  role : Nat
  devices : List Nat
  bindings : List Bytes
  kind : Nat
  archival : Bool
  sessions : Bool
  seed : W64
  trap : Nat
  compiler : W64
  block : Bytes
  colophon : Bytes
  sections : List Sect
  cut : List (Sect × Option Bytes)
  extra : Bool
  view : Option FolioView
deriving DecidableEq, Repr

/-- Reads a FOLIO_LOAD payload, or as much of it as has arrived. -/
def readLoad (b : Bytes) (view : Option FolioView) : LoadReq :=
  let k := (b.drop (loadBlockAt b)).take (loadBlockLen b)
  let l := blockSections k
  let role := fldAt b 2 2
  let mine := l.filter fun x => decide (x.role = 0xFFFF) || decide (x.role = role)
  let body := b.drop (loadBody b)
  { slot := fldAt b 0 1, tenant := fldAt b 1 1, role := role
    devices := (List.range (loadDevices b)).map fun r => fldAt b (16 + 2 * r) 2
    bindings := loadBindings b, kind := fldAt k 6 1, archival := fldAt k 7 1 % 2 = 1, sessions := fldAt k 7 1 / 2 % 2 = 1
    seed := BitVec.ofNat 64 (fldAt k 8 8), trap := fldAt k 28 4, compiler := BitVec.ofNat 64 (fldAt k 32 8)
    block := k, colophon := (b.drop (loadBlockAt b + loadBlockLen b)).take 160, sections := l, cut := cutSections mine body
    extra := decide ((mine.map Sect.len).sum < body.length), view := view }

/-- The bytes of a section by its type, if it has arrived. -/
def LoadReq.sect (q : LoadReq) (t : Nat) : Option Bytes :=
  match q.cut.find? fun e => e.1.typ = t with | some e => e.2 | none => none

/-- The bytes of a section that has arrived. -/
def LoadReq.body (q : LoadReq) (t : Nat) : Bytes := (q.sect t).getD []

-- STAMP

/-- The STAMP section breaks R258. -/
def stampBad (d : Bytes) : Bool :=
  let n := fldAt d 2 2
  decide (n = 0) || decide (4096 < n) || decide (d.length ≠ 16 + 16 * n) || !zeroAt d 4 12
    || (List.range n).any fun r => !zeroAt d (28 + 16 * r) 4

/-- CLUSTERS of a role. -/
def stampClusters (d : Bytes) (r : Nat) : BitVec 32 := BitVec.ofNat 32 (fldAt d (24 + 16 * r) 4)

/-- One section of every required kind stands for each role below MODULE_COUNT, and for no other (R254, R255). -/
def LoadReq.rolesOk (q : LoadReq) (n : Nat) : Bool :=
  ((rolesNamed q.sections).all fun r => r < n) && (List.range n).all (roleComplete q.sections q.sessions)

-- MANIFEST

/-- The value of a manifest ID (R260). -/
def manifestValue (g : Grade) (c0 : Bool) (id : Nat) : Option Nat :=
  let l := decide (g = .l)
  [(0x01, 12), (0x02, 1), (0x03, 512), (0x04, 128), (0x05, if c0 then 20 else 22),
   (0x06, (if c0 then 28 else 30) - (if l then 5 else 0)), (0x07, if c0 then 9 else 11), (0x08, 13),
   (0x09, if l then 15 else 18), (0x0A, 2), (0x0B, 6), (0x0C, 10), (0x0D, 4), (0x0E, 96), (0x0F, 1), (0x10, 0x0103),
   (0x11, 0x0105), (0x12, 0x0106), (0x13, 0x0408), (0x14, 0x040E), (0x15, 0x0101), (0x18, 0x0810), (0x20, 32),
   (0x21, 16), (0x22, 128), (0x23, 256), (0x24, 2), (0x25, 4), (0x26, 10), (0x27, 2), (0x28, 48), (0x29, 2), (0x2A, 4096),
   (0x30, 12), (0x31, 40), (0x38, if l then 1400000 else 1700000), (0x39, if l then 33 else 40), (0x3A, 1)].lookup id

/-- Every ID of the table, ascending. -/
def manifestIds : List Nat := (List.range 0x40).filter fun i => (manifestValue .a true i).isSome

/-- The pad group (R260). -/
def padGroup (id : Nat) : Bool := id = 5 || id = 6 || id = 7

/-- The entries of a MANIFEST section. -/
def manifestEntries (d : Bytes) : List (Nat × Nat) :=
  (List.range (fldAt d 0 4)).map fun i => (fldAt d (4 + 8 * i) 2, fldAt d (8 + 8 * i) 4)

/-- The form that step 1 of R261 asks for is broken. -/
def manifestBad (d : Bytes) : Bool :=
  let n := fldAt d 0 4
  decide (d.length ≠ 4 + 8 * n) || ((List.range n).any fun i => !zeroAt d (6 + 8 * i) 2)
    || !decide ((manifestEntries d).map Prod.fst).Nodup
    || !(manifestIds.all fun i => (manifestEntries d).any fun e => e.1 = i)

/-- The entry with the lowest ID that `bad` picks. -/
def lowestEntry (l : List (Nat × Nat)) (bad : Nat × Nat → Bool) : Option (Nat × Nat) :=
  (l.filter bad).foldl (fun (b : Option (Nat × Nat)) e =>
    match b with
    | some x => if e.1 < x.1 then some e else b
    | none => some e) none

-- PARTITIONS

/-- The logical partitions of a PARTITIONS section, not yet assigned (R265). -/
def logParts (d : Bytes) : List LogPart :=
  (List.range (fldAt d 0 4)).map fun i =>
    let o := 4 + 16 * i
    ⟨fldAt d o 1 = 1, BitVec.ofNat 3 (fldAt d (o + 1) 1), BitVec.ofNat 32 (fldAt d (o + 4) 4), none⟩

/-- The PARTITIONS section breaks R265. -/
def partsBad (d : Bytes) : Bool :=
  let n := fldAt d 0 4
  decide (255 < n) || decide (d.length ≠ 4 + 16 * n)
    || (List.range n).any fun i =>
      let o := 4 + 16 * i
      decide (fldAt d o 1 ≠ 1 ∧ fldAt d o 1 ≠ 2) || decide (7 < fldAt d (o + 1) 1) || !zeroAt d (o + 2) 2 || !zeroAt d (o + 8) 8

-- VARIANTS, SERVING, RESIDENT

/-- STEP_ENTRY groups of a VARIANTS section: none, or one for each variant and each archival twin (R264). -/
def stepGroups (d : Bytes) : Nat :=
  let n := fldAt d 0 1
  let a := fldAt d 1 1 % 2
  if n ≤ 1 ∧ a = 0 then 0 else n * (1 + a)

/-- Entry `i` of group `g` of a VARIANTS section with `cores` cores; group 0 is START (R264). -/
def variantEntry (d : Bytes) (cores g i : Nat) : Nat := fldAt d (4 + 4 * fldAt d 0 1 + 4 * (g * cores + i)) 4

/-- Group `g`, one entry per core. -/
def variantGroup (d : Bytes) (cores g : Nat) : List Nat := (List.range cores).map (variantEntry d cores g)

/-- The VARIANTS section breaks R264. -/
def variantsBad (d : Bytes) (clusters : Nat) (archival : Bool) : Bool :=
  let n := fldAt d 0 1
  let cores := 8 * clusters
  decide (n = 0) || decide (9 < n) || decide (fldAt d 1 1 ≠ archival.toNat) || !zeroAt d 2 2
    || decide (d.length ≠ 4 + 4 * n + 4 * cores * (1 + stepGroups d))
    || ((List.range n).any fun v => !zeroAt d (6 + 4 * v) 2
        || decide (clusters < fldAt d (4 + 4 * v) 1 + fldAt d (5 + 4 * v) 1))
    || (List.range (cores * (1 + stepGroups d))).any fun i => decide (storeWords ≤ variantEntry d cores 0 i)

/-- The SERVING section breaks R270, for `records` step-time records. -/
def servingBad (d : Bytes) (records : Nat) : Bool :=
  let v := fldAt d 0 4
  let n := fldAt d 12 1
  decide (d.length ≠ 80 + 24 * records) || decide (v = 0) || decide (2 ^ 24 < v) || decide (16 < n) || !zeroAt d 13 3
    || ((List.range 16).any fun i => !zeroAt d (19 + 4 * i) 1 || (decide (n ≤ i) && !zeroAt d (16 + 4 * i) 4))
    || (List.range records).any fun i => !zeroAt d (98 + 24 * i) 6

/-- Reads a SERVING section (R270). -/
def readServing (d : Bytes) (records : Nat) : Serving :=
  { vocab := fldAt d 0 4, kvBytes := fldAt d 4 4, maxContext := fldAt d 8 4
    endIds := (List.range (fldAt d 12 1)).map fun i => fldAt d (16 + 4 * i) 3
    models := (List.range records).map fun i =>
      let o := 80 + 24 * i
      ⟨fldAt d o 4, fldAt d (o + 4) 4, fldAt d (o + 8) 4, fldAt d (o + 12) 4, fldAt d (o + 16) 2⟩ }

/-- Logical partitions that a RESIDENT section names, in order (R339). -/
def residentParts (d : Bytes) : List Nat :=
  (List.range (fldAt d 4 2)).flatMap fun r =>
    let o := 16 + 8 * r
    if fldAt d 0 1 = 2 then [fldAt d o 1, fldAt d (o + 1) 1] else [fldAt d o 1]

/-- The RESIDENT section breaks R339. -/
def residentBad (d : Bytes) (l : List LogPart) : Bool :=
  let sides := fldAt d 0 1
  let n := fldAt d 4 2
  let part (i : Nat) : Option LogPart := l[i]?
  decide (sides ≠ 1 ∧ sides ≠ 2) || decide (n = 0) || decide (256 < n) || !zeroAt d 1 3 || !zeroAt d 6 10
    || decide (d.length ≠ 16 + 8 * n) || !decide (residentParts d).Nodup
    || (List.range n).any fun r =>
      let o := 16 + 8 * r
      let a := part (fldAt d o 1)
      let b := part (fldAt d (o + 1) 1)
      !zeroAt d (o + 2) 2 || decide (fldAt d (o + 4) 4 = 0) || decide (16384 < fldAt d (o + 4) 4)
        || !((a.map LogPart.resident).getD false)
        || (if sides = 1 then decide (fldAt d (o + 1) 1 ≠ 0xFF)
            else !((b.map LogPart.resident).getD false) || decide (a.map LogPart.hash ≠ b.map LogPart.hash)
              || decide (a.map LogPart.shelves ≠ b.map LogPart.shelves))

-- QUEUES, RINGS, STAMPS

/-- Two endpoints that the wiring of R135 joins, outbound first. -/
def neighbourPair (o oq i iq : Nat) : Bool :=
  (oq = 16 && iq = 0 && i = nextCore o) || (oq = 17 && iq = 1 && i = prevCore o)

/-- One entry of the queue table obeys R135 and R139, over the clusters of the role. -/
def queueOk (e : QueueEntry) (clusters : BitVec 32) : Bool :=
  let mine (c : Nat) : Bool := decide (c < 256) && clusters.getLsbD (clusterOf c)
  let same := clusterOf e.core = clusterOf e.peerCore
  let depth := decide (0 < e.cut) && decide (e.cut ≤ qepDepth e.qep)
  let out := 16 ≤ e.qep
  mine e.core && depth && decide (e.qep < 32) && decide (e.peerQep < 32) && decide (qepInbound e.qep ≠ qepInbound e.peerQep)
    && decide (qepClass e.qep = qepClass e.peerQep)
    && (match qepClass e.qep with
      | some 0 => mine e.peerCore && (if out then neighbourPair e.core e.qep e.peerCore e.peerQep
                                      else neighbourPair e.peerCore e.peerQep e.core e.qep)
      | some 1 => mine e.peerCore && same
      | some 2 => mine e.peerCore && !same
      | some 3 => decide (e.peerCore < 256)
      | _ => false)

/-- The local endpoints that an entry binds. -/
def queueBinds (e : QueueEntry) : List (Nat × Nat) :=
  if qepClass e.qep = some 3 then [(e.core, e.qep)] else [(e.core, e.qep), (e.peerCore, e.peerQep)]

/-- The queue table obeys R135 and R139. -/
def queuesOk (l : List QueueEntry) (clusters : BitVec 32) : Bool :=
  (l.all fun e => queueOk e clusters) && decide (l.flatMap queueBinds).Nodup

/-- Core `p` of a cluster reaches the carrel of core `o` of the same cluster (R21). -/
def reachesCarrel (p o : Nat) : Bool := o = p || o = nextCore p || o = prevCore p

/-- One entry of the ring table obeys R142. -/
def ringOk (e : RingEntry) (clusters : BitVec 32) : Bool :=
  decide (e.cluster < 32) && clusters.getLsbD e.cluster && decide (e.ring < 64) && decide (e.base % 64 = 0)
    && decide (64 ≤ e.slotSize) && decide (e.slotSize ≤ 65536) && decide (e.slotSize % 64 = 0) && decide (1 ≤ e.slots)
    && decide (e.slots ≤ 4096) && decide (e.producer < 8) && decide (e.consumer < 8)
    && (decide (e.patience = 0) || (decide (16 ≤ e.patience) && decide (e.patience ≤ 65535)))
    && (if e.shelf then decide (e.base < 2 ^ 29) && decide (e.base % partBytes + e.slotSize * e.slots ≤ partBytes)
        else decide (e.owner < 8) && reachesCarrel e.producer e.owner && reachesCarrel e.consumer e.owner
          && decide (e.base + e.slotSize * e.slots ≤ carrelBytes))

/-- The batch ring and, on role 0, the result ring are configured (R311). -/
def ringsThere (l : List RingEntry) (clusters : BitVec 32) (role : Nat) : Bool :=
  let k := ((onesBelow clusters 32).head?).getD 32
  let has (n : Nat) : Bool := l.any fun e => e.cluster = k && e.ring = n
  has 63 && (decide (role ≠ 0) || has 62)

/-- Slots of the rings of a cluster (R142). -/
def ringSlots (l : List RingEntry) (k : Nat) : Nat := ((l.filter fun e => e.cluster = k).map RingEntry.slots).sum

/-- One entry of the stamp table obeys R149 and R242. -/
def stampOk (e : StampEntry) (clusters : BitVec 32) : Bool :=
  (e.members.all fun c => decide (c < 256) && clusters.getLsbD (clusterOf c)) && decide (e.group < 1024)
    && e.peers.all fun p => p.lambda + 40 ≤ e.p

-- CODE

/-- The bundles of an image: the word indices at which they begin, the slot words as (index, header bit, word), and where
the parse leaves the image (R267); none where a bundle is illegal. `skip` counts the slot words still to come and `bits`
names them. -/
def parseImage : Nat → List Nat → List W64 → Option (List Nat × List (Nat × Nat × W64) × Nat)
  | p, _ :: slots, [] => if p + slots.length < storeWords then some ([], [], p + slots.length + 1) else none
  | p, [], [] => some ([], [], p)
  | p, b :: slots, w :: r =>
    match parseImage (p + 1) slots r with
    | some (heads, words, stop) => some (heads, (p, b, w) :: words, stop)
    | none => none
  | p, [], h :: r =>
    let slots := headerSlots h
    if fld h 58 0 ≠ 0 ∨ storeWords < p + 1 + slots.length then none
    else match parseImage (p + 1) slots r with
      | some (heads, words, stop) => some (p :: heads, words, stop)
      | none => none

/-- A word index names the first word of a parsed bundle: beyond the image every zero word is a bundle (R255, R267). -/
def bundleStarts (heads : List Nat) (stop x : Nat) : Bool := heads.contains x || (decide (stop ≤ x) && decide (x < storeWords))

/-- The word index that a control word names, if it is a CT.LOOP, CT.CALL or CT.JUMP (R129). -/
def branchTarget (w : W64) : Option Nat :=
  match fld w 63 58 with
  | 0x01 => some (fld w 33 19)
  | 0x02 => some (fld w 57 43)
  | 0x04 => some (fld w 57 43)
  | _ => none

/-- The image of core `c` obeys R267 and R149, with its entries `entries` (R264). -/
def imageOk (stamps : List StampEntry) (entries : List Nat) (c : Nat) (image : List W64) : Bool :=
  decide (image.length ≤ storeWords) &&
    match parseImage 0 [] image with
    | none => false
    | some (heads, words, stop) =>
      (entries.all (bundleStarts heads stop)) && words.all fun e =>
        e.2.1 ≠ 59 ||
          ((match branchTarget e.2.2 with | some t => bundleStarts heads stop t | none => true)
            && (if fld e.2.2 63 58 = 0x10 ∨ fld e.2.2 63 58 = 0x11
                then stamps.any fun g => g.group = fld e.2.2 45 36 && g.members.contains c else true))

/-- The slot words of an image, with their word indices. -/
def imageWords (image : List W64) : List (Nat × Nat × W64) :=
  match parseImage 0 [] image with | some (_, words, _) => words | none => []

/-- The image holds a CT.STEP (R278). -/
def imageSteps (image : List W64) : Bool := (imageWords image).any fun e => e.2.1 = 59 && fld e.2.2 63 58 = 0x11

-- RELOC

/-- A relocation record (R266). -/
structure Reloc where
  target : Nat
  lpart : Nat
  core : Nat
  index : Nat
deriving DecidableEq, Repr

def relocs (d : Bytes) : List Reloc :=
  (List.range (fldAt d 0 4)).map fun i =>
    let o := 4 + 16 * i
    ⟨fldAt d o 1, fldAt d (o + 1) 1, fldAt d (o + 2) 2, fldAt d (o + 4) 4⟩

/-- What must be relocated (R267), as (target, core or cluster, index): matrix words with SPC = 1, descriptor operands in
shelf space, shelf rings. -/
def relocWanted (v : FolioView) : List (Nat × Nat × Nat) :=
  (v.code.flatMap fun e => (imageWords e.2).filterMap fun w =>
      if w.2.1 = 63 && fld w.2.2 63 58 = 0x01 && fld w.2.2 46 46 = 1 then some (1, e.1, w.1) else none)
    ++ (v.descriptors.flatMap fun e =>
      let w (i : Nat) : W64 := e.2.2.getD i 0
      (if fld (w 0) 63 62 = 0 ∧ fld (w 1) 47 46 = 1 then [(2, e.1, e.2.1)] else [])
        ++ (if fld (w 0) 61 60 = 0 ∧ fld (w 2) 47 46 = 1 then [(3, e.1, e.2.1)] else []))
    ++ v.rings.filterMap fun e => if e.shelf then some (4, e.cluster, e.ring) else none

/-- The RELOC section breaks R266 or R267. -/
def relocBad (d : Bytes) (l : List LogPart) (v : FolioView) : Bool :=
  let n := fldAt d 0 4
  let have_ := (relocs d).map fun r => (r.target, r.core, r.index)
  let want := relocWanted v
  decide (d.length ≠ 4 + 16 * n) || ((List.range n).any fun i => !zeroAt d (12 + 16 * i) 8)
    || !decide have_.Nodup || !decide want.Nodup || !(want.all have_.contains) || !(have_.all want.contains)
    || (relocs d).any fun r =>
      match l[r.lpart]? with
      | none => true
      | some p =>
        (decide (r.target = 1) && decide (p.shelves.toNat ≠ 2 ^ clusterOf r.core))
          || (decide (r.target = 4) && decide (p.shelves.toNat ≠ 2 ^ r.core))

/-- Where the logical partition of a record was assigned. -/
def relocTo (l : List LogPart) (r : Reloc) : Nat × Nat := ((l[r.lpart]?).bind LogPart.at_).getD (0, 0)

/-- A shelf call number with its die, shelf and partition replaced (R171, R266). -/
def relocated (w : W64) (dest : Nat × Nat) : W64 :=
  let a := w.toNat
  BitVec.ofNat 64 (a / 2 ^ 46 * 2 ^ 46 + dest.1 * 2 ^ 41 + bits a 40 29 * 2 ^ 29 + dest.2 * 2 ^ 26 + a % 2 ^ 26)

/-- SRC of an MX.LOAD word with its partition replaced. -/
def relocatedLoad (w : W64) (dest : Nat × Nat) : W64 :=
  let a := w.toNat
  BitVec.ofNat 64 (a / 2 ^ 46 * 2 ^ 46 + dest.2 * 2 ^ 43 + a % 2 ^ 43)

-- PATCH and CONSTANTS

/-- The binding of a window symbol. -/
def LoadReq.binding (q : LoadReq) (symbol : Nat) : Option Bytes := q.bindings.find? fun w => fldAt w 0 4 = symbol

/-- The PATCH section obeys R268. -/
def LoadReq.patchOk (q : LoadReq) (v : FolioView) : Bool :=
  (v.windows.all fun w => decide (w.entry < 4096) && decide (w.route < 2048) &&
    match q.binding w.symbol with
    | some b => decide (fldAt b 4 2 < q.devices.length) && decide (w.minPages ≤ fldAt b 12 4)
    | none => false)
    && v.routes.all fun r => decide (r.index < 2048) && decide (1 ≤ r.hops.length) && decide (r.hops.length ≤ 6)
      && r.hops.all fun h => decide (h.1 < 64) && decide (h.2 < q.devices.length)

/-- The CONSTANTS lie in WORKING logical partitions (R255). -/
def constantsOk (l : List LogPart) (v : FolioView) : Bool :=
  v.constants.all fun c => (match l[c.lpart]? with | some p => !p.resident | none => false)
    && decide (c.offset + c.bytes.length ≤ partBytes)

/-- The route table entry of a PATCH route (R268, R379). -/
def LoadReq.routeEntry (q : LoadReq) (r : PatchRoute) : RouteEntry :=
  let dest := q.devices.getD ((r.hops.getLast?.map Prod.snd).getD 0) 0
  let w0 := r.hops.length + 8 * (r.hops.head?.map Prod.fst).getD 0 + 512 + 2048 * q.slot + 131072 * dest
  let w1 := ((r.hops.drop 1).zipIdx.map fun h => h.1.1 * 2 ^ (6 * h.2)).sum
  ⟨BitVec.ofNat 32 w0, BitVec.ofNat 32 w1, BitVec.ofNat 32 (r.lambda % 2 ^ 24)⟩

end Sys2Proof.Machine
end

