-- ==== Sys2Proof/Machine/LoadOps.lean ====
section
/-! DEFINITION. FOLIO_LOAD (R274): the checks that need the module's state (R256, R257, R259, R261, R265, R269, R273, R311,
R340, R514), what a load writes, and what a failed load leaves (R275). -/

namespace Sys2Proof.Machine

open Sys2Proof

def LoadFail.malformed : LoadFail := .status (Reply.err stMalformed)

/-- The slot of a key in a list of keys, by its KEY_ID, lowest slot first (R256). -/
def findKey (keys : List (Nat × Option PubKey)) (id : Bytes) : Option (Nat × PubKey) :=
  keys.findSome? fun e => match e.2 with
    | some k => if keyId k.x k.y = id then some (e.1, k) else none
    | none => none

/-- The firmware-signing keys by slot (R453). -/
def SecPage.fwSlots (x : SecPage) : List (Nat × Option PubKey) := x.fwKeys.zipIdx.map fun e => (e.2, e.1)

/-- A signature over a block verifies under a key (R256). -/
def signedBy (k : PubKey) (block : Bytes) (c : Colophon) : Bool := ecdsaVerify k.x k.y (sha512 block) c.r c.s

/-- Checks the colophon of a signed block with a key set and a mask of allowed slots (R256, R257, R342). -/
def colophonFault (keys : List (Nat × Option PubKey)) (mask : Option W64) (block colophon : Bytes) : Option Reply :=
  match readColophon colophon block.length with
  | none => some (Reply.err stMalformed)
  | some c =>
    match findKey keys c.keyId with
    | none => some (Reply.err stIntegrity)
    | some (i, k) =>
      if !signedBy k block c then some (Reply.err stIntegrity)
      else match mask with
        | some m => if m.getLsbD i then none else some (Reply.err stNotPermitted)
        | none => none

/-- An entry of the slot's editions that is not FREE (R340). -/
def State.slotEdition (s : State) (slot : Nat) : Option (Nat × Edition) :=
  s.editions.find? fun e => decide (e.2.slot = slot) && decide (e.2.state ≠ .free)

/-- The refusal of a load before its slot enters LOADING, in the order of R274, with the module state of R407. -/
def State.loadRefused (s : State) (b : Bytes) : Option Reply :=
  let q := readLoad b none
  let x := s.slot q.slot
  let test := decide (q.kind = 3) || decide (q.kind = 4)
  if loadFixedBad b then some (Reply.err stMalformed)
  else if x.state = .loading then some (Reply.err stBusy)
  else if x.state = .running ∨ x.state = .faulted then some (Reply.wrong 2 x.state.code 5 0)
  else match s.slotEdition q.slot with
    | some e => some (Reply.wrong 5 e.2.state.code 1 0)
    | none =>
      if loadBindingBad b || blockBad q.block then some (Reply.err stMalformed)
      else if !s.gen.service && !test then some Reply.readingRoom
      else if test ∧ q.tenant ≠ 0 then some (Reply.err stMalformed)
      else
        match (if 3 ≤ q.kind then colophonFault s.sec.fwSlots none q.block q.colophon
               else colophonFault s.sec.folioKeys (some (s.tenant q.tenant).folioKeys) q.block q.colophon) with
        | some r => some r
        | none => if s.gen.archivalOnly && !q.archival then some (Reply.err stNotPermitted) else none

-- STAMP, cores, MANIFEST, partitions

/-- The module's reference gives it one frequency with others (R221). -/
def State.freqLocked (s : State) : Bool := s.clock.refLock && (decide (s.clock.refSel = 1) || decide (s.clock.refSel = 2))

/-- The state that a folio's kind needs of its cores (R273). -/
def kindMode (kind : Nat) : CoreMode := if kind ≤ 2 then .service else if kind ≤ 4 then .diag else .recovery

/-- A cluster may not be claimed by a folio of this kind for this tenant (R259 order 6, R514). -/
def State.clusterBarred (s : State) (kind tenant k : Nat) : Bool :=
  s.fused k ||
    (if kind = 3 ∨ kind = 4 then (clusterCores k).any fun c => decide ((s.core c).sq.mode = .isolated)
     else !(clusterCores k).all fun c => decide ((s.core c).sq.tenant = tenantId tenant))

/-- A slot other than `slot` holds a cluster (R273). -/
def State.heldElsewhere (s : State) (slot k : Nat) : Bool :=
  s.slots.any fun e => decide (e.1 ≠ slot) && decide (e.2.state ≠ .empty) && e.2.claims k

/-- The curator that performs a slot's load cannot have the other die's curator write a cluster's cores (R274, R444,
R486). -/
def State.loadUnreachable (s : State) (slot k : Nat) : Bool :=
  match (s.slot slot).load with
  | some (p, _) => s.dieBusy p (k / 16)
  | none => false

/-- STEPPING as GEN_IDENT reports it. -/
def State.stepping (s : State) : Nat := if s.fuses.c0 then 0xC0 else 0xB0

/-- The folio as its STAMP gives it: what the slot claims from then on. -/
def LoadReq.skeleton (q : LoadReq) : Folio :=
  let d := q.body 1
  { digest := sha512 q.block, kind := q.kind, archival := q.archival, sessions := q.sessions, seed := q.seed
    compiler := q.compiler, stepping := fldAt d 0 1, moduleCount := fldAt d 2 2, role := q.role, devices := q.devices
    clusters := stampClusters d q.role, padded := false, lparts := [], prefill := [], decode := [], start := []
    stepEntry := [], serving := none, stamps := [], routes := [], windows := [], hasStep := false, resident := none }

/-- R258, R259, the core states of R273 and the claims of R274. -/
def State.planCores (s : State) (q : LoadReq) : Except LoadFail Folio :=
  let d := q.body 1
  let step := fldAt d 0 1
  let grade := fldAt d 1 1
  let n := fldAt d 2 2
  let map := (d.drop (16 + 16 * q.role)).take 8
  let mask := stampClusters d q.role
  let ks := onesBelow mask 32
  let mode := kindMode q.kind
  if stampBad d then .error .malformed
  else if (step ≠ 0xB0 ∧ step ≠ 0xC0) ∨ (step = 0xC0 ∧ s.fuses.c0 = false) then .error (.mismatch 1 0 step s.stepping)
  else if grade ≠ s.fuses.grade.code then .error (.mismatch 2 0 grade s.fuses.grade.code)
  else if n ≤ q.role ∨ q.devices.length ≠ n ∨ q.rolesOk n = false then .error .malformed
  else if map ≠ s.gen.colmap then .error (.mismatch 3 0 (leAt map 0 4) (leAt s.gen.colmap 0 4))
  else if ks.any (s.clusterBarred q.kind q.tenant) then .error (.status (Reply.err stNotPermitted))
  else if 1 < n ∧ s.freqLocked = false then .error (.status (Reply.wrong 9 0 2 0))
  else match (ks.flatMap clusterCores).find? fun c => decide ((s.core c).sq.mode ≠ mode) with
    | some c => .error (.status (Reply.wrong 7 (s.core c).sq.mode.code (2 ^ mode.code) 0))
    | none =>
      if (ks.any (s.heldElsewhere q.slot)) || ks.any (s.loadUnreachable q.slot) then .error (.status (Reply.err stBusy))
      else .ok q.skeleton

/-- Steps 2 to 6 of R261; answers whether the cores pad. -/
def State.planManifest (s : State) (d : Bytes) (step : Nat) : Except LoadFail Bool :=
  let g := s.fuses.grade
  let l := manifestEntries d
  let value (c0 : Bool) (e : Nat × Nat) : Bool := decide (manifestValue g c0 e.1 ≠ some e.2)
  if manifestBad d then .error .malformed
  else match lowestEntry l fun e => (manifestValue g true e.1).isNone with
    | some e => .error (.mismatch 5 e.1 e.2 0)
    | none =>
      match lowestEntry l fun e => !padGroup e.1 && value s.fuses.c0 e with
      | some e => .error (.mismatch 4 e.1 e.2 ((manifestValue g s.fuses.c0 e.1).getD 0))
      | none =>
        if l.any fun e => padGroup e.1 && value (step = 0xC0) e then .error .malformed
        else .ok (decide (step = 0xB0) && s.fuses.c0)

/-- Partitions that other loaded folios have taken. -/
def State.takenParts (s : State) (slot : Nat) : List (Nat × Nat) :=
  (s.slots.filter fun e => decide (e.1 ≠ slot) && decide (e.2.state ≠ .empty)).flatMap fun e => e.2.parts

/-- The first partition that a logical partition may take (R265). -/
def State.firstPart (s : State) (tenant : Nat) (taken : List (Nat × Nat)) (l : LogPart) : Option (Nat × Nat) :=
  let kind := if l.resident then PartKind.resident else .working
  ((onesBelow l.shelves 32).flatMap fun k => (List.range 8).map fun p => (k, p)).find? fun kp =>
    let x := s.part kp.1 kp.2
    decide (x.owner = tenantId tenant) && decide (x.kind = kind) && !x.due && !taken.contains kp

/-- Assigns logical partitions in ascending order (R265). -/
def State.assignParts (s : State) (tenant : Nat) : List (Nat × Nat) → List LogPart → Option (List LogPart)
  | _, [] => some []
  | taken, l :: r =>
    match s.firstPart tenant taken l with
    | none => none
    | some kp => (s.assignParts tenant (kp :: taken) r).map fun t => { l with at_ := some kp } :: t

/-- The first RESIDENT assignment whose hash is already another (R170), by logical partition. -/
def State.hashConflict (s : State) (l : List LogPart) : Option (Nat × LogPart × BitVec 3) :=
  l.zipIdx.findSome? fun e =>
    match e.1.at_ with
    | some kp =>
      match (s.part kp.1 kp.2).hash with
      | some h => if e.1.resident ∧ h ≠ e.1.hash then some (e.2, e.1, h) else none
      | none => none
    | none => none

/-- The manifest, the assignment of partitions and R170. -/
def State.planParts (s : State) (q : LoadReq) (f : Folio) : Except LoadFail Folio :=
  let d := q.body 3
  match s.planManifest (q.body 2) f.stepping with
  | .error e => .error e
  | .ok padded =>
    if partsBad d ∨ ((q.kind = 3 ∨ q.kind = 4) ∧ fldAt d 0 4 ≠ 0) then .error .malformed
    else match s.assignParts q.tenant (s.takenParts q.slot) (logParts d) with
      | none => .error (.status (Reply.err stNoResource))
      | some l =>
        match s.hashConflict l with
        | some (i, x, h) => .error (.mismatch 6 i x.hash.toNat h.toNat)
        | none => .ok { f with padded := padded, lparts := l }

-- the other sections

/-- VARIANTS, SERVING, RESIDENT, QUEUES, RINGS, STAMPS, CODE, DESCRIPTORS, RELOC, CONSTANTS and the form of PATCH
(R135, R139, R142, R149, R242, R264 to R268, R270, R311, R339). -/
def LoadReq.contentsFault (q : LoadReq) (f : Folio) (v : FolioView) : Option Reply :=
  let n := (onesBelow f.clusters 32).length
  let cores := (onesBelow f.clusters 32).flatMap clusterCores
  let d := q.body 4
  let groups := stepGroups d
  let entries (i : Nat) : List Nat := (List.range (1 + groups)).map fun g => variantEntry d (8 * n) g i
  let batch := f.sessions || decide (f.kind = 2)
  if !queuesOk v.queues f.clusters || !(v.rings.all fun e => ringOk e f.clusters)
      || (batch && !ringsThere v.rings f.clusters f.role) then some (Reply.err stMalformed)
  else if (List.range 32).any fun k => decide (16384 < ringSlots v.rings k) then some (Reply.err stNoResource)
  else if !(v.stamps.all fun e => stampOk e f.clusters) || variantsBad d n f.archival
      || (f.sessions && servingBad (q.body 5) (max 1 groups))
      || (match q.sect 0x18 with | some r => residentBad r f.lparts | none => false)
      || !(v.code.all fun e => cores.contains e.1) || !decide (v.code.map Prod.fst).Nodup
      || !(v.descriptors.all fun e => cores.contains e.1 && decide (e.2.1 < 256) && decide (e.2.2.length = 4))
      || !(cores.zipIdx.all fun c => imageOk v.stamps (entries c.2) c.1 ((v.code.lookup c.1).getD []))
      || relocBad (q.body 0x15) f.lparts v || !constantsOk f.lparts v || !q.patchOk v then some (Reply.err stMalformed)
  else none

/-- Route entries that another slot or a standing route holds (R379), then the first hops (R269). -/
def State.routesFault (s : State) (q : LoadReq) (v : FolioView) : Option Reply :=
  if v.routes.any fun r => (s.route r.index).valid && ((s.route r.index).standing || decide ((s.route r.index).slot ≠ q.slot))
  then some (Reply.err stNoResource)
  else if v.routes.any fun r =>
      match r.hops.head? with
      | some h =>
        let p := s.fport h.1
        decide (p.state ≠ .up) || (match p.nb with
          | some nb => !nb.idValid || decide (some nb.device.toNat ≠ q.devices[h.2]?)
          | none => true)
      | none => false
  then some (Reply.err stPartnerLost)
  else none

/-- The folio with what its own sections say. -/
def LoadReq.complete (q : LoadReq) (f : Folio) (v : FolioView) : Folio :=
  let n := (onesBelow f.clusters 32).length
  let d := q.body 4
  let count := fldAt d 0 1
  { f with
    prefill := (List.range count).map fun i => fldAt d (4 + 4 * i) 1
    decode := (List.range count).map fun i => fldAt d (5 + 4 * i) 1
    start := variantGroup d (8 * n) 0
    stepEntry := (List.range (stepGroups d)).map fun g => variantGroup d (8 * n) (g + 1)
    serving := if f.sessions then some (readServing (q.body 5) (max 1 (stepGroups d))) else none
    stamps := v.stamps, routes := v.routes.map PatchRoute.index, windows := v.windows.map PatchWindow.entry
    hasStep := v.code.any fun e => imageSteps e.2
    resident := (q.sect 0x18).map ResidentLayout.mk }

/-- The checks of R274 after the assignment of partitions; the folio to write. -/
def State.planContents (s : State) (q : LoadReq) (f : Folio) : Except LoadFail (Folio × FolioView) :=
  match q.view with
  | none => .error .malformed
  | some v =>
    match q.contentsFault f v with
    | some r => .error (.status r)
    | none =>
      match s.routesFault q v with
      | some r => .error (.status r)
      | none => .ok (q.complete f v, v)

/-- The first section in ascending OFFSET that has arrived with another digest (R274). -/
def LoadReq.arrivedFault (q : LoadReq) : Option Reply :=
  q.cut.findSome? fun e => match e.2 with
    | some b => if sha512 b = e.1.digest then none else some (Reply.err stIntegrity)
    | none => none

/-- The digests of the sections in ascending OFFSET, and the length of the stream (R274, R412). -/
def LoadReq.digestFault (q : LoadReq) : Option Reply :=
  match q.cut.findSome? fun e => match e.2 with
      | none => some stMalformed
      | some b => if sha512 b = e.1.digest then none else some stIntegrity with
  | some r => some (Reply.err r)
  | none => if q.extra then some (Reply.err stMalformed) else none

-- what a load writes

/-- An instruction store from an image, zeros past its end (R255). -/
def storeOf (image : List W64) : Tbl W64 :=
  image.zipIdx.filterMap fun e => if e.1 = 0 then none else some (e.2, e.1)

/-- An image with its matrix words relocated (R266). -/
def relocImage (l : List LogPart) (r : List Reloc) (c : Nat) (image : List W64) : List W64 :=
  (r.filter fun x => x.target = 1 && x.core = c).foldl (fun (m : List W64) x =>
    m.set x.index (relocatedLoad (m.getD x.index 0) (relocTo l x))) image

/-- A descriptor with its shelf operands relocated (R266). -/
def relocDesc (l : List LogPart) (r : List Reloc) (c i : Nat) (d : Desc) : Desc :=
  (r.filter fun x => x.core = c && x.index = i && (x.target = 2 || x.target = 3)).foldl (fun (d : Desc) x =>
    if x.target = 2 then { d with w1 := relocated d.w1 (relocTo l x) } else { d with w2 := relocated d.w2 (relocTo l x) }) d

/-- A descriptor table with every running operand at its SRC and DST (R192). -/
def TransferUnit.load (u : TransferUnit) (l : List (Nat × Desc)) : TransferUnit :=
  let t := l.foldl (fun (t : Tbl Desc) e => Tbl.put Desc.zero t e.1 e.2) []
  { u with descs := t, running := t.map fun e => (e.1, (fld e.2.w1 47 0, fld e.2.w2 47 0)) }

/-- Writes a core's instruction store, descriptors and VEC_TRAP; its endpoints are unbound (R274). -/
def State.writeCore (s : State) (f : Folio) (v : FolioView) (r : List Reloc) (trap c : Nat) : State :=
  let image := relocImage f.lparts r c ((v.code.lookup c).getD [])
  let descs := (v.descriptors.filter fun e => e.1 = c).map fun e =>
    let w (i : Nat) : W64 := e.2.2.getD i 0
    (e.2.1, relocDesc f.lparts r c e.2.1 ⟨w 0, w 1, w 2, w 3⟩)
  s.modCore c fun k =>
    { k with
      sq := { k.sq with istore := storeOf image, parityBad := [], padded := f.padded }
      vx := { k.vx with trap := BitVec.ofNat 3 trap }
      queues := (k.queues.map fun e => (e.1, e.2.cleared)).filter fun e => e.2 ≠ Endpoint.reset
      xf := k.xf.load descs }

/-- Binds one endpoint. -/
def State.bindEnd (s : State) (c q : Nat) (e : QueueEntry) (peerCore peerQep : Nat) : State :=
  s.modQueue c q fun x =>
    { x with bound := true, packet := e.packet, cut := e.cut, peerCore := peerCore, peerQep := peerQep
             peerRole := e.peerRole, route := e.route }

/-- Writes one entry of the queue table (R135). -/
def State.writeQueue (s : State) (e : QueueEntry) : State :=
  let s := s.bindEnd e.core e.qep e e.peerCore e.peerQep
  if qepClass e.qep = some 3 then s else s.bindEnd e.peerCore e.peerQep e e.core e.qep

/-- Writes one entry of the ring table, relocated (R142, R266). -/
def State.writeRing (s : State) (f : Folio) (r : List Reloc) (e : RingEntry) : State :=
  let part := match r.find? fun x => x.target = 4 && x.core = e.cluster && x.index = e.ring with
    | some x => (relocTo f.lparts x).2
    | none => 0
  s.modRing e.cluster e.ring fun x =>
    { Ring.reset with
      valid := true, shelf := e.shelf, producer := e.producer, consumer := e.consumer, owner := e.owner
      base := if e.shelf then part * partBytes + e.base % partBytes else e.base
      slotSize := e.slotSize, slots := e.slots, stall := x.stall
      patience := BitVec.ofNat 16 (if e.patience = 0 then 4096 else e.patience) }

/-- Writes one remote window entry (R206, R268). -/
def State.writePatch (s : State) (q : LoadReq) (w : PatchWindow) : State :=
  let b := (q.binding w.symbol).getD []
  s.modRemoteWin w.entry fun _ =>
    { valid := true, tenant := BitVec.ofNat 8 q.tenant, device := BitVec.ofNat 12 (q.devices.getD (fldAt b 4 2) 0)
      route := BitVec.ofNat 11 w.route, handle := BitVec.ofNat 12 (fldAt b 6 2), gen := BitVec.ofNat 20 (fldAt b 8 4)
      pages := BitVec.ofNat 19 (fldAt b 12 4) }

/-- Sets the hash of an assigned partition; another hash than before leaves a WORKING partition's contents undefined
(R170). -/
def State.setHash (s : State) (l : LogPart) : State :=
  match l.at_ with
  | none => s
  | some (k, p) =>
    let old := (s.part k p).hash
    let s := s.modPart k p fun x => { x with hash := some l.hash, hashSel := l.hash }
    if old.isSome ∧ old ≠ some l.hash then
      let bs := (Config.freeBytes s.freeCtr).take partBytes
      let s := s.draw.2
      { s with mem := (s.mem.clear (partBase k p) partBytes).write (partBase k p) bs }
    else s

/-- Writes CONSTANTS into their WORKING partitions. -/
def State.writeConstant (s : State) (f : Folio) (c : ConstImage) : State :=
  match (f.lparts[c.lpart]?).bind LogPart.at_ with
  | some (k, p) => (s.writeSpan .net (partBase k p + c.offset) c.bytes).1
  | none => s

/-- A carrel of a claimed core that is still being cleared after a test folio is clear first (R514). -/
def State.settleCarrel (s : State) (c : Nat) : State :=
  if (s.core c).car.clearing ∧ (s.core c).car.nextTenant = (s.core c).sq.tenant then
    let s := s.clearSpan (carrelBase c) carrelBytes
    (s.modCar c fun x => { x with clearing := false, clears := x.clears + 1, nextTenant := none, waitFor := none }).raise0
      (carPage c) 2
  else s

/-- Resets a cluster's rings to unloaded before the folio's own ring table is written. -/
def State.clearRings (s : State) (k : Nat) : State :=
  s.modCluster k fun x =>
    { x with rings := (x.rings.map fun e => (e.1, { Ring.reset with stall := e.2.stall })).filter fun e => e.2 ≠ Ring.reset }

/-- Writes everything that R274 lists and leaves the slot LOADED. -/
def State.writeFolio (s : State) (q : LoadReq) (f : Folio) (v : FolioView) : State :=
  let cores := (onesBelow f.clusters 32).flatMap clusterCores
  let r := relocs (q.body 0x15)
  let s := cores.foldl State.settleCarrel s
  let s := f.lparts.foldl State.setHash s
  let s := cores.foldl (fun (s : State) c => s.writeCore f v r q.trap c) s
  let s := (onesBelow f.clusters 32).foldl State.clearRings s
  let s := v.queues.foldl State.writeQueue s
  let s := v.rings.foldl (fun (s : State) e => s.writeRing f r e) s
  let s := v.windows.foldl (fun (s : State) w => s.writePatch q w) s
  let s := v.routes.foldl (fun (s : State) x => s.setRoute x.index (q.routeEntry x)) s
  let s := v.constants.foldl (fun (s : State) c => s.writeConstant f c) s
  s.modSlot q.slot fun x => { x with state := .loaded, load := none, check := LoadCheck.reset, folio := some f, prog := Prog.reset }

-- failed loads

/-- STAMP_MISMATCH is counted, shown and reported (R263, R433). -/
def State.stampMismatch (s : State) (reason entry want have_ : Nat) : State :=
  let last := reason * 2 ^ 24 + entry % 65536
  let s := { s with adm := { s.adm with latRefused := sat32 s.adm.latRefused 1, latLast := BitVec.ofNat 32 last
                                        latWant := BitVec.ofNat 32 want, latHave := BitVec.ofNat 32 have_ } }
  s.raise latPage 0 (leBytes 4 last)

/-- What a load that fails leaves, and its completion (R263, R275). -/
def State.loadFailed (s : State) (slot : Nat) (e : LoadFail) : State × Reply :=
  match e with
  | .status r => ((s.undoLoad slot).progress, r)
  | .mismatch reason entry want have_ =>
    (((s.undoLoad slot).stampMismatch reason entry want have_).progress, Reply.stamp reason)

-- the stages of a load

/-- Releases the slot's previous folio and enters LOADING (R274). -/
def State.beginLoad (s : State) (port : Nat) (tag : BitVec 32) (b : Bytes) : State :=
  let slot := fldAt b 0 1
  let s := if (s.slot slot).state = .loaded then (s.emptySlot slot).progress else s
  s.modSlot slot fun x =>
    { x with state := .loading, tenant := fldAt b 1 1, load := some (port, tag), check := ⟨(readLoad b none).kind, 0, none⟩
             folio := none, prog := Prog.reset }

/-- A section has arrived and has its digest. -/
def LoadReq.good (q : LoadReq) (t : Nat) : Bool :=
  match q.cut.find? fun e => e.1.typ = t with
  | some (x, some c) => decide (sha512 c = x.digest)
  | _ => false

/-- A check of a load that needs the module's state, made once, as soon as its sections are there (R274). -/
def State.noteCheck (s : State) (slot stage : Nat) (r : Except LoadFail Folio) : State :=
  s.modSlot slot fun x => match r with
    | .ok f => { x with folio := some f, check := { x.check with stage := stage } }
    | .error e => { x with check := { x.check with verdict := some e } }

/-- What a load in progress checks and claims: its cores once STAMP has arrived, its partitions once MANIFEST and
PARTITIONS have. -/
def State.claimLoad (s : State) (b : Bytes) : State :=
  let q := readLoad b none
  let x := s.slot q.slot
  let s := if x.check.stage = 0 ∧ x.check.verdict = none ∧ q.good 1 = true then s.noteCheck q.slot 1 (s.planCores q) else s
  let x := s.slot q.slot
  match x.folio with
  | some f =>
    if x.check.stage = 1 ∧ x.check.verdict = none ∧ q.good 2 = true ∧ q.good 3 = true then
      s.noteCheck q.slot 2 (s.planParts q f)
    else s
  | none => s

/-- The outcome of a load whose stream is whole: the digests, what the earlier checks found, the checks of its contents
(R274). -/
def State.judgeLoad (s : State) (b : Bytes) (view : Option FolioView) : Except LoadFail (Folio × FolioView) :=
  let q := readLoad b view
  let x := s.slot q.slot
  match q.digestFault, x.check.verdict, x.folio with
  | some r, _, _ => .error (.status r)
  | none, some e, _ => .error e
  | none, none, none => .error .malformed
  | none, none, some f => if x.check.stage = 2 then s.planContents q f else .error .malformed

/-- The refusal that what has arrived decides already (R274). -/
def State.loadFailsNow (s : State) (b : Bytes) : Option LoadFail :=
  let q := readLoad b none
  if q.cut.all fun e => e.2.isSome then
    match s.judgeLoad b (Config.folioView b) with
    | .error e => some e
    | .ok _ => none
  else q.arrivedFault.map .status

/-- The end of a load, its stream complete (R274). -/
def State.endLoad (s : State) (b : Bytes) (view : Option FolioView) : State × Answer :=
  let s := s.claimLoad b
  match s.judgeLoad b view with
  | .error e =>
    let r := s.loadFailed (fldAt b 0 1) e
    (r.1, .done r.2)
  | .ok (f, v) => (s.writeFolio (readLoad b view) f v, .done (Reply.ok f.digest))

/-- A whole FOLIO_LOAD (R274). -/
def folioLoadOp (port : Nat) (tag : BitVec 32) (b : Bytes) (view : Option FolioView) (s : State) : State × Answer :=
  match s.loadRefused b with
  | some r => (s, .done r)
  | none => (s.beginLoad port tag b).endLoad b view

end Sys2Proof.Machine
end

