-- ==== Sys2Proof/Machine/EditionOps.lean ====
section
/-! DEFINITION. Weight editions: the manifest and its checks (R341 to R344), attempts at shards and what follows their failure
(R346 to R351), relay (R349, R351, R384). -/

namespace Sys2Proof.Machine

open Sys2Proof

-- the manifest

/-- An entry of the shard table (R341). -/
structure ManifestShard where
  role : Nat
  region : Nat
  offset : Nat
  len : Nat
  digest : Bytes
deriving DecidableEq, Repr

/-- The shard table of a manifest. -/
def manifestShards (m : Bytes) : List ManifestShard :=
  (List.range (fldAt m 20 4)).map fun i =>
    let o := 128 + 96 * i
    ⟨fldAt m o 2, fldAt m (o + 2) 2, fldAt m (o + 8) 8, fldAt m (o + 16) 8, (m.drop (o + 32)).take 64⟩

/-- Ascending order of ROLE, REGION and OFFSET. -/
def ManifestShard.before (a b : ManifestShard) : Bool :=
  decide (a.role < b.role) || (decide (a.role = b.role) && (decide (a.region < b.region)
    || (decide (a.region = b.region) && decide (a.offset < b.offset))))

/-- The table is in order. -/
def inOrder : List ManifestShard → Bool
  | a :: b :: r => a.before b && inOrder (b :: r)
  | _ => true

/-- The header and table are invalid by themselves (R341). -/
def manifestInvalid (m : Bytes) : Bool :=
  let n := fldAt m 20 4
  let l := manifestShards m
  decide (m.length < 128) || decide (m.take 4 ≠ [0x45#8, 0x44#8, 0x4E#8, 0x4D#8]) || decide (fldAt m 5 1 ≠ 1) || !zeroAt m 6 2
    || !zeroAt m 18 2 || decide (n = 0) || decide (1048575 < n) || !zeroAt m 32 96 || decide (m.length ≠ 128 + 96 * n + 160)
    || decide (fldAt m 24 8 ≠ (l.map ManifestShard.len).sum) || !inOrder l
    || ((List.range n).any fun i => !zeroAt m (132 + 96 * i) 4 || !zeroAt m (152 + 96 * i) 8)
    || l.any fun x => decide (fldAt m 16 2 ≤ x.role) || decide (x.offset % 4096 ≠ 0) || decide (x.len % 4096 ≠ 0)
        || decide (x.len = 0) || decide (67108864 < x.len)

/-- The shards of a region tile its bytes from `o` to `n` (R342). -/
def tiles : List ManifestShard → Nat → Nat → Bool
  | [], o, n => decide (o = n)
  | x :: r, o, n => decide (x.offset = o) && tiles r (o + x.len) n

/-- Number of regions, sides, and a region's length and logical partition on a side (R339). -/
def ResidentLayout.regions (r : ResidentLayout) : Nat := fldAt r.bytes 4 2
def ResidentLayout.sides (r : ResidentLayout) : Nat := fldAt r.bytes 0 1
def ResidentLayout.length (r : ResidentLayout) (i : Nat) : Nat := 4096 * fldAt r.bytes (20 + 8 * i) 4
def ResidentLayout.lpart (r : ResidentLayout) (i side : Nat) : Nat := fldAt r.bytes (16 + 8 * i + side) 1

/-- The shards of a role tile every region of its RESIDENT section (R342). -/
def ResidentLayout.tiled (r : ResidentLayout) (l : List ManifestShard) : Bool :=
  (l.all fun x => decide (x.region < r.regions)) &&
    (List.range r.regions).all fun i => tiles (l.filter fun x => x.region = i) 0 (r.length i)

/-- The partitions of a side with their logical partitions, by region. -/
def Folio.side (f : Folio) (side : Nat) : List (LogPart × (Nat × Nat)) :=
  match f.resident with
  | none => []
  | some r => (List.range r.regions).filterMap fun i =>
      (f.lparts[r.lpart i side]?).bind fun l => l.at_.map fun kp => (l, kp)

-- EDITION_BEGIN

/-- Whether a tenant owns a slot. -/
def Slot.ownedBy (x : Slot) (t : Nat) : Bool := decide (x.state ≠ .empty) && decide (x.tenant = t)

/-- The fixed part of R343 is invalid. -/
def beginFixedBad (b : Bytes) : Bool :=
  let flags := fldAt b 3 1
  decide (b.length < 64) || decide (63 < fldAt b 0 1) || decide (15 < fldAt b 1 1) || decide (3 < flags)
    || decide ((if flags % 2 = 1 then 63 else 0) < fldAt b 4 1) || decide ((if flags / 2 = 1 then 63 else 0) < fldAt b 5 1)
    || decide (4095 < fldAt b 6 2) || decide (4095 < fldAt b 8 2) || !zeroAt b 10 6 || !zeroAt b 20 44
    || decide (fldAt b 16 4 ≠ b.length - 64)

/-- What the folio of the slot says against the manifest (R342, R344 order 1). -/
def Folio.manifestMisfit (f : Folio) (index : Nat) (m : Bytes) : Bool :=
  decide (fldAt m 16 2 ≠ f.moduleCount) || match f.resident with
    | some r => decide (r.sides ≤ index % 2) || !r.tiled ((manifestShards m).filter fun x => x.role = f.role)
    | none => false

/-- A port with its partner is as EDITION_BEGIN names it (R344 order 6). -/
def State.partnerIs (s : State) (n device : Nat) : Bool :=
  decide ((s.fport n).state = .up) && (match (s.fport n).nb with
    | some nb => nb.idValid && decide (nb.device.toNat = device)
    | none => false)

/-- The entry of a slot on a side. -/
def State.sideEntry (s : State) (slot side : Nat) : Option (Nat × Edition) :=
  s.editions.find? fun e => decide (e.2.state ≠ .free) && decide (e.2.slot = slot) && decide (e.1 % 2 = side)

/-- The checks of R344 in order. -/
def State.editionRefused (s : State) (port : Nat) (b : Bytes) : Option Reply :=
  let slot := fldAt b 0 1
  let index := fldAt b 1 1
  let flags := fldAt b 3 1
  let m := b.drop 64
  let x := s.slot slot
  let block := m.take (m.length - 160)
  if beginFixedBad b || manifestInvalid m || (match x.folio with | some f => f.manifestMisfit index m | none => false) then
    some (Reply.err stMalformed)
  else if !s.holds port || !x.ownedBy (fldAt b 2 1) then some (Reply.err stNotPermitted)
  else if !s.gen.service then some Reply.readingRoom
  else if x.state ≠ .loaded ∧ x.state ≠ .running then some (Reply.wrong 2 x.state.code 0xC 0)
  else match x.folio.bind fun f => f.resident.map fun _ => f with
    | none => some (Reply.wrong 2 x.state.code 0 0)
    | some f =>
      if (s.edition index).state ≠ .free then some (Reply.wrong 5 (s.edition index).state.code 1 0)
      else match s.sideEntry slot (index % 2) with
        | some e => some (Reply.wrong 5 e.2.state.code 1 0)
        | none =>
          match colophonFault s.sec.pubKeys (some (s.tenant x.tenant).publisherKeys) block (m.drop (m.length - 160)) with
          | some r => some r
          | none =>
            if (f.side (index % 2)).any fun e => match (s.part e.2.1 e.2.2).hash with
                | some h => decide (h ≠ e.1.hash)
                | none => false
            then some (Reply.stamp 6)
            else if (flags % 2 = 1 ∧ s.partnerIs (fldAt b 4 1) (fldAt b 6 2) = false)
                ∨ (flags / 2 = 1 ∧ s.partnerIs (fldAt b 5 1) (fldAt b 8 2) = false) then some (Reply.err stPartnerLost)
            else none

/-- The shards of a role, every one WANTED. -/
def wantedShards (l : List ManifestShard) (role : Nat) : List Shard :=
  (l.zipIdx.filter fun e => e.1.role = role).map fun e =>
    { num := e.2, region := e.1.region, offset := e.1.offset, len := e.1.len, digest := e.1.digest, state := .wanted
      attempts := 0, lastCause := 0, upstream := false, got := [] }

/-- EDITION_BEGIN (R170, R344). -/
def editionBeginOp (port : Nat) (b : Bytes) (s : State) : State × Answer :=
  match s.editionRefused port b with
  | some r => refuse r s
  | none =>
    let slot := fldAt b 0 1
    let index := fldAt b 1 1
    let flags := fldAt b 3 1
    let m := b.drop 64
    let side := match (s.slot slot).folio with | some f => f.side (index % 2) | none => []
    let role := match (s.slot slot).folio with | some f => f.role | none => 0
    let s := side.foldl (fun (s : State) e => s.modPart e.2.1 e.2.2 fun p => { p with hash := some e.1.hash, hashSel := e.1.hash }) s
    let digest := sha512 (m.take (m.length - 160))
    let s := s.modEdition index fun _ =>
      { Edition.reset with
        state := .receiving, slot := slot, tenant := fldAt b 2 1, digest := digest, id := BitVec.ofNat 64 (fldAt m 8 8)
        relayOut := flags % 2 = 1, nextPort := fldAt b 4 1, fromUp := flags / 2 = 1, upPort := fldAt b 5 1
        nextDevice := fldAt b 6 2, upDevice := fldAt b 8 2, shards := wantedShards (manifestShards m) role
        parts := side.map Prod.snd }
    (s, .done (Reply.ok digest))

-- shards

/-- A shard of an entry. -/
def Edition.shard (e : Edition) (n : Nat) : Option Shard := e.shards.find? fun x => x.num = n

/-- Changes a shard of an entry. -/
def State.modShard (s : State) (index n : Nat) (f : Shard → Shard) : State :=
  s.modEdition index fun e => { e with shards := e.shards.map fun x => if x.num = n then f x else x }

/-- Where a shard's region starts: the partition of its side (R339). -/
def State.shardPart (s : State) (index : Nat) (x : Shard) : Option (Nat × Nat) :=
  (((s.slot (s.edition index).slot).folio.map fun f => f.side (index % 2)).bind fun l => l[x.region]?).map Prod.snd

/-- The die whose accession engine takes a shard (R346). -/
def State.shardDie (s : State) (index : Nat) (x : Shard) : Nat :=
  match s.shardPart index x with | some kp => kp.1 / 16 | none => 0

/-- Attempts open on a die (R347, R361). -/
def State.openAttempts (s : State) (d : Nat) : Nat :=
  (s.editions.map fun e => (e.2.shards.filter fun x => decide (x.state = .arriving) && decide (s.shardDie e.1 x = d)).length).sum

-- relay

/-- Bytes in pieces of at most `k`, numbered from `o`. -/
def cutBytes (k : Nat) : Nat → Nat → Bytes → List (Nat × Bytes)
  | 0, _, _ => []
  | fuel + 1, o, b => if b = [] then [] else (o, b.take k) :: cutBytes k fuel (o + k) (b.drop k)

/-- The flits of a relay segment of at most 2,048 bytes, as type and payload (R376, R384). -/
def segmentFlits (digest : Bytes) (shard offset : Nat) (resend : Bool) (data : Bytes) : List (Nat × Bytes) :=
  let head := digest.take 16 ++ leBytes 4 shard ++ leBytes 4 offset ++ [BitVec.ofNat 8 (data.length / 64 - 1 + 32 * resend.toNat)]
  (0x30, head) :: (cutBytes 48 (data.length / 48 + 1) 0 data).map fun e => (0x31, e.2)

/-- Sends bytes of a shard in segments; the first `held` flits free an entry each of their source `from_` as they leave
(R349). -/
def State.sendSegments (s : State) (port : Nat) (digest : Bytes) (shard offset : Nat) (resend : Bool) (data : Bytes)
    (from_ : Nat := 64) (held : Nat := 0) : State :=
  let flits := (cutBytes 2048 (data.length / 2048 + 1) offset data).flatMap fun e => segmentFlits digest shard e.1 resend e.2
  flits.zipIdx.foldl (fun (s : State) f => s.sendLocalFrom port (if f.2 < held then from_ else 64) f.1.1 2 f.1.2) s

/-- A module relays stream data while the entry is RECEIVING, VERIFIED or FAILED and NEXT_PORT has not gone down (R349,
R389). -/
def State.relays (s : State) (index : Nat) : Bool :=
  let e := s.edition index
  e.relayOut && !e.relayStopped && (decide (e.state = .receiving) || decide (e.state = .verified) || decide (e.state = .failed))
    && decide ((s.fport e.nextPort).state = .up)

/-- Forwards stream data; the `held` credits of its source come back as the flits leave (R349, R361). -/
def State.forwardStream (s : State) (index : Nat) (x : Shard) (offset : Nat) (data : Bytes) (from_ held : Nat) : State :=
  let e := s.edition index
  if s.relays index then
    ((s.holdCredits from_ held).sendSegments e.nextPort e.digest x.num offset false data from_ held).modAccDie
      (s.shardDie index x) fun d => { d with bytesRelayed := d.bytesRelayed + data.length }
  else s

/-- Bytes are discarded under R347, R349 or R358 (R361). -/
def State.discardBytes (s : State) (d n : Nat) : State :=
  (s.modAccDie d fun x => { x with discards := x.discards + n }).raise0 (dieAccPage d) 2

/-- Answers one RESEND from this module's copy (R351): the shard, RESEND_FAIL, also where a word of the copy is
uncorrectable (R483), or the request is held. -/
def State.answerResend (s : State) (index port shard : Nat) : State :=
  let e := s.edition index
  match e.shard shard with
  | none => s.sendLocal port 0x33 2 (resendPayload e.digest shard 2)
  | some x =>
    match x.state with
    | .failed => s.sendLocal port 0x33 2 (resendPayload e.digest shard 1)
    | .verified =>
      match s.shardPart index x with
      | none => s
      | some kp =>
        let a := partBase kp.1 kp.2 + x.offset
        match s.readSpans .net [(a, x.len)] with
        | (s, some _) => s.sendLocal port 0x33 2 (resendPayload e.digest shard 1)
        | (s, none) => s.sendSegments port e.digest shard 0 true (s.mem.read a x.len)
    | _ => s.modEdition index fun e => { e with held := e.held ++ [(port, shard)] }

/-- Answers the requests held for a shard that has become VERIFIED or FAILED. -/
def State.answerHeld (s : State) (index shard : Nat) : State :=
  let l := (s.edition index).held.filter fun h => h.2 = shard
  let s := s.modEdition index fun e => { e with held := e.held.filter fun h => decide (h.2 ≠ shard) }
  l.foldl (fun (s : State) h => s.answerResend index h.1 h.2) s

-- attempts (R350, R351)

def causeDigest : Nat := 1
def causeTimeout : Nat := 2
def causeOrder : Nat := 3
def causeUpstream : Nat := 4

/-- DETAIL of SHARD_REQUEST (R351). -/
def requestDetail (index slot cause attempt shard : Nat) (digest : Bytes) : Bytes :=
  [BitVec.ofNat 8 index, BitVec.ofNat 8 slot, BitVec.ofNat 8 cause, BitVec.ofNat 8 attempt] ++ leBytes 4 shard ++ digest.take 8

/-- Asks for a shard again (R351). -/
def State.requestAgain (s : State) (index shard cause attempt : Nat) : State :=
  let e := s.edition index
  if e.fromUp ∧ cause ≠ causeUpstream then s.sendLocal e.upPort 0x32 2 (e.digest.take 16 ++ leBytes 4 shard)
  else s.raise accPage 5 (requestDetail index e.slot cause attempt shard e.digest)

/-- Counts a failed attempt on the engine's die (R361). -/
def State.countAttempt (s : State) (d cause : Nat) : State :=
  if cause = causeDigest ∨ cause = causeOrder then
    (s.modAccDie d fun x => { x with mismatch := sat32 x.mismatch 1 }).raise0 (dieAccPage d) 0
  else if cause = causeTimeout then
    ((s.modAccDie d fun x => { x with timeouts := sat32 x.timeouts 1 }).raise0 (dieAccPage d) 1).countTmo accPage
  else s

/-- An attempt at a shard fails with a cause; the fourth failure fails the shard and its entry (R350). An attempt that
fails without having begun counts as one. -/
def State.failAttempt (s : State) (index shard cause : Nat) : State :=
  match (s.edition index).shard shard with
  | none => s
  | some x =>
    let n := if x.state = .arriving then x.attempts else x.attempts + 1
    let s := s.countAttempt (s.shardDie index x) cause
    let last := decide (4 ≤ n)
    let s := s.modShard index shard fun x =>
      { x with attempts := n, lastCause := cause, state := if last then .failed else .wanted }
    if last then
      let s := s.answerHeld index shard
      if (s.edition index).state = .receiving then
        (s.modEdition index fun e =>
          { e with state := .failed, failStatus := if cause = causeTimeout then stTimeout else stIntegrity }).raise0 accPage 1
      else s
    else s.requestAgain index shard cause (n + 1)

/-- An attempt begins (R346). -/
def State.beginAttempt (s : State) (index shard : Nat) (up : Bool) : State :=
  s.modShard index shard fun x => { x with state := .arriving, attempts := x.attempts + 1, upstream := up, got := [] }

/-- The last byte of a shard has landed (R346): answers whether the digest matches. -/
def State.endAttempt (s : State) (index : Nat) (x : Shard) : State × Bool :=
  if sha512 x.got = x.digest then
    let s := (s.modShard index x.num fun y => { y with state := .verified }).answerHeld index x.num
    let e := s.edition index
    if e.state = .receiving ∧ (e.shards.all fun y => decide (y.state = .verified)) = true then
      ((s.modEdition index fun e => { e with state := .verified }).raise0 accPage 0, true)
    else (s, true)
  else (s.failAttempt index x.num causeDigest, false)

/-- Writes bytes of an open attempt into the region (R346). -/
def State.landBytes (s : State) (index : Nat) (x : Shard) (data : Bytes) : State × Bool :=
  let s := match s.shardPart index x with
    | some kp => (s.writeSpan .net (partBase kp.1 kp.2 + x.offset + x.got.length) data).1
    | none => s
  let s := s.modAccDie (s.shardDie index x) fun d => { d with bytesIn := d.bytesIn + data.length }
  let s := s.modShard index x.num fun y => { y with got := y.got ++ data }
  match (s.edition index).shard x.num with
  | some y => if y.len ≤ y.got.length then s.endAttempt index y else (s, true)
  | none => (s, true)

/-- What becomes of bytes that arrive for a shard (R347, R348). -/
inductive Landing where
  | landed (ok : Bool)
  | discarded
  | busy
  | outOfOrder
  | wrongState
deriving DecidableEq, Repr

/-- Takes data of a shard from one of its two sources (R346 to R348). -/
def State.takeData (s : State) (index shard offset : Nat) (data : Bytes) (up : Bool) : State × Landing :=
  let e := s.edition index
  match e.shard shard with
  | none => (s, .discarded)
  | some x =>
    let d := s.shardDie index x
    let discard (s : State) (l : Landing) : State × Landing := (s.discardBytes d data.length, l)
    if e.state ≠ .receiving ∨ x.state = .verified ∨ x.state = .failed then
      if up then discard s .wrongState else (s, .wrongState)
    else if x.state = .arriving ∧ x.upstream ≠ up then discard s .discarded
    else if offset = 0 ∧ 8 ≤ s.openAttempts d then (s, .busy)
    else if offset = 0 then
      let s := if x.state = .arriving then s.failAttempt index shard causeOrder else s
      match (s.edition index).shard shard with
      | none => (s, .discarded)
      | some x =>
        if x.state = .failed then (if up then discard s .wrongState else (s, .wrongState))
        else
          let s := s.beginAttempt index shard up
          match (s.edition index).shard shard with
          | none => (s, .discarded)
          | some x =>
            let r := s.landBytes index x data
            (r.1, .landed r.2)
    else if x.state = .arriving ∧ offset = x.got.length then
      let r := s.landBytes index x data
      (r.1, .landed r.2)
    else (if x.state = .arriving then s.failAttempt index shard causeOrder else s, .outOfOrder)

/-- SHARD_DATA (R345, R348, R349). -/
def shardDataOp (port : Nat) (b : Bytes) (s : State) : State × Answer :=
  let slot := fldAt b 0 1
  let index := fldAt b 1 1
  let shard := fldAt b 4 4
  let offset := fldAt b 8 4
  let n := fldAt b 12 4
  let e := s.edition index
  let x := if e.slot = slot then e.shard shard else none
  let bad := decide (b.length ≠ 32 + n) || decide (63 < slot) || decide (15 < index) || decide (1 < fldAt b 3 1) || !zeroAt b 16 16
    || decide (n < 64) || decide (65472 < n) || decide (n % 64 ≠ 0) || decide (offset % 64 ≠ 0)
  let live := decide (e.state ≠ .free) && decide (e.slot = slot)
  if bad || (live && (match x with | some x => decide (x.len < offset + n) | none => true)) then
    refuse (Reply.err stMalformed) s
  else if !s.gen.service then refuse Reply.readingRoom s
  else if !s.holds port || !(s.slot slot).ownedBy (fldAt b 2 1) then refuse (Reply.err stNotPermitted) s
  else if !live then refuse (Reply.wrong 5 0 2 0) s
  else
    let data := b.drop 32
    let r := s.takeData index shard offset data false
    let s := match x with
      | some x => if fldAt b 3 1 = 0 then r.1.forwardStream index x offset data (65 + port) (packetUnits b) else r.1
      | none => r.1
    let st := (s.edition index).state
    match r.2 with
    | .landed true => (s, .done (Reply.ok []))
    | .landed false => refuse (Reply.err stIntegrity) s
    | .discarded => (s, .done (Reply.ok []))
    | .busy => refuse (Reply.err stBusy) s
    | .outOfOrder => refuse (Reply.err stMalformed) s
    | .wrongState => refuse (Reply.wrong 5 st.code (if st = .receiving then 0 else 2) 0) s

-- relay messages

/-- An entry by the first 16 bytes of its manifest digest. -/
def State.editionBy (s : State) (digest : Bytes) (sel : Edition → Bool) : Option Nat :=
  (s.editions.find? fun e => decide (e.2.state ≠ .free) && decide (e.2.digest.take 16 = digest) && sel e.2).map Prod.fst

/-- A relay segment whose flits have all been accepted on port `n` (R349, R384). -/
def State.takeSegment (s : State) (n : Nat) (head data : Bytes) : State :=
  let resend := fldAt head 24 1 / 32 % 2 = 1
  let shard := fldAt head 16 4
  let offset := fldAt head 20 4
  let live (e : Edition) : Bool := e.fromUp && decide (e.upPort = n)
    && (decide (e.state = .receiving) || decide (e.state = .verified) || decide (e.state = .failed))
  match (s.editionBy (head.take 16) fun e => live e && decide (e.state = .receiving)).or (s.editionBy (head.take 16) live) with
  | none => s.discardBytes (n / 32) data.length
  | some index =>
    match (s.edition index).shard shard with
    | none => s.discardBytes (n / 32) data.length
    | some x =>
      let s := if resend then s else s.forwardStream index x offset data n (1 + (data.length + 47) / 48)
      let r := if x.len < offset + data.length then (s, Landing.busy) else s.takeData index shard offset data true
      match r.2 with
      | .busy | .outOfOrder => r.1.discardBytes (r.1.shardDie index x) data.length
      | _ => r.1

end Sys2Proof.Machine
end

