-- ==== Sys2Proof/Machine/Edition.lean ====
section
/-! DEFINITION. Commit, switch and retirement of weight editions (R352 to R359, R385), and the meanings of the rows of the chapter
"Weight editions and accession". -/

namespace Sys2Proof.Machine

open Sys2Proof

-- what the messages decide

/-- Completes the commands that wait for a message of a stage. -/
def State.endTalk (s : State) (index : Nat) (r : Reply) : State :=
  (s.modEdition index fun e => { e with talk := none }).completeWhere
    (fun w => decide (w = .commit index) || decide (w = .switch index)) r

/-- The result of a failing EDITION_COMMIT: the lowest failing role and its state (R353, R416). -/
def Reply.roleAt (r : Reply) (role state : Nat) : Reply :=
  { r with index := role, result := leBytes 2 role ++ [BitVec.ofNat 8 state] }

/-- An entry becomes COMMITTED (R340). -/
def State.commitEdition (s : State) (index : Nat) : State :=
  (s.modEdition index fun e => { e with state := .committed, talk := none }).raise0 accPage 2

/-- An entry becomes ACTIVE and the one it replaces DRAINING (R354). -/
def State.switchEdition (s : State) (index : Nat) : State :=
  let slot := (s.edition index).slot
  let s := (List.range 16).foldl (fun (s : State) i =>
    if i ≠ index ∧ (s.edition i).slot = slot ∧ (s.edition i).state = .active then
      s.modEdition i fun e => { e with state := .draining }
    else s) s
  (s.modEdition index fun e => { e with state := .active, talk := none }).raise0 accPage 3

/-- An entry that is FREE and waits for nobody completes its EDITION_RETIRE, with PARTNER_LOST if a notice had no route
(R359, R385). -/
def State.endRetire (s : State) (index : Nat) : State :=
  let e := s.edition index
  let ended (s : State) (r : Reply) : State :=
    (s.modEdition index fun e => { e with talk := none }).completeWhere (fun w => decide (w = .retire index)) r
  if e.state ≠ .free then s
  else match e.talk with
    | none => ended s (Reply.ok [])
    | some t => if t.waiting ≠ [] then s else ended s (if t.lost then Reply.err stPartnerLost else Reply.ok [])

/-- An answer that lets its stage fail (R353): at the query a digest that differs or a state other than VERIFIED and
COMMITTED, at a notice a status other than OK. -/
def EdTalk.bad (t : EdTalk) (a : Nat × Nat × Bool) : Bool :=
  if t.stage = 0 then a.2.2 || (decide (a.2.1 ≠ 2) && decide (a.2.1 ≠ 3)) else decide (a.2.1 ≠ 0)

/-- The roles that fail a stage with the states that they reported, where they did (R353): those with a bad answer and
those that have not answered. -/
def EdTalk.failing (t : EdTalk) : List (Nat × Option Nat) :=
  ((t.answers.filter t.bad).map fun a => (a.1, if t.stage = 0 then some a.2.1 else t.told.lookup a.1))
    ++ t.waiting.map fun w => (w.1, t.told.lookup w.1)

/-- The lowest failing role with the state that it reported (R353). -/
def EdTalk.lowest (t : EdTalk) : Option (Nat × Option Nat) :=
  t.failing.foldl (fun (b : Option (Nat × Option Nat)) a => match b with
    | some x => if a.1 < x.1 then some a else b
    | none => some a) none

/-- Every module has answered the query (R353): a module without a matching slot has no entry, which WRONG_STATE
reports as FREE (DEDUCED, log 155). -/
def State.decideCommit (s : State) (index : Nat) (t : EdTalk) : State :=
  match t.lowest with
  | some (role, reported) =>
    let state := reported.getD 0
    let broken := t.answers.any fun a => a.2.2 || decide (a.2.1 = 6)
    s.endTalk index ((if broken then Reply.err stIntegrity else Reply.wrong 5 (if state ≤ 7 then state else 0) 0xC 0).roleAt role state)
  | none =>
    let told := t.answers.map fun a => (a.1, a.2.1)
    let r := s.askAll index 0x43 1 (s.edition index).named
    match r.2.2 with
    | [] => r.1.modEdition index fun e => { e with talk := some ⟨1, r.2.1, [], told, false⟩ }
    | role :: _ => r.1.endTalk index ((Reply.err stPartnerLost).roleAt role ((told.lookup role).getD 0))

/-- The refusal of a notice, as the completion of its command: INTEGRITY for a digest that differs, else WRONG_STATE
with a state in which the notice is not taken; which one no message tells: a free value (DESIGN CHOICE, log 155). -/
def State.noticeRefused (s : State) (t : EdTalk) : State × Reply :=
  if t.answers.any fun a => decide (a.2.1 = stIntegrity) then (s, Reply.err stIntegrity)
  else
    let states := if t.stage = 1 then [0, 1, 4, 5, 6, 7] else [0, 1, 2, 6, 7]
    let d := s.draw
    (d.2, Reply.wrong 5 (states.getD ((Config.freeWord d.1).toNat % states.length) 0) (if t.stage = 1 then 0xC else 0x38) 0)

/-- Every module has acknowledged the notices of a stage (R353, R354, R358); a refused notice ends a commit, which
names the role, or a switch. -/
def State.decideNotices (s : State) (index : Nat) (t : EdTalk) : State :=
  let stage := t.stage
  if stage = 3 then s.endRetire index
  else match t.lowest with
    | some (role, reported) =>
      let r := s.noticeRefused t
      r.1.endTalk index (if stage = 1 then r.2.roleAt role (reported.getD 0) else r.2)
    | none =>
      let slot := (s.edition index).slot
      if stage = 1 then (s.commitEdition index).completeWhere (fun w => decide (w = .commit index)) (Reply.ok [])
      else ((s.switchEdition index).completeWhere (fun w => decide (w = .switch index)) (Reply.ok [])).sessionEnded slot

/-- An answer to message `seq` of a stage: the state or status it carries and whether its digest differs. -/
def State.takeAnswer (s : State) (index seq : Nat) (stageOk : Nat → Bool) (value : Nat) (differs : Bool) : State :=
  match (s.edition index).talk with
  | none => s
  | some t =>
    match t.waiting.find? fun w => w.2.2 = seq with
    | none => s
    | some w =>
      if !stageOk t.stage then s
      else
        let t := { t with waiting := t.waiting.erase w, answers := t.answers ++ [(w.1, value, differs)] }
        let s := s.modEdition index fun e => { e with talk := some t }
        if t.waiting ≠ [] then s
        else if t.stage = 0 then s.decideCommit index t
        else s.decideNotices index t

-- the commands

/-- EDITION_COMMIT (R352, R353). A role that no route leads to has reported no state: a free value (log 155). -/
def editionCommitOp (port : Nat) (b : Bytes) (s : State) : State × Answer :=
  let slot := fldAt b 0 1
  let index := fldAt b 1 1
  let n := fldAt b 4 2
  let x := s.slot slot
  let e := s.edition index
  let modules := match x.folio with | some f => f.moduleCount | none => 0
  let devices := (List.range n).map fun i => fldAt b (8 + 2 * i) 2
  let mine := decide (e.state ≠ .free) && decide (e.slot = slot)
  if b.length ≠ 8 + 2 * n ∨ 63 < slot ∨ 15 < index ∨ zeroAt b 3 1 = false ∨ zeroAt b 6 2 = false
      ∨ (x.folio.isSome = true ∧ n + 1 ≠ modules) then
    refuse (Reply.err stMalformed) s
  else if (devices.any fun d => decide (4095 < d)) = true then
    refuse (Reply.errAt stMalformed (1 + firstBad n fun i => decide (4095 < devices[i]?.getD 0))) s
  else if !s.gen.service then refuse Reply.readingRoom s
  else if !s.holds port || !x.ownedBy (fldAt b 2 1) || !x.isHead then refuse (Reply.err stNotPermitted) s
  else if mine = false ∨ (e.state ≠ .verified ∧ e.state ≠ .committed) then
    refuse (Reply.wrong 5 (if mine then e.state.code else 0) 0xC 0) s
  else if devices = [] then ((s.modEdition index fun e => { e with named := [] }).commitEdition index, .done (Reply.ok []))
  else
    let s := s.modEdition index fun e => { e with named := devices }
    let r := s.askAll index 0x41 0 devices
    match r.2.2 with
    | [] => (r.1.modEdition index fun e => { e with talk := some ⟨0, r.2.1, [], [], false⟩ }, .waits (.commit index))
    | role :: _ => (r.1.draw.2, .done ((Reply.err stPartnerLost).roleAt role (Config.freeByte r.1.freeCtr).toNat))

/-- A side that the RESIDENT section of a slot's folio does not have (R344, R359). -/
def Slot.sideMissing (x : Slot) (index : Nat) : Bool :=
  match x.folio.bind fun f => f.resident with | some r => decide (r.sides ≤ index % 2) | none => false

/-- The checks of EDITION_SWITCH and EDITION_RETIRE that do not look at the entry (R354, R359). -/
def State.editionDenied (s : State) (port : Nat) (b : Bytes) (head : Bool) : Option Reply :=
  let x := s.slot (fldAt b 0 1)
  if b.length ≠ 3 ∨ 63 < fldAt b 0 1 ∨ 15 < fldAt b 1 1 ∨ (head = false ∧ x.sideMissing (fldAt b 1 1) = true) then
    some (Reply.err stMalformed)
  else if !s.gen.service then some Reply.readingRoom
  else if !s.holds port || !x.ownedBy (fldAt b 2 1) || (head && !x.isHead) then some (Reply.err stNotPermitted)
  else none

/-- EDITION_SWITCH (R354). -/
def editionSwitchOp (port : Nat) (b : Bytes) (s : State) : State × Answer :=
  let slot := fldAt b 0 1
  let index := fldAt b 1 1
  let e := s.edition index
  let mine := decide (e.state ≠ .free) && decide (e.slot = slot)
  match s.editionDenied port b true with
  | some r => refuse r s
  | none =>
    if mine = false ∨ (e.state ≠ .committed ∧ e.state ≠ .draining) then
      refuse (Reply.wrong 5 (if mine then e.state.code else 0) 0x28 0) s
    else if e.named = [] then ((s.switchEdition index).sessionEnded slot, .done (Reply.ok []))
    else
      let r := s.askAll index 0x43 2 e.named
      if r.2.2 = [] then (r.1.modEdition index fun e => { e with talk := some ⟨2, r.2.1, [], [], false⟩ }, .waits (.switch index))
      else (r.1, .done (Reply.err stPartnerLost))

/-- What R359 says of EDITION_RETIRE for the entry: a refusal, or none where it retires. -/
def State.retireRefused (s : State) (slot index : Nat) : Option Reply :=
  let x := s.slot slot
  let e := s.edition index
  let running := decide (x.state = .running)
  let st := if e.slot = slot then e.state else .free
  let free := !running && decide (s.refCount slot index = 0)
  if x.isHead then
    match st with
    | .receiving | .verified | .failed | .committed => none
    | .active => if free then none else some (Reply.wrong 5 4 0x4E 0)
    | _ => some (Reply.wrong 5 st.code (if free then 0x5E else 0x4E) 0)
  else
    match st with
    | .receiving | .verified | .failed => none
    | .free | .retiring => some (Reply.wrong 5 st.code (if running then 0x46 else 0x7E) 0)
    | _ => if running then some (Reply.err stNotPermitted) else none

/-- EDITION_RETIRE (R358, R359). -/
def editionRetireOp (port : Nat) (b : Bytes) (s : State) : State × Answer :=
  let slot := fldAt b 0 1
  let index := fldAt b 1 1
  match s.editionDenied port b false with
  | some r => refuse r s
  | none =>
    match s.retireRefused slot index with
    | some r => refuse r s
    | none => (s.retireEdition index, .waits (.retire index))

/-- EDITION_BEGIN (R344). -/
def execEditionBegin (port : TPort) (tag : BitVec 32) (payload : Bytes) (s : State) : Host.Outcome State Fault Refusal :=
  .next (s.runCommand port tag 0x28 (editionBeginOp port payload))

/-- SHARD_DATA (R348). -/
def execShardData (port : TPort) (tag : BitVec 32) (payload : Bytes) (s : State) : Host.Outcome State Fault Refusal :=
  .next (s.runCommand port tag 0x29 (shardDataOp port payload))

/-- EDITION_COMMIT (R352). -/
def execEditionCommit (port : TPort) (tag : BitVec 32) (payload : Bytes) (s : State) : Host.Outcome State Fault Refusal :=
  .next (s.runCommand port tag 0x2A (editionCommitOp port payload))

/-- EDITION_SWITCH (R354). -/
def execEditionSwitch (port : TPort) (tag : BitVec 32) (payload : Bytes) (s : State) : Host.Outcome State Fault Refusal :=
  .next (s.runCommand port tag 0x2B (editionSwitchOp port payload))

/-- EDITION_RETIRE (R359): the clearing starts at once where no window stands over the side. -/
def execEditionRetire (port : TPort) (tag : BitVec 32) (payload : Bytes) (s : State) : Host.Outcome State Fault Refusal :=
  .next (s.runCommand port tag 0x2C (editionRetireOp port payload)).progress

-- relay

/-- Takes the flits of a link-local message in order. -/
def State.receiveAll (s : State) (n : Nat) (flits : List Flit) : State :=
  flits.foldl (fun (s : State) f => s.receive n f id) s

/-- Every flit is the next of the link's sequence and link-local on VC2. -/
def State.inSequence (s : State) (n : Nat) (flits : List Flit) : Bool :=
  decide ((s.fport n).state = .up) && flits.zipIdx.all fun e =>
    decide (e.1.lseq = (s.fport n).rxNext + BitVec.ofNat 12 e.2) && decide (e.1.vc = 2) && decide (e.1.hops = 0)

/-- A relay segment: its head and its data flits (R349, R376, R384); the flits of an incomplete one are taken and nothing
else happens. -/
def execRelayHead (port : FPort) (flit : Flit) (data : List Flit) (s : State) : Host.Outcome State Fault Refusal :=
  let flits := { flit with typ := 0x30 } :: data.map fun f => { f with typ := 0x31 }
  let n := 64 * (fldAt flit.payload 24 1 % 32 + 1)
  let bytes := (data.flatMap Flit.payload).take n
  .next (let t := s.receiveAll port flits
    if s.inSequence port flits = false ∨ bytes.length ≠ n then t else t.takeSegment port flit.payload bytes)

/-- A RESEND request (R351): answered from this module's copy, held, or refused with NO_ENTRY. -/
def execResend (port : FPort) (flit : Flit) (s : State) : Host.Outcome State Fault Refusal :=
  let digest := flit.payload.take 16
  let shard := fldAt flit.payload 16 4
  .next (s.receive port { flit with typ := 0x32 } fun s =>
    match s.editionBy digest fun e => e.relayOut && decide (e.nextPort = port) && decide (e.state ≠ .retiring) with
    | some i => s.answerResend i port shard
    | none => s.sendLocal port 0x33 2 (resendPayload digest shard 2))

/-- A RESEND_FAIL (R351): the attempt at the WANTED shard fails with UPSTREAM. -/
def execResendFail (port : FPort) (flit : Flit) (s : State) : Host.Outcome State Fault Refusal :=
  let shard := fldAt flit.payload 16 4
  .next (s.receive port { flit with typ := 0x33 } fun s =>
    match s.editionBy (flit.payload.take 16) fun e =>
        e.fromUp && decide (e.upPort = port) && decide (e.state = .receiving) with
    | some i => match (s.edition i).shard shard with
      | some x => if x.state = .wanted then s.failAttempt i shard causeUpstream else s
      | none => s
    | none => s)

/-- SHARD_MS has passed (R350): for an open attempt since its first byte, or for the entry since any byte landed, when
every shard that is WANTED fails an attempt; only the idle timer needs the entry RECEIVING. -/
def execShardTimeout (index : EdIdx) (shard : Option Nat) (s : State) : Host.Outcome State Fault Refusal :=
  let e := s.edition index
  .next (match shard with
      | some n => match e.shard n with
        | some x => if x.state = .arriving then s.failAttempt index n causeTimeout else s
        | none => s
      | none => if e.state ≠ .receiving then s else (e.shards.filter fun x => x.state = .wanted).foldl (fun (s : State) x =>
          s.failAttempt index x.num causeTimeout) s)

-- VC3 messages

/-- The slot and index that a VC3 request names: its folio digest matches and the entry is the slot's or FREE (R385). -/
def State.vc3Slot (s : State) (b : Bytes) : Option Nat :=
  let e := s.edition (fldAt b 1 1)
  (s.slots.find? fun x => decide (x.2.folio.isSome) && decide (x.2.digest.take 8 = (b.drop 4).take 8)
    && (decide (e.state = .free) || decide (e.slot = x.1))).map Prod.fst

/-- Answers a VC3 request over its return route (R381, R385). -/
def State.answerVc3 (s : State) (n : Nat) (f : Flit) (typ : Nat) (manifest : Bytes) (state : Nat) : State :=
  let b := f.payload
  s.answerFlit (flitRet f n) f.hops.toNat typ 3 f.tsf.toNat
    (vc3Payload (fldAt b 0 1) (fldAt b 1 1) (fldAt b 2 2) ((b.drop 4).take 8) manifest state)

/-- EDITION_QUERY (R353). -/
def execEquery (port : FPort) (flit : Flit) (s : State) : Host.Outcome State Fault Refusal :=
  let f := { flit with typ := 0x41 }
  .next (s.receive port f fun s =>
    let e := s.edition (fldAt f.payload 1 1)
    if fldAt f.payload 1 1 ≤ 15 ∧ (s.vc3Slot f.payload).isSome = true then s.answerVc3 port f 0x42 e.digest e.state.code
    else s.answerVc3 port f 0x42 [] 0xFF)

/-- What a notice does to its entry (R353, R354, R358): the state after it and the status acknowledged. -/
def State.takeNotice (s : State) (index kind : Nat) (manifest : Bytes) : State × Nat :=
  let e := s.edition index
  if e.state ≠ .free ∧ e.digest.take 8 ≠ manifest then (s, stIntegrity)
  else match kind, e.state with
    | 1, .verified => (s.commitEdition index, stOk)
    | 1, .committed => (s, stOk)
    | 2, .committed => (s.switchEdition index, stOk)
    | 2, .draining => (s.switchEdition index, stOk)
    | 2, .active => (s, stOk)
    | 3, .free => (s, stOk)
    | 3, _ => ((s.retireEdition index).progress, stOk)
    | _, _ => (s, stWrongState)

/-- A NOTICE (R385): acknowledged with the status of what it did. -/
def execNotice (port : FPort) (flit : Flit) (s : State) : Host.Outcome State Fault Refusal :=
  let f := { flit with typ := 0x43 }
  let index := fldAt f.payload 1 1
  let manifest := (f.payload.drop 12).take 8
  .next (s.receive port f fun s =>
    if index ≤ 15 ∧ (s.vc3Slot f.payload).isSome = true then
      let r := s.takeNotice index (fldAt f.payload 0 1) manifest
      r.1.answerVc3 port f 0x44 manifest r.2
    else s.answerVc3 port f 0x44 manifest stWrongState)

/-- An EANSWER to the head (R353). -/
def execEanswer (port : FPort) (flit : Flit) (s : State) : Host.Outcome State Fault Refusal :=
  let b := flit.payload
  let index := fldAt b 1 1
  let state := fldAt b 20 1
  .next (s.receive port { flit with typ := 0x42 } fun s =>
    if 15 < index then s
    else
      let differs := decide (state ≠ 0) && decide (state ≠ 0xFF)
        && decide ((b.drop 12).take 8 ≠ (s.edition index).digest.take 8)
      s.takeAnswer index (fldAt b 2 2) (fun n => decide (n = 0)) state differs)

/-- A NOTICE_ACK to the head (R353, R354, R359). -/
def execNoticeAck (port : FPort) (flit : Flit) (s : State) : Host.Outcome State Fault Refusal :=
  let b := flit.payload
  let index := fldAt b 1 1
  .next (s.receive port { flit with typ := 0x44 } fun s =>
    if 15 < index then s
    else s.takeAnswer index (fldAt b 2 2) (fun n => decide (n = fldAt b 0 1) && decide (n ≠ 0)) (fldAt b 20 1) false)

/-- A RETIRING entry's side is clear: the entry is FREE (R358); nothing while a partition of it waits or clears. -/
def execEditionRetired (index : EdIdx) (s : State) : Host.Outcome State Fault Refusal :=
  let e := s.edition index
  let busy := e.parts.any fun kp => (s.part kp.1 kp.2).due || decide ((s.part kp.1 kp.2).kind = .clearing)
  .next (if e.state ≠ .retiring ∨ busy = true then s
    else (((s.modEdition index fun e => { Edition.reset with talk := e.talk }).raise0 accPage 4).endRetire index).progress)

end Sys2Proof.Machine
end

