-- ==== Sys2Proof/Machine/Fabric.lean ====
section
/-! DEFINITION. The meanings of the rows on fabric ports, optics, identity and routes (chapter "The Mornak fabric"). -/

namespace Sys2Proof.Machine

open Sys2Proof

/-- A link word; one whose CRC fails is counted and ignored (R370, R392). -/
def execFabLinkWord (port : FPort) (word : BitVec 64) (s : State) : Host.Outcome State Fault Refusal :=
  .next (if (s.fport port).state ≠ .up then s
    else if crc16 (leBytes 6 word.toNat) = word.extractLsb' 48 16 then s.linkWord port word
    else s.modFport port fun p => { p with crcErr := sat32 p.crcErr 1 })

/-- ACKSEQ has not advanced for ACK_TMO_US while flits are unacknowledged (R371). -/
def execFabAckTimeout (port : FPort) (s : State) : Host.Outcome State Fault Refusal :=
  .next (if (s.fport port).state = .up ∧ (s.fport port).retry ≠ [] then
      (s.countTmo (fportPage port)).replayFab port
    else s)

/-- A received flit fails its CRC, is out of sequence, or has an unknown type (R371, R375). -/
def execFabFlitReject (port : FPort) (reason : RejectReason) (s : State) : Host.Outcome State Fault Refusal :=
  .next (if (s.fport port).state ≠ .up then s
    else match reason with
      | .crc => (s.modFport port fun p => { p with crcErr := sat32 p.crcErr 1 }).rejectFlit port
      | .sequence => s.rejectFlit port
      | .unknownType =>
        (s.acceptFlit port).modFport port fun p => { p with badFlit := sat32 p.badFlit 1 })

/-- A call slip (R386 to R388). -/
def execCallSlip (port : FPort) (flit : Flit) (s : State) : Host.Outcome State Fault Refusal :=
  .next (s.receive port { flit with typ := 0x40 } fun s => s.takeSlip port flit)

/-- No valid call slip for SLIP_MISS ticks (R368). -/
def execSlipMiss (port : FPort) (s : State) : Host.Outcome State Fault Refusal :=
  .next (if (s.fport port).state = .up then ((s.countTmo (fportPage port)).portFalls port .down 6).progress else s)

/-- Light is lost (R368, R389). -/
def execPortDown (port : FPort) (s : State) : Host.Outcome State Fault Refusal :=
  .next (if (s.fport port).state = .up ∨ (s.fport port).state = .training then (s.portFalls port .down 2).progress else s)

/-- Training completes (R369). -/
def execPortUp (port : FPort) (s : State) : Host.Outcome State Fault Refusal :=
  .next (if (s.fport port).state = .training then
      ((s.modFport port fun p => { p with state := .up }).raise0 (fportPage port) 0).drainPort port
    else s)

/-- Training does not complete within 10 ms (R368). -/
def execFabTrainFail (port : FPort) (s : State) : Host.Outcome State Fault Refusal :=
  .next (if (s.fport port).state = .training then s.portFalls port .down 3 else s)

/-- The drift under holdover reaches 8 flit slots (R226). -/
def execClockSlip (port : FPort) (s : State) : Host.Outcome State Fault Refusal :=
  .next (if (s.fport port).state = .up then (s.portFalls port .down 5).progress else s)

/-- A port with ENABLE = 1 in DOWN receives light and begins training (R368); its engine is ACTIVE (R511). -/
def execFabLightReceived (port : FPort) (s : State) : Host.Outcome State Fault Refusal :=
  let p := s.fport port
  .next (if p.state = .down ∧ p.enable = true ∧ (s.engine (engineOf port)).state = .active then
      s.modFport port fun p => { p with state := .training, retrain := false }
    else s)

/-- A cartridge is inserted or removed (R494, R495). -/
def execLaserCartridgeChange (cartridge : Fin 5) (present : Bool) (s : State) : Host.Outcome State Fault Refusal :=
  .next (s.changeCartridge cartridge fun c =>
    if c.present = present then c else { present := present, active := false, fault := false, power := 0 })

/-- A cartridge has ended its ramp (R365, R495). -/
def execCartridgeActive (cartridge : Fin 5) (s : State) : Host.Outcome State Fault Refusal :=
  .next (s.changeCartridge cartridge fun c => if c.present ∧ c.fault = false then { c with active := true } else c)

/-- A ring of the port reaches the end of its heater range (R366). -/
def execRingUnlock (port : FPort) (s : State) : Host.Outcome State Fault Refusal :=
  .next (if (s.fport port).state = .up ∨ (s.fport port).state = .training then (s.portFalls port .down 9).progress else s)

/-- An engine's calibration ends (R366). -/
def execCalDone (engine : Fin 16) (ok : Bool) (s : State) : Host.Outcome State Fault Refusal :=
  .next (s.endCalibration engine ok)

/-- An engine's heater range in use reaches 922 of 1,023 (R366); a lower figure is only recorded. -/
def execTrackLimit (engine : Fin 16) (track : BitVec 10) (s : State) : Host.Outcome State Fault Refusal :=
  .next (s.setTrack engine track)

/-- The first slot that is not EMPTY. -/
def State.slotInUse (s : State) : Option (Nat × Slot) := s.slots.find? fun e => decide (e.2.state ≠ .empty)

/-- FAB_IDENTITY (R386, R418). -/
def fabIdentityOp (port : Nat) (b : Bytes) (s : State) : State × Answer :=
  if b.length ≠ 3 ∨ 4095 < fldAt b 0 2 ∨ 1 < fldAt b 2 1 then refuse (Reply.err stMalformed) s
  else if !s.holds port then refuse (Reply.err stNotPermitted) s
  else match s.slotInUse with
    | some e => refuse (Reply.wrong 2 e.2.state.code 1 0) s
    | none =>
      let clear := fldAt b 2 1 = 1
      ({ s with fab := { s.fab with idValid := !clear, device := if clear then 0 else BitVec.ofNat 12 (fldAt b 0 2) } },
       .done (Reply.ok []))

/-- FAB_IDENTITY. -/
def execFabIdentity (port : TPort) (tag : BitVec 32) (payload : Bytes) (s : State) : Host.Outcome State Fault Refusal :=
  .next (s.runCommand port tag 0x38 (fabIdentityOp port payload))

/-- An entry of FAB_ROUTES that is MALFORMED (R379, R418). -/
def routeMalformed (b : Bytes) : Bool :=
  let op := fldAt b 2 1
  let w0 : W32 := BitVec.ofNat 32 (fldAt b 4 4)
  let r : RouteEntry := ⟨w0, 0, 0⟩
  decide (2047 < fldAt b 0 2) || decide (1 < op) || !zeroAt b 3 1 || !r.standing || decide (r.slot ≠ 0)
    || decide (w0.extractLsb' 29 3 ≠ 0) || decide (fldAt b 8 4 / 2 ^ 30 ≠ 0) || decide (fldAt b 12 4 / 2 ^ 24 ≠ 0)
    || (decide (op = 0) && (decide (r.hops = 0) || decide (6 < r.hops)))

/-- The status of an entry of FAB_ROUTES by itself, in the order of R411: its values, the permission, the state (R379,
R418). -/
def State.routeRefused (s : State) (port i : Nat) (b : Bytes) : Option Reply :=
  let r := s.route (fldAt b 0 2)
  if routeMalformed b then some (Reply.errAt stMalformed i)
  else if !s.holds port then some (Reply.errAt stNotPermitted i)
  else if r.valid ∧ r.standing = false then some (Reply.wrong 2 (s.slot r.slot).state.code 1 i)
  else none

/-- The 16-byte entries of a FAB_ROUTES payload. -/
def routeEntries (b : Bytes) : List Bytes := (List.range (fldAt b 0 4)).map fun i => (b.drop (4 + 16 * i)).take 16

/-- FAB_ROUTES (R379, R411, R418): every entry is checked before any is written. -/
def fabRoutesOp (port : Nat) (b : Bytes) (s : State) : State × Answer :=
  let n := fldAt b 0 4
  if n = 0 ∨ 256 < n ∨ b.length ≠ 4 + 16 * n then refuse (Reply.err stMalformed) s
  else match (routeEntries b).zipIdx.findSome? fun e => s.routeRefused port e.2 e.1 with
    | some r => refuse r s
    | none =>
      ((routeEntries b).foldl (fun (s : State) e =>
        s.setRoute (fldAt e 0 2) (if fldAt e 2 1 = 1 then RouteEntry.reset
          else ⟨BitVec.ofNat 32 (fldAt e 4 4), BitVec.ofNat 32 (fldAt e 8 4), BitVec.ofNat 32 (fldAt e 12 4)⟩)) s,
       .done (Reply.ok []))

/-- FAB_ROUTES. -/
def execFabRoutes (port : TPort) (tag : BitVec 32) (payload : Bytes) (s : State) : Host.Outcome State Fault Refusal :=
  .next (s.runCommand port tag 0x39 (fabRoutesOp port payload))

end Sys2Proof.Machine
end

