-- ==== Sys2Proof/Machine/Flits.lean ====
section
/-! DEFINITION. The meanings of the flit rows: window messages, queue streams, HOLD, forwarding (chapters "Loan windows and the
transfer engine" and "The Mornak fabric"). Each flit arrives intact on its port. -/

namespace Sys2Proof.Machine

open Sys2Proof

/-- A window write request header (R208). -/
def execWreq (port : FPort) (flit : Flit) (s : State) : Host.Outcome State Fault Refusal :=
  .next (s.receive port { flit with typ := 0x20 } fun s => s.checkHeader port { flit with typ := 0x20 } true)

/-- Window write data (R209). -/
def execWdata (port : FPort) (flit : Flit) (s : State) : Host.Outcome State Fault Refusal :=
  .next (s.receive port { flit with typ := 0x21 } fun s => s.takeWriteData port flit)

/-- A window read request (R208, R209). -/
def execRreq (port : FPort) (flit : Flit) (s : State) : Host.Outcome State Fault Refusal :=
  .next (s.receive port { flit with typ := 0x22 } fun s => s.checkHeader port { flit with typ := 0x22 } false)

/-- Window read data (R201). -/
def execRdata (port : FPort) (flit : Flit) (s : State) : Host.Outcome State Fault Refusal :=
  .next (s.receive port { flit with typ := 0x23 } fun s => (s.takeReadData flit).progress)

/-- A window write acknowledgement (R201). -/
def execAck (port : FPort) (flit : Flit) (s : State) : Host.Outcome State Fault Refusal :=
  .next (s.receive port { flit with typ := 0x24 } fun s => s.takeAck flit)

/-- A NACK (R215). -/
def execNack (port : FPort) (flit : Flit) (s : State) : Host.Outcome State Fault Refusal :=
  .next (s.receive port { flit with typ := 0x25 } fun s => (s.takeNack flit).progress)

/-- Queue stream bytes (R138, R375). -/
def execQdata (port : FPort) (flit : Flit) (s : State) : Host.Outcome State Fault Refusal :=
  .next (s.receive port { flit with typ := 0x10 } fun s => s.takeQueueData port flit)

/-- A HOLD flit (R242 to R244). -/
def execHold (port : FPort) (flit : Flit) (s : State) : Host.Outcome State Fault Refusal :=
  .next (s.receive port { flit with typ := 0x11 } fun s => s.takeHold flit)

/-- A routed flit that is not at its last hop (R380); one at its last hop is of another row. -/
def execFlitForward (port : FPort) (flit : Flit) (s : State) : Host.Outcome State Fault Refusal :=
  .next (if flit.hops = 0 ∨ flit.hopidx.toNat + 1 = flit.hops.toNat then s else s.receive port flit id)

end Sys2Proof.Machine
end

