-- ==== Sys2Proof/Machine/CommitOps.lean ====
section
/-! DEFINITION. The step commit (R313): result records and their rows (R315, R322, R330), the governor (R302 to R305), batch
records (R314, R325, R326, R328, R329), and the release of a barrier stamp (R149 to R152, R242, R526). -/

namespace Sys2Proof.Machine

open Sys2Proof

-- records in rings

/-- Slots that the record at a ring's head occupies, if it is wholly present; BYTES stands at `at_` of its header
(R312). -/
def State.recordSlots (s : State) (k ring at_ : Nat) : Option Nat :=
  let r := s.ring k ring
  if r.valid ∧ r.present.contains r.head = true then
    let n := max 1 ((leAt (s.ringBytes k r r.head 1) at_ 8 + r.slotSize - 1) / r.slotSize)
    if decide (n ≤ r.slots) && (List.range n).all fun j => r.present.contains ((r.head + j) % r.slots) then some n else none
  else none

/-- Takes the record at a ring's head, through the memory's code; an uncorrectable error faults the programs that use the
memory (R176, R312). -/
def State.takeRecord (s : State) (k ring at_ : Nat) : State × Option Bytes :=
  match s.recordSlots k ring at_ with
  | none => (s, none)
  | some n =>
    let r := s.ring k ring
    let spans := (List.range n).map fun j => (r.slotAt k ((r.head + j) % r.slots), r.slotSize)
    match s.readSpans .net spans with
    | (s, some a) => (s.memoryFault a, none)
    | (s, none) =>
      let b := s.ringBytes k r r.head n
      ((List.range n).foldl (fun (s : State) _ => s.ringTake k ring) s, some b)

/-- Puts a record in the batch ring of cluster `k`; false where it finds too few empty slots (R312, R313). -/
def State.putRecord (s : State) (k : Nat) (b : Bytes) : State × Bool :=
  let r := s.ring k 63
  let n := (b.length + r.slotSize - 1) / r.slotSize
  if r.valid = false ∨ r.slots - r.present.length < n then (s, false)
  else
    ((List.range n).foldl (fun (s : State) j =>
      let r := s.ring k 63
      ((s.writeSpan .net (r.slotAt k r.tail) ((b.drop (j * r.slotSize)).take r.slotSize)).1).ringPut k 63) s, true)

-- result records

/-- A row of a result record (R315). -/
structure ResultRow where
  handle : Nat
  numeric : Bool
  sampled : Bool
  ntok : Nat
  pathLen : Nat
  done : Nat
  path : List Nat
  /-- tokens with their log-probability data (R320) -/
  tokens : List (Nat × Bytes)
deriving DecidableEq, Repr

/-- Reads the result row at offset `o` of a record, for a session with `n` log-probabilities. -/
def readResultRow (b : Bytes) (o n : Nat) : ResultRow :=
  let ntok := leAt b (o + 5) 1
  { handle := leAt b o 4, numeric := leAt b (o + 4) 1 % 2 = 1, sampled := leAt b (o + 4) 1 / 2 % 2 = 1, ntok := ntok
    pathLen := leAt b (o + 6) 1, done := leAt b (o + 8) 4
    path := (List.range (leAt b (o + 6) 1)).map fun i => leAt b (o + 12 + i) 1
    tokens := (List.range (min ntok 9)).map fun i =>
      (leAt b (o + 20 + 4 * i) 3, (b.drop (o + 96 + 8 * n * i)).take (8 * n)) }

/-- The rows of a result record, one for each row of the batch record (R315). -/
def State.resultRows (s : State) (b : Bytes) : List RowRef → Nat → List (RowRef × ResultRow)
  | [], _ => []
  | r :: rest, o =>
    let n := (s.session r.index).logprobs
    let x := readResultRow b o n
    (r, x) :: s.resultRows b rest (o + 96 + 8 * n * x.ntok)

/-- A path is a chain of the row's tree (R327). -/
def isChain (tree : List (Nat × Nat)) : Nat → List Nat → Bool
  | _, [] => true
  | parent, i :: r => (match tree[i]? with | some n => n.2 = parent | none => false) && isChain tree i r

/-- A result row agrees with its batch row (R315). -/
def State.rowOk (s : State) (vocab : Nat) (e : RowRef × ResultRow) : Bool :=
  let x := s.session e.1.index
  let r := e.2
  decide (r.handle = sessHandle e.1.index x) && decide (r.ntok = if r.sampled then r.pathLen + 1 else 0)
    && decide (r.pathLen ≤ 8) && isChain e.1.tree 0xFF r.path && (r.tokens.all fun t => t.1 < vocab)
    && (decide (r.done = 0) || decide (e.1.pos + r.done ≤ x.promptTokens))
    && (!r.sampled || decide (x.promptTokens ≤ e.1.pos + r.done))

-- the end of a row

/-- The stop tests of R322 over the sampled tokens: the tokens emitted, and the end with its detail. -/
def stopScan (ends : List Nat) (stops : List (List Nat)) (maxNew : Nat) :
    Nat → List Nat → List (Nat × Bytes) → List (Nat × Bytes) × Option (Nat × Nat)
  | _, _, [] => ([], none)
  | g, before, t :: r =>
    match ends.findIdx? fun e => e = t.1 with
    | some k => ([], some (endStop, k))
    | none =>
      let now := t.1 :: before
      match stops.findIdx? fun l => decide (l ≠ []) && decide (now.take l.length = l.reverse) with
      | some k => ([t], some (endStop, 0x80 + k))
      | none =>
        if g + 1 = maxNew then ([t], some (endLength, 0))
        else
          let q := stopScan ends stops maxNew (g + 1) now r
          (t :: q.1, q.2)

/-- Appends one token to the session's open packet (R334). -/
def Session.emit (x : Session) (t : Nat × Bytes) (stamp : W64) : Session :=
  let p := x.openPkt.getD ⟨x.generated, [], false, false⟩
  let p := { p with tokens := p.tokens ++ [⟨t.1, t.2, stamp⟩], first := p.first || decide (x.generated = 0) }
  let full := decide (p.tokens.length = 16)
  { x with
    generated := x.generated + 1, ledgerFirst := if x.generated = 0 then stamp else x.ledgerFirst
    recent := (t.1 :: x.recent).take 16, openPkt := if full then none else some p
    closedPkts := if full then x.closedPkts ++ [p] else x.closedPkts }

/-- Tokens not yet sent, the open packet counted (R335). -/
def Session.unsent (x : Session) : Nat :=
  ((x.openPkt.map fun p => p.tokens.length).getD 0) + (x.closedPkts.map fun p => p.tokens.length).sum

/-- Closes the open packet. -/
def Session.closePacket (x : Session) : Session :=
  match x.openPkt with
  | some p => { x with openPkt := none, closedPkts := x.closedPkts ++ [p] }
  | none => x

/-- An open packet with the session's first token closes at its commit (R334). -/
def Session.closeFirst (x : Session) : Session :=
  match x.openPkt with
  | some p => if p.first then x.closePacket else x
  | none => x

/-- The end of a row before any stop test (R330), and the loss of its descriptor's data (R485). -/
def Session.rowEnd (x : Session) (r : ResultRow) (stamp : W64) (emits : Nat) : Option Nat :=
  if x.tableUe then some endFault
  else if x.cancelPending then some endCancelled
  else if x.stepExpired then some endTimeout
  else if x.deadline ≠ 0 ∧ x.deadline.toNat ≤ stamp.toNat then some endTime
  else if r.numeric then some endNumeric
  else if 128 < x.unsent + emits then some endStalled
  else none

/-- The next input token takes slot HWM (R328). -/
def Session.takeInput (x : Session) : Session := { x with inSlot := x.hwm, hwm := x.hwm + 1 }

/-- Spare entries that an accepted path vacated are refilled from HWM in ascending order (R329). -/
def Session.refill (x : Session) (path : List Nat) : Session :=
  ((List.range 64).filter path.contains).foldl (fun (x : Session) i =>
    { x with spare := x.spare.set i x.hwm, hwm := x.hwm + 1 }) x

/-- A sampled row that continues (R323, R329, R330). -/
def Session.continue_ (x : Session) (r : ResultRow) : Session :=
  let base := if x.state = .prefill then x.promptTokens - 1 else x.pos
  let x := { x with
    pos := base + r.pathLen + 1, state := .decode, punits := 0, newTokens := r.tokens.map Prod.fst
    mapSlots := r.path.map fun i => x.spare.getD i 0, tree := if x.draftSlot = 0xFF then [] else x.tree, treeUsed := true }
  x.takeInput.refill r.path

/-- One row of the commit (R322, R330 to R334). -/
def State.commitRow (s : State) (ends : List Nat) (stamp : W64) (e : RowRef × ResultRow) : State :=
  let i := e.1.index
  let r := e.2
  let s := s.modSession i fun x =>
    { x with
      steps := x.steps + 1, ledgerCommit := stamp, newTokens := [], mapSlots := []
      proposed := if r.sampled then x.proposed + BitVec.ofNat 32 e.1.tree.length else x.proposed
      accepted := if r.sampled then x.accepted + BitVec.ofNat 32 r.pathLen else x.accepted }
  let x := s.session i
  let scan := stopScan ends x.stops x.maxNew x.generated x.recent r.tokens
  match x.rowEnd r stamp scan.1.length with
  | some reason => s.endRow i reason 0 stamp
  | none =>
    if r.sampled = false then
      s.modSession i fun x =>
        let x := { x with pos := x.pos + r.done }
        if x.state = .decode then x.takeInput else x
    else
      let s := s.modSession i fun x => scan.1.foldl (fun (x : Session) t => x.emit t stamp) x
      match scan.2 with
      | some (reason, detail) => s.endRow i reason detail stamp
      | none => s.modSession i fun x => (x.continue_ r).closeFirst

-- the governor

/-- Variants in rank order: PREFILL_CLUSTERS ascending, ties to the lower index (R302). -/
def Slot.ranks (x : Slot) : List Nat :=
  let l := match x.folio with | some f => f.prefill | none => []
  (List.range l.length).insertionSort fun a b => l.getD a 0 < l.getD b 0 ∨ (l.getD a 0 = l.getD b 0 ∧ a ≤ b)

/-- A variant is eligible (R302). -/
def State.eligible (s : State) (slot v : Nat) : Bool :=
  decide ((s.batchSessions slot).length ≤ ((s.slot slot).record v (s.anyArchival slot)).maxBatch)

/-- The eligible variant next above or below a variant in rank. -/
def State.neighbourVariant (s : State) (slot v : Nat) (up : Bool) : Option Nat :=
  let l := (s.slot slot).ranks
  let i := l.findIdx fun x => x = v
  let n := if up then l[i + 1]? else if i = 0 then none else l[i - 1]?
  n.filter (s.eligible slot)

/-- The choice of AUTO, with its run counters (R304). -/
def State.autoChoice (s : State) (slot : Nat) : Nat × Governor :=
  let d := s.slot slot
  let v := d.prog.current
  let g := d.gov
  let m := d.record v d.prog.archNow
  let decode := (s.sessionsOf slot fun x => x = .decode).length
  let work := s.backlog slot * m.prefillCyc
  let occ := if m.maxBatch = 0 then 0 else 256 * decode / m.maxBatch
  let up := decide (g.upUs.toNat * s.clockMhz < work) && decide (occ < g.occHi.toNat)
  let down := decide (work < g.downUs.toNat * s.clockMhz) || decide (g.occHi.toNat ≤ occ)
  let g := { g with upRun := if up then min 255 (g.upRun + 1) else 0, downRun := if down then min 255 (g.downRun + 1) else 0 }
  if g.since.toNat < g.minSteps.toNat then (v, g)
  else
    match (if g.upSteps.toNat ≤ g.upRun then s.neighbourVariant slot v true else none) with
    | some n => (n, { g with upRun := 0, downRun := 0 })
    | none =>
      match (if g.downSteps.toNat ≤ g.downRun then s.neighbourVariant slot v false else none) with
      | some n => (n, { g with upRun := 0, downRun := 0 })
      | none => (v, g)

/-- The choice of FIXED: VARIANT, approached by one rank at a commit and only over eligible variants (R302, R305; DEDUCED,
log 73). -/
def State.fixedChoice (s : State) (slot : Nat) : Nat :=
  let d := s.slot slot
  let v := d.prog.current
  let want := d.gov.variant.toNat
  if d.variants ≤ want ∨ want = v then v
  else
    let place (x : Nat) : Nat := d.ranks.findIdx fun y => y = x
    (s.neighbourVariant slot v (decide (place v < place want))).getD v

/-- The governor's decision at a commit, and the form of the step after the next (R251, R303 to R305, R310). -/
def State.govern (s : State) (slot : Nat) : State :=
  let s := s.modSlot slot fun d =>
    { d with prog := { d.prog with current := d.prog.next, archNow := d.prog.archNext }
             gov := { d.gov with since := sat32 d.gov.since 1 } }
  let d := s.slot slot
  let v := d.prog.current
  let r := if d.gov.fixed then (s.fixedChoice slot, d.gov) else s.autoChoice slot
  let form := s.anyArchival slot
  let s := s.modSlot slot fun d =>
    { d with prog := { d.prog with next := r.1, archNext := form }
             gov := if r.1 = v then r.2 else { r.2 with since := 0, switches := sat32 r.2.switches 1 } }
  if r.1 = v then s else s.raise0 govPage 0

-- batch records

/-- The lowest batch row that no session of the deployment has. -/
def State.freeRow (s : State) (slot : Nat) : Option Nat :=
  let used := (s.sessionsOf slot fun x => x = .prefill ∨ x = .decode).map fun e => e.2.row
  (List.range 511).find? fun r => !used.contains r

/-- ADMITTED sessions enter PREFILL in admission order (R314). -/
def State.enterPrefill (s : State) (slot : Nat) : State :=
  let d := s.slot slot
  let limit := match d.folio with | some f => f.prefill.getD d.prog.current 0 | none => 0
  let s := d.admits.foldl (fun (s : State) i =>
    let x := s.session i
    let busy := (s.sessionsOf slot fun x => x = .prefill).length
    if x.state = .admitted ∧ x.slot = slot ∧ busy < limit ∧ (x.archival = true → d.prog.archNow = true) then
      match s.freeRow slot with
      | some r => s.modSession i fun x => { x with state := .prefill, row := r, pos := 0, ran := true }
      | none => s
    else s) s
  s.modSlot slot fun d => { d with admits := d.admits.filter fun i => decide ((s.session i).state = .admitted) }

/-- Sessions with a batch row, in ascending row order. -/
def State.batchRowsOf (s : State) (slot : Nat) : List (Nat × Session) :=
  (s.sessionsOf slot fun x => x = .prefill ∨ x = .decode).insertionSort fun a b => a.2.row ≤ b.2.row

/-- A row entry (R314). -/
def rowEntry (i : Nat) (x : Session) (tree : Option Nat) (edition : Nat) : Bytes :=
  let entries (n : Nat) (l : List Nat) : Bytes := (List.range n).flatMap fun k => leBytes 4 (l.getD k 0)
  leBytes 4 (sessHandle i x)
    ++ [if x.state = .prefill then 1 else 2,
        BitVec.ofNat 8 (x.archival.toNat + 2 * tree.isSome.toNat + (if x.steps = 0 then 4 else 0)),
        BitVec.ofNat 8 edition, BitVec.ofNat 8 x.logprobs]
    ++ leBytes 2 x.row ++ leBytes 2 (tree.getD 0xFFFF) ++ leBytes 4 x.pos ++ leBytes 4 x.generated
    ++ leBytes 4 (if x.state = .decode then x.inSlot else 0) ++ leBytes 4 x.temperature.toNat ++ leBytes 4 x.topP.toNat
    ++ leBytes 4 x.topK.toNat ++ leBytes 4 x.repPenalty.toNat ++ leBytes 8 x.seed.toNat ++ leBytes 4 x.steps.toNat
    ++ leBytes 4 x.pstore ++ leBytes 4 x.promptTokens
    ++ [BitVec.ofNat 8 x.newTokens.length, BitVec.ofNat 8 x.mapSlots.length, 0, 0]
    ++ entries 9 x.newTokens ++ entries 8 x.mapSlots ++ List.replicate 28 0#8

/-- Ancestor rows of a tree's nodes (R326). -/
def ancestorRows : List (Nat × Nat) → List Nat → List Nat
  | [], acc => acc
  | (_, p) :: r, acc => ancestorRows r (acc ++ [2 ^ acc.length ||| (if p = 0xFF then 0 else acc.getD p 0)])

/-- A tree block (R324, R326). -/
def treeBlock (handle : Nat) (tree : List (Nat × Nat)) (spare : List Nat) : Bytes :=
  let depth := ((nodeDepths tree []).getD []).foldl max 0
  let anc := ancestorRows tree []
  let used (f : Nat → Bytes) (w : Nat) : Bytes :=
    (List.range 64).flatMap fun i => if i < tree.length then f i else List.replicate w 0#8
  leBytes 4 handle ++ leBytes 2 tree.length ++ [BitVec.ofNat 8 depth] ++ List.replicate 57 0#8
    ++ used (fun i => leBytes 3 (tree.getD i (0, 0)).1 ++ leBytes 1 (tree.getD i (0, 0)).2) 4
    ++ used (fun i => leBytes 4 (spare.getD i 0)) 4 ++ used (fun i => leBytes 8 (anc.getD i 0)) 8

/-- A record's header (R314). -/
def recordHeader (step variant flags rows trees : Nat) (now : W64) : Bytes :=
  leBytes 4 step ++ [BitVec.ofNat 8 variant, BitVec.ofNat 8 flags] ++ leBytes 2 rows ++ leBytes 2 trees
    ++ List.replicate 6 0#8 ++ leBytes 8 now.toNat ++ leBytes 8 (64 + 160 * rows + 1088 * trees) ++ List.replicate 32 0#8

/-- The trees that a DRAFT folio has supplied for a step: the newest tree record wholly present whose STEP is that step;
every record present is taken (R325). -/
def State.draftTrees : Nat → State → Nat → Nat → Bytes → State × Bytes
  | 0, s, _, _, acc => (s, acc)
  | fuel + 1, s, k, step, acc =>
    match s.takeRecord k 62 8 with
    | (s, some b) => State.draftTrees fuel s k step (if leAt b 0 4 = step then b else acc)
    | (s, none) => (s, acc)

/-- The entry of a session in a tree record, if it is valid (R325, R327). -/
def draftTree (b : Bytes) (handle vocab : Nat) : List (Nat × Nat) :=
  match ((List.range (leAt b 4 2)).map fun i => (b.drop (64 + 320 * i)).take 320).find? fun e => fldAt e 0 4 = handle with
  | some e => if treeValid e vocab then treeNodes e else []
  | none => []

/-- The RUNNING DRAFT slots, role 0, that sessions in the batch name. -/
def State.draftSlots (s : State) (slot : Nat) : List Nat :=
  (((s.batchRowsOf slot).map fun e => e.2.draftSlot).filter fun d =>
    decide (d ≠ 0xFF) && decide ((s.slot d).state = .running) && decide ((s.slot d).kind = 2) && (s.slot d).isHead).dedup

/-- The batch ring's cluster of a slot. -/
def Slot.ringCluster (x : Slot) : Nat := match x.folio with | some f => f.batchCluster | none => 0

/-- A tree that a draft folio supplied serves one step (R323, R325). -/
def State.dropTrees (s : State) (slot : Nat) : State :=
  (s.batchRowsOf slot).foldl (fun (s : State) e =>
    if e.2.draftSlot = 0xFF then s else s.modSession e.1 fun x => { x with tree := [] }) s

/-- Takes a draft's tree records and gives each speculative session that names it its tree for the step (R325). -/
def State.takeDraft (s : State) (slot step d : Nat) : State :=
  let k := (s.slot d).ringCluster
  let r := State.draftTrees (s.ring k 62).slots s k step []
  let vocab := (s.slot slot).serving.vocab
  (s.batchRowsOf slot).foldl (fun (s : State) e =>
    if e.2.draftSlot = d ∧ e.2.speculative = true then
      s.modSession e.1 fun x => { x with tree := draftTree r.2 (sessHandle e.1 x) vocab }
    else s) r.1

/-- Puts the rows of the sessions that name a draft folio into its batch ring; a full ring faults the draft (R325,
R356). -/
def State.putDraft (s : State) (slot step : Nat) (stamp : W64) (d : Nat) : State :=
  let rows := (s.batchRowsOf slot).filter fun e => e.2.draftSlot = d
  let b := recordHeader step 0 0 rows.length 0 stamp
    ++ rows.flatMap fun e => rowEntry e.1 e.2 none (s.activeEdition d)
  match s.putRecord (s.slot d).ringCluster b with
  | (s, true) => s
  | (s, false) => s.programFault d reasonCatalogue none

/-- Puts batch record `step` of a deployment; too few empty slots fault the program (R312 to R314). -/
def State.putBatch (s : State) (slot step : Nat) (stamp : W64) : State :=
  let d := s.slot slot
  let p := d.prog
  let rows := s.batchRowsOf slot
  let trees := rows.filter fun e => e.2.tree ≠ []
  let index (i : Nat) : Option Nat := trees.findIdx? fun e => e.1 = i
  let b := recordHeader step (p.current + 16 * p.next) (p.archNow.toNat + 2 * p.archNext.toNat) rows.length trees.length stamp
    ++ (rows.flatMap fun e => rowEntry e.1 e.2 (index e.1) e.2.edition)
    ++ trees.flatMap fun e => treeBlock (if e.2.draftSlot = 0xFF then 0 else sessHandle e.1 e.2) e.2.tree e.2.spare
  let s := s.modProg slot fun p => { p with rows := rows.map fun e => ⟨e.1, e.2.row, e.2.tree, e.2.pos⟩ }
  match s.putRecord d.ringCluster b with
  | (s, true) => s
  | (s, false) => s.programFault slot reasonCatalogue none

/-- The step commit of a deployment (R313): the result record, every row, the batch record of the next step. -/
def State.stepCommit (s : State) (slot : Nat) : State :=
  let d := s.slot slot
  let n := d.prog.commits
  let stamp := s.now
  match s.takeRecord d.ringCluster 62 8 with
  | (s, none) => s.programFault slot reasonCatalogue none
  | (s, some b) =>
    let rows := s.resultRows b d.prog.rows 64
    if leAt b 0 4 ≠ n % 2 ^ 32 ∨ leAt b 4 2 ≠ d.prog.rows.length ∨ (rows.all (s.rowOk d.serving.vocab)) = false then
      s.programFault slot reasonCatalogue none
    else
      let s := rows.foldl (fun (s : State) e => s.commitRow d.serving.endIds stamp e) s
      let s := s.modProg slot fun p => { p with commits := p.commits + 1, rows := [] }
      let s := (s.govern slot).enterPrefill slot
      let s := s.dropTrees slot
      let drafts := s.draftSlots slot
      let s := drafts.foldl (fun (s : State) x => s.takeDraft slot (n + 1) x) s
      let s := s.putBatch slot (n + 1) stamp
      (drafts.foldl (fun (s : State) x => s.putDraft slot (n + 1) stamp x) s).sessionEnded slot

-- the release of a stamp

/-- Where a core continues after the CT.STEP that ended its step `m` (R152, R526): the next bundle without STEP_ENTRY,
else the entry that the latched header names; none where no header of that step is latched. -/
def State.stepEntry (s : State) (slot c m : Nat) : Option Nat :=
  let x := s.slot slot
  match x.folio with
  | none => some (s.core c).sq.pc
  | some f =>
    if f.stepEntry = [] then some (s.core c).sq.pc
    else match x.prog.latched.find? fun h => h.step.toNat = m with
      | none => none
      | some h =>
        let g := (h.variant.extractLsb' 4 4).toNat + (if h.flags.getLsbD 1 then f.prefill.length else 0)
        let i := x.cores.findIdx fun k => k = c
        some (((f.stepEntry[g]?).bind fun l => l[i]?).getD (s.core c).sq.pc)

/-- What a member counts at the release, which is the cycle it goes on in (R149, R150). -/
def Sequencer.release (q : Sequencer) (held cause cycle : Nat) : Sequencer :=
  { q with stamp := none, s := 0, cycle := cycle, devSince := [], hold := sat32 q.hold held
           holdCause := if 0 < held then BitVec.ofNat 4 cause else q.holdCause }

/-- A core ends its step (R152): the count rises, the draws reset, and the core continues where the latched header
says. -/
def State.endStep (s : State) (slot c : Nat) : State :=
  let q := (s.core c).sq
  let m := q.step.toNat
  if q.mode = .faulted then s
  else match s.stepEntry slot c m with
    | none => s.programFault slot reasonCatalogue none
    | some pc =>
      (s.modSq c fun q => { q with step := q.step + 1, pc := pc }).modVx c fun u => { u with draws := [] }

/-- P of a group (R149, R242). -/
def stampPeriod (e : StampEntry) : Nat :=
  if e.peers ≠ [] then e.p
  else if (e.members.any fun c => c < 128) && e.members.any fun c => decide (128 ≤ c) then 40 else 12

/-- The cycle of a member's arrival, and the cause it reports (R150). -/
def State.arrivedAt (s : State) (c : Nat) : Nat := match (s.core c).sq.stamp with | some st => st.time | none => 0
def State.arrivedCause (s : State) (c : Nat) : Nat := match (s.core c).sq.stamp with | some st => st.cause | none => 0

/-- The cycle of the last arrival of a group's local members (R149). -/
def State.lastArrival (s : State) (e : StampEntry) : Nat := (e.members.map s.arrivedAt).foldl max 0

/-- Of the members that arrive in the last cycle, the one with the lowest module core number (R150). -/
def State.lastMember (s : State) (e : StampEntry) : Option Nat :=
  (e.members.filter fun c => s.arrivedAt c = s.lastArrival e).foldl
    (fun (b : Option Nat) c => match b with | some d => some (min c d) | none => some c) none

/-- The cycles by which another module's arrival follows the last local one, as `late` says it of a role; a module that
arrives in the same cycle counts as the last if its role is the lower (R242, R243). -/
def lateBy (r : GroupRun) (role : Nat) (late : Option (Nat × Nat)) : Option (Nat × Nat) :=
  late.filter fun x => (r.remote.any fun h => h.role = x.1) && (decide (0 < x.2) || decide (x.1 < role))

/-- The cause that the members record: the local last member's, or that of the module that arrived last (R150, R243);
a flit that a link retry delayed makes its receivers record LINK_RETRY (R242). -/
def State.releaseCause (s : State) (e : StampEntry) (r : GroupRun) (late : Option (Nat × Nat)) : Nat :=
  match late with
  | some x =>
    match r.remote.find? fun h => h.role = x.1 with
    | some h => if h.mark then 1 else h.cause
    | none => 0
  | none => match s.lastMember e with | some c => s.arrivedCause c | none => 0

/-- The stamp of a group releases (R149 to R152, R242, R313, R278), P cycles after the last arrival; nothing before
every member, local and remote, has arrived. `late` gives the remote module that arrived last, if one did, and its
cycles after the last local arrival (DESIGN CHOICE, log 35). -/
def State.releaseStamp (s : State) (slot group : Nat) (late : Option (Nat × Nat)) : State :=
  let x := s.slot slot
  match x.group group with
  | none => s
  | some e =>
    let r := Tbl.get GroupRun.reset x.prog.groups group
    if x.state ≠ .running ∨ r.arrived = [] ∨ groupFull e r = false
        ∨ (e.peers.all fun p => r.remote.any fun h => h.role = p.role) = false then s
    else
      let late := lateBy r ((x.folio.map Folio.role).getD 0) late
      let cause := s.releaseCause e r late
      let last := s.lastArrival e + (late.map Prod.snd).getD 0
      let held := e.members.map fun c => (c, last - s.arrivedAt c)
      let ends := e.members.filter fun c => match (s.core c).sq.stamp with | some st => st.ends | none => false
      let s := held.foldl (fun (s : State) x => s.modSq x.1 fun q => q.release x.2 cause (last + stampPeriod e)) s
      let s := s.modProg slot fun p =>
        { p with groups := Tbl.put GroupRun.reset p.groups group ⟨r.seq + 1, r.id, [], []⟩ }
      if ends = [] then s
      else
        let s := if x.isDeployment && x.isHead && ends.contains (8 * x.ringCluster) then s.stepCommit slot else s
        let s := ends.foldl (fun (s : State) c => s.endStep slot c) s
        if (s.slot slot).prog.haltPending ∧ (s.slot slot).state = .running then s.haltCores slot else s

end Sys2Proof.Machine
end

