-- ==== Sys2Proof/Machine/Load.lean ====
section
/-! DEFINITION. The meanings of the rows on folio slots and tenants (chapters "Folios and the compiler contract" and "Tenants,
sessions and admission"), and of a stamp's release. -/

namespace Sys2Proof.Machine

open Sys2Proof

-- FOLIO_LOAD

/-- FOLIO_LOAD (R274). -/
def execFolioLoad (port : TPort) (tag : BitVec 32) (payload : Bytes) (view : FolioView) (s : State) :
    Host.Outcome State Fault Refusal :=
  .next (s.runCommand port tag 0x10 (folioLoadOp port tag payload (some view)))

/-- No packet of a load has come for 100 ms (R276); nothing for a slot that is not LOADING. -/
def execLoadIdleTimeout (slot : SlotId) (s : State) : Host.Outcome State Fault Refusal :=
  .next (if (s.slot slot).state = .loading then (s.failLoad slot (Reply.err stTimeout)).progress else s)

-- RUN

/-- A core before a run: queues and stacks empty (R155, R277). -/
def Core.runReset (k : Core) : Core :=
  { k with
    sq := { k.sq with loops := [], calls := [], s := 0, step := 0 }
    queues := (k.queues.map fun e =>
      (e.1, { e.2 with entries := [], used := 0, packetLeft := 0, sentOff := 0, waited := 0 })).filter fun e => e.2 ≠ Endpoint.reset }

/-- A cluster's rings before a run (R277). -/
def Cluster.runReset (k : Cluster) : Cluster :=
  let l := k.rings.map fun e => (e.1, { e.2 with head := 0, tail := 0, present := [] })
  { k with rings := l.filter fun e => e.2 ≠ Ring.reset }

/-- Entries of the queues of some cores that have arrived in part are gone (R277). -/
def State.dropStreams (s : State) (cores : List Nat) : State :=
  s.fports.foldl (fun (s : State) e => s.modFport e.1 fun p =>
    { p with streams := p.streams.filter fun q => !cores.contains q.core }) s

/-- The slot enters RUNNING; its cores start with PROGRAM_START (R277). -/
def State.enterRun (s : State) (slot : Nat) (start : W64) : State :=
  let x := s.slot slot
  let s := s.dropStreams x.cores
  let s := x.cores.foldl (fun (s : State) c => s.modCore c Core.runReset) s
  let s := ((List.range 32).filter x.claims).foldl (fun (s : State) k => s.modCluster k Cluster.runReset) s
  s.modSlot slot fun x => { x with state := .running, prog := { Prog.reset with startLedger := start } }

/-- RUN (R222, R277). -/
def runOp (b : Bytes) (s : State) : State × Answer :=
  let slot := fldAt b 0 1
  let x := s.slot slot
  let start : W64 := BitVec.ofNat 64 (fldAt b 8 8)
  let modules := match x.folio with | some f => f.moduleCount | none => 0
  let resident := match x.folio with | some f => f.resident.isSome | none => false
  let ldg := s.ledger.state
  if b.length ≠ 16 ∨ 63 < slot ∨ zeroAt b 1 7 = false then refuse (Reply.err stMalformed) s
  else if x.state ≠ .loaded then refuse (Reply.wrong 2 x.state.code 4 0) s
  else if 1 < modules ∧ s.freqLocked = false then refuse (Reply.wrong 9 0 2 0) s
  else if 1 < modules ∧ ldg ≠ .root ∧ ldg ≠ .locked then refuse (Reply.wrong 8 ldg.code 0x14 0) s
  else if resident && decide (s.activeEdition slot = 0xFF) then
    refuse (match s.slotEdition slot with
      | some e => Reply.wrong 5 e.2.state.code 16 0
      | none => Reply.wrong 5 0 16 0) s
  else if start ≠ 0 ∧ start.toNat < s.now.toNat then refuse (Reply.err stTimeout) s
  else (s.enterRun slot start, .done (Reply.ok []))

/-- RUN. -/
def execRun (port : TPort) (tag : BitVec 32) (payload : Bytes) (s : State) : Host.Outcome State Fault Refusal :=
  .next (s.runCommand port tag 0x11 (runOp payload))

/-- A core starts at its entry (R155). -/
def Sequencer.start (q : Sequencer) (pc : Nat) : Sequencer :=
  { q with pc := pc, loops := [], calls := [], s := 0, step := 0, run := true, halted := false, stamp := none, cycle := 0, planned := false
           delay := 0, idle := 0, ringWait := 0, devSince := [] }

/-- A core's program begins at its entry, its draws at 0 (R61, R62, R155). -/
def Core.start (k : Core) (pc : Nat) : Core :=
  { k with sq := k.sq.start pc, vx := { k.vx with draws := [] } }

/-- Starts every core of a slot's folio (R155, R277). -/
def State.startCores (s : State) (slot : Nat) : State :=
  let starts := match (s.slot slot).folio with | some f => f.start | none => []
  (s.slot slot).cores.zipIdx.foldl (fun (s : State) e => s.modCore e.1 fun k => k.start (starts.getD e.2 0)) s

/-- The first alignment frame boundary at or after START_LEDGER (R277): the cores of a RUNNING slot start and batch
record 0 is put (R313). Nothing for a slot that has started, before START_LEDGER, or once a HALT has taken effect. -/
def execProgramStart (slot : SlotId) (s : State) : Host.Outcome State Fault Refusal :=
  let x := s.slot slot
  let hasStep := match x.folio with | some f => f.hasStep | none => false
  .next (if x.state ≠ .running ∨ x.prog.started = true ∨ (x.prog.haltPending = true ∧ hasStep = false)
      ∨ (x.prog.startLedger ≠ 0 ∧ s.now.toNat < x.prog.startLedger.toNat) then s
    else
      let s := (s.startCores slot).modProg slot fun p => { p with started := true }
      if x.isDeployment && x.isHead then s.putBatch slot 0 s.now else s)

-- HALT

/-- HALT (R278). -/
def haltOp (b : Bytes) (s : State) : State × Answer :=
  let slot := fldAt b 0 1
  let x := s.slot slot
  let hasStep := match x.folio with | some f => f.hasStep | none => false
  let live := if x.isDeployment then (s.sessionsOf slot SessState.bound).head? else none
  if b.length ≠ 1 ∨ 63 < slot then refuse (Reply.err stMalformed) s
  else if x.state ≠ .running then refuse (Reply.wrong 2 x.state.code 8 0) s
  else match live with
    | some e => refuse (Reply.wrong 3 e.2.state.code 0x41 0) s
    | none =>
      if x.prog.haltPending then refuse (Reply.err stBusy) s
      else
        let s := s.modProg slot fun p => { p with haltPending := true }
        (if hasStep then s else s.haltCores slot, .waits (.halt slot))

/-- HALT. -/
def execHalt (port : TPort) (tag : BitVec 32) (payload : Bytes) (s : State) : Host.Outcome State Fault Refusal :=
  .next (s.runCommand port tag 0x12 (haltOp payload))

/-- The stamp of a partner group releases (R149): `lastRole` is the role of the remote module whose members arrived last,
if any did, `behind` cycles after the last local one. -/
def execStampRelease (slot : SlotId) (group : Fin 1024) (lastRole : Option Nat) (behind : Nat) (s : State) :
    Host.Outcome State Fault Refusal :=
  .next (s.releaseStamp slot group (lastRole.map fun r => (r, behind)))

-- tenants

/-- TENANT_BIND (R282). -/
def execTenantBind (port : TPort) (tag : BitVec 32) (payload : Bytes) (s : State) : Host.Outcome State Fault Refusal :=
  .next ((s.runCommand port tag 0x18 (bindOp port payload)).progress)

/-- Ends one session of a tenant that is released (R283). -/
def State.releaseSession (s : State) (i : Nat) : State :=
  let x := s.session i
  if x.state = .opened ∨ x.state = .admitted then s.closeSession i endCancelled
  else if x.state = .ending then s.flushTokens i
  else s

/-- Every catalogue index of a tenant whose descriptor is not FREE. -/
def State.sessionsOfTenant (s : State) (t : Nat) : List Nat :=
  (s.sessions.filter fun e => decide (e.2.tenant = t) && decide (e.2.state ≠ .free)).map Prod.fst

/-- Slots of a tenant in a state. -/
def State.slotsOfTenant (s : State) (t : Nat) (st : SlotState) : List Nat :=
  (s.slots.filter fun e => decide (e.2.tenant = t) && decide (e.2.state = st)).map Prod.fst

/-- Steps 1 to 3 of R283, as far as they take no time; loads are cancelled first (R276). -/
def State.beginRelease (s : State) (t : Nat) : State :=
  let s := (s.slotsOfTenant t .loading).foldl (fun (s : State) i => s.failLoad i (Reply.err stCancelled)) s
  let s := s.modTenant t fun x => { x with state := .releasing }
  let s := (s.sessionsOfTenant t).foldl State.releaseSession s
  let s := (s.sessionsOfTenant t).foldl (fun (s : State) i => s.modSession i Session.freed) s
  (s.slotsOfTenant t .loaded).foldl State.emptySlot s

/-- TENANT_RELEASE (R283). -/
def releaseOp (port : Nat) (b : Bytes) (s : State) : State × Answer :=
  let t := fldAt b 0 1
  let x := s.tenant t
  if b.length ≠ 1 then refuse (Reply.err stMalformed) s
  else if !s.gen.service then refuse Reply.readingRoom s
  else if !s.holds port then refuse (Reply.err stNotPermitted) s
  else if x.state ≠ .bound then refuse (Reply.wrong 4 x.state.code 2 0) s
  else match (s.slotsOfTenant t .running).head? with
    | some _ => refuse (Reply.wrong 2 3 0x17 0) s
    | none => (s.beginRelease t, .waits (.release t))

/-- TENANT_RELEASE: what takes no time is done at once, the rest as it ends. -/
def execTenantRelease (port : TPort) (tag : BitVec 32) (payload : Bytes) (s : State) : Host.Outcome State Fault Refusal :=
  .next ((s.runCommand port tag 0x19 (releaseOp port payload)).progress)

end Sys2Proof.Machine
end

