-- ==== Sys2Proof/Machine/Matrix.lean ====
section
/-! DEFINITION. The meanings of the matrix words (chapter "Matrix engine"): each runs its word on the core, as BUNDLE_ISSUE runs it
in the matrix slot. -/

namespace Sys2Proof.Machine

open Sys2Proof

/-- MX.NOP: none; its other bits are RSVD (R68). -/
def execMxNop (core : CoreId) (args : BitVec 58) (s : State) : Host.Outcome State Fault Refusal :=
  .next (s.matrixAlone core (word58 0x00 args) fun _ s => s)

/-- MX.LOAD (R69 to R71, R77, R80). -/
def execMxLoad (core : CoreId) (args : BitVec 58) (s : State) : Host.Outcome State Fault Refusal :=
  .next (s.matrixAlone core (word58 0x01 args) fun off s => s.runLoad core (word58 0x01 args) off)

/-- The last bytes of a shadow load arrive (R77). -/
def execShadowLoadDone (core : CoreId) (s : State) : Host.Outcome State Fault Refusal := .next (s.shadowDone core)

/-- MX.MUL (R46 to R51, R72, R75, R78). -/
def execMxMul (core : CoreId) (args : BitVec 58) (s : State) : Host.Outcome State Fault Refusal :=
  .next (s.matrixAlone core (word58 0x02 args) fun off s => s.runMul core (word58 0x02 args) off)

/-- MX.STORE (R73). -/
def execMxStore (core : CoreId) (args : BitVec 58) (s : State) : Host.Outcome State Fault Refusal :=
  .next (s.matrixAlone core (word58 0x03 args) fun off s => s.runStore core (word58 0x03 args) off)

/-- MX.SETA (R74). -/
def execMxSeta (core : CoreId) (args : BitVec 58) (s : State) : Host.Outcome State Fault Refusal :=
  .next (s.matrixAlone core (word58 0x04 args) fun _ s => s.runSeta core (word58 0x04 args))

/-- MX.SETS (R74). -/
def execMxSets (core : CoreId) (args : BitVec 58) (s : State) : Host.Outcome State Fault Refusal :=
  .next (s.matrixAlone core (word58 0x05 args) fun _ s => s.runMxSets core (word58 0x05 args))

/-- MX.TRSUM.R: the sums of rows (R120 to R122). -/
def execMxTrsumR (core : CoreId) (args : BitVec 58) (s : State) : Host.Outcome State Fault Refusal :=
  .next (s.matrixAlone core (word58 0x10 args) fun off s => s.runTileAxis core false false (word58 0x10 args) off)

/-- MX.TRSUM.C: the sums of columns (R120 to R122). -/
def execMxTrsumC (core : CoreId) (args : BitVec 58) (s : State) : Host.Outcome State Fault Refusal :=
  .next (s.matrixAlone core (word58 0x11 args) fun off s => s.runTileAxis core true false (word58 0x11 args) off)

/-- MX.TRMAX.R: the maxima of rows (R120 to R122). -/
def execMxTrmaxR (core : CoreId) (args : BitVec 58) (s : State) : Host.Outcome State Fault Refusal :=
  .next (s.matrixAlone core (word58 0x12 args) fun off s => s.runTileAxis core false true (word58 0x12 args) off)

/-- MX.TRMAX.C: the maxima of columns (R120 to R122). -/
def execMxTrmaxC (core : CoreId) (args : BitVec 58) (s : State) : Host.Outcome State Fault Refusal :=
  .next (s.matrixAlone core (word58 0x13 args) fun off s => s.runTileAxis core true true (word58 0x13 args) off)

end Sys2Proof.Machine
end

