-- ==== Sys2Proof/Machine/SecurityOps.lean ====
section
/-! DEFINITION. Keys, firmware, attestation and presence: the operations behind SEC_CTRL, FW_STAGE, FW_ACTIVATE, ATTEST and
PRESENCE_CHALLENGE (R453 to R469). -/

namespace Sys2Proof.Machine

open Sys2Proof

-- identity and attestation

/-- GEN_IDENT (R11). -/
def State.genIdent (s : State) : W32 :=
  let b := s.fuses.grade = .b
  BitVec.ofNat 32 (s.stepping * 2 ^ 24 + s.fuses.grade.code * 2 ^ 20
    + (if b then s.fuses.fusedA.toNat * 2 ^ 16 + s.fuses.fusedB.toNat * 2 ^ 12 + 2048 else 0))

/-- The digest of a key set over its slots in order (R461). -/
def setDigest (l : List (Option PubKey)) : Bytes :=
  (sha512 (l.flatMap fun k => match k with | some k => keyId k.x k.y | none => List.replicate 8 0#8)).take 8

/-- The 64 slots of a volatile key set. -/
def keySlots (t : Tbl (Option PubKey)) : List (Option PubKey) := (List.range 64).map (Tbl.get none t)

/-- Die `d`'s part of a report (R461). -/
def State.attestDie (s : State) (d : Nat) : Bytes :=
  let c := s.banks d 0
  let o := s.banks d 1
  let meas (b : Bytes) : Bytes := b.take 64 ++ List.replicate (64 - b.length) 0#8
  meas c.active.meas ++ meas o.active.meas ++ leBytes 4 c.active.svn ++ leBytes 4 o.active.svn
    ++ [BitVec.ofNat 8 (c.activeBank.toNat + 2 * o.activeBank.toNat)] ++ List.replicate 23 0#8

/-- A digest in 64 bytes. -/
def digest64 (b : Bytes) : Bytes := b.take 64 ++ List.replicate (64 - b.length) 0#8

/-- A slot entry of a report (R461). -/
def slotReport (i : Nat) (x : Slot) : Bytes :=
  [BitVec.ofNat 8 i, BitVec.ofNat 8 x.state.code, BitVec.ofNat 8 x.tenant, BitVec.ofNat 8 x.kind, 0, 0, 0, 0]
    ++ digest64 x.digest ++ List.replicate 8 0#8

/-- An edition entry of a report (R461). -/
def editionReport (i : Nat) (e : Edition) : Bytes :=
  [BitVec.ofNat 8 i, BitVec.ofNat 8 e.slot, BitVec.ofNat 8 e.state.code, BitVec.ofNat 8 e.tenant, 0, 0, 0, 0]
    ++ digest64 e.digest ++ leBytes 8 e.id.toNat

/-- The signed block of a report that die `d`'s curator makes (R461). -/
def State.attestBlock (s : State) (d : Nat) (nonce : Bytes) : Bytes :=
  let slots := s.slots.filter fun e => decide (e.2.state ≠ .empty)
  let eds := s.editions.filter fun e => decide (e.2.state ≠ .free)
  let flags := s.charter.lease.code + 4 * s.fuses.sealBroken.toNat + 8 * s.sec.debugUnlocked.toNat + 16 * s.gen.archivalOnly.toNat
  [0x41#8, 0x54#8, 0x53#8, 0x54#8, 1#8, 0#8, BitVec.ofNat 8 slots.length, BitVec.ofNat 8 eds.length] ++ nonce
    ++ leBytes 8 (s.dieLedger d).now.toNat ++ s.serialDigest ++ leBytes 4 s.genIdent.toNat
    ++ leBytes 2 (s.fab.device.toNat + 4096 * s.fab.idValid.toNat) ++ [BitVec.ofNat 8 flags, 0] ++ leBytes 4 s.charter.epoch.toNat
    ++ leBytes 4 s.sec.chain.length ++ s.gen.colmap ++ List.replicate 16 0#8 ++ s.attestDie 0 ++ s.attestDie 1
    ++ setDigest s.sec.fwKeys ++ setDigest (keySlots s.sec.folioKeys) ++ setDigest (keySlots s.sec.pubKeys)
    ++ (if s.sec.chain = [] then List.replicate 8 0#8 else (sha512 s.sec.chain).take 8) ++ List.replicate 32 0#8
    ++ (slots.flatMap fun e => slotReport e.1 e.2) ++ eds.flatMap fun e => editionReport e.1 e.2

/-- The colophon of a block signed by the device identity key (R256, R460): the signature's bytes are free. -/
def State.identityColophon (s : State) (block : Bytes) : Bytes :=
  let k := Config.identityKey s.fuses.serial
  let sig := (Config.sign block).take 132
  [0x43#8, 0x4F#8, 0x4C#8, 0x50#8, 1#8, 0#8, 1#8, 0#8] ++ keyId k.1 k.2 ++ leBytes 8 block.length
    ++ sig ++ List.replicate (132 - sig.length) 0#8 ++ List.replicate 4 0#8

/-- ATTEST (R461, R462). -/
def attestOp (port : Nat) (b : Bytes) (s : State) : State × Answer :=
  if b.length ≠ 64 then refuse (Reply.err stMalformed) s
  else if !s.sec.identity then refuse (Reply.err stNotPermitted) s
  else if s.dieBusy port (1 - port) then refuse (Reply.err stBusy) s
  else
    let block := s.attestBlock port b
    (s, .done (Reply.ok (block ++ s.identityColophon block ++ s.sec.chain)))

-- firmware

/-- The header fields of a firmware image that are invalid by themselves (R456, R457 order 1). -/
def fwHeaderBad (target : Nat) (h : Bytes) : Bool :=
  decide (h.take 6 ≠ [0x46#8, 0x57#8, 0x49#8, 0x4D#8, 1#8, 0#8]) || decide (fldAt h 6 1 ≠ target) || !zeroAt h 7 1
    || decide (fldAt h 8 4 < 1) || decide (64 < fldAt h 8 4)
    || (decide (target = 1) && (decide (fldAt h 12 4 ≠ 0) || decide (fldAt h 16 4 ≠ 0)))
    || !zeroAt h 20 4 || decide ((if target = 0 then 4194304 else 524288) < fldAt h 24 8) || !zeroAt h 96 32

/-- The image that a header and its measurement make of a bank. -/
def fwImage (h : Bytes) : FwImage := ⟨fldAt h 8 4, fldAt h 12 4, fldAt h 16 4, sha512 h⟩

/-- The stream's length, as far as it has come, differs from what its header gives (R457 order 1). -/
def stageLengthBad (b : Bytes) (last : Bool) : Bool :=
  let want := 8 + 128 + fldAt b 32 8 + 160
  decide (want < b.length) || (last && decide (b.length ≠ want))

/-- The refusals of FW_STAGE before it writes its bank (R457 orders 1 to 3): from the fixed part and the header, and
from the stream's length where that is known. -/
def State.stageRefused (s : State) (port : Nat) (b : Bytes) (last : Bool) : Option Reply :=
  let die := fldAt b 0 1
  let target := fldAt b 1 1
  if b.length < 136 ∨ 1 < die ∨ 1 < target ∨ zeroAt b 2 6 = false ∨ fwHeaderBad target ((b.drop 8).take 128) = true
      ∨ stageLengthBad b last = true then
    some (Reply.err stMalformed)
  else if !s.holds port then some (Reply.err stNotPermitted)
  else if s.dieBusy port die then some (Reply.err stBusy)
  else none

/-- The inactive bank has no valid image once its writing has begun (R457). -/
def State.beginStage (s : State) (b : Bytes) : State :=
  s.modBanks (fldAt b 0 1) (fldAt b 1 1) fun x => { x with other := none }

/-- The checks of R457 that the whole stream decides, and the staged image. -/
def State.endStage (s : State) (b : Bytes) : State × Answer :=
  let die := fldAt b 0 1
  let target := fldAt b 1 1
  let image := b.drop 8
  let h := image.take 128
  let n := fldAt h 24 8
  let body := (image.drop 128).take n
  if stageLengthBad b true then refuse (Reply.err stMalformed) s
  else match colophonFault s.sec.fwSlots none h (image.drop (128 + n)) with
    | some r => refuse r s
    | none =>
      if (fwImage h).svn < (s.banks die target).floor then refuse (Reply.err stNotPermitted) s
      else if sha512 body ≠ (h.drop 32).take 64 then refuse (Reply.err stIntegrity) s
      else
        ((s.modBanks die target fun x => { x with other := some (fwImage h) }).raise (dieSecPage die) 0 [BitVec.ofNat 8 target],
         .done (Reply.ok []))

/-- FW_STAGE as a whole (R457). -/
def fwStageOp (port : Nat) (b : Bytes) (s : State) : State × Answer :=
  match s.stageRefused port b true with
  | some r => refuse r s
  | none => (s.beginStage b).endStage b

/-- The banks of a die and target change places (R458). -/
def State.swapBanks (s : State) (d target : Nat) (image : FwImage) : State :=
  s.modBanks d target fun b => { b with activeBank := !b.activeBank, active := image, other := some b.active, bootFails := 0 }

/-- FW_ACTIVATE (R458). -/
def fwActivateOp (port : Nat) (tag : BitVec 32) (b : Bytes) (s : State) : State × Answer :=
  let die := fldAt b 0 1
  let target := fldAt b 1 1
  if b.length ≠ 2 ∨ 1 < die ∨ 1 < target then refuse (Reply.err stMalformed) s
  else if !s.holds port then refuse (Reply.err stNotPermitted) s
  else match (s.banks die target).other with
    | none => refuse (Reply.wrong 0xA 0 2 0) s
    | some image =>
      if target = 1 then (((s.swapBanks die 1 image).provenBank die 1), .done (Reply.ok []))
      else
        let peer := (s.banks (1 - die) 0).active.svn
        if s.holds die || decide (peer < image.peerMin) || decide (image.peerMax < peer) then refuse (Reply.err stNotPermitted) s
        else if s.dieBusy port die then refuse (Reply.err stBusy) s
        else
          let s := (s.swapBanks die 0 image).restartCurator die 2
          (s.modCurator die fun x => { x with fresh := true, fellBack := false, activation := some (port, tag) },
           .waits (.activate die))

-- presence

/-- PRESENCE_CHALLENGE (R465). -/
def presenceOp (port : Nat) (b : Bytes) (s : State) : State × Answer :=
  let op := fldAt b 0 1
  if b.length ≠ 1 ∨ op = 0 ∨ 3 < op then refuse (Reply.err stMalformed) s
  else if !s.holds port then refuse (Reply.err stNotPermitted) s
  else if s.sec.presence ≠ .none then refuse (Reply.wrong 0xB s.sec.presence.code 1 0) s
  else if op = 3 ∧ s.fuses.sealBroken = false then refuse (Reply.err stNotPermitted) s
  else
    let last := (s.dieLedger port).now + 480000000000#64
    ({ s with sec := { s.sec with presence := .opened, operation := BitVec.ofNat 3 op, windowEnd := last } },
     .done (Reply.ok (leBytes 8 last.toNat)))

/-- The presence window closes (R465). -/
def State.closePresence (s : State) : State := { s with sec := { s.sec with presence := .none, operation := 0 } }

/-- A window of `op` closes with the command that needed it (R465). -/
def State.usePresence (s : State) (op : Nat) : State :=
  if s.sec.presence ≠ .none ∧ s.sec.operation.toNat = op then s.closePresence else s

/-- Presence is shown for `op`. -/
def State.present (s : State) (op : Nat) : Bool := decide (s.sec.presence = .shown) && decide (s.sec.operation.toNat = op)

/-- Bytes of the staging buffer (R472). -/
def SecPage.staged (x : SecPage) (o n : Nat) : Bytes := x.stage.read o n

/-- The key at an offset of the staging buffer. -/
def SecPage.keyAt (x : SecPage) (o : Nat) : PubKey := ⟨beNat (x.staged o 66), beNat (x.staged (o + 66) 66)⟩

/-- The status of a signed record in the staging buffer after its layout: presence, then the colophon and its signature
(R256, R466). A record whose colophon is malformed leaves the window (R465). -/
def State.recordFault (s : State) (op len : Nat) : State × Option Nat :=
  let c := s.sec.staged len 160
  let bad := (colophonFault s.sec.fwSlots none (s.sec.staged 0 len) c).map Reply.status
  (if (readColophon c len).isSome then s.usePresence op else s, if !s.present op then some stPresence else bad)

/-- ROTATE_FWKEYS (R466): the key set in the staging buffer replaces the firmware-signing set. -/
def State.rotateKeys (s : State) : State × Reply :=
  let x := s.sec
  let n := leAt (x.staged 8 1) 0 1
  let keys := (List.range n).map fun i => x.keyAt (16 + 136 * i)
  let bad := decide (x.staged 0 4 ≠ [0x4B#8, 0x53#8, 0x45#8, 0x54#8]) || decide (leAt (x.staged 4 4) 0 4 ≠ x.fwVersion + 1)
    || decide (n = 0) || decide (4 < n) || !zeroAt (x.staged 9 7) 0 7 || keys.any (fun k => !onCurve k.x k.y)
    || (List.range n).any fun i => !zeroAt (x.staged (148 + 136 * i) 4) 0 4
  if bad then (s, Reply.err stMalformed)
  else match s.recordFault 1 (16 + 136 * n) with
    | (s, some st) => (s, Reply.err st)
    | (s, none) =>
      if 32 ≤ s.sec.fwVersion then (s, Reply.err stNoResource)
      else
        let all := keys.map some ++ List.replicate (4 - n) none
        (({ s with sec := { s.sec with fwKeys := all, fwVersion := s.sec.fwVersion + 1 } }).raise0 secPage 4, Reply.ok [])

/-- ENROLL_CHAIN (R466): the chain in the staging buffer replaces the enrolled one. -/
def State.enrollChain (s : State) : State × Reply :=
  let x := s.sec
  let n := leAt (x.staged 4 4) 0 4
  if x.staged 0 4 ≠ [0x41#8, 0x43#8, 0x48#8, 0x4E#8] ∨ n = 0 ∨ 16384 < n ∨ zeroAt (x.staged 8 8) 0 8 = false then
    (s, Reply.err stMalformed)
  else match s.recordFault 2 (16 + n) with
    | (s, some st) => (s, Reply.err st)
    | (s, none) => (({ s with sec := { s.sec with chain := s.sec.staged 16 n } }).raise0 secPage 5, Reply.ok [])

/-- Sets the key of the slot that SEC_KSEL selects. -/
def SecPage.setKey (x : SecPage) (k : Option PubKey) : SecPage :=
  if x.kset then { x with pubKeys := Tbl.put none x.pubKeys x.kindex.toNat k }
  else { x with folioKeys := Tbl.put none x.folioKeys x.kindex.toNat k }

/-- The key of the slot that SEC_KSEL selects. -/
def SecPage.selected (x : SecPage) : Option PubKey := Tbl.get none (if x.kset then x.pubKeys else x.folioKeys) x.kindex.toNat

/-- INSTALL_KEY (R454). -/
def State.installKey (s : State) : State × Reply :=
  let k := s.sec.keyAt 0
  let bare := s.sec.setKey none
  let others := (bare.folioKeys ++ bare.pubKeys).filterMap Prod.snd
  if !onCurve k.x k.y || others.any (fun o => keyId o.x o.y = keyId k.x k.y) then (s, Reply.err stMalformed)
  else ({ s with sec := s.sec.setKey (some k) }, Reply.ok [])

/-- REMOVE_KEY (R454). -/
def State.removeKey (s : State) : State × Reply := ({ s with sec := s.sec.setKey none }, Reply.ok [])

/-- The operation of SEC_CTRL.OP (R472). -/
def State.secOperation (s : State) (op : Nat) : State × Reply :=
  match op with
  | 1 => s.rotateKeys
  | 2 => s.enrollChain
  | 3 => s.installKey
  | 4 => s.removeKey
  | _ => (s, Reply.err stMalformed)

end Sys2Proof.Machine
end

