-- ==== Sys2Proof/Machine/Security.lean ====
section
/-! DEFINITION. The meanings of the rows on attestation, firmware and presence (chapter "Curators, charter and security"). -/

namespace Sys2Proof.Machine

open Sys2Proof

/-- ATTEST (R461, R462). -/
def execAttest (port : TPort) (tag : BitVec 32) (payload : Bytes) (s : State) : Host.Outcome State Fault Refusal :=
  .next (s.runCommand port tag 0x40 (attestOp port payload))

/-- FW_STAGE (R457). -/
def execFwStage (port : TPort) (tag : BitVec 32) (payload : Bytes) (s : State) : Host.Outcome State Fault Refusal :=
  .next (s.runCommand port tag 0x41 (fwStageOp port payload))

/-- FW_ACTIVATE (R458). -/
def execFwActivate (port : TPort) (tag : BitVec 32) (payload : Bytes) (s : State) : Host.Outcome State Fault Refusal :=
  .next (s.runCommand port tag 0x42 (fwActivateOp port tag payload))

/-- PRESENCE_CHALLENGE (R465). -/
def execPresenceChallenge (port : TPort) (tag : BitVec 32) (payload : Bytes) (s : State) :
    Host.Outcome State Fault Refusal :=
  .next (s.runCommand port tag 0x43 (presenceOp port payload))

/-- A counted press of PRESENCE (R463, R465); nothing without power. -/
def execPresencePress (s : State) : Host.Outcome State Fault Refusal :=
  .next (if s.power.railsOn = false then s
    else
      let s := s.raise0 secPage 0
      if s.sec.presence = .opened then ({ s with sec := { s.sec with presence := .shown } }).raise0 secPage 1 else s)

/-- The end of a presence window (R465); nothing before it. -/
def execPresenceExpired (s : State) : Host.Outcome State Fault Refusal :=
  let p := s.sec.presence
  .next (if p = .none ∨ s.now.toNat < s.sec.windowEnd.toNat then s
    else if p = .opened then s.closePresence.raise0 secPage 2
    else s.closePresence)

/-- PRESENCE has been held for 5 s inside a window opened for the identity wipe, the seal broken (R464, R469); nothing
otherwise. -/
def execIdentityWiped (s : State) : Host.Outcome State Fault Refusal :=
  .next (if s.sec.presence = .none ∨ s.sec.operation ≠ 3 ∨ s.fuses.sealBroken = false then s
    else
      ({ s with
        fuses := { s.fuses with identityWiped := true }
        sec := { s.sec with fwKeys := List.replicate 4 none, chain := [], identity := false } }).raise0 secPage 6)

end Sys2Proof.Machine
end

