-- ==== Sys2Proof/Machine/Power.lean ====
section
/-! DEFINITION. Input power, trips, module reset and bring-up (chapter "Bring-up, power and the module"): what survives the loss
of the package's state, and the meanings of the rows from POWER_GOOD to SERVICE_BEGIN. -/

namespace Sys2Proof.Machine

open Sys2Proof

-- the loss of package state

/-- SHF_CTRL.MAPOUT alone survives of the clusters (R491, R502). -/
def keptClusters (t : Tbl Cluster) : Tbl Cluster :=
  (t.filter fun e => e.2.mapout).map fun e => (e.1, { Cluster.reset with mapout := true })

/-- Which cartridges are fitted (R494). -/
def keptCartridges (t : Tbl Cartridge) : Tbl Cartridge :=
  (t.filter fun e => !e.2.present).map fun e => (e.1, { Cartridge.reset with present := false })

/-- A die's banks at its next power-good (R426, R473). -/
def keptBanks (t : Tbl FwBanks) : Tbl FwBanks := (t.map fun e => (e.1, { e.2 with bootFails := 0 })).filter fun e => e.2 ≠ FwBanks.shipped

/-- Whether a die's active bank is newly activated and has yet to boot (R459), which the flash keeps. -/
def keptCurators (t : Tbl Curator) : Tbl Curator :=
  (t.filter fun e => e.2.fresh).map fun e => (e.1, { Curator.reset with fresh := true })

/-- What R502 lets survive, with the state of the SEAL loop, which SEAL_STAT repeats (R506): fuses, the non-volatile
stores, the held registers; every other item is at its reset value (R426, R501, R505). -/
def State.packageLoss (s : State) : State :=
  { State.reset with
    fuses := s.fuses, clusters := keptClusters s.clusters, cartridges := keptCartridges s.cartridges
    win := { WinPage.reset with floor := s.win.stored, stored := s.win.stored }
    fwCur := keptBanks s.fwCur, fwOpt := keptBanks s.fwOpt
    sec := { SecPage.reset with fwKeys := s.sec.fwKeys, fwVersion := s.sec.fwVersion, chain := s.sec.chain }
    power := { Power.reset with inputOn := s.power.inputOn, risen := s.power.risen, tripped := s.power.tripped
                                lastTrip := s.power.lastTrip, tripDetail := s.power.tripDetail, trips := s.power.trips
                                sealOpen := s.power.sealOpen }
    curators := keptCurators s.curators
    freeCtr := s.freeCtr, pending := s.pending }

/-- The input falls below 12 V: the held registers read 0 too, and no trip stays latched (R501, R522). -/
def State.inputLoss (s : State) : State :=
  let s := s.packageLoss
  { s with power := { Power.reset with inputOn := false, risen := false, sealOpen := s.power.sealOpen } }

/-- Input power is removed (R5, R502). -/
def execInputPowerLoss (s : State) : Host.Outcome State Fault Refusal := .next s.inputLoss

/-- The input rises to `vinMv` mV (R497, R511): above 35.0 V the power controller starts and its page becomes available;
nothing at or below it. -/
def execInputPowerApplied (vinMv : Nat) (s : State) : Host.Outcome State Fault Refusal :=
  if 48000 < vinMv then .fault .absoluteMaximum
  else .next (if vinMv ≤ 35000 then s else { s with power := { s.power with inputOn := true, risen := true } })

/-- RESET_N low for a number of µs and released (R505): between 10 µs and 1 ms the outcome is open. Under a latched trip a
release after 1 ms is what TRIP_CLEAR heeds (R501). -/
def execResetN (lowMicros : Nat) (s : State) : Host.Outcome State Fault Refusal :=
  .next (if s.power.inputOn = false ∨ lowMicros < 10 then s
    else if 1000 ≤ lowMicros then
      let s := s.packageLoss
      { s with power := { s.power with released := s.power.tripped.isSome } }
    else if Config.freeBit s.freeCtr then s.draw.2.packageLoss
    else s.draw.2)

-- trips

/-- Cause code, DETAIL and latching of a trip (R500). -/
def TripCause.code : TripCause → Nat
  | .overvoltage => 1
  | .undervoltage => 2
  | .overcurrent => 3
  | .short => 4
  | .overpower => 5
  | .junction _ => 6
  | .coolant => 7

def TripCause.detail : TripCause → Nat
  | .junction r => r.val
  | _ => 0

def TripCause.latched : TripCause → Bool
  | .undervoltage => false
  | _ => true

/-- The trips after which a hot coolant outlet keeps RESET_N from clearing them (R501). -/
def TripCause.hot : TripCause → Bool
  | .junction _ => true
  | .coolant => true
  | _ => false

/-- A protective condition has persisted (R500, R501): after UNDERVOLTAGE a start needs the input to rise above 35.0 V
anew; nothing without input power or while a trip is latched, and no OVERPOWER before 100 ticks at k_power 8. -/
def execTrip (cause : TripCause) (s : State) : Host.Outcome State Fault Refusal :=
  .next (if s.power.inputOn = false ∨ s.power.tripped.isSome = true ∨ (cause = .overpower ∧ s.power.kPowerTicks < 100) then s
    else
      let s := s.packageLoss
      { s with power := { s.power with
          tripped := if TripCause.latched cause then some cause else none
          risen := s.power.risen && TripCause.latched cause
          lastTrip := BitVec.ofNat 8 (TripCause.code cause)
          tripDetail := BitVec.ofNat 8 (TripCause.detail cause), trips := sat32 s.power.trips 1 } })

/-- A latched trip clears: on the release of RESET_N after 1 ms, with the reading of the coolant outlet in units of 0.1 °C,
above 60.0 °C of which the power controller ignores the release after JUNCTION or COOLANT; or, where there is no such
release, as the input falls below 12 V (R501); nothing while no trip is latched. -/
def execTripClear (outlet : Option Nat) (s : State) : Host.Outcome State Fault Refusal :=
  .next (match s.power.tripped, outlet with
    | none, _ => s
    | some _, none => s.inputLoss
    | some cause, some reading =>
      if !s.power.released then s
      else if TripCause.hot cause && decide (600 < reading) then { s with power := { s.power with released := false } }
      else { s with power := { s.power with tripped := none, released := false } })

-- bring-up

/-- PWR_GOOD is released (R447, R460, R463, R467, R468, R511): jumper and seal are sensed, the identity key is derived;
nothing before the input has risen above 35.0 V, while the rails are on or while a trip is latched. -/
def execPowerGood (sense : PowerSense) (s : State) : Host.Outcome State Fault Refusal :=
  .next (if s.power.inputOn = false ∨ s.power.risen = false ∨ s.power.railsOn = true ∨ s.power.tripped.isSome = true then s
    else
      let s := { s with
        power := { s.power with railsOn := true, debugJumper := sense.debug }
        charter := { s.charter with prefB := sense.prefB }
        sec := { s.sec with debugUnlocked := sense.debug, identity := !s.fuses.identityWiped } }
      s.senseSeal sense.sealOpen)

/-- Self-test on one die has judged cluster `k` (R119, R154, R512): each reduction unit shows its outcome, a cluster that
fails goes to ISOLATED. -/
def State.judgeCluster (s : State) (clusterPass : BitVec 16) (rduPass : BitVec 128) (k : Nat) : State :=
  if s.clusterIn k .diag = false then s
  else
    let s := (clusterCores k).foldl (fun (s : State) c =>
      let ok := rduPass.getLsbD (c % 128)
      let s := s.modRd c fun u => { u with tested := true, pass := ok }
      if ok then s else s.raise0 (rduPage c) 1) s
    let pass := clusterPass.getLsbD (k % 16) && !s.gen.alignFailed.getLsbD k
      && (clusterCores k).all fun c => (s.core c).rd.pass
    if pass then s else (clusterCores k).foldl (fun (s : State) c => s.setMode c .isolated) s

/-- The clearing of every shelf and every carrel begins (R181, R511). -/
def State.beginClearing (s : State) : State :=
  let s := (List.range 256).foldl (fun (s : State) i =>
    s.modPart (i / 8) (i % 8) fun x => { x with kind := .clearing, owner := none, next := .free, nextOwner := none, hash := none }) s
  s.allCores.foldl (fun (s : State) c => s.modCar c fun x => { x with clearing := true, nextTenant := none }) s

/-- Self-test ends on a die (R512); once it has ended on both, the digest is computed and clearing begins. Nothing
before it has begun there, or a second time. -/
def execSelftestDone (die : Die) (clusterPass : BitVec 16) (rduPass : BitVec 128) (s : State) :
    Host.Outcome State Fault Refusal :=
  let done := if die.val = 0 then s.gen.selftestA else s.gen.selftestB
  .next (if s.charter.granted = false ∨ s.curatorUp die = false ∨ done = true then s
    else
      let s := ((List.range 16).map fun i => 16 * die.val + i).foldl (fun (s : State) k =>
        s.judgeCluster clusterPass rduPass k) s
      let s := { s with gen := if die.val = 0 then { s.gen with selftestA := true } else { s.gen with selftestB := true } }
      if s.gen.selftestA && s.gen.selftestB then (s.setBoot bootSelftest).redigest.beginClearing else s)

/-- The reading room begins (R468, R513); nothing before the clearing has ended, or a second time. -/
def execReadingRoomBegin (s : State) : Host.Outcome State Fault Refusal :=
  .next (if s.booted bootCleared = false ∨ s.booted bootReadingRoom = true then s
    else
      let s := s.setBoot bootReadingRoom
      let s := { s with
        gen := { s.gen with readingRoom := true }
        power := { s.power with rrMs := BitVec.ofNat 16 (min 65535 s.power.sinceGood) } }
      let s := [0, 1].foldl (fun (s : State) p =>
        s.modPort p fun t =>
          if t.enable ∧ t.state = .down then ({ t with state := .training } : TsdPort).sendWord true else t) s
      let s := if s.sec.debugUnlocked then s.raise0 secPage 7 else s
      s.optics)

/-- The conditions of R515. -/
def State.serviceReady (s : State) : Bool :=
  (s.curator 0).bootedOnce && (s.curator 1).bootedOnce && decide (s.charter.lease ≠ .vacant)
    && s.booted bootSelftest && s.booted bootCleared && s.booted bootOptics
    && (s.dieClock 0).netOk && (s.dieClock 1).netOk && (s.dieClock 0).d2dOk && (s.dieClock 1).d2dOk && !s.gen.d2dDown
    && s.slots.all fun e => decide (e.2.state = .empty)

/-- The module leaves the reading room (R515); nothing unless every condition holds. -/
def execServiceBegin (s : State) : Host.Outcome State Fault Refusal :=
  .next (if s.booted bootReadingRoom = false ∨ s.gen.service = true ∨ s.serviceReady = false then s
    else
      let s := s.allCores.foldl (fun (s : State) c => if (s.core c).sq.mode = .diag then s.setMode c .service else s) s
      let s := { s with
        gen := { s.gen with service := true, readingRoom := false, serviceLedger := s.now }
        power := { s.power with serviceMs := BitVec.ofNat 16 (min 65535 s.power.sinceGood) } }
      (s.setBoot bootService).raise0 genPage 0)

end Sys2Proof.Machine
end

