-- ==== Sys2Proof/Machine/Reduction.lean ====
section
/-! DEFINITION. The meanings of the reduction words (chapter "Vector engine and reduction unit"): each runs its word on the core, as
BUNDLE_ISSUE runs it in the reduction slot. -/

namespace Sys2Proof.Machine

open Sys2Proof

/-- RD.NOP: nothing, whatever its bits (R113, R119). -/
def execRdNop (core : CoreId) (args : BitVec 58) (s : State) : Host.Outcome State Fault Refusal :=
  .next (s.reductionAlone core (word58 0x00 args))

/-- RD.SUM: sums of groups (R112 to R114). -/
def execRdSum (core : CoreId) (args : BitVec 58) (s : State) : Host.Outcome State Fault Refusal :=
  .next (s.reductionAlone core (word58 0x01 args))

/-- RD.MAX: maxima of groups (R112 to R114). -/
def execRdMax (core : CoreId) (args : BitVec 58) (s : State) : Host.Outcome State Fault Refusal :=
  .next (s.reductionAlone core (word58 0x02 args))

/-- RD.ARGMAX: maxima of groups with their indices (R115). -/
def execRdArgmax (core : CoreId) (args : BitVec 58) (s : State) : Host.Outcome State Fault Refusal :=
  .next (s.reductionAlone core (word58 0x03 args))

/-- RD.SUMSQ: sums of squares (R113, R114). -/
def execRdSumsq (core : CoreId) (args : BitVec 58) (s : State) : Host.Outcome State Fault Refusal :=
  .next (s.reductionAlone core (word58 0x04 args))

/-- RD.LSE: the maximum and the sum of exponentials (R116). -/
def execRdLse (core : CoreId) (args : BitVec 58) (s : State) : Host.Outcome State Fault Refusal :=
  .next (s.reductionAlone core (word58 0x05 args))

end Sys2Proof.Machine
end

