-- ==== Sys2Proof/Machine/RegLayout.lean ====
section
/-! DEFINITION. The register pages: their numbers and instances (R423, R424), the event bits and timeouts that each page
defines, the offsets that a layout lists and the bits that may be written (R13, R14, R425, R427, R431). -/

namespace Sys2Proof.Machine

open Sys2Proof

/-- A page instance (R424), by die, Tsudan port, fabric port, shelf or module core number. -/
inductive Page where
  | gen | clk | ldg | lat | win | acc | adm | cat | gov | fab | opt | cht | sec | pwr
  | dieClk (d : Nat) | dieLdg (d : Nat) | dieAcc (d : Nat) | dieCht (d : Nat) | dieSec (d : Nat) | evl (d : Nat)
  | tsd (p : Nat) | fport (n : Nat) | shf (k : Nat)
  | core (c : Nat) | mxe (c : Nat) | vec (c : Nat) | rdu (c : Nat) | xfe (c : Nat) | car (c : Nat)
deriving DecidableEq, Repr

/-- The module pages by index (R424). -/
def modulePages : List Page := [.gen, .clk, .ldg, .lat, .win, .acc, .adm, .cat, .gov, .fab, .opt, .cht, .sec, .pwr]

/-- The page of a die at an index (R424). -/
def diePage (d i : Nat) : Option Page :=
  if i = 1 then some (.dieClk d)
  else if i = 2 then some (.dieLdg d)
  else if i = 5 then some (.dieAcc d)
  else if i = 0xB then some (.dieCht d)
  else if i = 0xC then some (.dieSec d)
  else if i = 0xE then some (.evl d)
  else if i = 0x10 then some (.tsd d)
  else if 0x20 ≤ i ∧ i < 0x40 then some (.fport (32 * d + (i - 0x20)))
  else if 0x100 ≤ i ∧ i < 0x110 then some (.shf (16 * d + (i - 0x100)))
  else if 0x1000 ≤ i ∧ i < 0x1600 ∧ i % 256 < 128 then
    let c := 128 * d + i % 256
    [Page.core c, .mxe c, .vec c, .rdu c, .xfe c, .car c][i / 256 - 16]?
  else none

/-- The page of a page number, address bits [31:12] (R423, R424). -/
def Page.ofNumber (n : Nat) : Option Page :=
  if n / 0x10000 = 1 then modulePages[n % 0x10000]?
  else if n / 0x10000 = 2 ∨ n / 0x10000 = 3 then diePage (n / 0x10000 - 2) (n % 0x10000)
  else none

/-- The page number of a page. -/
def Page.number : Page → Nat
  | .gen => genPage | .clk => clkPage | .ldg => ldgPage | .lat => latPage | .win => winPage | .acc => accPage
  | .adm => admPage | .cat => catPage | .gov => govPage | .fab => fabPage | .opt => optPage | .cht => chtPage
  | .sec => secPage | .pwr => pwrPage
  | .dieClk d => dieClkPage d | .dieLdg d => dieLdgPage d | .dieAcc d => dieAccPage d | .dieCht d => dieChtPage d
  | .dieSec d => dieSecPage d | .evl d => evlPage d | .tsd p => tsdPage p | .fport n => fportPage n
  | .shf k => shfPage k | .core c => corePage c | .mxe c => mxePage c | .vec c => vecPage c | .rdu c => rduPage c
  | .xfe c => xfePage c | .car c => carPage c

/-- BLOCK code and INSTANCE of PAGE_ID (R424, R427). -/
def Page.ident : Page → Nat × Nat
  | .gen => (1, 0) | .clk => (2, 0) | .ldg => (3, 0) | .lat => (0x16, 0) | .win => (0xB, 0) | .acc => (0x11, 0)
  | .adm => (0xF, 0) | .cat => (0xE, 0) | .gov => (0x10, 0) | .fab => (0xC, 0) | .opt => (0x15, 0) | .cht => (0x12, 0)
  | .sec => (0x13, 0) | .pwr => (0x14, 0)
  | .dieClk d => (2, d) | .dieLdg d => (3, d) | .dieAcc d => (0x11, d) | .dieCht d => (0x12, d) | .dieSec d => (0x13, d)
  | .evl d => (0x17, d) | .tsd p => (0xD, p) | .fport n => (0xC, n) | .shf k => (0xA, k) | .core c => (4, c)
  | .mxe c => (5, c) | .vec c => (6, c) | .rdu c => (7, c) | .xfe c => (8, c) | .car c => (9, c)

/-- The module core whose page it is (R425). -/
def Page.coreOf : Page → Option Nat
  | .core c => some c | .mxe c => some c | .vec c => some c | .rdu c => some c | .xfe c => some c | .car c => some c
  | _ => none

/-- The die in whose region a page lies; none for region 0x1. -/
def Page.die (p : Page) : Option Nat :=
  if p.number / 0x10000 = 1 then none else some (p.number / 0x10000 - 2)

/-- The event bits that a page defines (R190, R218, R309, R310, R360, R361, R391 to R393, R422, R433 to R441, R470 to
R473, R523). -/
def Page.events : Page → Nat
  | .gen => 1 | .clk => 3 | .ldg => 7 | .lat => 1 | .win => 0xF | .acc => 0x3F | .adm => 3 | .cat => 1 | .gov => 1
  | .fab => 3 | .opt => 0x1F | .cht => 3 | .sec => 0xFF | .pwr => 0x3F
  | .dieClk _ => 0xF | .dieLdg _ => 0 | .dieAcc _ => 7 | .dieCht _ => 7 | .dieSec _ => 3 | .evl _ => 1 | .tsd _ => 0x1F
  | .fport _ => 0x1F | .shf _ => 0xF | .core _ => 0x1F | .mxe _ => 1 | .vec _ => 1 | .rdu _ => 3 | .xfe _ => 3
  | .car _ => 7

/-- A field of a TMO_CFG: lowest bit, width, reset value, least and greatest value. -/
structure TmoField where
  at_ : Nat
  width : Nat
  reset : Nat
  least : Nat
  most : Nat
deriving DecidableEq, Repr

/-- The timeouts that a page's TMO_CFG holds (R158, R218, R219, R360, R392, R422, R434, R435, R470, R471). -/
def Page.timeouts : Page → List TmoField
  | .gen => [⟨0, 20, 1000, 50, 1000000⟩]
  | .win => [⟨0, 10, 50, 1, 1000⟩]
  | .acc => [⟨0, 16, 2000, 100, 60000⟩]
  | .cht => [⟨0, 4, 3, 2, 15⟩]
  | .dieCht _ => [⟨0, 13, 500, 100, 5000⟩]
  | .tsd _ => [⟨0, 8, 16, 4, 64⟩, ⟨8, 8, 20, 2, 200⟩, ⟨16, 14, 100, 10, 10000⟩]
  | .fport _ => [⟨0, 8, 16, 4, 64⟩, ⟨8, 8, 8, 2, 64⟩, ⟨16, 4, 3, 2, 15⟩]
  | .core _ => [⟨0, 5, 20, 17, 24⟩]
  | .xfe _ => [⟨0, 14, 200, 10, 10000⟩]
  | _ => []

/-- The bits that a list of TMO_CFG fields defines. -/
def tmoMask (l : List TmoField) : Nat := (l.map fun f => (2 ^ f.width - 1) * 2 ^ f.at_).sum

/-- The reset value of a page's TMO_CFG. -/
def Page.tmoReset (p : Page) : W32 := BitVec.ofNat 32 ((p.timeouts.map fun f => f.reset * 2 ^ f.at_).sum)

/-- Every field of a TMO_CFG value lies in its range (R431). -/
def Page.tmoOk (p : Page) (v : Nat) : Bool :=
  p.timeouts.all fun f => decide (f.least ≤ v / 2 ^ f.at_ % 2 ^ f.width) && decide (v / 2 ^ f.at_ % 2 ^ f.width ≤ f.most)

/-- The bits that a page's CTRL defines; 0 where the page defines none (R434, R436, R438, R441, R470, R472, R488,
R522). -/
def Page.ctrl : Page → Nat
  | .gen => 1 | .clk => 3 | .ldg => 0xFF | .cht => 1 | .sec => 7 | .pwr => 1 | .evl _ => 1 | .shf _ => 7 | _ => 0

/-- Whether a page defines its STATUS register. -/
def Page.hasStatus : Page → Bool
  | .gen => true | .clk => true | .ldg => true | .cht => true | .dieCht _ => true | .sec => true | .pwr => true
  | .evl _ => true | .shf _ => true | _ => false

/-- Offsets `first`, `first + 4` … up to `last`. -/
def regSpan (first last : Nat) : List Nat := (List.range ((last - first) / 4 + 1)).map fun i => first + 4 * i

/-- The registers of a page's own layout that have a writable field, with the bits that are not RSVD (R14). -/
def Page.writable : Page → List (Nat × Nat)
  | .win => [(0x100, 0xFFF), (0x140, 0xFFF), (0x144, 0xFFFFFFFF), (0x148, 0xFFFFFFFF), (0x14C, 0x7FFFF)]
  | .acc => [(0x100, 0xF), (0x130, 0xFFFFF)]
  | .adm =>
    [(0x100, 0xFF), (0x104, 0xFF001FFF), (0x108, 0xFFFFFFFF), (0x120, 0x3F), (0x124, 0xFFFFF), (0x128, 0xFFFFFFFF),
     (0x12C, 0xFF00FFFF)] ++ (regSpan 0x200 0x2FC).map fun o => (o, 0xFFFFFFFF)
  | .cat => [(0x100, 1), (0x108, 0xFFF)]
  | .gov => [(0x100, 0x3F), (0x104, 0xF8000000), (0x108, 0xFFFFFFFF), (0x10C, 0xFFFFFFFF), (0x110, 0xFFFFFFFF)]
  | .fab => [(0x10C, 0xFF), (0x110, 0x7FF)]
  | .opt => [(0x114, 0xF), (0x11C, 1)]
  | .sec => [(0x108, 0x7FFF), (0x10C, 0x13F), (0x11C, 0xFF)] ++ (regSpan 0x800 0xFFC).map fun o => (o, 0xFFFFFFFF)
  | .dieClk _ => [(0x100, 0x7F), (0x104, 0xF), (0x10C, 0xF)]
  | .evl _ => [(0x108, 0xFFFFFFFF)]
  | .tsd _ => [(0x100, 7)]
  | .fport _ => [(0x100, 3)]
  | .shf _ => [(0x128, 0x3F), (0x130, 0x3FFFFFF), (0x13C, 0xFFFFF000), (0x200, 0x3F), (0x214, 0xFFFF)]
  | .core _ => [(0x150, 0x1F)]
  | .vec _ => [(0x100, 7)]
  | .car _ => [(0x108, 0x3F), (0x114, 0xFFFF8000)]
  | _ => []

/-- The registers of a page's own layout whose fields are all RO or RC. -/
def Page.readOnly : Page → List Nat
  | .gen => [0x100, 0x104] ++ regSpan 0x110 0x11C
  | .clk => [0x100, 0x104]
  | .ldg => regSpan 0x100 0x114
  | .lat => regSpan 0x100 0x114
  | .win => regSpan 0x104 0x110 ++ regSpan 0x120 0x134
  | .acc => regSpan 0x104 0x124 ++ [0x134, 0x138]
  | .adm => [0x10C, 0x110, 0x130, 0x134, 0x138] ++ regSpan 0x140 0x154
  | .cat => [0x104] ++ regSpan 0x200 0x2FC
  | .gov => [0x114, 0x118, 0x11C]
  | .fab => [0x100, 0x104, 0x108] ++ regSpan 0x114 0x120
  | .opt => regSpan 0x100 0x110 ++ [0x118, 0x120]
  | .cht => regSpan 0x100 0x10C
  | .sec => [0x100, 0x104, 0x110, 0x114, 0x118] ++ regSpan 0x120 0x130
  | .pwr => regSpan 0x100 0x138
  | .dieClk _ => [0x108] ++ regSpan 0x110 0x120
  | .dieLdg _ => [0x100, 0x104]
  | .dieAcc _ => regSpan 0x100 0x114
  | .dieCht _ => [0x100, 0x104]
  | .dieSec _ => regSpan 0x100 0x114
  | .evl _ => [0x100, 0x104, 0x10C] ++ regSpan 0x120 0x13C
  | .tsd _ => [0x104] ++ regSpan 0x110 0x140
  | .fport _ => regSpan 0x104 0x11C ++ regSpan 0x130 0x154
  | .shf _ =>
    regSpan 0x100 0x11C ++ [0x120, 0x124, 0x12C, 0x134, 0x138, 0x140, 0x144, 0x14C, 0x204, 0x208, 0x20C, 0x210, 0x218]
      ++ regSpan 0x400 0x4FC ++ regSpan 0x800 0xFFC
  | .core _ => regSpan 0x100 0x118 ++ regSpan 0x120 0x144 ++ [0x154, 0x158]
  | .mxe _ => regSpan 0x100 0x124
  | .vec _ => regSpan 0x104 0x110
  | .rdu _ => [0x100, 0x104]
  | .xfe _ => regSpan 0x100 0x10C
  | .car _ => [0x100, 0x104, 0x10C, 0x110]

/-- The bits that a write may carry at an offset: none where the register has read-only fields alone, so that any value is
accepted without effect; 0 at an offset that no layout lists and where every bit is RSVD (R14, R425, R427). -/
def Page.writeMask (p : Page) (off : Nat) : Option Nat :=
  if off = 0x008 then some p.ctrl
  else if off = 0x014 ∨ off = 0x01C then some p.events
  else if off = 0x020 then some (tmoMask p.timeouts)
  else if off = 0x00C then (if p.hasStatus then none else some 0)
  else if off = 0x010 ∨ off = 0x018 then (if p.events = 0 then some 0 else none)
  else if off < 0x040 then none
  else match p.writable.lookup off with
    | some m => some m
    | none => if p.readOnly.contains off then none else some 0

/-- Offsets of the _LO registers of a page's 64-bit pairs, each followed by its _HI (R432). -/
def Page.pairs : Page → List Nat
  | .gen => [0x110, 0x118] | .acc => [0x108, 0x110] | .fab => [0x104] | .cht => [0x108]
  | .sec => [0x100, 0x114, 0x120, 0x128] | .pwr => [0x110, 0x134] | .dieClk _ => [0x114] | .dieLdg _ => [0x100]
  | .dieSec _ => [0x108, 0x110] | .fport _ => [0x110] | .mxe _ => [0x118] | _ => []

end Sys2Proof.Machine
end

