-- ==== Sys2Proof/Machine/ShelfOps.lean ====
section
/-! DEFINITION. A shelf cycle: banks and hashes (R167, R169), the order of service and its counters (R168, R172, R525),
scrubbing (R178, R179), the end of a clearing (R181, R182, R190). -/

namespace Sys2Proof.Machine

open Sys2Proof

/-- rev6 of R169. -/
def rev6 (x : Nat) : Nat := (List.range 6).foldl (fun (a : Nat) i => a + (x / 2 ^ i % 2) * 2 ^ (5 - i)) 0
/-- rotl6 of R169. -/
def rotl6 (x n : Nat) : Nat := (x * 2 ^ n ||| x / 2 ^ (6 - n)) % 64

/-- The bank of granule `p` under a hash (R169). -/
def bankOf (hash p : Nat) : Nat :=
  let a := p % 64
  let b := p / 64 % 64
  let c := p / 4096 % 64
  let d := p / 2 ^ 18 % 2
  match hash with
  | 0 => a
  | 1 => a ^^^ b
  | 2 => a ^^^ b ^^^ c
  | 3 => a ^^^ b ^^^ c ^^^ (d * 32)
  | 4 => a ^^^ rev6 b
  | 5 => a ^^^ (p / 256 % 64)
  | 6 => a ^^^ ((b + c) % 64)
  | _ => a ^^^ rotl6 b 1 ^^^ rotl6 c 3 ^^^ (d * 32)

/-- The hash of a partition: HASH as its register shows it (R170). -/
def Part.hashNo (p : Part) : Nat := p.hashSel.toNat

/-- The bank of a granule of a shelf's partition. -/
def State.bank (s : State) (k part granule : Nat) : Nat := bankOf (s.part k part).hashNo granule

/-- Pending requests in the order of R168: the die-network port, then cores 0 to 7, oldest first within each. -/
def serviceOrder (l : List ShelfReq) : List ShelfReq :=
  [8, 0, 1, 2, 3, 4, 5, 6, 7].flatMap fun src => l.filter fun r => r.source = src

/-- What a shelf cycle does with a request (R168, R172). -/
inductive Service where
  | served
  | conflict
  | slot
  | writeBack
deriving DecidableEq, Repr

/-- Serves the requests of a cycle in order: each with its bank and its outcome (R168, R525). `held` are the banks that
partial writes of the last cycle still hold (R177), `backs` those that write-backs take. -/
def serve (held backs : List Nat) (l : List (ShelfReq × Nat)) : List (ShelfReq × Nat × Service) :=
  (l.foldl (fun (a : List Nat × List (ShelfReq × Nat × Service)) (r : ShelfReq × Nat) =>
    if backs.contains r.2 then (a.1, a.2 ++ [(r.1, r.2, .writeBack)])
    else if a.1.contains r.2 then (a.1, a.2 ++ [(r.1, r.2, .conflict)])
    else if 48 ≤ a.1.length then (a.1, a.2 ++ [(r.1, r.2, .slot)])
    else (r.2 :: a.1, a.2 ++ [(r.1, r.2, .served)])) (held, [])).2

/-- Requests that a source may still add to a pending set: 32 of a core, 64 of the die-network port (R525). -/
def roomOf (pending : List ShelfReq) (source : Nat) : Nat :=
  (if source = 8 then 64 else 32) - (pending.filter fun x => x.source = source).length

/-- Adds offers to the pending set while there is room; answers those without room, which stay offered (R168, R525). -/
def joinPending (pending offers : List ShelfReq) : List ShelfReq × List ShelfReq :=
  offers.foldl (fun (a : List ShelfReq × List ShelfReq) r =>
    if 0 < roomOf a.1 r.source then (a.1 ++ [r], a.2) else (a.1, a.2 ++ [r])) (pending, [])

/-- The request of the granule in which a span goes on, with the bytes of it that the span covers. -/
def ShelfSpan.head (x : ShelfSpan) : ShelfReq :=
  { source := x.source, owner := x.owner, unit := x.unit, part := x.first / 2 ^ 26, granule := x.first % 2 ^ 26 / 128
    write := x.write, first := x.first % 128
    data := if x.write then List.replicate (min x.len (128 - x.first % 128)) 0#8 else [], moved := true }

/-- A span past its first granule. -/
def ShelfSpan.tail (x : ShelfSpan) : ShelfSpan :=
  let n := min x.len (128 - x.first % 128)
  { x with first := x.first + n, len := x.len - n }

/-- Adds requests of a span while there is room; answers what is left of it. `fuel` bounds the requests added. -/
def joinSpan : Nat → List ShelfReq → ShelfSpan → List ShelfReq × ShelfSpan
  | 0, pending, x => (pending, x)
  | fuel + 1, pending, x =>
    if x.len = 0 ∨ roomOf pending x.source = 0 then (pending, x) else joinSpan fuel (pending ++ [x.head]) x.tail

/-- Adds requests of the waiting spans, oldest first; answers the spans with granules left (R525). -/
def joinSpans (pending : List ShelfReq) (spans : List ShelfSpan) : List ShelfReq × List ShelfSpan :=
  spans.foldl (fun (a : List ShelfReq × List ShelfSpan) x =>
    let r := joinSpan 64 a.1 x
    (r.1, if r.2.len = 0 then a.2 else a.2 ++ [r.2])) (pending, [])

/-- The reader of a request's granule. -/
def ShelfReq.reader (r : ShelfReq) : Reader :=
  match r.unit with
  | .matrix => .unit r.owner 0
  | .transfer => .unit r.owner 3
  | _ => .net

/-- A write that leaves part of a word unchanged: its bank is held for a second cycle (R177). -/
def ShelfReq.partial_ (r : ShelfReq) : Bool := r.write && (partialWords (2 ^ 46 + r.first) r.data.length ≠ [])

/-- A served request moves its data: a read delivers its granule, a write stores its bytes; an uncorrectable word in
memory of a tenant faults the programs that use it (R168, R175 to R177). -/
def State.serveRequest (s : State) (k : Nat) (r : ShelfReq) : State :=
  let a := partBase k r.part + 128 * r.granule
  if r.moved then s
  else if r.write then
    match s.writeSpan (ShelfReq.reader r) (a + r.first) r.data with
    | (s, some w) => s.memoryFault w
    | (s, none) => s
  else
    match s.readSpan (ShelfReq.reader r) a 128 with
    | (s, some w) => s.memoryFault w
    | (s, none) => s.modCluster k fun c => { c with delivered := c.delivered ++ [(r, s.mem.read a 128)] }

/-- The granule of partition `q` in a row of a bank (R167, R169). -/
def State.granuleAt (s : State) (k q row b : Nat) : Nat :=
  match (List.range 64).find? fun a => s.bank k q (row % 8192 * 64 + a) = b with
  | some a => row % 8192 * 64 + a
  | none => row % 8192 * 64

/-- Clears the next row of an unused bank, in the lowest partition of the shelf that is clearing and has one left (R168,
R182). -/
def State.clearBank (s : State) (k b : Nat) : State :=
  match (List.range 8).find? fun q =>
      decide ((s.part k q).kind = .clearing) && decide (Tbl.get 0 (s.part k q).clearRow b < 8192) with
  | none => s
  | some q =>
    let row := Tbl.get 0 (s.part k q).clearRow b
    let a := partBase k q + 128 * s.granuleAt k q row b
    let s := s.cleanSpan a 128
    ({ s with mem := s.mem.clear a 128 } : State).modPart k q fun x => { x with clearRow := Tbl.put 0 x.clearRow b (row + 1) }

/-- Whether a partition of a shelf is clearing. -/
def State.shelfClears (s : State) (k : Nat) : Bool := (List.range 8).any fun q => decide ((s.part k q).kind = .clearing)

/-- Clearing writes take the banks that the requests left unused, up to the limit of 48 accesses (R168, R182). -/
def State.clearUnused (s : State) (k : Nat) (used : List Nat) : State × List Nat :=
  if !s.shelfClears k then (s, used)
  else
    let banks := ((List.range 64).filter fun b => !used.contains b).take (48 - used.length)
    (banks.foldl (fun (s : State) b => s.clearBank k b) s, used ++ banks)

/-- Scrub corrections take effect in banks left unused (R179): a word that still has its single-bit error is rewritten. -/
def State.scrubUnused (s : State) (k : Nat) (used : List Nat) : State :=
  let free (w : Nat) : Bool := !used.contains (s.bank k (partAt w) (granuleOf w))
  let due := (s.cluster k).scrubBacks.filter free
  let s := s.modCluster k fun c => { c with scrubBacks := c.scrubBacks.filter fun w => !free w }
  due.foldl (fun (s : State) w => if (Tbl.get [] s.upsets w).length = 1 then s.rewriteWord w else s) s

/-- The conflict and traffic counters of a cycle (R172, R188). -/
def Cluster.count (c : Cluster) (l : List (ShelfReq × Nat × Service)) : Cluster :=
  let waits := l.filter fun e => e.2.2 = .conflict
  let served := l.filter fun e => e.2.2 = .served
  let own := (served.filter fun e => e.1.source < 8).length
  let banks := (List.range 64).filter fun b => waits.any fun e => e.2.1 = b
  let keys := (List.range 512).filter fun i => waits.any fun e => 8 * e.2.1 + e.1.source = i ∧ e.1.source < 8
  { c with
    trafCore := sat32 c.trafCore own, trafNet := sat32 c.trafNet (served.length - own)
    confSlot := if l.any fun e => e.2.2 = .slot then sat32 c.confSlot 1 else c.confSlot
    confBank := banks.foldl (fun (t : Tbl W32) b => Tbl.modify 0 t b fun v => sat32 v 1) c.confBank
    confBc := keys.foldl (fun (t : Tbl W32) b => Tbl.modify 0 t b fun v => sat32 v 1) c.confBc }

/-- One shelf cycle (R168, R172, R525): requests join the pending set while there is room, are served by priority, and
clearing and scrub corrections take what is left. -/
def State.shelfCycle (s : State) (k : Nat) (offers : List ShelfReq) : State :=
  let c := s.cluster k
  let spans := joinSpans c.pending c.waiting
  let joined := joinPending spans.1 (c.offered ++ offers)
  let backs := c.writeBacks.map fun b => s.bank k b.1 b.2
  let l := serve c.held backs ((serviceOrder joined.1).map fun r => (r, s.bank k r.part r.granule))
  let served := l.filter fun e => e.2.2 = .served
  let waits := l.filter fun e => decide (e.2.2 = .conflict) || decide (e.2.2 = .slot)
  let s := s.modCluster k fun c =>
    { (c.count l) with
      pending := (l.filter fun e => e.2.2 ≠ .served).map Prod.fst
      waiting := spans.2, offered := joined.2, writeBacks := [], delivered := []
      held := (served.filter fun e => ShelfReq.partial_ e.1).map fun e => e.2.1
      delayed := spans.2.map ShelfSpan.owner ++ joined.2.map ShelfReq.owner ++ waits.map fun e => e.1.owner
      behind := (l.filter fun e => e.2.2 = .writeBack).map fun e => e.1.owner
      confCycles := if waits = [] then c.confCycles else c.confCycles + 1 }
  let s := served.foldl (fun (s : State) e => s.serveRequest k e.1) s
  let (s, used) := s.clearUnused k (c.held ++ backs ++ served.map fun e => e.2.1)
  let s := s.modCluster k fun c => { c with busy := used }
  s.scrubUnused k used

-- scrubbing

/-- A scrub read of a span (R179). -/
def State.scrubSpan (s : State) (a n : Nat) : State :=
  (s.upsetsIn a n).foldl (fun (s : State) e => match e.2 with
    | [b] => s.eccCe .scrub e.1 b
    | _ => s.eccUe .scrub e.1) s

/-- A bank of a shelf scrubs its next row, unless the shelf cycle under way has used it (R168, R178); a pass ends when
every bank has read all its rows (R178). -/
def State.scrubBank (s : State) (k b : Nat) : State :=
  let c := s.cluster k
  let row := Tbl.get 0 c.scrubRow b
  if c.scrub = false ∨ 65536 ≤ row ∨ b ∈ c.busy then s
  else
    let q := row / 8192
    let s := s.scrubSpan (partBase k q + 128 * s.granuleAt k q row b) 128
    s.modCluster k fun c =>
      let rows := Tbl.put 0 c.scrubRow b (row + 1)
      if (List.range 64).all fun i => Tbl.get 0 rows i = 65536 then { c with scrubRow := [], passes := c.passes + 1 }
      else { c with scrubRow := rows }

/-- A carrel scrubs its next granule (R178). -/
def State.scrubCarrel (s : State) (c : Nat) : State :=
  let x := (s.core c).car
  if x.scrub = false then s
  else
    let g := x.granule.toNat
    let s := s.scrubSpan (carrelBase c + 64 * g) 64
    s.modCar c fun x =>
      { x with granule := x.granule + 1, passes := if g = 32767 then x.passes + 1 else x.passes }

-- the end of a clearing

/-- A partition's clearing has completed: what shelf cycles have not cleared is clear too, and a word of a partition that
becomes FREE takes an armed injection (R181, R182, R189, R190). -/
def State.endPartClear (s : State) (k p : Nat) : State :=
  if (s.part k p).kind ≠ .clearing then s
  else
    let s := s.modPart k p fun x =>
      { x with kind := x.next, owner := if x.next = .free then none else x.nextOwner, hash := none, waitFor := none
               next := .free, nextOwner := none, clearRow := [] }
    let s := s.clearSpan (partBase k p) partBytes
    let s := s.modCluster k fun c => { c with clears := c.clears + 1 }
    (s.raise0 (shfPage k) 3).progress

/-- A carrel's clearing has completed (R182, R190). -/
def State.endCarrelClear (s : State) (c : Nat) : State :=
  if (s.core c).car.clearing = false then s
  else
    let s := s.clearSpan (carrelBase c) carrelBytes
    let s := s.modSq c fun q => { q with tenant := (s.core c).car.nextTenant }
    let s := s.modCar c fun x =>
      { x with clearing := false, clears := x.clears + 1, nextTenant := none, waitFor := none }
    (s.raise0 (carPage c) 2).progress

end Sys2Proof.Machine
end

