-- ==== Sys2Proof/Machine/RegRead.lean ====
section
/-! DEFINITION. Register reads: the value of every register of every page, what a read of an RC field clears, and the
latches of 64-bit pairs (R13, R425, R427, R432). -/

namespace Sys2Proof.Machine

open Sys2Proof

/-- A register of fields, each as (lowest bit, value). -/
def regOf (l : List (Nat × Nat)) : W32 := BitVec.ofNat 32 ((l.map fun f => f.2 * 2 ^ f.1).sum)

/-- The low and high word of a 64-bit value. -/
def loWord (v : W64) : W32 := v.extractLsb' 0 32
def hiWord (v : W64) : W32 := v.extractLsb' 32 32

/-- Four bytes of a string at an offset as a register. -/
def wordAt (b : Bytes) (o : Nat) : W32 := BitVec.ofNat 32 (leAt b o 4)

/-- A count in units of `n` as a saturating register. -/
def satUnits (v n : Nat) : W32 := BitVec.ofNat 32 (min (v / n) 0xFFFFFFFF)

/-- Cores of the module for which `p` holds. -/
def State.countOf (s : State) (p : Sequencer → Bool) : Nat := (s.allCores.filter fun c => p (s.core c).sq).length

-- module pages

/-- GEN (R434). -/
def State.genValue (s : State) : List (Nat × W32) :=
  [(0x008, regOf [(0, s.gen.archivalOnly.toNat)]),
   (0x00C, regOf [(16, (s.tenants.filter fun e => e.2.state ≠ .unbound).length),
                  (2, (s.slots.filter fun e => e.2.state ≠ .empty).length), (0, if s.gen.service then 2 else 1)]),
   (0x100, s.genIdent),
   (0x104, regOf [(16, s.countOf fun q => q.mode = .isolated), (0, s.countOf fun q => q.mode = .service)]),
   (0x110, wordAt s.gen.colmap 0), (0x114, wordAt s.gen.colmap 4),
   (0x118, loWord s.gen.serviceLedger), (0x11C, hiWord s.gen.serviceLedger)]

/-- CLK of the module (R436). -/
def State.clkValue (s : State) : List (Nat × W32) :=
  [(0x008, regOf [(0, s.clock.refSel.toNat)]),
   (0x00C, regOf [(2, s.clock.holdover.toNat), (1, s.freqLocked.toNat), (0, s.clock.refLock.toNat)]),
   (0x100, if s.clock.refSel = 0 then 0 else s.clock.refOffset), (0x104, s.clock.holdovers)]

/-- LDG of the module (R438). -/
def State.ldgValue (s : State) : List (Nat × W32) :=
  let l := s.ledger
  [(0x008, regOf [(2, l.parentPort.toNat), (0, l.role.toNat)]),
   (0x00C, regOf [(16, l.rootId.toNat), (12, l.dist.toNat), (6, match l.parent with | some p => p.val | none => 0),
                  (5, l.parent.isSome.toNat), (0, l.state.code)]),
   (0x100, l.rate), (0x104, l.offset), (0x108, l.delay), (0x10C, l.badSample), (0x110, l.steps), (0x114, l.skew)]

/-- LAT (R263). -/
def State.latValue (s : State) : List (Nat × W32) :=
  let own (id : Nat) : Nat := (manifestValue s.fuses.grade s.fuses.c0 id).getD 0
  [(0x100, regOf [(24, s.stepping), (16, own 5), (8, own 7), (0, own 6)]), (0x104, regOf [(0, s.countOf fun q => q.padded)]),
   (0x108, s.adm.latRefused), (0x10C, s.adm.latLast), (0x110, s.adm.latWant), (0x114, s.adm.latHave)]

/-- WIN (R218). -/
def State.winValue (s : State) : List (Nat × W32) :=
  let w := s.window s.win.sel.toNat
  let r := s.remoteWin s.win.rsel.toNat
  [(0x100, regOf [(0, s.win.sel.toNat)]),
   (0x104, regOf [(30, w.state.code), (28, w.access.toNat), (20, w.tenant.toNat), (0, (w.gen.getD s.win.floor).toNat)]),
   (0x108, regOf [(24, w.peerTenant.toNat), (12, w.devHi.toNat), (0, w.devLo.toNat)]),
   (0x10C, regOf [(0, (w.extents.map Extent.len).sum / 4096)]),
   (0x110, regOf [(0, min 127 (s.inflight s.win.sel.toNat))]),
   (0x120, s.win.admitted), (0x124, s.win.stale), (0x128, s.win.denied), (0x12C, s.win.drainDiscard),
   (0x130, satUnits s.win.bytesIn 1024), (0x134, satUnits s.win.bytesOut 1024), (0x140, regOf [(0, s.win.rsel.toNat)]),
   (0x144, regOf [(31, r.valid.toNat), (23, r.tenant.toNat), (11, r.device.toNat), (0, r.route.toNat)]),
   (0x148, regOf [(20, r.handle.toNat), (0, r.gen.toNat)]), (0x14C, regOf [(0, r.pages.toNat)])]

/-- ACC of the module (R360); a FREE entry reads 0 but for SIDE. -/
def State.accValue (s : State) : List (Nat × W32) :=
  let i := s.acc.esel.toNat
  let e := s.edition i
  let used := decide (e.state ≠ .free)
  let head := used && (s.slot e.slot).isHead
  let x := if used then e.shard s.acc.ssel.toNat else none
  let v (n : Nat) : Nat := if used then n else 0
  [(0x100, regOf [(0, i)]),
   (0x104, regOf [(28, e.state.code), (27, head.toNat), (26, i % 2), (20, v e.slot), (12, v e.tenant),
                  (4, if e.state = .failed then e.failStatus else 0)]),
   (0x108, wordAt e.digest 0), (0x10C, wordAt e.digest 4), (0x110, loWord e.id), (0x114, hiWord e.id),
   (0x118, regOf [(0, e.shards.length)]), (0x11C, regOf [(0, (e.shards.filter fun x => x.state = .verified).length)]),
   (0x120, if head then regOf [(0, s.refCount e.slot i)] else 0),
   (0x124, regOf [(31, e.relayOut.toNat), (25, e.nextPort), (24, e.fromUp.toNat), (18, e.upPort), (0, e.nextDevice)]),
   (0x130, regOf [(0, s.acc.ssel.toNat)]),
   (0x134, match x with
     | some x => regOf [(30, x.state.code), (27, x.attempts), (24, x.lastCause), (23, x.upstream.toNat)]
     | none => 0),
   (0x138, match x with | some x => regOf [(0, x.got.length)] | none => 0)]

/-- The latency classes' registers of ADM (R295, R308). -/
def State.classValue (s : State) (off : Nat) : W32 :=
  let c := Tbl.get LatClass.reset s.adm.classes ((off - 0x200) / 16)
  match off % 16 with
  | 0 => c.ttft
  | 4 => c.interval
  | 8 => regOf [(16, c.queueMs.toNat), (0, c.promptMs.toNat)]
  | _ => c.stepUs

/-- ADM (R308). -/
def State.admValue (s : State) : List (Nat × W32) :=
  let t := s.tenant s.adm.tsel.toNat
  let i := s.adm.dsel.toNat
  let d := s.slot i
  [(0x100, regOf [(0, s.adm.tsel.toNat)]), (0x104, regOf [(24, t.share.toNat), (0, t.sessions.toNat)]), (0x108, t.kvMib),
   (0x10C, regOf [(30, t.state.code), (0, s.descriptorUse s.adm.tsel.toNat)]),
   (0x110, satUnits (s.kvUse s.adm.tsel.toNat) 1), (0x120, regOf [(0, i)]), (0x124, regOf [(0, d.pool.toNat)]), (0x128, d.dkv),
   (0x12C, regOf [(24, d.lpart.toNat), (0, d.units.toNat)]), (0x130, regOf [(0, s.freePages i)]),
   (0x134, satUnits (s.backlog i) 1), (0x138, regOf [(0, d.queue.length)]), (0x140, s.adm.admitted), (0x144, s.adm.queued),
   (0x148, s.adm.refMemory), (0x14C, s.adm.refTime), (0x150, s.adm.refQuota), (0x154, s.adm.refTenant)]

/-- Position of a session in its admission queue (R289). -/
def State.queuePos (s : State) (i : Nat) (x : Session) : Nat :=
  if x.queued then ((s.slot x.slot).queue.findIdx fun k => k = i) else 0

/-- The 256 bytes of a catalogue descriptor (R289); zeros while it is FREE (R309). -/
def State.descriptor (s : State) (i : Nat) : Bytes :=
  let x := s.session i
  if x.state = .free then List.replicate 256 0#8
  else
    leBytes 4 (sessHandle i x)
      ++ [BitVec.ofNat 8 x.state.code,
          BitVec.ofNat 8 (x.archival.toNat + 2 * x.speculative.toNat + 4 * x.queued.toNat + 8 * x.cancelSeen.toNat + 16 * x.port),
          BitVec.ofNat 8 x.tenant, BitVec.ofNat 8 x.slot, BitVec.ofNat 8 x.cls, BitVec.ofNat 8 x.logprobs,
          BitVec.ofNat 8 x.endReason, BitVec.ofNat 8 x.refuseReason]
      ++ leBytes 4 x.promptTokens ++ leBytes 4 x.promptReceived ++ leBytes 4 x.maxNew ++ leBytes 4 x.generated
      ++ leBytes 2 x.pages ++ [BitVec.ofNat 8 x.draftSlot, 0] ++ leBytes 4 x.pstore ++ leBytes 4 x.steps.toNat
      ++ leBytes 8 x.seed.toNat ++ leBytes 8 x.ledgerOpen.toNat ++ leBytes 8 x.ledgerAdmit.toNat
      ++ leBytes 8 x.ledgerCommit.toNat ++ leBytes 8 x.deadline.toNat ++ leBytes 4 x.temperature.toNat
      ++ leBytes 4 x.topP.toNat ++ leBytes 4 x.topK.toNat ++ leBytes 4 x.repPenalty.toNat ++ leBytes 4 x.predTtft.toNat
      ++ leBytes 4 x.predStep.toNat ++ leBytes 2 x.row ++ leBytes 2 (s.queuePos i x) ++ List.replicate 148 0#8

/-- CAT (R309). -/
def State.catValue (s : State) : List (Nat × W32) :=
  [(0x100, regOf [(0, s.adm.autoFree.toNat)]),
   (0x104, regOf [(16, (s.sessions.filter fun e => e.2.state = .closed).length),
                  (0, (s.sessions.filter fun e => e.2.state ≠ .free).length)]),
   (0x108, regOf [(0, s.adm.csel.toNat)])]

/-- GOV_STATUS off the head: as the latched header of the step under way has it (R306, R526). -/
def State.mirrorStatus (s : State) (x : Slot) : W32 :=
  let step := (s.core (8 * x.ringCluster)).sq.step
  match ((x.prog.latched.find? fun h => h.step = step).orElse fun _ => x.prog.latched.getLast?) with
  | some h => regOf [(28, (h.variant.extractLsb' 0 4).toNat), (24, (h.variant.extractLsb' 4 4).toNat), (23, (h.flags.getLsbD 0).toNat)]
  | none => 0

/-- GOV (R306, R310): 0 but for GOV_SEL on a slot that holds no deployment. -/
def State.govValue (s : State) : List (Nat × W32) :=
  let x := s.slot s.adm.gsel.toNat
  let g := x.gov
  let p := x.prog
  (0x100, regOf [(0, s.adm.gsel.toNat)]) ::
  if !x.isDeployment then []
  else
    [(0x104, regOf [(31, g.fixed.toNat), (27, g.variant.toNat)]), (0x108, g.upUs), (0x10C, g.downUs),
     (0x110, regOf [(24, g.occHi.toNat), (16, g.upSteps.toNat), (8, g.downSteps.toNat), (0, g.minSteps.toNat)]),
     (0x114, if x.isHead then regOf [(28, p.current), (24, p.next), (23, p.archNow.toNat), (8, g.upRun), (0, g.downRun)]
             else s.mirrorStatus x),
     (0x118, g.switches), (0x11C, g.since)]

/-- FAB of the module (R391). -/
def State.fabValue (s : State) : List (Nat × W32) :=
  let r := s.route s.fab.rtsel.toNat
  [(0x100, regOf [(31, s.fab.idValid.toNat), (0, s.fab.device.toNat)]), (0x104, wordAt s.serialDigest 0),
   (0x108, wordAt s.serialDigest 4), (0x10C, regOf [(4, s.fab.w1.toNat), (0, s.fab.w2.toNat)]),
   (0x110, regOf [(0, s.fab.rtsel.toNat)]), (0x114, r.w0), (0x118, r.w1), (0x11C, r.w2), (0x120, s.fab.drop)]

/-- OPT (R393). -/
def State.optValue (s : State) : List (Nat × W32) :=
  let e := s.engine s.oeSel.toNat
  ((List.range 5).map fun n =>
    let c := s.cartridge n
    (0x100 + 4 * n, regOf [(31, c.present.toNat), (30, c.active.toNat), (29, c.fault.toNat), (0, c.power.toNat)]))
  ++ [(0x114, regOf [(0, s.oeSel.toNat)]), (0x118, regOf [(30, e.state.code), (20, e.track.toNat)]),
      (0x11C, regOf [(0, e.calibrate.toNat)]), (0x120, e.cals)]

/-- CHT of the module (R470). -/
def State.chtValue (s : State) : List (Nat × W32) :=
  let c := s.charter
  let since := match c.lease.die with | some d => min 15 ((s.since d).getD 15) | none => 0
  [(0x008, regOf [(0, c.yieldPending.isSome.toNat)]),
   (0x00C, regOf [(30, c.lease.code), (29, c.prefB.toNat), (28, (s.live 0).toNat), (27, (s.live 1).toNat), (23, since),
                  (20, c.lastCause.toNat)]),
   (0x100, c.epoch), (0x104, c.changes), (0x108, loWord c.changeLedger), (0x10C, hiWord c.changeLedger)]

/-- SEC of the module (R472), the staging buffer apart. -/
def State.secValue (s : State) : List (Nat × W32) :=
  let x := s.sec
  let id : Bytes := match x.selected with | some k => keyId k.x k.y | none => List.replicate 8 0#8
  let t := s.tenant x.tsel.toNat
  let keys := ((x.fwKeys.zipIdx).map fun e => e.1.isSome.toNat * 2 ^ e.2).sum
  [(0x00C, regOf [(31, s.fuses.sealBroken.toNat), (30, x.debugUnlocked.toNat), (29, s.fuses.identityWiped.toNat),
                  (27, x.presence.code), (24, x.operation.toNat), (16, x.fwVersion), (0, keys)]),
   (0x100, loWord x.windowEnd), (0x104, hiWord x.windowEnd), (0x108, regOf [(0, x.stageOfs.toNat)]),
   (0x10C, regOf [(8, x.kset.toNat), (0, x.kindex.toNat)]), (0x110, regOf [(31, x.selected.isSome.toNat)]),
   (0x114, wordAt id 0), (0x118, wordAt id 4), (0x11C, regOf [(0, x.tsel.toNat)]),
   (0x120, loWord t.folioKeys), (0x124, hiWord t.folioKeys), (0x128, loWord t.publisherKeys),
   (0x12C, hiWord t.publisherKeys), (0x130, regOf [(0, x.chain.length)])]

/-- ALERT_N is low (R523). -/
def State.alert (s : State) : Bool :=
  let h := s.page pwrPage
  decide (h.evtRaw &&& ~~~h.mask ≠ 0) || s.power.tripped.isSome

/-- PWR (R522). -/
def State.pwrValue (s : State) : List (Nat × W32) :=
  let p := s.power
  let k := s.clock.kPower
  [(0x008, regOf [(0, p.shed.toNat)]),
   (0x00C, regOf [(30, p.input.toNat), (29, if 0 < k then 1 else 0), (25, k), (24, s.alert.toNat)]),
   (0x100, regOf [(0, p.vin.toNat)]), (0x104, regOf [(0, p.iin.toNat)]), (0x108, regOf [(0, p.pin.toNat)]),
   (0x10C, regOf [(0, p.ipeak.toNat)]), (0x110, loWord p.energy), (0x114, hiWord p.energy),
   (0x118, regOf [(16, p.outlet.toNat), (0, p.inlet.toNat)]), (0x11C, regOf [(8, p.tjRegion.toNat), (0, p.tjTemp.toNat)]),
   (0x120, regOf [(24, p.boot.toNat)]), (0x124, regOf [(16, p.serviceMs.toNat), (0, p.rrMs.toNat)]),
   (0x128, regOf [(24, p.lastTrip.toNat), (16, p.tripDetail.toNat)]), (0x12C, p.trips),
   (0x130, regOf [(8, s.fuses.boardRev.toNat), (0, s.fuses.grade.code)]), (0x134, wordAt s.serialDigest 0),
   (0x138, wordAt s.serialDigest 4)]

-- die pages

/-- CLK of a die (R437): the region registers of a fused cluster read 0. -/
def State.dieClkValue (s : State) (d : Nat) : List (Nat × W32) :=
  let c := s.dieClock d
  let k := 16 * d + c.rsel.toNat
  let r := if s.fused k then Region.reset else s.region k
  let live (n : Nat) : Nat := if s.fused k then 0 else n
  [(0x100, regOf [(0, c.tThr.toNat)]), (0x104, regOf [(0, c.droopPct.toNat)]),
   (0x108, regOf [(31, c.alignDone.toNat), (17, c.d2dOk.toNat), (16, c.netOk.toNat), (0, c.clusterOk.toNat)]),
   (0x10C, regOf [(0, c.rsel.toNat)]),
   (0x110, regOf [(28, live (s.swallowLevel k)), (24, r.kThermal), (20, r.kDroop), (16, live s.clock.kPower),
                  (15, r.throttled.toNat), (0, r.temp)]),
   (0x114, loWord r.pulses), (0x118, hiWord r.pulses), (0x11C, r.droops), (0x120, r.thrTicks)]

/-- ACC of a die (R361). -/
def State.dieAccValue (s : State) (d : Nat) : List (Nat × W32) :=
  let a := s.accessionDie d
  [(0x100, regOf [(0, s.openAttempts d)]), (0x104, satUnits a.bytesIn 1024), (0x108, satUnits a.bytesRelayed 1024),
   (0x10C, a.mismatch), (0x110, a.timeouts), (0x114, satUnits a.discards 64)]

/-- SEC of a die (R473). -/
def State.dieSecValue (s : State) (d : Nat) : List (Nat × W32) :=
  let bank (b : FwBanks) (fails : Nat) : W32 :=
    regOf [(31, b.activeBank.toNat), (30, b.other.isSome.toNat), (27, fails), (7, b.floor), (0, b.active.svn)]
  let c := s.banks d 0
  let o := s.banks d 1
  [(0x100, bank c (min 7 c.bootFails)), (0x104, bank o 0), (0x108, wordAt c.active.meas 0), (0x10C, wordAt c.active.meas 4),
   (0x110, wordAt o.active.meas 0), (0x114, wordAt o.active.meas 4)]

/-- Sequence number of the oldest record held (R441). -/
def EvLog.first (l : EvLog) : W32 := l.next - BitVec.ofNat 32 l.records.length

/-- The bytes of the selected record, zeros where it is not held (R441). -/
def EvLog.selected (l : EvLog) : Bytes :=
  match l.records[(l.sel - l.first).toNat]? with
  | some r => r.bytes
  | none => List.replicate 32 0#8

/-- EVL (R441). -/
def EvLog.value (l : EvLog) : List (Nat × W32) :=
  [(0x008, regOf [(0, l.logMasked.toNat)]), (0x00C, regOf [(0, l.records.length)]), (0x100, l.first), (0x104, l.next),
   (0x108, l.sel), (0x10C, l.overwritten)]
  ++ (List.range 8).map fun w => (0x120 + 4 * w, wordAt l.selected (4 * w))

/-- TSD (R422). -/
def TsdPort.value (t : TsdPort) : List (Nat × W32) :=
  [(0x100, regOf [(2, t.events.toNat), (1, t.retrain.toNat), (0, t.enable.toNat)]),
   (0x104, regOf [(30, t.state.code), (26, t.cause.toNat), (25, t.peerInit.toNat)])]
  ++ ((List.range 4).map fun c => (0x110 + 4 * c, regOf [(0, Tbl.get 0 t.credits c)]))
  ++ [(0x120, regOf [(0, t.cmds.length)]), (0x124, t.fecCorr), (0x128, t.fecUncorr), (0x12C, t.crcErr), (0x130, t.replays),
      (0x134, t.badPkt), (0x138, t.busy), (0x13C, t.evtDrop), (0x140, regOf [(0, t.evtQueue.length)])]

/-- FAB of a port (R392). -/
def FabPort.value (p : FabPort) : List (Nat × W32) :=
  [(0x100, regOf [(1, p.retrain.toNat), (0, p.enable.toNat)]),
   (0x104, regOf [(30, p.state.code), (26, p.cause.toNat), (25, p.latValid.toNat)]), (0x108, p.delay),
   (0x10C, regOf [(0, p.linkLat.toNat)])]
  ++ (match p.nb with
    | some n =>
      [(0x110, loWord n.serial), (0x114, hiWord n.serial),
       (0x118, regOf [(31, 1), (30, n.idValid.toNat), (24, n.port.toNat), (20, n.mstate.toNat), (0, n.device.toNat)]),
       (0x11C, n.epoch)]
    | none => [])
  ++ [(0x130, p.crcErr), (0x134, p.retries), (0x138, p.downs), (0x13C, p.vc0Late)]
  ++ ((List.range 4).map fun v => (0x140 + 4 * v, Tbl.get 0 p.occ v)) ++ [(0x150, p.creditWait), (0x154, p.badFlit)]

/-- The code of a partition's kind (R188). -/
def PartKind.code : PartKind → Nat
  | .free => 0
  | .resident => 1
  | .working => 2
  | .clearing => 3

/-- SHF_PARTn (R188). -/
def Part.value (p : Part) : W32 :=
  regOf [(30, p.kind.code), (29, p.owner.isSome.toNat), (21, match p.owner with | some o => o.toNat | none => 0),
         (20, p.hash.isSome.toNat), (17, p.hashSel.toNat)]

/-- SHF_RING_CFG to SHF_RING_STALL of the selected ring (R161). -/
def Ring.value (r : Ring) : List (Nat × W32) :=
  [(0x204, regOf [(31, r.valid.toNat), (30, r.shelf.toNat), (27, r.producer), (24, r.consumer), (12, r.slots - 1),
                  (0, r.slotSize / 64 - 1)]),
   (0x208, regOf [(29, if r.shelf then 0 else r.owner), (0, r.base)]), (0x20C, regOf [(16, r.head), (0, r.tail)]),
   (0x210, regOf [(0, r.present.length)]), (0x214, regOf [(0, r.patience.toNat)]), (0x218, r.stall)]

/-- SHF (R161, R188, R488), the conflict counters apart. -/
def State.shfValue (s : State) (k : Nat) : List (Nat × W32) :=
  let c := s.cluster k
  let row := ((List.range 64).map fun b => Tbl.get 0 c.scrubRow b).foldl min (Tbl.get 0 c.scrubRow 0)
  let active := ((List.range 8).map fun p => if (s.part k p).kind = .clearing then 2 ^ p else 0).sum
  [(0x008, regOf [(2, c.mapout.toNat), (0, c.isolating.toNat)]),
   (0x00C, regOf [(1, (s.gen.mappedOut.getLsbD k).toNat), (0, (s.isolated k).toNat)])]
  ++ ((List.range 8).map fun p => (0x100 + 4 * p, (s.part k p).value))
  ++ [(0x120, c.ce), (0x124, c.ue), (0x128, regOf [(5, c.scrub.toNat), (0, c.gap.toNat)]),
      (0x12C, regOf [(16, c.passes.toNat), (0, row)]), (0x130, regOf [(16, c.thr.toNat), (0, c.ticks.toNat)]),
      (0x134, regOf [(16, c.hpRun.toNat), (0, c.lastRate.toNat)]), (0x138, regOf [(16, c.clears.toNat), (0, active)]),
      (0x13C, regOf [(31, c.inject.arm.toNat), (28, c.inject.part.toNat), (20, c.inject.bita.toNat), (12, c.inject.bitb.toNat)]),
      (0x140, c.trafCore), (0x144, c.trafNet), (0x14C, c.confSlot), (0x200, regOf [(0, c.rsel.toNat)])]
  ++ (s.ring k c.rsel.toNat).value

-- core pages

/-- CORE (R159, R160). -/
def Core.value (x : Core) : List (Nat × W32) :=
  let q := x.sq
  let i := q.qsel.toNat
  let e := Tbl.get Endpoint.reset x.queues i
  [(0x100, regOf [(29, q.mode.code), (28, q.run.toNat), (27, q.padded.toNat), (26, q.tenant.isSome.toNat),
                  (18, match q.tenant with | some t => t.toNat | none => 0)]),
   (0x104, regOf [(0, 8 * q.pc % 262144)]), (0x108, q.step), (0x10C, regOf [(28, q.loops.length), (24, q.calls.length)]),
   (0x110, regOf [(20, q.stampId.toNat), (19, q.stamp.isSome.toNat)]), (0x114, regOf [(0, q.s)]), (0x118, q.residue)]
  ++ ((List.range 8).map fun n => (0x120 + 4 * n, Tbl.get 0 q.dev (n + 1)))
  ++ [(0x140, q.hold), (0x144, regOf [(0, q.holdCause.toNat)]), (0x150, regOf [(0, i)]),
      (0x154, match qepClass i with
        | some cls => regOf [(29, cls), (28, if cls = 0 then 1 else e.bound.toNat), (27, e.packet.toNat), (19, e.cut - 1),
                             (10, e.occ i), (1, e.hwm)]
        | none => regOf [(29, 7)]),
      (0x158, e.stall)]

/-- MXE_STATE (R85): no row is under way between two commands. -/
def MatrixUnit.stateWord (m : MatrixUnit) : W32 :=
  let sh : Nat × Nat × Nat := match m.shadow with
    | .empty => (0, 0, 0)
    | .loading l => (1, l.shape.toNat, l.wfmt.toNat)
    | .full t => (2, t.shape.toNat, t.wfmt.toNat)
  let act : Nat × Nat × Nat := match m.active with
    | some t => (1, t.shape.toNat, t.wfmt.toNat)
    | none => (0, 0, 0)
  regOf [(30, sh.1), (29, act.1), (26, act.2.1), (22, act.2.2), (19, sh.2.1), (15, sh.2.2)]

/-- MXE (R84 to R86). -/
def State.mxeValue (s : State) (c : Nat) : List (Nat × W32) :=
  let map := s.colMap c
  let w := s.width c
  let m := (s.core c).mx
  ((List.range 4).map fun i => (0x100 + 4 * i, map.extractLsb' (32 * i) 32))
  ++ [(0x110, regOf [(8, 128 - w), (0, w)]), (0x114, m.stateWord), (0x118, loWord m.rows), (0x11C, hiWord m.rows),
      (0x120, m.swapWait), (0x124, m.stall)]

/-- VEC (R123). -/
def VectorUnit.value (v : VectorUnit) : List (Nat × W32) :=
  [(0x100, regOf [(0, v.trap.toNat)]), (0x104, v.fpInvalid), (0x108, v.fpOverflow), (0x10C, v.intOverflow), (0x110, v.stall)]

/-- RDU (R117, R123). -/
def State.rduValue (s : State) (c : Nat) : List (Nat × W32) :=
  let x := s.core c
  let own := if s.fuses.c0 then 9 else 11
  [(0x100, regOf [(16, if x.sq.padded then 11 else own), (8, own), (1, x.rd.tested.toNat), (0, x.rd.pass.toNat)]),
   (0x104, x.rd.stall)]

/-- XFE (R219). -/
def TransferUnit.value (u : TransferUnit) : List (Nat × W32) :=
  [(0x100, regOf [(27, u.out.length), (24, min 4 (u.out.filter fun o => o.started).length),
                  (17, (u.tags.filter fun t => t.2.isSome).length)]),
   (0x104, u.nacks), (0x108, u.lateResp), (0x10C, u.retryReq)]

/-- CAR (R190). -/
def CarrelUnit.value (u : CarrelUnit) : List (Nat × W32) :=
  [(0x100, u.ce), (0x104, u.ue), (0x108, regOf [(5, u.scrub.toNat), (0, u.gap.toNat)]),
   (0x10C, regOf [(16, u.passes.toNat), (0, u.granule.toNat)]), (0x110, regOf [(16, u.clears.toNat), (0, u.clearing.toNat)]),
   (0x114, regOf [(31, u.inject.arm.toNat), (23, u.inject.bita.toNat), (15, u.inject.bitb.toNat)])]

-- reads

/-- The value of a register beyond the common header, and of CTRL and STATUS (R425: 0 at an offset that no layout
lists). -/
def State.ownValue (s : State) (p : Page) (off : Nat) : W32 :=
  let at_ (l : List (Nat × W32)) : W32 := (l.lookup off).getD 0
  match p with
  | .gen => at_ s.genValue
  | .clk => at_ s.clkValue
  | .ldg => at_ s.ldgValue
  | .lat => at_ s.latValue
  | .win => at_ s.winValue
  | .acc => at_ s.accValue
  | .adm => if 0x200 ≤ off ∧ off < 0x300 then s.classValue off else at_ s.admValue
  | .cat => if 0x200 ≤ off ∧ off < 0x300 then wordAt (s.descriptor s.adm.csel.toNat) (off - 0x200) else at_ s.catValue
  | .gov => at_ s.govValue
  | .fab => at_ s.fabValue
  | .opt => at_ s.optValue
  | .cht => at_ s.chtValue
  | .sec => if 0x800 ≤ off then wordAt (s.sec.staged (s.sec.stageOfs.toNat + (off - 0x800)) 4) 0 else at_ s.secValue
  | .pwr => at_ s.pwrValue
  | .dieClk d => at_ (s.dieClkValue d)
  | .dieLdg d => at_ [(0x100, loWord (s.dieLedger d).now), (0x104, hiWord (s.dieLedger d).now)]
  | .dieAcc d => at_ (s.dieAccValue d)
  | .dieCht d =>
    at_ [(0x00C, regOf [(30, s.charter.lease.code), (29, (s.holds d).toNat)]), (0x100, (s.curator d).restarts),
         (0x104, (s.curator d).fenced)]
  | .dieSec d => at_ (s.dieSecValue d)
  | .evl d => at_ (s.log d).value
  | .tsd p => at_ (s.port p).value
  | .fport n => at_ (s.fport n).value
  | .shf k =>
    if 0x400 ≤ off ∧ off < 0x500 then Tbl.get 0 (s.cluster k).confBank ((off - 0x400) / 4)
    else if 0x800 ≤ off then if s.fused k then 0 else Tbl.get 0 (s.cluster k).confBc ((off - 0x800) / 4)
    else at_ (s.shfValue k)
  | .core c => at_ (s.core c).value
  | .mxe c => at_ (s.mxeValue c)
  | .vec c => at_ (s.core c).vx.value
  | .rdu c => at_ (s.rduValue c)
  | .xfe c => at_ (s.core c).xf.value
  | .car c => at_ (s.core c).car.value

/-- The value of the register at an offset of a page (R427). -/
def State.regValue (s : State) (p : Page) (off : Nat) : W32 :=
  let h := s.page p.number
  if off = 0x000 then regOf [(24, p.ident.1), (8, p.ident.2)]
  else if off = 0x004 then 0x100
  else if off = 0x010 then h.evtRaw
  else if off = 0x014 then h.mask
  else if off = 0x018 then h.evtRaw &&& ~~~h.mask
  else if off = 0x01C then 0
  else if off = 0x020 then h.tmoCfg.getD p.tmoReset
  else if off = 0x024 then h.tmoCount
  else if 0x028 ≤ off ∧ off < 0x040 then h.caps.getD ((off - 0x028) / 4) 0
  else s.ownValue p off

/-- Clears one of the first registers of a list of counters: `f i` clears the i-th. -/
def clearTsd (t : TsdPort) (off : Nat) : TsdPort :=
  if off = 0x124 then { t with fecCorr := 0 }
  else if off = 0x128 then { t with fecUncorr := 0 }
  else if off = 0x12C then { t with crcErr := 0 }
  else if off = 0x130 then { t with replays := 0 }
  else if off = 0x134 then { t with badPkt := 0 }
  else if off = 0x138 then { t with busy := 0 }
  else if off = 0x13C then { t with evtDrop := 0 }
  else t

/-- RC registers of a fabric port (R392). -/
def clearFport (p : FabPort) (off : Nat) : FabPort :=
  if off = 0x130 then { p with crcErr := 0 }
  else if off = 0x134 then { p with retries := 0 }
  else if off = 0x138 then { p with downs := 0 }
  else if off = 0x13C then { p with vc0Late := 0 }
  else if off = 0x150 then { p with creditWait := 0 }
  else if off = 0x154 then { p with badFlit := 0 }
  else p

/-- RC registers of the WIN page (R218); a part of a KiB stays counted. -/
def clearWin (w : WinPage) (off : Nat) : WinPage :=
  if off = 0x120 then { w with admitted := 0 }
  else if off = 0x124 then { w with stale := 0 }
  else if off = 0x128 then { w with denied := 0 }
  else if off = 0x12C then { w with drainDiscard := 0 }
  else if off = 0x130 then { w with bytesIn := w.bytesIn % 1024 }
  else if off = 0x134 then { w with bytesOut := w.bytesOut % 1024 }
  else w

/-- RC registers of the ADM page (R308). -/
def clearAdm (a : AdmPage) (off : Nat) : AdmPage :=
  if off = 0x140 then { a with admitted := 0 }
  else if off = 0x144 then { a with queued := 0 }
  else if off = 0x148 then { a with refMemory := 0 }
  else if off = 0x14C then { a with refTime := 0 }
  else if off = 0x150 then { a with refQuota := 0 }
  else if off = 0x154 then { a with refTenant := 0 }
  else a

/-- RC registers of a die's ACC page (R361); a part of a unit stays counted. -/
def clearAcc (a : AccDie) (off : Nat) : AccDie :=
  if off = 0x104 then { a with bytesIn := a.bytesIn % 1024 }
  else if off = 0x108 then { a with bytesRelayed := a.bytesRelayed % 1024 }
  else if off = 0x10C then { a with mismatch := 0 }
  else if off = 0x110 then { a with timeouts := 0 }
  else if off = 0x114 then { a with discards := a.discards % 64 }
  else a

/-- RC registers of an SHF page (R161, R188). -/
def clearShf (c : Cluster) (off : Nat) : Cluster :=
  if off = 0x120 then { c with ce := 0 }
  else if off = 0x124 then { c with ue := 0 }
  else if off = 0x140 then { c with trafCore := 0 }
  else if off = 0x144 then { c with trafNet := 0 }
  else if off = 0x14C then { c with confSlot := 0 }
  else if off = 0x218 then { c with rings := Tbl.modify Ring.reset c.rings c.rsel.toNat fun r => { r with stall := 0 } }
  else if 0x400 ≤ off ∧ off < 0x500 then { c with confBank := Tbl.put 0 c.confBank ((off - 0x400) / 4) 0 }
  else if 0x800 ≤ off then { c with confBc := Tbl.put 0 c.confBc ((off - 0x800) / 4) 0 }
  else c

/-- RC registers of a core's CORE page (R159, R160). -/
def clearCorePage (k : Core) (off : Nat) : Core :=
  if off = 0x118 then { k with sq := { k.sq with residue := 0 } }
  else if 0x120 ≤ off ∧ off < 0x140 then { k with sq := { k.sq with dev := Tbl.put 0 k.sq.dev ((off - 0x120) / 4 + 1) 0 } }
  else if off = 0x140 then { k with sq := { k.sq with hold := 0 } }
  else if off = 0x158 then
    { k with queues := Tbl.modify Endpoint.reset k.queues k.sq.qsel.toNat fun e => { e with stall := 0 } }
  else k

/-- RC registers of a core's unit pages (R86, R123, R190, R219). -/
def clearVec (v : VectorUnit) (off : Nat) : VectorUnit :=
  if off = 0x104 then { v with fpInvalid := 0 }
  else if off = 0x108 then { v with fpOverflow := 0 }
  else if off = 0x10C then { v with intOverflow := 0 }
  else if off = 0x110 then { v with stall := 0 }
  else v

/-- What a read of a register clears (R13): its RC field. -/
def State.clearRc (s : State) (p : Page) (off : Nat) : State :=
  if off = 0x024 then s.modPage p.number fun h => { h with tmoCount := 0 }
  else match p with
  | .clk => if off = 0x104 then { s with clock := { s.clock with holdovers := 0 } } else s
  | .ldg =>
    if off = 0x10C then { s with ledger := { s.ledger with badSample := 0 } }
    else if off = 0x110 then { s with ledger := { s.ledger with steps := 0 } } else s
  | .lat => if off = 0x108 then { s with adm := { s.adm with latRefused := 0 } } else s
  | .win => { s with win := clearWin s.win off }
  | .adm => { s with adm := clearAdm s.adm off }
  | .gov =>
    if off = 0x118 ∧ (s.slot s.adm.gsel.toNat).isDeployment = true then
      s.modSlot s.adm.gsel.toNat fun x => { x with gov := { x.gov with switches := 0 } }
    else s
  | .fab => if off = 0x120 then { s with fab := { s.fab with drop := 0 } } else s
  | .opt => if off = 0x120 then s.modEngine s.oeSel.toNat fun e => { e with cals := 0 } else s
  | .cht => if off = 0x104 then { s with charter := { s.charter with changes := 0 } } else s
  | .pwr => if off = 0x10C then { s with power := { s.power with ipeak := 0 } } else s
  | .dieClk d =>
    let k := 16 * d + (s.dieClock d).rsel.toNat
    if s.fused k then s
    else if off = 0x11C then s.modRegion k fun r => { r with droops := 0 }
    else if off = 0x120 then s.modRegion k fun r => { r with thrTicks := 0 } else s
  | .dieAcc d => s.modAccDie d fun a => clearAcc a off
  | .dieCht d =>
    if off = 0x100 then s.modCurator d fun x => { x with restarts := 0 }
    else if off = 0x104 then s.modCurator d fun x => { x with fenced := 0 } else s
  | .evl d => if off = 0x10C then s.modLog d fun l => { l with overwritten := 0 } else s
  | .tsd p => s.modPort p fun t => clearTsd t off
  | .fport n => s.modFport n fun p => clearFport p off
  | .shf k => s.modCluster k fun c => clearShf c off
  | .core c => s.modCore c fun k => clearCorePage k off
  | .mxe c =>
    if off = 0x120 then s.modMx c fun m => { m with swapWait := 0 }
    else if off = 0x124 then s.modMx c fun m => { m with stall := 0 } else s
  | .vec c => s.modVx c fun v => clearVec v off
  | .rdu c => if off = 0x104 then s.modRd c fun r => { r with stall := 0 } else s
  | .xfe c =>
    if off = 0x104 then s.modXf c fun u => { u with nacks := 0 }
    else if off = 0x108 then s.modXf c fun u => { u with lateResp := 0 }
    else if off = 0x10C then s.modXf c fun u => { u with retryReq := 0 } else s
  | .car c =>
    if off = 0x100 then s.modCar c fun u => { u with ce := 0 }
    else if off = 0x104 then s.modCar c fun u => { u with ue := 0 } else s
  | _ => s

/-- A read of one register of an existing page: the latches of a pair, then RC fields (R13, R432). -/
def State.regRead (s : State) (p : Page) (off : Nat) : State × W32 :=
  let now := s.regValue p off
  if p.pairs.contains off then
    let hi := s.regValue p (off + 4)
    (s.modPage p.number fun h => { h with latch := Tbl.put none h.latch (off + 4) (some hi) }, now)
  else match Tbl.get none (s.page p.number).latch off with
    | some v => (s.modPage p.number fun h => { h with latch := Tbl.put none h.latch off none }, v)
    | none => (s.clearRc p off, now)

/-- Why an access to an address is refused by itself (R20, R410, R425); the page otherwise. -/
def State.regPage (s : State) (addr : Nat) : Except Nat Page :=
  if addr % 4 ≠ 0 then .error stMalformed
  else match Page.ofNumber (addr / 4096) with
    | none => .error stMalformed
    | some p =>
      match p.coreOf with
      | some c => if s.fused (clusterOf c) then .error stNotPermitted else .ok p
      | none => .ok p

/-- The curator that received an access cannot reach the page's die: the interface retrains (R486) or the curator there
does not take commands (R444). -/
def State.regBusy (s : State) (port : Nat) (p : Page) : Bool :=
  match p.die with
  | some d => s.dieBusy port d
  | none => false

/-- The refusal of a read of an address. -/
def State.readFault (s : State) (port addr : Nat) : Option Nat :=
  match s.regPage addr with
  | .error st => some st
  | .ok p => if s.regBusy port p then some stBusy else none

/-- Reads a register by its address. -/
def State.readAddr (s : State) (addr : Nat) : State × W32 :=
  match Page.ofNumber (addr / 4096) with
  | some p => s.regRead p (addr % 4096)
  | none => (s, 0)

/-- Reads addresses in order, after every one has passed its checks; the first that does not decides (R410, R411). -/
def State.readAll (s : State) (port : Nat) (addrs : List Nat) : State × Answer :=
  match addrs.zipIdx.findSome? fun e => (s.readFault port e.1).map fun st => Reply.errAt st e.2 with
  | some r => (s, .done r)
  | none =>
    let r := addrs.foldl (fun (a : State × Bytes) addr =>
      let x := a.1.readAddr addr
      (x.1, a.2 ++ leBytes 4 x.2.toNat)) (s, [])
    (r.1, .done (Reply.ok r.2))

end Sys2Proof.Machine
end

