-- ==== Sys2Proof/Machine/TsdOps.lean ====
section
/-! DEFINITION. A Tsudan port leaves UP or TRAINING (R395, R400). -/

namespace Sys2Proof.Machine

open Sys2Proof

/-- A Tsudan port takes a state for a cause: sequences, retry buffer, waiting packets and commands stay, the credits
of the training are void; PORT_DOWN is raised from UP or TRAINING (R395, R400, R422). -/
def State.tsdFalls (s : State) (p : Nat) (st : LinkState) (cause : Nat) : State :=
  let t := s.port p
  let active := decide (t.state = .up) || decide (t.state = .training)
  let s := s.modPort p fun t =>
    { t with
      state := st, cause := if active then BitVec.ofNat 4 cause else t.cause, peerInit := false, rxAny := false, nak := false
      credits := [], credSeen := [], freed := [], above3 := 0, above2 := 0, replaysRun := 0, replayedFrom := none }
  if active then s.raise0 (tsdPage p) 1 else s

end Sys2Proof.Machine
end

