-- ==== Sys2Proof/Machine/RegWrite.lean ====
section
/-! DEFINITION. Register writes: the checks of every entry of a command in the order of R411, the plain effect of a write on
its register, and what the registers with behaviour of their own do. -/

namespace Sys2Proof.Machine

open Sys2Proof

-- what a write stores

/-- The fields of CTRL registers (R434, R436, R438, R441, R488, R522). A new reference starts unlocked unless it is LOCAL
(R221). -/
def State.setCtrl (s : State) (p : Page) (v : Nat) : State :=
  match p with
  | .gen => { s with gen := { s.gen with archivalOnly := decide (v % 2 = 1) } }
  | .clk =>
    if s.clock.refSel.toNat = v % 4 then s
    else { s with clock := { s.clock with refSel := BitVec.ofNat 2 v, refLock := decide (v % 4 = 0), refOffset := 0, holdover := false } }
  | .ldg => { s with ledger := { s.ledger with role := BitVec.ofNat 2 v, parentPort := BitVec.ofNat 6 (v / 4) } }
  | .pwr => { s with power := { s.power with shed := decide (v % 2 = 1) } }
  | .evl d => s.modLog d fun l => { l with logMasked := decide (v % 2 = 1) }
  | .shf k => s.modCluster k fun c => { c with mapout := decide (v / 4 % 2 = 1) }
  | _ => s

/-- The registers of the common header (R427). -/
def State.setHeader (s : State) (p : Page) (off v : Nat) : State :=
  let w : W32 := BitVec.ofNat 32 v
  if off = 0x008 then s.setCtrl p v
  else if off = 0x014 then s.modPage p.number fun h => { h with mask := w }
  else if off = 0x01C then s.modPage p.number fun h => { h with evtRaw := h.evtRaw &&& ~~~w }
  else if off = 0x020 ∧ p.timeouts ≠ [] then s.modPage p.number fun h => { h with tmoCfg := some w }
  else s

/-- WIN (R218, R206). -/
def State.setWin (s : State) (off v : Nat) : State :=
  let e := s.win.rsel.toNat
  if off = 0x100 then { s with win := { s.win with sel := BitVec.ofNat 12 v } }
  else if off = 0x140 then { s with win := { s.win with rsel := BitVec.ofNat 12 v } }
  else if off = 0x144 then
    s.modRemoteWin e fun r =>
      { r with valid := decide (v / 2 ^ 31 = 1), tenant := BitVec.ofNat 8 (v / 2 ^ 23), device := BitVec.ofNat 12 (v / 2 ^ 11)
               route := BitVec.ofNat 11 v }
  else if off = 0x148 then
    s.modRemoteWin e fun r => { r with handle := BitVec.ofNat 12 (v / 2 ^ 20), gen := BitVec.ofNat 20 v }
  else if off = 0x14C then s.modRemoteWin e fun r => { r with pages := BitVec.ofNat 19 v }
  else s

/-- One register of a latency class (R295). -/
def LatClass.set (c : LatClass) (off v : Nat) : LatClass :=
  match off % 16 with
  | 0 => { c with ttft := BitVec.ofNat 32 v }
  | 4 => { c with interval := BitVec.ofNat 32 v }
  | 8 => { c with queueMs := BitVec.ofNat 16 (v / 65536), promptMs := BitVec.ofNat 16 v }
  | _ => { c with stepUs := BitVec.ofNat 32 v }

/-- ADM (R308). -/
def State.setAdm (s : State) (off v : Nat) : State :=
  let t := s.adm.tsel.toNat
  let i := s.adm.dsel.toNat
  if off = 0x100 then { s with adm := { s.adm with tsel := BitVec.ofNat 8 v } }
  else if off = 0x104 then s.modTenant t fun x => { x with share := BitVec.ofNat 8 (v / 2 ^ 24), sessions := BitVec.ofNat 13 v }
  else if off = 0x108 then s.modTenant t fun x => { x with kvMib := BitVec.ofNat 32 v }
  else if off = 0x120 then { s with adm := { s.adm with dsel := BitVec.ofNat 6 v } }
  else if off = 0x124 then s.modSlot i fun x => { x with pool := BitVec.ofNat 20 v }
  else if off = 0x128 then s.modSlot i fun x => { x with dkv := BitVec.ofNat 32 v }
  else if off = 0x12C then s.modSlot i fun x => { x with lpart := BitVec.ofNat 8 (v / 2 ^ 24), units := BitVec.ofNat 16 v }
  else if 0x200 ≤ off ∧ off < 0x300 then
    { s with adm := { s.adm with
        classes := Tbl.modify LatClass.reset s.adm.classes ((off - 0x200) / 16) fun c => LatClass.set c off v } }
  else s

/-- The governor's registers (R304, R305, R310): AUTO after FIXED starts with both run counters at 0. -/
def Governor.set (g : Governor) (off v : Nat) : Governor :=
  if off = 0x104 then
    let fixed := decide (v / 2 ^ 31 % 2 = 1)
    let g := if g.fixed && !fixed then { g with upRun := 0, downRun := 0 } else g
    { g with fixed := fixed, variant := BitVec.ofNat 4 (v / 2 ^ 27) }
  else if off = 0x108 then { g with upUs := BitVec.ofNat 32 v }
  else if off = 0x10C then { g with downUs := BitVec.ofNat 32 v }
  else if off = 0x110 then
    { g with occHi := BitVec.ofNat 8 (v / 2 ^ 24), upSteps := BitVec.ofNat 8 (v / 2 ^ 16), downSteps := BitVec.ofNat 8 (v / 2 ^ 8)
             minSteps := BitVec.ofNat 8 v }
  else g

/-- SEC (R472), SEC_CTRL apart. -/
def State.setSec (s : State) (off v : Nat) : State :=
  let x := s.sec
  if off = 0x108 then { s with sec := { x with stageOfs := BitVec.ofNat 15 v } }
  else if off = 0x10C then { s with sec := { x with kset := decide (v / 256 % 2 = 1), kindex := BitVec.ofNat 6 v } }
  else if off = 0x11C then { s with sec := { x with tsel := BitVec.ofNat 8 v } }
  else if 0x800 ≤ off then { s with sec := { x with stage := x.stage.write (x.stageOfs.toNat + (off - 0x800)) (leBytes 4 v) } }
  else s

/-- SHF (R161, R178, R188, R189), SHF_CTRL apart. -/
def Cluster.set (c : Cluster) (off v : Nat) : Cluster :=
  if off = 0x128 then { c with scrub := decide (v / 32 % 2 = 1), gap := BitVec.ofNat 5 v }
  else if off = 0x130 then { c with thr := BitVec.ofNat 10 (v / 65536), ticks := BitVec.ofNat 16 v }
  else if off = 0x13C then
    { c with inject := ⟨c.inject.arm || decide (v / 2 ^ 31 = 1), BitVec.ofNat 3 (v / 2 ^ 28), BitVec.ofNat 8 (v / 2 ^ 20),
                        BitVec.ofNat 8 (v / 2 ^ 12)⟩ }
  else if off = 0x200 then { c with rsel := BitVec.ofNat 6 v }
  else if off = 0x214 then
    { c with rings := Tbl.modify Ring.reset c.rings c.rsel.toNat fun r => { r with patience := BitVec.ofNat 16 v } }
  else c

/-- CAR (R190). -/
def CarrelUnit.set (u : CarrelUnit) (off v : Nat) : CarrelUnit :=
  if off = 0x108 then { u with scrub := decide (v / 32 % 2 = 1), gap := BitVec.ofNat 5 v }
  else if off = 0x114 then
    { u with inject := ⟨u.inject.arm || decide (v / 2 ^ 31 = 1), u.inject.part, BitVec.ofNat 8 (v / 2 ^ 23), BitVec.ofNat 8 (v / 2 ^ 15)⟩ }
  else u

/-- CORE_QSEL: the endpoint shown; its high-water mark starts again (R160). -/
def Core.selectQueue (k : Core) (v : Nat) : Core :=
  let k := { k with sq := { k.sq with qsel := BitVec.ofNat 5 v } }
  if (qepClass (v % 32)).isSome then
    { k with queues := Tbl.modify Endpoint.reset k.queues (v % 32) fun e => { e with hwm := e.occ (v % 32) } }
  else k

/-- What a write stores at an offset of a page, beside what the register starts (R13). -/
def State.regSet (s : State) (p : Page) (off v : Nat) : State :=
  if off < 0x040 then s.setHeader p off v
  else match p with
  | .win => s.setWin off v
  | .acc =>
    if off = 0x100 then { s with acc := { s.acc with esel := BitVec.ofNat 4 v } }
    else if off = 0x130 then { s with acc := { s.acc with ssel := BitVec.ofNat 20 v } } else s
  | .adm => s.setAdm off v
  | .cat =>
    if off = 0x100 then ({ s with adm := { s.adm with autoFree := decide (v % 2 = 1) } } : State).autoFreeAll
    else if off = 0x108 then { s with adm := { s.adm with csel := BitVec.ofNat 12 v } } else s
  | .gov =>
    if off = 0x100 then { s with adm := { s.adm with gsel := BitVec.ofNat 6 v } }
    else s.modSlot s.adm.gsel.toNat fun x => { x with gov := Governor.set x.gov off v }
  | .fab =>
    if off = 0x10C then { s with fab := { s.fab with w1 := BitVec.ofNat 4 (v / 16), w2 := BitVec.ofNat 4 v } }
    else if off = 0x110 then { s with fab := { s.fab with rtsel := BitVec.ofNat 11 v } } else s
  | .opt => if off = 0x114 then { s with oeSel := BitVec.ofNat 4 v } else s
  | .sec => s.setSec off v
  | .dieClk d =>
    s.modDieClock d fun c =>
      if off = 0x100 then { c with tThr := BitVec.ofNat 7 v }
      else if off = 0x104 then { c with droopPct := BitVec.ofNat 4 v }
      else if off = 0x10C then { c with rsel := BitVec.ofNat 4 v } else c
  | .evl d => if off = 0x108 then s.modLog d fun l => { l with sel := BitVec.ofNat 32 v } else s
  | .tsd p =>
    if off = 0x100 then s.modPort p fun t => { t with events := decide (v / 4 % 2 = 1), enable := decide (v % 2 = 1) } else s
  | .fport n => if off = 0x100 then s.modFport n fun q => { q with enable := decide (v % 2 = 1) } else s
  | .shf k => s.modCluster k fun c => c.set off v
  | .core c => if off = 0x150 then s.modCore c fun k => k.selectQueue v else s
  | .vec c => if off = 0x100 then s.modVx c fun u => { u with trap := BitVec.ofNat 3 v } else s
  | .car c => s.modCar c fun u => u.set off v
  | _ => s

-- the checks

/-- A bit number of an injection: up to `top`, or 0xFF for none (R188, R190). -/
def injectBit (b top : Nat) : Bool := decide (b ≤ top) || decide (b = 0xFF)

/-- A value that lies outside the range of one of its register's fields, MALFORMED. -/
def State.rangeBad (s : State) (p : Page) (off v : Nat) : Bool :=
  let outside (x lo hi : Nat) : Bool := decide (x < lo) || decide (hi < x)
  let gov := (s.slot s.adm.gsel.toNat).gov
  if off = 0x020 then decide (p.timeouts ≠ []) && !p.tmoOk v
  else match p with
  | .clk => decide (off = 0x008) && (decide (v = 3) || (decide (v = 2) && decide (s.ledger.role = 2)))
  | .ldg => decide (off = 0x008) && (decide (v % 4 = 3) || (decide (v % 4 = 2) && decide (s.clock.refSel = 2)))
  | .dieClk _ => (decide (off = 0x100) && outside v 70 105) || (decide (off = 0x104) && outside v 3 12)
  | .adm =>
    (decide (off = 0x104) && decide (4096 < v % 8192)) || (decide (off = 0x12C) && decide (16384 < v % 65536))
      || (decide (0x200 ≤ off) && decide (off < 0x300) && decide (off % 16 = 8) && (decide (v / 65536 = 0) || decide (v % 65536 = 0)))
      || (decide (0x200 ≤ off) && decide (off < 0x300) && decide (off % 16 = 12) && outside v 100 10000000)
  | .gov =>
    (decide (off = 0x104) && (s.slot s.adm.gsel.toNat).isDeployment
        && decide ((s.slot s.adm.gsel.toNat).variants ≤ v / 2 ^ 27 % 16))
      || (decide (off = 0x108) && decide (v ≤ gov.downUs.toNat)) || (decide (off = 0x10C) && decide (gov.upUs.toNat ≤ v))
      || (decide (off = 0x110) && [0, 8, 16, 24].any fun b => decide (v / 2 ^ b % 256 = 0))
  | .fab => decide (off = 0x10C) && (decide (v / 16 = 0) || decide (v % 16 = 0))
  | .sec =>
    (decide (off = 0x008) && outside v 1 4) || (decide (off = 0x108) && (decide (v % 2048 ≠ 0) || decide (18432 < v)))
  | .shf _ =>
    (decide (off = 0x128) && outside (v % 32) 6 20) || (decide (off = 0x130) && decide (v % 65536 = 0))
      || (decide (off = 0x214) && decide (v < 16))
      || (decide (off = 0x13C) && !(injectBit (v / 2 ^ 20 % 256) 136 && injectBit (v / 2 ^ 12 % 256) 136))
  | .car _ =>
    (decide (off = 0x108) && outside (v % 32) 6 20)
      || (decide (off = 0x114) && !(injectBit (v / 2 ^ 23 % 256) 71 && injectBit (v / 2 ^ 15 % 256) 71))
  | _ => false

/-- The write is one that isolates the cluster beneath a shelf: ISOLATE, or MAPOUT while it is 0 (R489). -/
def State.isolates (s : State) (k v : Nat) : Bool := decide (v % 2 = 1) || (decide (v / 4 % 2 = 1) && !(s.cluster k).mapout)

/-- NOT_PERMITTED: region 0x1 and isolation are the charter holder's (R405, R489), the governor of a deployment is its
head's (R306). -/
def State.forbidden (s : State) (port : Nat) (p : Page) (off v : Nat) : Bool :=
  (decide (p.die = none) && !s.holds port)
    || match p with
      | .gov =>
        let x := s.slot s.adm.gsel.toNat
        decide (0x104 ≤ off) && decide (off ≤ 0x110) && x.isDeployment && !x.isHead
      | .shf k => decide (off = 0x008) && s.isolates k v && (!s.holds port || s.fused k)
      | _ => false

/-- WRONG_STATE of an object in use: SPACE 0xE, INDEX the slot or edition index that uses it (R409). -/
def Reply.inUse (index : Nat) : Reply := Reply.wrong 0xE 1 1 index

/-- The first slot for which `p` holds. -/
def State.firstSlot (s : State) (p : Slot → Bool) : Option Nat := (s.slots.find? fun e => p e.2).map Prod.fst

/-- The folio slot or edition index that bars a calibration of engine `e` (R366). -/
def State.engineUser (s : State) (e : Nat) : Option Nat :=
  let on (n : Nat) : Bool := decide (engineOf n = e)
  (s.firstSlot fun x => decide (x.state = .running) && match x.folio with
      | some f => f.routes.any fun r => on (s.route r).egress
      | none => false).orElse
    fun _ => (s.editions.find? fun x => decide (x.2.state = .receiving)
      && ((x.2.relayOut && on x.2.nextPort) || (x.2.fromUp && on x.2.upPort))).map Prod.fst

/-- The folio of a slot carries no archival variants: as the slot holds it, or, while it loads, as the header that has
arrived says (R30, R276). -/
def State.noArchival (s : State) (x : Slot) : Bool :=
  match x.folio, x.load with
  | some f, _ => !f.archival
  | none, some (p, tag) =>
    match (s.port p).cmds.find? fun c => c.tag = tag with
    | some c => !(readLoad c.buf none).archival
    | none => false
  | none, none => false

/-- A write of a remote window entry of a tenant: not while a program of the tenant runs (R206) or a load for it is
under way (R276). -/
def State.remoteFault (s : State) (t i : Nat) : Option Reply :=
  match s.firstSlot fun x => decide (x.state = .running) && decide (x.tenant = t) with
  | some j => some (Reply.inUse j)
  | none =>
    if (s.firstSlot fun x => decide (x.state = .loading) && decide (x.tenant = t)).isSome then some (Reply.errAt stBusy i)
    else none

/-- A yield (R449). -/
def State.yieldFault (s : State) (port : Nat) (tag : BitVec 32) (i : Nat) : Option Reply :=
  if !s.live (1 - port) then some (Reply.errAt stNoResource i)
  else if (s.port port).cmds.any fun c => decide (c.tag ≠ tag) && (needsCharter c.code
      || (match c.wait with | .yield => true | .isolate _ => true | _ => false)) then some (Reply.errAt stBusy i)
  else none

/-- An isolation that its cluster's slots refuse (R489). -/
def State.isolateFault (s : State) (k v i : Nat) : Option Reply :=
  if s.isolated k then none
  else match s.slots.find? fun e => (decide (e.2.state = .loading) || decide (e.2.state = .loaded)) && e.2.claims k with
    | some e => some (Reply.wrong 2 e.2.state.code 0x19 i)
    | none =>
      if v / 2 % 2 = 1 then none
      else match s.slots.find? fun e => decide (e.2.state = .running) && e.2.claims k with
        | some e => some (Reply.wrong 2 e.2.state.code 0x17 i)
        | none => none

/-- The state conditions of the registers that have one (R206, R221, R286, R307, R366, R435, R489). -/
def State.stateFault (s : State) (port : Nat) (tag : BitVec 32) (i : Nat) (p : Page) (off v : Nat) : Option Reply :=
  match p with
  | .gen =>
    if off = 0x008 ∧ v = 1 then
      (s.firstSlot fun x => decide (x.state ≠ .empty) && s.noArchival x).map Reply.inUse
    else none
  | .clk =>
    if off = 0x008 ∧ v ≠ s.clock.refSel.toNat then (s.firstSlot fun x => decide (x.state = .running)).map Reply.inUse else none
  | .win =>
    let r := s.remoteWin s.win.rsel.toNat
    if 0x144 ≤ off ∧ off ≤ 0x14C ∧ r.valid = true then s.remoteFault r.tenant.toNat i else none
  | .adm =>
    let x := s.slot s.adm.dsel.toNat
    if (off = 0x104 ∨ off = 0x108) ∧ (s.tenant s.adm.tsel.toNat).state = .unbound then some (Reply.wrong 4 0 6 i)
    else if 0x124 ≤ off ∧ off ≤ 0x12C ∧ x.state ≠ .loaded then some (Reply.wrong 2 x.state.code 4 i) else none
  | .gov =>
    let j := s.adm.gsel.toNat
    if off = 0x104 ∧ v / 2 ^ 31 = 1 ∧ (s.slot j).isDeployment = true ∧ s.eligible j (v / 2 ^ 27 % 16) = false then
      some (Reply.inUse j)
    else none
  | .opt => if off = 0x11C ∧ v = 1 then (s.engineUser s.oeSel.toNat).map Reply.inUse else none
  | .cht => if off = 0x008 ∧ v = 1 then s.yieldFault port tag i else none
  | .sec =>
    if off = 0x008 then
      let r := (s.secOperation v).2
      if r.status = stOk then none else some { r with index := i }
    else none
  | .shf k =>
    if off = 0x008 ∧ s.isolates k v = true then s.isolateFault k v i
    else if off = 0x13C ∧ v / 2 ^ 31 = 1 then
      let kind := (s.part k (v / 2 ^ 28 % 8)).kind
      if kind = .free then none else some (Reply.wrong 0xC kind.code 1 i)
    else none
  | .car c =>
    if off = 0x114 ∧ v / 2 ^ 31 = 1 ∧ (s.core c).sq.tenant.isSome = true then some (Reply.wrong 0xD 1 1 i) else none
  | _ => none

/-- The checks of one entry in the order of R411: address, RSVD bits, range, permission, state; a die that cannot be
reached after the permission. -/
def State.writeFault (s : State) (port : Nat) (tag : BitVec 32) (i addr v : Nat) : Option Reply :=
  match s.regPage addr with
  | .error st => some (Reply.errAt st i)
  | .ok p =>
    let off := addr % 4096
    let mask := p.writeMask off
    if (match mask with | some m => decide ((BitVec.ofNat 32 v : W32) &&& ~~~(BitVec.ofNat 32 m) ≠ 0) | none => false) then
      some (Reply.errAt stMalformed i)
    else if mask.isSome && s.rangeBad p off v then some (Reply.errAt stMalformed i)
    else if s.forbidden port p off v then some (Reply.errAt stNotPermitted i)
    else if s.regBusy port p then some (Reply.errAt stBusy i)
    else s.stateFault port tag i p off v

/-- What an entry stores, where its register is writable. -/
def State.entrySet (s : State) (addr v : Nat) : State :=
  match Page.ofNumber (addr / 4096) with
  | some p => if (p.writeMask (addr % 4096)).isSome then s.regSet p (addr % 4096) v else s
  | none => s

/-- The first entry that fails its checks: its refusal, its address and value, and the state it was checked in. Each entry
is checked as if the ones before it had been stored. -/
def State.firstFault (port : Nat) (tag : BitVec 32) : List ((Nat × Nat) × Nat) → State → Option (Reply × Nat × Nat × State)
  | [], _ => none
  | e :: rest, s =>
    match s.writeFault port tag e.2 e.1.1 e.1.2 with
    | some r => some (r, e.1.1, e.1.2, s)
    | none => State.firstFault port tag rest (s.entrySet e.1.1 e.1.2)

-- what a write starts

/-- LDG_CTRL.ROLE (R235, R236, R239). -/
def State.roleChanged (s : State) (old : BitVec 2) : State :=
  if s.ledger.role = 2 then
    (if s.ledger.state = .root then s
     else
      let s := s.rootForward
      ({ s with ledger := { s.ledger with parent := none, dist := 0, rootId := s.srcId } } : State).setLdg .root)
  else if old = 2 ∧ s.ledger.state = .root then
    ({ s with ledger := { s.ledger with dist := 15 } } : State).setLdg .holdover
  else s

/-- TSD_PORT_CTRL (R395, R422). -/
def State.tsdControl (s : State) (p v : Nat) : State :=
  let t := s.port p
  if v % 2 = 0 then (if t.state = .disabled then s else s.tsdFalls p .disabled 1)
  else
    let s := if t.state = .disabled then s.modPort p fun t => { t with state := .down } else s
    if v / 2 % 2 = 1 then
      let s := s.modPort p fun t => { t with retrain := true }
      if t.state = .up ∨ t.state = .training then s.tsdFalls p .down 5 else s
    else s

/-- FAB_PORT_CTRL (R368, R389, R493). -/
def State.fabControl (s : State) (n v : Nat) : State :=
  let q := s.fport n
  if v % 2 = 0 then (if q.state = .disabled then s else (s.portFalls n .disabled 1).progress)
  else
    let s := if q.state = .disabled then s.modFport n fun q => { q with state := .down } else s
    if v / 2 % 2 = 1 then
      let s := s.modFport n fun q => { q with retrain := true }
      if q.state = .up ∨ q.state = .training then (s.portFalls n .down 0xA).progress else s
    else s

/-- OPT_OE_CTRL.CALIBRATE (R366); an engine without light, or being calibrated, takes nothing up. -/
def State.calibrate (s : State) (e : Nat) : State :=
  let x := s.engine e
  if x.state = .shed ∨ x.state = .calibrating then s
  else (((s.startCalibration e).modEngine e fun x => { x with calibrate := true }).engineDown e 8).progress

/-- Isolation of a cluster (R489): a RUNNING program that claims it faults first. -/
def State.isolate (s : State) (k : Nat) : State :=
  if s.isolated k then s
  else match s.firstSlot fun x => decide (x.state = .running) && x.claims k with
    | some i => ((s.modCluster k fun c => { c with isolating := true }).programFault i reasonIsolate none).progress
    | none => s.startIsolation k

/-- One entry is written: what it stores, then what it starts. `old` is the state before the entry. -/
def State.entryAct (port : Nat) (tag : BitVec 32) (s : State) (addr v : Nat) : State :=
  let old := s
  let s := s.entrySet addr v
  let off := addr % 4096
  match Page.ofNumber (addr / 4096) with
  | some .ldg => if off = 0x008 then s.roleChanged old.ledger.role else s
  | some .cht =>
    if off = 0x008 ∧ v = 1 then { s with charter := { s.charter with yieldPending := some (port, tag) } } else s
  | some .sec => if off = 0x008 then (s.secOperation v).1 else s
  | some (.shf k) => if off = 0x008 ∧ old.isolates k v = true then s.isolate k else s
  | some (.tsd p) => if off = 0x100 then s.tsdControl p v else s
  | some (.fport n) => if off = 0x100 then s.fabControl n v else s
  | some .opt => if off = 0x11C ∧ v = 1 then s.calibrate s.oeSel.toNat else s
  | _ => s

/-- The cluster that an entry isolates. -/
def State.entryCluster (s : State) (addr v : Nat) : Option Nat :=
  match Page.ofNumber (addr / 4096) with
  | some (.shf k) => if addr % 4096 = 0x008 ∧ s.isolates k v = true then some k else none
  | _ => none

/-- Whether an entry yields the charter. -/
def entryYields (addr v : Nat) : Bool := decide (addr = chtPage * 4096 + 0x008) && decide (v = 1)

/-- A write to region 0x1 from a curator without the lease is discarded and counted (R450, R471). -/
def State.fence (s : State) (d : Nat) : State := s.modCurator d fun x => { x with fenced := sat32 x.fenced 1 }

/-- Writes entries in order after every one has passed its checks (R411). The command waits for a yield to be applied
(R449) and for its clusters to be isolated (R489). A refused operation that uses presence still closes its window
(R465). -/
def writeAll (port : Nat) (tag : BitVec 32) (l : List (Nat × Nat)) (s : State) : State × Answer :=
  match State.firstFault port tag l.zipIdx s with
  | some (r, addr, v, seen) =>
    let s := if r.status = stNotPermitted ∧ addr / 2 ^ 28 = 1 ∧ seen.holds port = false then s.fence port else s
    let t := (seen.secOperation v).1.sec
    if addr = secPage * 4096 + 0x008 ∧ seen.holds port = true then
      ({ s with sec := { s.sec with presence := t.presence, operation := t.operation } }, .done r)
    else (s, .done r)
  | none =>
    let clusters := l.filterMap fun e => s.entryCluster e.1 e.2
    let s := l.foldl (fun (s : State) e => State.entryAct port tag s e.1 e.2) s
    let left := clusters.filter fun k => !s.isolated k
    if l.any fun e => entryYields e.1 e.2 then (s, .waits .yield)
    else if left ≠ [] then (s, .waits (.isolate left))
    else (s, .done (Reply.ok []))

/-- REG_WRITE of one entry: the rows of registers that have behaviour of their own. -/
def State.writeOne (s : State) (port : Nat) (tag : BitVec 32) (page off v : Nat) : State :=
  s.runCommand port tag 0x03 (writeAll port tag [(page * 4096 + off, v)])

end Sys2Proof.Machine
end

