-- ==== Sys2Proof/Machine/Regs.lean ====
section
/-! DEFINITION. The meanings of ECHO, the register commands, the register writes that have behaviour of their own, and the
management bus (R410, R411, R442, R509, R510). -/

namespace Sys2Proof.Machine

open Sys2Proof

/-- ECHO returns its payload (R410). -/
def echoOp (b : Bytes) (s : State) : State × Answer :=
  if 65536 < b.length then refuse (Reply.err stMalformed) s else (s, .done (Reply.ok b))

/-- ECHO. -/
def execEcho (port : TPort) (tag : BitVec 32) (payload : Bytes) (s : State) : Host.Outcome State Fault Refusal :=
  .next (s.runCommand port tag 0x01 (echoOp payload))

/-- REG_READ (R410). -/
def regReadOp (port : Nat) (b : Bytes) (s : State) : State × Answer :=
  let n := fldAt b 0 4
  if n = 0 ∨ 256 < n ∨ b.length ≠ 4 + 4 * n then refuse (Reply.err stMalformed) s
  else s.readAll port ((List.range n).map fun i => fldAt b (4 + 4 * i) 4)

/-- REG_READ. -/
def execRegRead (port : TPort) (tag : BitVec 32) (payload : Bytes) (s : State) : Host.Outcome State Fault Refusal :=
  .next (s.runCommand port tag 0x02 (regReadOp port payload))

/-- REG_WRITE (R410, R411). -/
def regWriteOp (port : Nat) (tag : BitVec 32) (b : Bytes) (s : State) : State × Answer :=
  let n := fldAt b 0 4
  if n = 0 ∨ 256 < n ∨ b.length ≠ 4 + 8 * n then refuse (Reply.err stMalformed) s
  else writeAll port tag ((List.range n).map fun i => (fldAt b (4 + 8 * i) 4, fldAt b (8 + 8 * i) 4)) s

/-- REG_WRITE. -/
def execRegWrite (port : TPort) (tag : BitVec 32) (payload : Bytes) (s : State) : Host.Outcome State Fault Refusal :=
  .next (s.runCommand port tag 0x03 (regWriteOp port tag payload))

/-- REG_BLOCK (R410, R411): a block lies within one page. -/
def regBlockOp (port : Nat) (tag : BitVec 32) (b : Bytes) (s : State) : State × Answer :=
  let op := fldAt b 0 1
  let start := fldAt b 4 4
  let n := fldAt b 8 4
  if 1 < op ∨ zeroAt b 1 3 = false ∨ zeroAt b 12 4 = false ∨ n = 0 ∨ 1024 < n ∨ start % 4 ≠ 0 ∨ 4096 < start % 4096 + 4 * n
      ∨ b.length ≠ 16 + (if op = 1 then 4 * n else 0) then refuse (Reply.err stMalformed) s
  else if op = 0 then s.readAll port ((List.range n).map fun i => start + 4 * i)
  else writeAll port tag ((List.range n).map fun i => (start + 4 * i, fldAt b (16 + 4 * i) 4)) s

/-- REG_BLOCK. -/
def execRegBlock (port : TPort) (tag : BitVec 32) (payload : Bytes) (s : State) : Host.Outcome State Fault Refusal :=
  .next (s.runCommand port tag 0x04 (regBlockOp port tag payload))

-- registers with behaviour of their own: each row is the REG_WRITE of its one entry

/-- SEC_CTRL.OP 1 (R466). -/
def execRotateFwkeys (port : TPort) (tag : BitVec 32) (s : State) : Host.Outcome State Fault Refusal :=
  .next (s.writeOne port tag secPage 0x008 1)

/-- SEC_CTRL.OP 2 (R466). -/
def execEnrollChain (port : TPort) (tag : BitVec 32) (s : State) : Host.Outcome State Fault Refusal :=
  .next (s.writeOne port tag secPage 0x008 2)

/-- SEC_CTRL.OP 3 (R454). -/
def execInstallKey (port : TPort) (tag : BitVec 32) (s : State) : Host.Outcome State Fault Refusal :=
  .next (s.writeOne port tag secPage 0x008 3)

/-- SEC_CTRL.OP 4 (R454). -/
def execRemoveKey (port : TPort) (tag : BitVec 32) (s : State) : Host.Outcome State Fault Refusal :=
  .next (s.writeOne port tag secPage 0x008 4)

/-- CHT_CTRL.YIELD (R449). -/
def execYield (port : TPort) (tag : BitVec 32) (s : State) : Host.Outcome State Fault Refusal :=
  .next (s.writeOne port tag chtPage 0x008 1)

/-- SHF_CTRL.ISOLATE, with FORCE, MAPOUT kept as it is (R489). -/
def execIsolate (port : TPort) (tag : BitVec 32) (cluster : ClusterId) (force : Bool) (s : State) :
    Host.Outcome State Fault Refusal :=
  .next (s.writeOne port tag (shfPage cluster) 0x008 (1 + 2 * force.toNat + 4 * (s.cluster cluster).mapout.toNat))

/-- SHF_CTRL.MAPOUT (R489, R491). -/
def execMapout (port : TPort) (tag : BitVec 32) (cluster : ClusterId) (on : Bool) (s : State) :
    Host.Outcome State Fault Refusal :=
  .next (s.writeOne port tag (shfPage cluster) 0x008 (4 * on.toNat))

/-- OPT_OE_CTRL.CALIBRATE of the selected engine (R366). -/
def execCalibrate (port : TPort) (tag : BitVec 32) (s : State) : Host.Outcome State Fault Refusal :=
  .next (s.writeOne port tag optPage 0x11C 1)

/-- FAB_PORT_CTRL.ENABLE (R368). -/
def execFabPortEnable (port : TPort) (tag : BitVec 32) (fport : FPort) (on : Bool) (s : State) :
    Host.Outcome State Fault Refusal :=
  .next (s.writeOne port tag (fportPage fport) 0x100 on.toNat)

/-- FAB_PORT_CTRL.RETRAIN, ENABLE kept as it is (R368, R493). -/
def execFabPortRetrain (port : TPort) (tag : BitVec 32) (fport : FPort) (s : State) : Host.Outcome State Fault Refusal :=
  .next (s.writeOne port tag (fportPage fport) 0x100 (2 + (s.fport fport).enable.toNat))

/-- TSD_PORT_CTRL.ENABLE, EVENTS kept as it is (R395). -/
def execTsdPortEnable (port : TPort) (tag : BitVec 32) (tport : TPort) (on : Bool) (s : State) :
    Host.Outcome State Fault Refusal :=
  .next (s.writeOne port tag (tsdPage tport) 0x100 (4 * (s.port tport).events.toNat + on.toNat))

/-- TSD_PORT_CTRL.RETRAIN, EVENTS and ENABLE kept as they are (R395). -/
def execTsdPortRetrain (port : TPort) (tag : BitVec 32) (tport : TPort) (s : State) : Host.Outcome State Fault Refusal :=
  .next (s.writeOne port tag (tsdPage tport) 0x100 (4 * (s.port tport).events.toNat + 2 + (s.port tport).enable.toNat))

/-- EVT_CLEAR of a page (R427, R429, R430). -/
def execEvtClear (port : TPort) (tag : BitVec 32) (page : BitVec 20) (bits : BitVec 32) (s : State) :
    Host.Outcome State Fault Refusal :=
  .next (s.writeOne port tag page.toNat 0x01C bits.toNat)

/-- GEN_CTRL.ARCHIVAL_ONLY (R30). -/
def execArchivalOnly (port : TPort) (tag : BitVec 32) (on : Bool) (s : State) : Host.Outcome State Fault Refusal :=
  .next (s.writeOne port tag genPage 0x008 on.toNat)

/-- CLK_CTRL.REF_SEL (R221). -/
def execRefSel (port : TPort) (tag : BitVec 32) (sel : BitVec 2) (s : State) : Host.Outcome State Fault Refusal :=
  .next (s.writeOne port tag clkPage 0x008 sel.toNat)

/-- LDG_CTRL (R235, R236). -/
def execLdgRole (port : TPort) (tag : BitVec 32) (role : BitVec 2) (parent : BitVec 6) (s : State) :
    Host.Outcome State Fault Refusal :=
  .next (s.writeOne port tag ldgPage 0x008 (role.toNat + 4 * parent.toNat))

/-- GOV_CTRL of the selected deployment (R305, R306). -/
def execGovCtrl (port : TPort) (tag : BitVec 32) (fixed : Bool) (variant : BitVec 4) (s : State) :
    Host.Outcome State Fault Refusal :=
  .next (s.writeOne port tag govPage 0x104 (fixed.toNat * 2 ^ 31 + variant.toNat * 2 ^ 27))

/-- SHF_ECC_INJECT with ARM (R188, R189). -/
def execShfEccInject (port : TPort) (tag : BitVec 32) (cluster : ClusterId) (part : BitVec 3) (bita bitb : BitVec 8) (s : State) :
    Host.Outcome State Fault Refusal :=
  .next (s.writeOne port tag (shfPage cluster) 0x13C
    (2 ^ 31 + part.toNat * 2 ^ 28 + bita.toNat * 2 ^ 20 + bitb.toNat * 2 ^ 12))

/-- CAR_ECC_INJECT with ARM (R190). -/
def execCarEccInject (port : TPort) (tag : BitVec 32) (core : CoreId) (bita bitb : BitVec 8) (s : State) :
    Host.Outcome State Fault Refusal :=
  .next (s.writeOne port tag (carPage core) 0x114 (2 ^ 31 + bita.toNat * 2 ^ 23 + bitb.toNat * 2 ^ 15))

/-- CORE_QSEL (R160). -/
def execCoreQsel (port : TPort) (tag : BitVec 32) (core : CoreId) (qep : BitVec 5) (s : State) :
    Host.Outcome State Fault Refusal :=
  .next (s.writeOne port tag (corePage core) 0x150 qep.toNat)

-- the management bus

/-- The page is one that the bus reads now (R442, R510). -/
def State.busPage (s : State) (p : Page) : Bool :=
  match p with
  | .pwr => s.power.inputOn
  | .gen => s.power.railsOn
  | .opt => s.power.railsOn
  | .evl _ => s.power.railsOn
  | _ => false

/-- One register read by the bus: no RC field clears, and _HI values latch apart (R510). -/
def State.busRead (s : State) (p : Page) (addr : Nat) : State × W32 :=
  let off := addr % 4096
  let now := s.regValue p off
  if p.pairs.contains off then
    ({ s with busLatch := Tbl.put none s.busLatch (addr + 4) (some (s.regValue p (off + 4))) }, now)
  else match Tbl.get none s.busLatch addr with
    | some v => ({ s with busLatch := Tbl.put none s.busLatch addr none }, v)
    | none => (s, now)

/-- The bytes of a transaction before its data: the address bytes of the bus target and the register address (R509). -/
def State.busHead (s : State) (addr count : Nat) : Bytes :=
  let target := 2 * (0x58 + s.fuses.ga.toNat)
  [BitVec.ofNat 8 target] ++ leBytes 4 addr ++ [BitVec.ofNat 8 count, BitVec.ofNat 8 (target + 1)]

/-- The data bytes of a read and their PEC (R509). -/
def State.busTransfer (s : State) (p : Page) (addr count : Nat) : State :=
  let r := (List.range count).foldl (fun (a : State × Bytes) i =>
    let x := a.1.busRead p (addr + 4 * i)
    (x.1, a.2 ++ leBytes 4 x.2.toNat)) (s, [])
  { r.1 with busData := some (r.2 ++ [crc8 (s.busHead addr count ++ r.2)]) }

/-- A read on the management bus (R509, R510): its data bytes, or a NACK of the COUNT byte. -/
def execMgmtBusRead (addr : BitVec 32) (count : BitVec 8) (s : State) : Host.Outcome State Fault Refusal :=
  let a := addr.toNat
  let n := count.toNat
  .next (match Page.ofNumber (a / 4096) with
    | some p =>
      if a % 4 ≠ 0 ∨ 4096 < a % 4096 + 4 * n ∨ n = 0 ∨ 16 < n ∨ s.busPage p = false then { s with busData := none }
      else s.busTransfer p a n
    | none => { s with busData := none })

end Sys2Proof.Machine
end

