-- ==== Sys2Proof/Machine/Repair.lean ====
section
/-! DEFINITION. The meanings of the rows on program faults, recovery and table errors (chapter "Faults, timeouts and live
repair"). -/

namespace Sys2Proof.Machine

open Sys2Proof

/-- A stamp that core `core` waits at has not released within the hold timeout (R435, R150); nothing where the core has
arrived at none. -/
def execHoldTimeout (core : CoreId) (s : State) : Host.Outcome State Fault Refusal :=
  .next (match (s.core core).sq.stamp, s.slotOf core with
    | some st, some slot =>
      if st.arrived = false then s
      else
        let waiting := (s.slot slot).cores.filter fun c => match (s.core c).sq.stamp with
          | some x => x.arrived
          | none => false
        let s := waiting.foldl (fun (s : State) c =>
          s.raise (corePage c) 3 (leBytes 2 (s.core c).sq.stampId.toNat)) s
        ((s.countTmo genPage).programFault slot reasonHoldTimeout none).progress
    | _, _ => s)

/-- Every core of a FAULTED slot reads RUN = 0 (R481); nothing otherwise. -/
def execFaultedSlotClear (slot : SlotId) (s : State) : Host.Outcome State Fault Refusal := .next (s.clearFaultedSlot slot)

/-- Every core of the halted slot reads RUN = 0 (R278); nothing otherwise. -/
def execHaltComplete (slot : SlotId) (s : State) : Host.Outcome State Fault Refusal := .next (s.endHalt slot)

/-- At a tick boundary the curator starts a recovery run (R482). -/
def execRecoveryRun (cluster : ClusterId) (s : State) : Host.Outcome State Fault Refusal := .next (s.startRecovery cluster)

/-- A recovery run ends (R482); nothing where none is under way. -/
def execRecoveryRunEnd (cluster : ClusterId) (passed : Bool) (s : State) : Host.Outcome State Fault Refusal :=
  .next (s.endRecovery cluster passed)

/-- An uncorrectable error in an on-die table (R485). -/
def execTableEccUe (table : EccTable) (s : State) : Host.Outcome State Fault Refusal :=
  .next (match table with
    | .catalogue i =>
      let x := s.session i
      if x.state = .opened ∨ x.state = .admitted then (s.closeSession i endFault).sessionEnded x.slot
      else if x.state.inBatch then s.modSession i fun x => { x with tableUe := true }
      else s
    | .slotTable slot => (s.programFault slot reasonMemory none).progress
    | .standingRoute e =>
      let r := s.route e
      if r.valid ∧ r.standing then s.setRoute e { r with w0 := r.w0 &&& ~~~(0x200#32) } else s)

end Sys2Proof.Machine
end

