-- ==== Sys2Proof/Machine/Session.lean ====
section
/-! DEFINITION. The meanings of the rows on sessions (chapters "Tenants, sessions and admission" and "Generation, speculation and
streaming"): the session commands, their timeouts, and the token packets. -/

namespace Sys2Proof.Machine

open Sys2Proof

/-- SESSION_OPEN (R292). -/
def execSessionOpen (port : TPort) (tag : BitVec 32) (payload : Bytes) (s : State) : Host.Outcome State Fault Refusal :=
  .next (s.runCommand port tag 0x20 (sessionOpenOp port payload))

/-- PROMPT_APPEND (R293): the record of a session that admission refuses follows the completion. -/
def execPromptAppend (port : TPort) (tag : BitVec 32) (payload : Bytes) (s : State) : Host.Outcome State Fault Refusal :=
  .next (s.runCommand port tag 0x21 (promptAppendOp port payload)).settleRefused

/-- SESSION_CANCEL (R290, R291, R332). -/
def execSessionCancel (port : TPort) (tag : BitVec 32) (payload : Bytes) (s : State) : Host.Outcome State Fault Refusal :=
  .next (s.runCommand port tag 0x22 (sessionCancelOp port payload))

/-- SESSION_CLOSE (R291). -/
def execSessionClose (port : TPort) (tag : BitVec 32) (payload : Bytes) (s : State) : Host.Outcome State Fault Refusal :=
  .next (s.runCommand port tag 0x23 (sessionCloseOp port payload))

/-- The ledger has passed `t0` by `n` units. -/
def State.passed (s : State) (t0 : W64) (n : Nat) : Bool := decide (t0.toNat + n ≤ s.now.toNat)

/-- An OPEN session's prompt has stayed incomplete for PROMPT_MS (R294); nothing before. -/
def execPromptTimeout (index : SessIdx) (s : State) : Host.Outcome State Fault Refusal :=
  let x := s.session index
  .next (if x.state = .opened ∧ x.promptReceived < x.promptTokens
      ∧ s.passed x.ledgerOpen (x.lat.promptMs.toNat * 16000000) = true then
      (s.closeSession index endTimeout).sessionEnded x.slot
    else s)

/-- The reason with which a session whose queue time expires is refused (R299): that of its last evaluation, free where it
never had one. -/
def State.queueReason (s : State) (x : Session) : State × Nat :=
  if x.refuseReason = 0 then (s.draw.2, 1 + (Config.freeWord s.freeCtr).toNat % 4) else (s, x.refuseReason)

/-- A session has been queued for QUEUE_MS (R294, R299); nothing before. -/
def execQueueTimeout (index : SessIdx) (s : State) : Host.Outcome State Fault Refusal :=
  let x := s.session index
  .next (if x.state = .opened ∧ x.queued = true ∧ s.passed x.queuedAt (x.lat.queueMs.toNat * 16000000) = true then
      let r := s.queueReason x
      ((r.1.raise0 admPage 1).refuseSession index r.2).closeRefused index
    else s)

/-- A session's step timeout has expired (R294): it is closed from ADMITTED, marked for the next commit in PREFILL or
DECODE; nothing before. -/
def execStepTimeout (index : SessIdx) (s : State) : Host.Outcome State Fault Refusal :=
  let x := s.session index
  let from_ := if x.ledgerCommit = 0 then x.ledgerAdmit else x.ledgerCommit
  .next (if x.state.inBatch = false ∨ s.passed from_ (x.lat.stepUs.toNat * 16000) = false then s
    else if x.state = .admitted then (s.closeSession index endTimeout).sessionEnded x.slot
    else s.modSession index fun x => { x with stepExpired := true })

/-- 50 µs have passed since the commit of an open packet's first token: it closes (R334); nothing before. -/
def execTokenPacketClose (index : SessIdx) (s : State) : Host.Outcome State Fault Refusal :=
  let first := ((s.session index).openPkt.bind fun p => p.tokens.head?).map OutToken.stamp
  .next (match first with
    | some t => if s.passed t 800000 then s.modSession index Session.closePacket else s
    | none => s)

/-- The credits and the retry buffer of the session's port allow its oldest closed packet, and no other packet is due
first (R335, R399, R402). -/
def State.tokenReady (s : State) (index : Nat) : Bool :=
  let x := s.session index
  let t := s.port x.port
  match x.closedPkts with
  | [] => false
  | p :: _ => decide (t.state = .up) && (t.headOf 1).isNone
      && decide (packetUnits (x.tokenPayload index p) ≤ Tbl.get 0 t.credits 1)
      && t.room (tokenPacket (x.tokenPayload index p)) && t.choose.isNone

/-- The oldest closed packet of a session is sent; the one that holds the completion record ends the session (R290, R335);
nothing while no packet is closed or no credit allows it. -/
def execTokenPacketSend (index : SessIdx) (s : State) : Host.Outcome State Fault Refusal :=
  .next (if s.tokenReady index then
      let slot := (s.session index).slot
      let s := s.sendToken index
      if (s.session index).state = .closed ∨ (s.session index).state = .free then s.sessionEnded slot else s
    else s)

end Sys2Proof.Machine
end

