-- ==== Sys2Proof/Machine/Shelf.lean ====
section
/-! DEFINITION. The meanings of the rows on shelves and carrels (chapter "Carrels and shelves"). -/

namespace Sys2Proof.Machine

open Sys2Proof

/-- One shelf cycle (R168, R172, R525). -/
def execShelfArbitration (cluster : ClusterId) (offers : List ShelfReq) (s : State) : Host.Outcome State Fault Refusal :=
  .next (s.shelfCycle cluster offers)

/-- A scrubber reads its next granule (R178, R179). -/
def execScrubRead (target : ScrubTarget) (s : State) : Host.Outcome State Fault Refusal :=
  .next (match target with
    | .shelf k b => s.scrubBank k b
    | .carrel c => s.scrubCarrel c)

/-- Every shelf and every carrel is clear. -/
def State.allClear (s : State) : Bool :=
  (s.clusters.all fun c => c.2.parts.all fun p => decide (p.2.kind ≠ .clearing)) && s.cores.all fun c => !c.2.car.clearing

/-- A clearing completes (R182); the last one of bring-up sets CLEARED (R511). Nothing where the target is not
clearing. -/
def execClearDone (target : ClearTarget) (s : State) : Host.Outcome State Fault Refusal :=
  let t := match target with
    | .partition k p => s.endPartClear k p
    | .carrel c => s.endCarrelClear c
  .next (if t.booted bootSelftest && t.allClear then t.setBoot bootCleared else t)

end Sys2Proof.Machine
end

