-- ==== Sys2Proof/Machine/Transfer.lean ====
section
/-! DEFINITION. The meanings of the transfer words and of the transfer engine's own events (chapter "Loan windows and the
transfer engine"). -/

namespace Sys2Proof.Machine

open Sys2Proof

/-- XF.NOP: none; its other bits are RSVD (R191). -/
def execXfNop (core : CoreId) (args : BitVec 58) (s : State) : Host.Outcome State Fault Refusal :=
  .next (s.transferAlone core (word58 0x00 args) fun _ s => s)

/-- XF.GO (R191 to R200, R206). -/
def execXfGo (core : CoreId) (args : BitVec 58) (s : State) : Host.Outcome State Fault Refusal :=
  .next (s.transferAlone core (word58 0x01 args) fun off s => s.runGo core (word58 0x01 args) off.bundle)

/-- XF.RST (R191, R195). -/
def execXfRst (core : CoreId) (args : BitVec 58) (s : State) : Host.Outcome State Fault Refusal :=
  .next (s.transferAlone core (word58 0x02 args) fun _ s => s.runRst core (word58 0x02 args))

/-- XF.FENCE: it only waits (R201). -/
def execXfFence (core : CoreId) (args : BitVec 58) (s : State) : Host.Outcome State Fault Refusal :=
  .next (s.transferAlone core (word58 0x03 args) fun _ s => s)

/-- The last byte of a descriptor is written, visible, pushed or acknowledged (R201). -/
def execDescriptorComplete (core : CoreId) (desc : Fin 256) (s : State) : Host.Outcome State Fault Refusal :=
  .next (s.completeDesc core desc)

/-- A request of the core has no response within RESP_US (R216); nothing where the tag holds no request. -/
def execXfTimeout (core : CoreId) (reqTag : Fin 64) (s : State) : Host.Outcome State Fault Refusal :=
  .next (match (s.core core).xf.tag reqTag with
    | some t => ((s.requestFault core reqTag xfTimeoutCause 0 0 t).countTmo (xfePage core)).progress
    | none => s)

/-- A running descriptor of the core has read an uncorrectable word (R217, R176). -/
def execXfEccUe (core : CoreId) (desc : Fin 256) (s : State) : Host.Outcome State Fault Refusal :=
  .next (match (s.core core).xf.out.find? fun o => decide (o.desc = desc.val) && o.ueAt.isSome with
    | some o => s.transferFault core xfEccUeCause desc o.offset
    | none => s)

end Sys2Proof.Machine
end

