-- ==== Sys2Proof/Machine/Windows.lean ====
section
/-! DEFINITION. The meanings of the rows on loan windows (chapter "Loan windows and the transfer engine"). -/

namespace Sys2Proof.Machine

open Sys2Proof

/-- The handle that an open takes: the FREE one that has been FREE longest, the lowest among equals (R204). -/
def State.freeHandle (s : State) : Option Nat :=
  ((List.range 4096).foldl (fun (b : Option (Nat × Nat)) h =>
    let w := s.window h
    if w.state ≠ .free then b
    else match b with
      | some (_, t) => if w.freeSince < t then some (h, w.freeSince) else b
      | none => some (h, w.freeSince)) none).map Prod.fst

/-- One more generation or floor, modulo 2²⁰, skipping 0 (R204). -/
def genPlus (g : BitVec 20) (n : Nat) : BitVec 20 := if g + BitVec.ofNat 20 n = 0 then 1 else g + BitVec.ofNat 20 n

/-- Extents of a WINDOW_OPEN payload (R417). -/
def openExtents (b : Bytes) : List Extent :=
  (List.range (fldAt b 3 1)).map fun e => ⟨fldAt b (16 + 16 * e) 8, 4096 * fldAt b (24 + 16 * e) 4⟩

/-- A shelf extent of legal form within one partition (R202). -/
def extentForm (e : Extent) : Bool :=
  isShelf e.base && decide (e.base < 2 ^ 47) && formOk e.base && decide (e.base % 4096 = 0) && decide (0 < e.len)
    && extentOk e.base e.len

/-- MALFORMED payloads of WINDOW_OPEN (R205, R417). -/
def openMalformed (b : Bytes) : Bool :=
  let n := fldAt b 3 1
  decide (b.length ≠ 16 + 16 * n) || decide (n = 0) || decide (16 < n) || decide (fldAt b 1 1 = 0) || decide (3 < fldAt b 1 1)
    || decide (4095 < fldAt b 4 2) || decide (4095 < fldAt b 6 2) || !zeroAt b 8 8
    || ((List.range n).any fun e => !zeroAt b (28 + 16 * e) 4) || (openExtents b).any fun e => !extentForm e

/-- Extent `i` of a WINDOW_OPEN is misaligned, crosses a partition or has an RSVD bit set (R205, R417). -/
def openEntryBad (b : Bytes) (i : Nat) : Bool :=
  !zeroAt b (28 + 16 * i) 4 || ((openExtents b)[i]?.map fun e => !extentForm e).getD false

/-- An extent in a partition of the tenant, of a kind that the access allows, neither CLEARING nor force-closed (R205). -/
def State.extentAllowed (s : State) (t access : Nat) (e : Extent) : Bool :=
  let p := s.part (shelfAt e.base) (partAt e.base)
  decide (p.owner = tenantId t) && !p.due && (decide (p.kind = .working) || (decide (p.kind = .resident) && decide (access = 1)))

/-- Stores a new floor where an open needs it (R204). -/
def State.raiseFloor (s : State) (next : BitVec 20) : State :=
  if s.win.raised = false ∨ next = s.win.stored then
    { s with win := { s.win with stored := genPlus s.win.stored 65536, raised := true } }
  else s

/-- Opens a window on a handle (R203, R204). -/
def State.openWindow (s : State) (h : Nat) (b : Bytes) : State × Reply :=
  let g := genPlus ((s.window h).gen.getD s.win.floor) 1
  let s := s.raiseFloor g
  let s := s.modWindow h fun _ =>
    { state := .opened, access := BitVec.ofNat 2 (fldAt b 1 1), tenant := BitVec.ofNat 8 (fldAt b 0 1)
      peerTenant := BitVec.ofNat 8 (fldAt b 2 1), devLo := BitVec.ofNat 12 (fldAt b 4 2), devHi := BitVec.ofNat 12 (fldAt b 6 2)
      extents := openExtents b, gen := some g, freeSince := 0, closedAt := 0, closeBegun := 0 }
  (s, Reply.ok (leBytes 2 h ++ [0, 0] ++ leBytes 4 g.toNat ++ leBytes 4 ((s.window h).length / 4096)))

/-- WINDOW_OPEN (R202, R204, R205). -/
def windowOpenOp (b : Bytes) (s : State) : State × Answer :=
  let t := fldAt b 0 1
  if openMalformed b then refuse (Reply.errAt stMalformed (firstBad (min 16 (fldAt b 3 1)) (openEntryBad b))) s
  else if !s.gen.service then refuse Reply.readingRoom s
  else if (s.tenant t).state ≠ .bound then refuse (Reply.wrong 4 (s.tenant t).state.code 2 0) s
  else if (openExtents b).any fun e => !s.extentAllowed t (fldAt b 1 1) e then
    refuse (Reply.errAt stNotPermitted (firstBad (fldAt b 3 1) fun i =>
      ((openExtents b)[i]?.map fun e => !s.extentAllowed t (fldAt b 1 1) e).getD false)) s
  else
    let used := (s.windows.map fun w => w.2.extents.length).sum
    match s.freeHandle with
    | some h =>
      if 8192 < used + fldAt b 3 1 then refuse (Reply.err stNoResource) s
      else
        let r := s.openWindow h b
        (r.1, .done r.2)
    | none => refuse (Reply.err stNoResource) s

/-- WINDOW_CLOSE (R210, R212). -/
def windowCloseOp (b : Bytes) (s : State) : State × Answer :=
  let h := fldAt b 0 2
  let w := s.window h
  if b.length ≠ 8 ∨ 4095 < h ∨ 0xFFFFF < fldAt b 4 4 ∨ zeroAt b 3 1 = false then refuse (Reply.err stMalformed) s
  else if !s.gen.service then refuse Reply.readingRoom s
  else if w.state = .free ∨ w.state = .closed ∨ w.gen.map BitVec.toNat ≠ some (fldAt b 4 4) then refuse (Reply.err stStale) s
  else if w.state = .closing then refuse (Reply.wrong 6 2 2 0) s
  else if w.tenant.toNat ≠ fldAt b 2 1 then refuse (Reply.err stNotPermitted) s
  else (s.beginClose h, .waits (.close h))

/-- WINDOW_OPEN. -/
def execWindowOpen (port : TPort) (tag : BitVec 32) (payload : Bytes) (s : State) : Host.Outcome State Fault Refusal :=
  .next (s.runCommand port tag 0x30 (windowOpenOp payload))

/-- WINDOW_CLOSE. -/
def execWindowClose (port : TPort) (tag : BitVec 32) (payload : Bytes) (s : State) : Host.Outcome State Fault Refusal :=
  .next (s.runCommand port tag 0x31 (windowCloseOp payload))

/-- Every admitted request of a CLOSING window has been answered (R210); nothing while one waits. -/
def execWindowCloseDone (handle : Handle) (s : State) : Host.Outcome State Fault Refusal :=
  .next (if (s.window handle).state = .closing ∧ s.inflight handle = 0 then s.endClose handle else s)

/-- The drain time has passed while a window is CLOSING with admitted requests (R211). -/
def execDrainExpired (handle : Handle) (s : State) : Host.Outcome State Fault Refusal :=
  .next (if (s.window handle).state = .closing ∧ 0 < s.inflight handle then
      ((((s.expireDrain handle).countTmo winPage).raise0 winPage 2).endClose handle)
    else s)

/-- At a tick boundary 1 ms or more after CLOSED, a window is FREE and keeps its generation (R203, R204). -/
def execWindowFree (handle : Handle) (s : State) : Host.Outcome State Fault Refusal :=
  let w := s.window handle
  .next (if w.state = .closed ∧ w.closedAt + 16000000 ≤ s.now.toNat then
      s.modWindow handle fun w => { Window.reset with gen := w.gen, freeSince := s.now.toNat }
    else s)

end Sys2Proof.Machine
end

