-- ==== Sys2Proof/Machine/TsudanOps.lean ====
section
/-! DEFINITION. The Tsudan link (R395, R398 to R402) and the assembly of commands from their packets (R397, R403, R404). -/

namespace Sys2Proof.Machine

open Sys2Proof

-- the link

/-- TMO_CFG of a TSD page: RETRY_LIMIT, ACK_TMO_US, CMD_MS (R422). -/
def State.retryLimit (s : State) (p : Nat) : Nat := ((s.tmo (tsdPage p) (Page.tmoReset (.tsd p))).extractLsb' 0 8).toNat

/-- The packets after the one that an ACKSEQ names (R398, R399). -/
def unacked (ack : BitVec 16) (l : List TxPacket) : List TxPacket :=
  match l.findIdx? fun q => q.lseq = ack with
  | some i => l.drop (i + 1)
  | none => l

/-- The ACKSEQ that a replay starts after: the one before the oldest unacknowledged packet (R399). -/
def TsdPort.replayPoint (t : TsdPort) : Option (BitVec 16) := t.retry.head?.map fun q => q.lseq - 1

/-- A replay of the unacknowledged packets, or the port goes down at the retry limit, whose expiry counts as well (R399,
R431). -/
def State.replayTsd (s : State) (p : Nat) : State :=
  let t := s.port p
  if t.retry = [] then s
  else if s.retryLimit p ≤ t.replaysRun then (s.countTmo (tsdPage p)).tsdFalls p .down 4
  else
    let s := s.modPort p fun t =>
      { t with replays := sat32 t.replays 1, replaysRun := t.replaysRun + 1, replayedFrom := t.replayPoint
               wire := (t.retry.getLast?.map TxPacket.wire).getD t.wire }
    s.raise0 (tsdPage p) 2

/-- Acknowledged packets leave the retry buffer (R399). -/
def TsdPort.acked (t : TsdPort) (ack : BitVec 16) : TsdPort :=
  let left := unacked ack t.retry
  if left.length < t.retry.length then { t with retry := left, replaysRun := 0, replayedFrom := none } else t

/-- CREDc of a link word. -/
def frameCredit (f : Bytes) (c : Nat) : BitVec 16 := BitVec.ofNat 16 (leAt f (4 + 2 * c) 2)

/-- The credits that an announcement leaves once the packets to be replayed are counted (R399, R400, R402). -/
def TsdPort.announced (t : TsdPort) (f : Bytes) : TsdPort :=
  let credits := [0, 1, 2, 3].foldl (fun (l : Tbl Nat) c =>
    Tbl.put 0 l c ((frameCredit f c).toNat - ((t.retry.filter fun q => q.cls = c).map fun q => packetUnits q.payload).sum)) []
  { t with credits := credits, credSeen := [], peerInit := true }

/-- Ends a command in progress with a status; what it waited for no longer answers it (R19, R275, R353, R354). -/
def State.endCommand (s : State) (p : Nat) (tag : BitVec 32) (r : Reply) : State :=
  match (s.port p).cmds.find? fun c => c.tag = tag with
  | none => s
  | some c =>
    match s.slots.find? fun e => decide (e.2.state = .loading) && decide (e.2.load = some (p, tag)) with
    | some e => (s.failLoad e.1 r).progress
    | none =>
      (s.complete p tag r).endWait c.wait

/-- The control node has lost its link state (R400): its sequence starts again, commands whose LAST packet has not
come are cancelled. -/
def State.resync (s : State) (p : Nat) : State :=
  let s := s.modPort p fun t => { t with rxNext := 0 }
  let open_ := (s.port p).cmds.filter fun c => decide (c.wait = .packets)
  let s := open_.foldl (fun (s : State) c => s.endCommand p c.tag (Reply.err stCancelled)) s
  s.raise0 (tsdPage p) 3

/-- An INIT link word in training (R395, R400, R401): the first one that announces enough is taken; less fails
training with cause CREDIT. -/
def State.takeInit (s : State) (p : Nat) (f : Bytes) : State :=
  if (s.port p).peerInit then s
  else if [0, 1, 2, 3].any fun c => decide ((frameCredit f c).toNat < 1025) then s.tsdFalls p .down 6
  else
    let resync := decide (leAt f 1 1 / 8 % 2 = 1)
    let s := if resync then s.resync p else s.modPort p fun t => t.acked (BitVec.ofNat 16 (leAt f 2 2))
    s.modPort p fun t => (t.announced f).sendWord true

/-- A link word on an UP port (R398, R399, R402): acknowledgement, credits, NAK; the port sends its own (DESIGN CHOICE,
log 153). -/
def State.tsdWord (s : State) (p : Nat) (f : Bytes) : State :=
  let flags := leAt f 1 1
  let ack : BitVec 16 := BitVec.ofNat 16 (leAt f 2 2)
  let s := s.modPort p fun t =>
    let t := (if flags % 2 = 1 then t.acked ack else t).sendWord false
    [0, 1, 2, 3].foldl (fun (t : TsdPort) c =>
      let cred := frameCredit f c
      { t with credits := Tbl.modify 0 t.credits c fun u => u + (cred - Tbl.get 0 t.credSeen c).toNat
               credSeen := Tbl.put 0 t.credSeen c cred }) t
  let s := if flags / 2 % 2 = 1 ∧ (s.port p).replayedFrom ≠ (s.port p).replayPoint then s.replayTsd p else s
  s.pumpPort p

/-- A packet is accepted in sequence; its units of a class are freed once its payload is taken (R399, R402). -/
def TsdPort.accept (t : TsdPort) (cls units : Nat) : TsdPort :=
  { t with rxNext := t.rxNext + 1, rxAny := true, nak := false
           freed := Tbl.modify 0 t.freed cls fun n => n + BitVec.ofNat 16 units }

-- the commands

/-- The operation of a single-packet command (R407). -/
def operationOf (port : Nat) (tag : BitVec 32) (code : BitVec 8) (b : Bytes) : State → State × Answer :=
  match code.toNat with
  | 0x01 => echoOp b
  | 0x02 => regReadOp port b
  | 0x03 => regWriteOp port tag b
  | 0x04 => regBlockOp port tag b
  | 0x11 => runOp b
  | 0x12 => haltOp b
  | 0x18 => bindOp port b
  | 0x19 => releaseOp port b
  | 0x20 => sessionOpenOp port b
  | 0x21 => promptAppendOp port b
  | 0x22 => sessionCancelOp port b
  | 0x23 => sessionCloseOp port b
  | 0x28 => editionBeginOp port b
  | 0x29 => shardDataOp port b
  | 0x2A => editionCommitOp port b
  | 0x2B => editionSwitchOp port b
  | 0x2C => editionRetireOp port b
  | 0x30 => windowOpenOp b
  | 0x31 => windowCloseOp b
  | 0x38 => fabIdentityOp port b
  | 0x39 => fabRoutesOp port b
  | 0x40 => attestOp port b
  | 0x41 => fwStageOp port b
  | 0x42 => fwActivateOp port tag b
  | 0x43 => presenceOp port b
  | _ => refuse (Reply.err stUnknown)

/-- Commands that may span packets (R403). -/
def spansPackets (code : BitVec 8) : Bool := decide (code = 0x10) || decide (code = 0x28) || decide (code = 0x41)

/-- A header that R397 rejects, its CODE apart. -/
def headerBad (h : TsdHeader) : Bool :=
  decide (h.cls.toNat / 4 ≠ 0) || decide (h.flags.toNat / 8 ≠ 0) || decide (h.rsvd10 ≠ 0) || decide (h.rsvd28 ≠ 0)
    || decide (65536 < h.length.toNat)

/-- FIRST and LAST of a packet (R396). -/
def isFirst (h : TsdHeader) : Bool := h.flags.getLsbD 0
def isLast (h : TsdHeader) : Bool := h.flags.getLsbD 1

/-- A FOLIO_LOAD as far as its packets have come (R274): refused or begun once its first part is there, refused as
soon as what has arrived decides it, ended by its LAST. -/
def State.feedLoad (s : State) (p : Nat) (tag : BitVec 32) (b : Bytes) (last : Bool) : State :=
  let slot := fldAt b 0 1
  let begun := decide ((s.slot slot).state = .loading) && decide ((s.slot slot).load = some (p, tag))
  let r : State × Option Reply :=
    if begun then (s, none)
    else if loadHeadThere b then
      (match s.loadRefused b with
        | some r => (s, some r)
        | none => (s.beginLoad p tag b, none))
    else (s, if last then some (Reply.err stMalformed) else none)
  match r.2 with
  | some why => r.1.complete p tag why
  | none =>
    if last then r.1.operate p tag fun s => s.endLoad b (Config.folioView b)
    else if begun || loadHeadThere b then
      let s := r.1.claimLoad b
      match s.loadFailsNow b with
      | some e =>
        let f := s.loadFailed slot e
        f.1.complete p tag f.2
      | none => s
    else r.1

/-- A FW_STAGE as far as its packets have come (R457): `before` is what had come before this packet. -/
def State.feedStage (s : State) (p : Nat) (tag : BitVec 32) (before b : Bytes) (last : Bool) : State :=
  let now := decide (before.length < 136) && (decide (136 ≤ b.length) || last)
  match (if now then s.stageRefused p b last else if stageLengthBad b false then some (Reply.err stMalformed) else none) with
  | some r => s.complete p tag r
  | none =>
    let s := if now then s.beginStage b else s
    if last then s.operate p tag fun s => s.endStage b else s

/-- The command's stream has grown from `before` to `b` (R403). -/
def State.feed (s : State) (p : Nat) (tag : BitVec 32) (code : BitVec 8) (before b : Bytes) (last : Bool) : State :=
  if code = 0x10 then s.feedLoad p tag b last
  else if code = 0x41 then s.feedStage p tag before b last
  else if last then s.operate p tag (operationOf p tag code b)
  else s

/-- What follows a command's operation: refused sessions close (R293), waits go on (R184, R213, R283). -/
def State.afterCommand (s : State) (code : BitVec 8) : State :=
  if code = 0x21 then s.settleRefused
  else if code = 0x18 ∨ code = 0x19 ∨ code = 0x2C then s.progress
  else s

/-- A packet adds its payload to its command. -/
def State.grow (s : State) (p : Nat) (h : TsdHeader) (before payload : Bytes) : State :=
  let b := before ++ payload
  let s := s.modPort p fun t =>
    { t with cmds := t.cmds.map fun c =>
        if c.tag = h.tag then { c with buf := if (isLast h) then [] else b, nextPart := h.part.toNat + 1 } else c }
  (s.feed p h.tag h.code before b (isLast h)).afterCommand h.code

/-- The status that a FIRST packet earns by its header alone (R397, R403). -/
def headerRefusal (h : TsdHeader) : Option Nat :=
  if headerBad h then some stMalformed
  else if !knownCodes.contains h.code then some stUnknown
  else if h.cls.toNat ≠ classOf h.code ∨ h.part ≠ 0 ∨ ((isLast h) = false ∧ spansPackets h.code = false) then some stMalformed
  else none

/-- A FIRST packet (R397, R403, R404, R444). -/
def State.firstPacket (s : State) (p : Nat) (h : TsdHeader) (payload : Bytes) : State :=
  let cls := h.cls.toNat % 4
  let answer (dup : Bool) (st : Nat) : State := s.sendPacket p (completionPacket h.tag h.code cls dup (Reply.err st))
  if !s.curatorUp p then answer false stBusy
  else if s.inProgress p h.tag then answer true stMalformed
  else match headerRefusal h with
    | some st => answer false st
    | none =>
      match s.beginCmd p h.tag h.code cls with
      | (s, false) => s
      | (s, true) => s.grow p h [] payload

/-- A later packet (R403): out of its command's sequence it ends that command with MALFORMED; without a command it is
discarded. -/
def State.laterPacket (s : State) (p : Nat) (h : TsdHeader) (payload : Bytes) : State :=
  match (s.port p).cmds.find? fun c => c.tag = h.tag with
  | none => s
  | some c =>
    if c.wait ≠ .packets ∨ h.part.toNat ≠ c.nextPart ∨ headerBad h = true ∨ h.code ≠ c.code ∨ h.cls.toNat ≠ c.cls then
      s.endCommand p h.tag (Reply.err stMalformed)
    else s.grow p h c.buf payload

/-- A COMMAND packet whose CRC passed (R396, R399). -/
def State.takePacket (s : State) (p : Nat) (h : TsdHeader) (payload : Bytes) : State :=
  if (s.port p).state ≠ .up then s
  else if h.lseq ≠ (s.port p).rxNext then s.modPort p fun t => { t with nak := true }
  else
    let s := s.modPort p fun t => t.accept (h.cls.toNat % 4) (packetUnits payload)
    if h.typ ≠ 1 then s.modPort p fun t => { t with badPkt := sat32 t.badPkt 1 }
    else if isFirst h then s.firstPacket p h payload
    else s.laterPacket p h payload

/-- The reply of a command whose completion timeout has expired (R19, R353, R406): an EDITION_COMMIT names the lowest role
that has failed, and its reported state; where it has reported none, a free value (log 155). -/
def State.timeoutReply (s : State) (c : Cmd) : State × Reply :=
  match c.wait with
  | .commit i =>
    match (s.edition i).talk.bind EdTalk.lowest with
    | some (role, some state) => (s, (Reply.err stTimeout).roleAt role state)
    | some (role, none) => (s.draw.2, (Reply.err stTimeout).roleAt role (Config.freeByte s.freeCtr).toNat)
    | none => (s, Reply.err stTimeout)
  | _ => (s, Reply.err stTimeout)

/-- CMD_MS has passed for a command in progress (R406): not while the curator of a FW_ACTIVATE boots. -/
def State.commandTimeout (s : State) (p : Nat) (tag : BitVec 32) : State :=
  match (s.port p).cmds.find? fun c => c.tag = tag with
  | none => s
  | some c =>
    match c.wait with
    | .activate _ => s
    | _ =>
      let r := s.timeoutReply c
      (r.1.countTmo (tsdPage p)).endCommand p tag r.2

end Sys2Proof.Machine
end

