-- ==== Sys2Proof/Machine/Tsudan.lean ====
section
/-! DEFINITION. The meanings of the rows on the Tsudan link (chapter "Tsudan port and commands"). -/

namespace Sys2Proof.Machine

open Sys2Proof

/-- A COMMAND packet (R396, R397, R399, R403); nothing unless the port is UP. -/
def execCommand (port : TPort) (header : TsdHeader) (payload : Bytes) (s : State) : Host.Outcome State Fault Refusal :=
  .next (s.takePacket port header payload)

/-- A link word (R398): ignored if its CRC fails, which is counted (R422), or if it is none. -/
def execTsdLinkWord (port : TPort) (frame : Bytes) (s : State) : Host.Outcome State Fault Refusal :=
  let st := (s.port port).state
  .next (if st ≠ .up ∧ st ≠ .training then s
    else if crc16 (frame.take 14) ≠ BitVec.ofNat 16 (leAt frame 14 2) then
      s.modPort port fun t => { t with crcErr := sat32 t.crcErr 1 }
    else if leAt frame 0 1 ≠ 0x7F then s
    else if leAt frame 1 1 / 4 % 2 = 1 then (if st = .training then s.takeInit port frame else s)
    else if st = .up then s.tsdWord port frame
    else s)

/-- ACKSEQ has not advanced for ACK_TMO_US while packets are unacknowledged (R399). -/
def execTsdAckTimeout (port : TPort) (s : State) : Host.Outcome State Fault Refusal :=
  .next (if (s.port port).state = .up ∧ (s.port port).retry ≠ [] then (s.countTmo (tsdPage port)).replayTsd port else s)

/-- Training completes (R395): both announcements are accepted; the unacknowledged packets are sent again (R400). -/
def execTsdPortUp (port : TPort) (s : State) : Host.Outcome State Fault Refusal :=
  .next (if (s.port port).state = .training ∧ (s.port port).peerInit = true then
      ((s.modPort port fun t => { t with state := .up }).raise0 (tsdPage port) 0).pumpPort port
    else s)

/-- Light or PCS lock is lost (R395). -/
def execTsdPortDown (port : TPort) (s : State) : Host.Outcome State Fault Refusal :=
  .next (if (s.port port).state = .up ∨ (s.port port).state = .training then s.tsdFalls port .down 2 else s)

/-- Training fails: not finished within 50 ms, or the control node announces too little (R395). -/
def execTsdTrainFail (port : TPort) (credit : Bool) (s : State) : Host.Outcome State Fault Refusal :=
  .next (if (s.port port).state = .training then s.tsdFalls port .down (if credit then 6 else 3) else s)

/-- A port with ENABLE = 1 in DOWN receives light and begins training with its INIT link word (R395, R400), once the
module's ports are lit (R511). -/
def execTsdLightReceived (port : TPort) (s : State) : Host.Outcome State Fault Refusal :=
  let t := s.port port
  .next (if t.state = .down ∧ t.enable = true ∧ s.booted bootReadingRoom = true then
      s.modPort port fun t => ({ t with state := .training, retrain := false }).sendWord true
    else s)

/-- A received packet fails its CRC, is out of sequence, or is no COMMAND (R396, R399). -/
def execTsdPacketReject (port : TPort) (reason : RejectReason) (s : State) : Host.Outcome State Fault Refusal :=
  .next (if (s.port port).state ≠ .up then s
    else s.modPort port fun t => match reason with
      | .crc => { t with crcErr := sat32 t.crcErr 1, nak := true }
      | .sequence => { t with nak := true }
      | .unknownType => { t with rxNext := t.rxNext + 1, rxAny := true, nak := false, badPkt := sat32 t.badPkt 1 })

/-- A command has not completed within CMD_MS (R19, R406). -/
def execCmdTimeout (port : TPort) (tag : BitVec 32) (s : State) : Host.Outcome State Fault Refusal :=
  .next (s.commandTimeout port tag)

/-- An EVENT packet closes 100 µs after its first record (R421). -/
def execEventPacketClose (port : TPort) (s : State) : Host.Outcome State Fault Refusal :=
  .next ((s.modPort port TsdPort.closeEvents).pumpPort port)

end Sys2Proof.Machine
end

