-- ==== Sys2Proof/Machine/Vector.lean ====
section
/-! DEFINITION. The meanings of the vector words (chapter "Vector engine and reduction unit"): each runs its word on the core, as
BUNDLE_ISSUE runs it in the vector slot. -/

namespace Sys2Proof.Machine

open Sys2Proof

/-- VX.NOP: none; a nonzero operand field faults (R98, R100). -/
def execVxNop (core : CoreId) (args : BitVec 56) (s : State) : Host.Outcome State Fault Refusal :=
  .next (s.vectorAlone core (word56 0x00 args) fun _ s => s)

/-- VX.ADD: element-wise addition (R100). -/
def execVxAdd (core : CoreId) (args : BitVec 56) (s : State) : Host.Outcome State Fault Refusal :=
  .next (s.vectorAlone core (word56 0x01 args) fun off s => s.runVector core (word56 0x01 args) off)

/-- VX.SUB: element-wise subtraction (R100). -/
def execVxSub (core : CoreId) (args : BitVec 56) (s : State) : Host.Outcome State Fault Refusal :=
  .next (s.vectorAlone core (word56 0x02 args) fun off s => s.runVector core (word56 0x02 args) off)

/-- VX.MUL: element-wise product, the low half for integers (R100). -/
def execVxMul (core : CoreId) (args : BitVec 56) (s : State) : Host.Outcome State Fault Refusal :=
  .next (s.vectorAlone core (word56 0x03 args) fun off s => s.runVector core (word56 0x03 args) off)

/-- VX.FMA: a × b + c with one rounding (R100). -/
def execVxFma (core : CoreId) (args : BitVec 56) (s : State) : Host.Outcome State Fault Refusal :=
  .next (s.vectorAlone core (word56 0x04 args) fun off s => s.runVector core (word56 0x04 args) off)

/-- VX.MIN: the smaller of a and b (R100). -/
def execVxMin (core : CoreId) (args : BitVec 56) (s : State) : Host.Outcome State Fault Refusal :=
  .next (s.vectorAlone core (word56 0x05 args) fun off s => s.runVector core (word56 0x05 args) off)

/-- VX.MAX: the larger of a and b (R100). -/
def execVxMax (core : CoreId) (args : BitVec 56) (s : State) : Host.Outcome State Fault Refusal :=
  .next (s.vectorAlone core (word56 0x06 args) fun off s => s.runVector core (word56 0x06 args) off)

/-- VX.ABS: the magnitude (R100). -/
def execVxAbs (core : CoreId) (args : BitVec 56) (s : State) : Host.Outcome State Fault Refusal :=
  .next (s.vectorAlone core (word56 0x07 args) fun off s => s.runVector core (word56 0x07 args) off)

/-- VX.NEG: the negation (R100). -/
def execVxNeg (core : CoreId) (args : BitVec 56) (s : State) : Host.Outcome State Fault Refusal :=
  .next (s.vectorAlone core (word56 0x08 args) fun off s => s.runVector core (word56 0x08 args) off)

/-- VX.AND: bitwise and (R100). -/
def execVxAnd (core : CoreId) (args : BitVec 56) (s : State) : Host.Outcome State Fault Refusal :=
  .next (s.vectorAlone core (word56 0x09 args) fun off s => s.runVector core (word56 0x09 args) off)

/-- VX.OR: bitwise or (R100). -/
def execVxOr (core : CoreId) (args : BitVec 56) (s : State) : Host.Outcome State Fault Refusal :=
  .next (s.vectorAlone core (word56 0x0a args) fun off s => s.runVector core (word56 0x0a args) off)

/-- VX.XOR: bitwise exclusive or (R100). -/
def execVxXor (core : CoreId) (args : BitVec 56) (s : State) : Host.Outcome State Fault Refusal :=
  .next (s.vectorAlone core (word56 0x0b args) fun off s => s.runVector core (word56 0x0b args) off)

/-- VX.SHL: left shift by b mod width (R100). -/
def execVxShl (core : CoreId) (args : BitVec 56) (s : State) : Host.Outcome State Fault Refusal :=
  .next (s.vectorAlone core (word56 0x0c args) fun off s => s.runVector core (word56 0x0c args) off)

/-- VX.SHR: arithmetic right shift by b mod width (R100). -/
def execVxShr (core : CoreId) (args : BitVec 56) (s : State) : Host.Outcome State Fault Refusal :=
  .next (s.vectorAlone core (word56 0x0d args) fun off s => s.runVector core (word56 0x0d args) off)

/-- VX.SEL: a where the mask bit is 1, else b (R97, R100). -/
def execVxSel (core : CoreId) (args : BitVec 56) (s : State) : Host.Outcome State Fault Refusal :=
  .next (s.vectorAlone core (word56 0x0e args) fun off s => s.runVector core (word56 0x0e args) off)

/-- VX.MOV: a copy (R100). -/
def execVxMov (core : CoreId) (args : BitVec 56) (s : State) : Host.Outcome State Fault Refusal :=
  .next (s.vectorAlone core (word56 0x0f args) fun off s => s.runVector core (word56 0x0f args) off)

/-- VX.BCAST: element 0 of a (R100). -/
def execVxBcast (core : CoreId) (args : BitVec 56) (s : State) : Host.Outcome State Fault Refusal :=
  .next (s.vectorAlone core (word56 0x10 args) fun off s => s.runVector core (word56 0x10 args) off)

/-- VX.CMP: mask bits from a comparison (R97, R101). -/
def execVxCmp (core : CoreId) (args : BitVec 56) (s : State) : Host.Outcome State Fault Refusal :=
  .next (s.vectorAlone core (word56 0x11 args) fun off s => s.runVector core (word56 0x11 args) off)

/-- VX.GATHER: elements of a table by index (R102). -/
def execVxGather (core : CoreId) (args : BitVec 56) (s : State) : Host.Outcome State Fault Refusal :=
  .next (s.vectorAlone core (word56 0x12 args) fun off s => s.runVector core (word56 0x12 args) off)

/-- VX.CVT: conversion between lane formats (R53 to R61, R103, R104). -/
def execVxCvt (core : CoreId) (args : BitVec 56) (s : State) : Host.Outcome State Fault Refusal :=
  .next (s.vectorAlone core (word56 0x18 args) fun off s => s.runVector core (word56 0x18 args) off)

/-- VX.PACK: packing to a narrow format (R58, R97, R103, R104). -/
def execVxPack (core : CoreId) (args : BitVec 56) (s : State) : Host.Outcome State Fault Refusal :=
  .next (s.vectorAlone core (word56 0x19 args) fun off s => s.runVector core (word56 0x19 args) off)

/-- VX.UNPACK: widening a packed format (R53, R103, R104). -/
def execVxUnpack (core : CoreId) (args : BitVec 56) (s : State) : Host.Outcome State Fault Refusal :=
  .next (s.vectorAlone core (word56 0x1a args) fun off s => s.runVector core (word56 0x1a args) off)

/-- VX.EXP: e to the power a (R106). -/
def execVxExp (core : CoreId) (args : BitVec 56) (s : State) : Host.Outcome State Fault Refusal :=
  .next (s.vectorAlone core (word56 0x20 args) fun off s => s.runVector core (word56 0x20 args) off)

/-- VX.EXP2: 2 to the power a (R106). -/
def execVxExp2 (core : CoreId) (args : BitVec 56) (s : State) : Host.Outcome State Fault Refusal :=
  .next (s.vectorAlone core (word56 0x21 args) fun off s => s.runVector core (word56 0x21 args) off)

/-- VX.RCP: the reciprocal (R106). -/
def execVxRcp (core : CoreId) (args : BitVec 56) (s : State) : Host.Outcome State Fault Refusal :=
  .next (s.vectorAlone core (word56 0x22 args) fun off s => s.runVector core (word56 0x22 args) off)

/-- VX.RSQRT: the reciprocal square root (R106). -/
def execVxRsqrt (core : CoreId) (args : BitVec 56) (s : State) : Host.Outcome State Fault Refusal :=
  .next (s.vectorAlone core (word56 0x23 args) fun off s => s.runVector core (word56 0x23 args) off)

/-- VX.SIGM: the logistic function (R106, R107). -/
def execVxSigm (core : CoreId) (args : BitVec 56) (s : State) : Host.Outcome State Fault Refusal :=
  .next (s.vectorAlone core (word56 0x24 args) fun off s => s.runVector core (word56 0x24 args) off)

/-- VX.GELU: GELU (R106, R107). -/
def execVxGelu (core : CoreId) (args : BitVec 56) (s : State) : Host.Outcome State Fault Refusal :=
  .next (s.vectorAlone core (word56 0x25 args) fun off s => s.runVector core (word56 0x25 args) off)

/-- VX.SETD: a descriptor (R94, R105). -/
def execVxSetd (core : CoreId) (args : BitVec 56) (s : State) : Host.Outcome State Fault Refusal :=
  .next (s.vectorAlone core (word56 0x30 args) fun _ s => s.runSetd core (word56 0x30 args))

/-- VX.SETS: a scale register (R105). -/
def execVxSets (core : CoreId) (args : BitVec 56) (s : State) : Host.Outcome State Fault Refusal :=
  .next (s.vectorAlone core (word56 0x31 args) fun _ s => s.runVxSets core (word56 0x31 args))

/-- VX.SETQ: a mask set from the carrel (R95, R100). -/
def execVxSetq (core : CoreId) (args : BitVec 56) (s : State) : Host.Outcome State Fault Refusal :=
  .next (s.vectorAlone core (word56 0x32 args) fun off s => s.runVector core (word56 0x32 args) off)

/-- VX.STQ: a mask set to the carrel (R95, R100). -/
def execVxStq (core : CoreId) (args : BitVec 56) (s : State) : Host.Outcome State Fault Refusal :=
  .next (s.vectorAlone core (word56 0x33 args) fun off s => s.runVector core (word56 0x33 args) off)

end Sys2Proof.Machine
end

