-- ==== Sys2Proof/Machine/Dispatch.lean ====
section
/-! DEFINITION. The dispatch of a command to its meaning, one arm for each constructor of Instr. -/

namespace Sys2Proof.Machine

open Sys2Proof

def exec (i : Instr) (s : State) : Host.Outcome State Fault Refusal :=
  match i with
  | .echo port tag payload => Sys2Proof.Machine.execEcho port tag payload s
  | .regRead port tag payload => Sys2Proof.Machine.execRegRead port tag payload s
  | .regWrite port tag payload => Sys2Proof.Machine.execRegWrite port tag payload s
  | .regBlock port tag payload => Sys2Proof.Machine.execRegBlock port tag payload s
  | .folioLoad port tag payload view => Sys2Proof.Machine.execFolioLoad port tag payload view s
  | .run port tag payload => Sys2Proof.Machine.execRun port tag payload s
  | .halt port tag payload => Sys2Proof.Machine.execHalt port tag payload s
  | .tenantBind port tag payload => Sys2Proof.Machine.execTenantBind port tag payload s
  | .tenantRelease port tag payload => Sys2Proof.Machine.execTenantRelease port tag payload s
  | .sessionOpen port tag payload => Sys2Proof.Machine.execSessionOpen port tag payload s
  | .promptAppend port tag payload => Sys2Proof.Machine.execPromptAppend port tag payload s
  | .sessionCancel port tag payload => Sys2Proof.Machine.execSessionCancel port tag payload s
  | .sessionClose port tag payload => Sys2Proof.Machine.execSessionClose port tag payload s
  | .editionBegin port tag payload => Sys2Proof.Machine.execEditionBegin port tag payload s
  | .shardData port tag payload => Sys2Proof.Machine.execShardData port tag payload s
  | .editionCommit port tag payload => Sys2Proof.Machine.execEditionCommit port tag payload s
  | .editionSwitch port tag payload => Sys2Proof.Machine.execEditionSwitch port tag payload s
  | .editionRetire port tag payload => Sys2Proof.Machine.execEditionRetire port tag payload s
  | .windowOpen port tag payload => Sys2Proof.Machine.execWindowOpen port tag payload s
  | .windowClose port tag payload => Sys2Proof.Machine.execWindowClose port tag payload s
  | .fabIdentity port tag payload => Sys2Proof.Machine.execFabIdentity port tag payload s
  | .fabRoutes port tag payload => Sys2Proof.Machine.execFabRoutes port tag payload s
  | .attest port tag payload => Sys2Proof.Machine.execAttest port tag payload s
  | .fwStage port tag payload => Sys2Proof.Machine.execFwStage port tag payload s
  | .fwActivate port tag payload => Sys2Proof.Machine.execFwActivate port tag payload s
  | .presenceChallenge port tag payload => Sys2Proof.Machine.execPresenceChallenge port tag payload s
  | .rotateFwkeys port tag => Sys2Proof.Machine.execRotateFwkeys port tag s
  | .enrollChain port tag => Sys2Proof.Machine.execEnrollChain port tag s
  | .installKey port tag => Sys2Proof.Machine.execInstallKey port tag s
  | .removeKey port tag => Sys2Proof.Machine.execRemoveKey port tag s
  | .yield port tag => Sys2Proof.Machine.execYield port tag s
  | .isolate port tag cluster force => Sys2Proof.Machine.execIsolate port tag cluster force s
  | .mapout port tag cluster on => Sys2Proof.Machine.execMapout port tag cluster on s
  | .calibrate port tag => Sys2Proof.Machine.execCalibrate port tag s
  | .fabPortEnable port tag fport on => Sys2Proof.Machine.execFabPortEnable port tag fport on s
  | .fabPortRetrain port tag fport => Sys2Proof.Machine.execFabPortRetrain port tag fport s
  | .tsdPortEnable port tag tport on => Sys2Proof.Machine.execTsdPortEnable port tag tport on s
  | .tsdPortRetrain port tag tport => Sys2Proof.Machine.execTsdPortRetrain port tag tport s
  | .evtClear port tag page bits => Sys2Proof.Machine.execEvtClear port tag page bits s
  | .archivalOnly port tag on => Sys2Proof.Machine.execArchivalOnly port tag on s
  | .refSel port tag sel => Sys2Proof.Machine.execRefSel port tag sel s
  | .ldgRole port tag role parent => Sys2Proof.Machine.execLdgRole port tag role parent s
  | .govCtrl port tag fixed variant => Sys2Proof.Machine.execGovCtrl port tag fixed variant s
  | .shfEccInject port tag cluster part bita bitb => Sys2Proof.Machine.execShfEccInject port tag cluster part bita bitb s
  | .carEccInject port tag core bita bitb => Sys2Proof.Machine.execCarEccInject port tag core bita bitb s
  | .coreQsel port tag core qep => Sys2Proof.Machine.execCoreQsel port tag core qep s
  | .bundleIssue core waits => Sys2Proof.Machine.execBundleIssue core waits s
  | .mxNop core args => Sys2Proof.Machine.execMxNop core args s
  | .mxLoad core args => Sys2Proof.Machine.execMxLoad core args s
  | .shadowLoadDone core => Sys2Proof.Machine.execShadowLoadDone core s
  | .mxMul core args => Sys2Proof.Machine.execMxMul core args s
  | .mxStore core args => Sys2Proof.Machine.execMxStore core args s
  | .mxSeta core args => Sys2Proof.Machine.execMxSeta core args s
  | .mxSets core args => Sys2Proof.Machine.execMxSets core args s
  | .mxTrsumR core args => Sys2Proof.Machine.execMxTrsumR core args s
  | .mxTrsumC core args => Sys2Proof.Machine.execMxTrsumC core args s
  | .mxTrmaxR core args => Sys2Proof.Machine.execMxTrmaxR core args s
  | .mxTrmaxC core args => Sys2Proof.Machine.execMxTrmaxC core args s
  | .vxNop core args => Sys2Proof.Machine.execVxNop core args s
  | .vxAdd core args => Sys2Proof.Machine.execVxAdd core args s
  | .vxSub core args => Sys2Proof.Machine.execVxSub core args s
  | .vxMul core args => Sys2Proof.Machine.execVxMul core args s
  | .vxFma core args => Sys2Proof.Machine.execVxFma core args s
  | .vxMin core args => Sys2Proof.Machine.execVxMin core args s
  | .vxMax core args => Sys2Proof.Machine.execVxMax core args s
  | .vxAbs core args => Sys2Proof.Machine.execVxAbs core args s
  | .vxNeg core args => Sys2Proof.Machine.execVxNeg core args s
  | .vxAnd core args => Sys2Proof.Machine.execVxAnd core args s
  | .vxOr core args => Sys2Proof.Machine.execVxOr core args s
  | .vxXor core args => Sys2Proof.Machine.execVxXor core args s
  | .vxShl core args => Sys2Proof.Machine.execVxShl core args s
  | .vxShr core args => Sys2Proof.Machine.execVxShr core args s
  | .vxSel core args => Sys2Proof.Machine.execVxSel core args s
  | .vxMov core args => Sys2Proof.Machine.execVxMov core args s
  | .vxBcast core args => Sys2Proof.Machine.execVxBcast core args s
  | .vxCmp core args => Sys2Proof.Machine.execVxCmp core args s
  | .vxGather core args => Sys2Proof.Machine.execVxGather core args s
  | .vxCvt core args => Sys2Proof.Machine.execVxCvt core args s
  | .vxPack core args => Sys2Proof.Machine.execVxPack core args s
  | .vxUnpack core args => Sys2Proof.Machine.execVxUnpack core args s
  | .vxExp core args => Sys2Proof.Machine.execVxExp core args s
  | .vxExp2 core args => Sys2Proof.Machine.execVxExp2 core args s
  | .vxRcp core args => Sys2Proof.Machine.execVxRcp core args s
  | .vxRsqrt core args => Sys2Proof.Machine.execVxRsqrt core args s
  | .vxSigm core args => Sys2Proof.Machine.execVxSigm core args s
  | .vxGelu core args => Sys2Proof.Machine.execVxGelu core args s
  | .vxSetd core args => Sys2Proof.Machine.execVxSetd core args s
  | .vxSets core args => Sys2Proof.Machine.execVxSets core args s
  | .vxSetq core args => Sys2Proof.Machine.execVxSetq core args s
  | .vxStq core args => Sys2Proof.Machine.execVxStq core args s
  | .rdNop core args => Sys2Proof.Machine.execRdNop core args s
  | .rdSum core args => Sys2Proof.Machine.execRdSum core args s
  | .rdMax core args => Sys2Proof.Machine.execRdMax core args s
  | .rdArgmax core args => Sys2Proof.Machine.execRdArgmax core args s
  | .rdSumsq core args => Sys2Proof.Machine.execRdSumsq core args s
  | .rdLse core args => Sys2Proof.Machine.execRdLse core args s
  | .xfNop core args => Sys2Proof.Machine.execXfNop core args s
  | .xfGo core args => Sys2Proof.Machine.execXfGo core args s
  | .xfRst core args => Sys2Proof.Machine.execXfRst core args s
  | .xfFence core args => Sys2Proof.Machine.execXfFence core args s
  | .descriptorComplete core desc => Sys2Proof.Machine.execDescriptorComplete core desc s
  | .ctNop core args => Sys2Proof.Machine.execCtNop core args s
  | .ctLoop core args => Sys2Proof.Machine.execCtLoop core args s
  | .ctCall core args => Sys2Proof.Machine.execCtCall core args s
  | .ctRet core args => Sys2Proof.Machine.execCtRet core args s
  | .ctJump core args => Sys2Proof.Machine.execCtJump core args s
  | .ctDelay core args => Sys2Proof.Machine.execCtDelay core args s
  | .ctHalt core args => Sys2Proof.Machine.execCtHalt core args s
  | .ctWaitq core args => Sys2Proof.Machine.execCtWaitq core args s
  | .ctAcqr core args => Sys2Proof.Machine.execCtAcqr core args s
  | .ctRelr core args => Sys2Proof.Machine.execCtRelr core args s
  | .ctStamp core args => Sys2Proof.Machine.execCtStamp core args s
  | .ctStep core args => Sys2Proof.Machine.execCtStep core args s
  | .stampRelease slot group lastRole behind => Sys2Proof.Machine.execStampRelease slot group lastRole behind s
  | .coreRunEnd core => Sys2Proof.Machine.execCoreRunEnd core s
  | .haltComplete slot => Sys2Proof.Machine.execHaltComplete slot s
  | .slotEmptyTimeout core => Sys2Proof.Machine.execSlotEmptyTimeout core s
  | .slotFullTimeout core => Sys2Proof.Machine.execSlotFullTimeout core s
  | .sqWatchdog core => Sys2Proof.Machine.execSqWatchdog core s
  | .holdTimeout core => Sys2Proof.Machine.execHoldTimeout core s
  | .xfTimeout core reqTag => Sys2Proof.Machine.execXfTimeout core reqTag s
  | .faultedSlotClear slot => Sys2Proof.Machine.execFaultedSlotClear slot s
  | .recoveryRun cluster => Sys2Proof.Machine.execRecoveryRun cluster s
  | .recoveryRunEnd cluster passed => Sys2Proof.Machine.execRecoveryRunEnd cluster passed s
  | .shelfArbitration cluster offers => Sys2Proof.Machine.execShelfArbitration cluster offers s
  | .scrubRead target => Sys2Proof.Machine.execScrubRead target s
  | .clearDone target => Sys2Proof.Machine.execClearDone target s
  | .tick inputs => Sys2Proof.Machine.execTick inputs s
  | .leaseLapse other => Sys2Proof.Machine.execLeaseLapse other s
  | .powerOnArbitration first => Sys2Proof.Machine.execPowerOnArbitration first s
  | .curatorWatchdog die => Sys2Proof.Machine.execCuratorWatchdog die s
  | .curatorBoot die => Sys2Proof.Machine.execCuratorBoot die s
  | .bootFail die => Sys2Proof.Machine.execBootFail die s
  | .promptTimeout index => Sys2Proof.Machine.execPromptTimeout index s
  | .queueTimeout index => Sys2Proof.Machine.execQueueTimeout index s
  | .stepTimeout index => Sys2Proof.Machine.execStepTimeout index s
  | .tokenPacketClose index => Sys2Proof.Machine.execTokenPacketClose index s
  | .tokenPacketSend index => Sys2Proof.Machine.execTokenPacketSend index s
  | .eventPacketClose port => Sys2Proof.Machine.execEventPacketClose port s
  | .windowCloseDone handle => Sys2Proof.Machine.execWindowCloseDone handle s
  | .drainExpired handle => Sys2Proof.Machine.execDrainExpired handle s
  | .windowFree handle => Sys2Proof.Machine.execWindowFree handle s
  | .wreq port flit => Sys2Proof.Machine.execWreq port flit s
  | .wdata port flit => Sys2Proof.Machine.execWdata port flit s
  | .rreq port flit => Sys2Proof.Machine.execRreq port flit s
  | .rdata port flit => Sys2Proof.Machine.execRdata port flit s
  | .ack port flit => Sys2Proof.Machine.execAck port flit s
  | .nack port flit => Sys2Proof.Machine.execNack port flit s
  | .qdata port flit => Sys2Proof.Machine.execQdata port flit s
  | .hold port flit => Sys2Proof.Machine.execHold port flit s
  | .flitForward port flit => Sys2Proof.Machine.execFlitForward port flit s
  | .fabLinkWord port word => Sys2Proof.Machine.execFabLinkWord port word s
  | .fabAckTimeout port => Sys2Proof.Machine.execFabAckTimeout port s
  | .callSlip port flit => Sys2Proof.Machine.execCallSlip port flit s
  | .slipMiss port => Sys2Proof.Machine.execSlipMiss port s
  | .portDown port => Sys2Proof.Machine.execPortDown port s
  | .portUp port => Sys2Proof.Machine.execPortUp port s
  | .fabTrainFail port => Sys2Proof.Machine.execFabTrainFail port s
  | .clockSlip port => Sys2Proof.Machine.execClockSlip port s
  | .relayHead port flit data => Sys2Proof.Machine.execRelayHead port flit data s
  | .resend port flit => Sys2Proof.Machine.execResend port flit s
  | .resendFail port flit => Sys2Proof.Machine.execResendFail port flit s
  | .shardTimeout index shard => Sys2Proof.Machine.execShardTimeout index shard s
  | .equery port flit => Sys2Proof.Machine.execEquery port flit s
  | .eanswer port flit => Sys2Proof.Machine.execEanswer port flit s
  | .notice port flit => Sys2Proof.Machine.execNotice port flit s
  | .noticeAck port flit => Sys2Proof.Machine.execNoticeAck port flit s
  | .editionRetired index => Sys2Proof.Machine.execEditionRetired index s
  | .laserCartridgeChange cartridge present => Sys2Proof.Machine.execLaserCartridgeChange cartridge present s
  | .cartridgeActive cartridge => Sys2Proof.Machine.execCartridgeActive cartridge s
  | .ringUnlock port => Sys2Proof.Machine.execRingUnlock port s
  | .calDone engine ok => Sys2Proof.Machine.execCalDone engine ok s
  | .command port header payload => Sys2Proof.Machine.execCommand port header payload s
  | .tsdLinkWord port frame => Sys2Proof.Machine.execTsdLinkWord port frame s
  | .tsdAckTimeout port => Sys2Proof.Machine.execTsdAckTimeout port s
  | .tsdPortUp port => Sys2Proof.Machine.execTsdPortUp port s
  | .tsdPortDown port => Sys2Proof.Machine.execTsdPortDown port s
  | .tsdTrainFail port credit => Sys2Proof.Machine.execTsdTrainFail port credit s
  | .cmdTimeout port tag => Sys2Proof.Machine.execCmdTimeout port tag s
  | .loadIdleTimeout slot => Sys2Proof.Machine.execLoadIdleTimeout slot s
  | .presencePress => Sys2Proof.Machine.execPresencePress s
  | .presenceExpired => Sys2Proof.Machine.execPresenceExpired s
  | .identityWiped => Sys2Proof.Machine.execIdentityWiped s
  | .mgmtBusRead addr count => Sys2Proof.Machine.execMgmtBusRead addr count s
  | .powerGood sense => Sys2Proof.Machine.execPowerGood sense s
  | .selftestDone die clusterPass rduPass => Sys2Proof.Machine.execSelftestDone die clusterPass rduPass s
  | .readingRoomBegin => Sys2Proof.Machine.execReadingRoomBegin s
  | .serviceBegin => Sys2Proof.Machine.execServiceBegin s
  | .resetN lowMicros => Sys2Proof.Machine.execResetN lowMicros s
  | .inputPowerLoss => Sys2Proof.Machine.execInputPowerLoss s
  | .trip cause => Sys2Proof.Machine.execTrip cause s
  | .tripClear outlet => Sys2Proof.Machine.execTripClear outlet s
  | .droop cluster => Sys2Proof.Machine.execDroop cluster s
  | .droopHoldEnd cluster => Sys2Proof.Machine.execDroopHoldEnd cluster s
  | .refHoldover => Sys2Proof.Machine.execRefHoldover s
  | .refLocked ppb => Sys2Proof.Machine.execRefLocked ppb s
  | .ldgHoldover => Sys2Proof.Machine.execLdgHoldover s
  | .d2dRetrain => Sys2Proof.Machine.execD2dRetrain s
  | .tableEccUe table => Sys2Proof.Machine.execTableEccUe table s
  | .stampArrival core => Sys2Proof.Machine.execStampArrival core s
  | .programStart slot => Sys2Proof.Machine.execProgramStart slot s
  | .alignmentDone clusterOk netOk d2dOk => Sys2Proof.Machine.execAlignmentDone clusterOk netOk d2dOk s
  | .d2dRetrainEnd completed => Sys2Proof.Machine.execD2dRetrainEnd completed s
  | .fabLightReceived port => Sys2Proof.Machine.execFabLightReceived port s
  | .tsdLightReceived port => Sys2Proof.Machine.execTsdLightReceived port s
  | .fabFlitReject port reason => Sys2Proof.Machine.execFabFlitReject port reason s
  | .tsdPacketReject port reason => Sys2Proof.Machine.execTsdPacketReject port reason s
  | .inputPowerApplied vinMv => Sys2Proof.Machine.execInputPowerApplied vinMv s
  | .trackLimit engine track => Sys2Proof.Machine.execTrackLimit engine track s
  | .junctionNear region temp => Sys2Proof.Machine.execJunctionNear region temp s
  | .xfEccUe core desc => Sys2Proof.Machine.execXfEccUe core desc s

end Sys2Proof.Machine
end

