-- ==== Sys2Proof/Machine/Step.lean ====
section
/-! DEFINITION. One step of the block: the command at the front of the queue, or, with none waiting, one die-network
cycle. -/

namespace Sys2Proof.Machine

open Sys2Proof

/-- Takes the command at the front of the queue and runs it on the state with the queue's rest. With no command waiting,
one die-network cycle passes (R233; DESIGN CHOICE, log 3). -/
def step (s : State) : Host.Outcome State Fault Refusal :=
  match s.pending with
  | [] => .next (idleCycle s)
  | c :: rest => exec c { s with pending := rest }

/-- `s` with the command that a word spells at the front of its queue. -/
def State.withFetchWord (s : State) (nbits w : Nat) : State :=
  match decodeTableWord nbits w with
  | some c => { s with pending := c :: s.pending }
  | none => s

end Sys2Proof.Machine
end

