-- ==== Sys2Proof/Safety.lean ====
section
/-! DEFINITION. The terms in which statements speak of safety: what a run must keep, and the ways in which one state is
another but for named parts. -/

namespace Sys2Proof.Machine

open Sys2Proof

/-- The carrels and shelves are held in their canonical form. -/
def State.Canonical (s : State) : Prop := Memory.wf s.mem = true

/-- A step that stops neither in a fault nor in a refusal. -/
def Answers (o : Host.Outcome State Fault Refusal) (t : State) : Prop := o = .next t

/-- `t` is `s` but for core `c`: every other core and every other field is the same. -/
def OnlyCore (c : Nat) (s t : State) : Prop :=
  t = { s with cores := t.cores } ∧ ∀ d, d ≠ c → t.core d = s.core d

/-- `t` is `s` but for core `c` and the bytes of memory. -/
def OnlyCoreAndMemory (c : Nat) (s t : State) : Prop :=
  t = { s with cores := t.cores, mem := t.mem } ∧ ∀ d, d ≠ c → t.core d = s.core d

/-- `t` is `s` but for what reports events: pages, event logs and Tsudan ports (R421, R428, R440). -/
def OnlyReports (s t : State) : Prop := t = { s with pages := t.pages, logs := t.logs, ports := t.ports }

/-- Every byte outside `a … a + n - 1` reads as before. -/
def MemoryKeptOutside (a n : Nat) (s t : State) : Prop :=
  ∀ k, k < a ∨ a + n ≤ k → t.mem.byte k = s.mem.byte k

/-- Every byte reads as before. -/
def MemoryKept (s t : State) : Prop := ∀ k, t.mem.byte k = s.mem.byte k

/-- Nothing waits for memory to be given back: no clearing of a partition is due, no tenant is RELEASING, and no
TENANT_BIND waits (R184, R213, R283). -/
def Quiet (s : State) : Prop :=
  (∀ k ∈ s.clusters, ∀ p ∈ k.2.parts, p.2.due = false) ∧ (∀ t ∈ s.tenants, t.2.state ≠ .releasing)
    ∧ ∀ p c, c ∈ (s.port p).cmds → (∀ b, c.wait ≠ .bind b) ∧ ∀ t, c.wait ≠ .bound t

/-- A port takes a whole command under this tag (R403, R404, R407, R444): it is UP, its curator runs, the tag is free and
fewer than 256 commands are in progress. -/
def Accepts (s : State) (p : Nat) (tag : BitVec 32) : Prop :=
  (s.port p).state = .up ∧ s.curatorUp p = true ∧ s.inProgress p tag = false ∧ (s.port p).cmds.length < 256

/-- A packet waits to be sent on a port or was sent on it and waits for its acknowledgement (R399). -/
def Queued (s : State) (p : Nat) (q : TxPacket) : Prop :=
  q ∈ (s.port p).txQueue ∨ ∃ x ∈ (s.port p).retry, { x with lseq := q.lseq, ledger := q.ledger } = q

/-- The command of a tag is no longer in progress, and its COMPLETION carries the reply (R19, R408). -/
def Completed (t : State) (p : Nat) (tag : BitVec 32) (code : BitVec 8) (r : Reply) : Prop :=
  t.inProgress p tag = false ∧ Queued t p (completionPacket tag code (classOf code) false r)

/-- An UP fabric port takes this flit of a type as the next of its link's sequence, on the type's virtual channel, and
delivers it here (R371, R375, R380). -/
def Takes (s : State) (n : Nat) (f : Flit) (typ : BitVec 8) : Prop :=
  (s.fport n).state = .up ∧ f.lseq = (s.fport n).rxNext ∧ vcOfType typ = some f.vc.toNat
    ∧ (f.hops = 0 ∨ f.hopidx.toNat + 1 = f.hops.toNat)

/-- A link word of a port (R398): its flags, its ACKSEQ and its CRED fields, under a good CRC. -/
def LinkWord (w : Bytes) (flags ack : Nat) (cred : Nat → Nat) : Prop :=
  w.length = 16 ∧ leAt w 0 1 = 0x7F ∧ leAt w 1 1 = flags ∧ leAt w 2 2 = ack ∧ (∀ c, c < 4 → leAt w (4 + 2 * c) 2 = cred c)
    ∧ leAt w 12 2 = 0 ∧ crc16 (w.take 14) = BitVec.ofNat 16 (leAt w 14 2)

/-- The units that the unacknowledged packets of a class take at the receiver (R400, R402). -/
def unackedUnits (l : List TxPacket) (c : Nat) : Nat := ((l.filter fun q => q.cls = c).map fun q => packetUnits q.payload).sum

/-- A flit waits on a port's egress, or was sent and waits for its acknowledgement; LSEQ, MARK and WAITED are the link's
(R371, R372, R378). -/
def FlitQueued (s : State) (n : Nat) (f : Flit) : Prop :=
  ∃ x, ((∃ i, (i, x) ∈ (s.fport n).queue f.vc.toNat) ∨ x ∈ (s.fport n).retry) ∧ { x with lseq := f.lseq, mark := f.mark, waited := f.waited } = f

/-- Requests of a core may have been marked as delayed by a link retry (R219, R372); nothing else of it differs. -/
def OnlyMarked (k j : Core) : Prop := j = { k with xf := { k.xf with tags := j.xf.tags, retryReq := j.xf.retryReq } }

/-- The cores differ at most in such marks. -/
def OnlyMarks (s t : State) : Prop := ∀ c, OnlyMarked (s.core c) (t.core c)

/-- Requests may have been offered to shelves (R525); nothing else of a cluster differs. -/
def OnlyRequests (s t : State) : Prop := ∀ k, t.cluster k = { s.cluster k with waiting := (t.cluster k).waiting }

/-- Receive units may have been freed on the Tsudan ports and told in a link word (R349, R398); nothing else of a port
differs. -/
def OnlyUnits (s t : State) : Prop :=
  ∀ p, t.port p = { s.port p with freed := (t.port p).freed, word := (t.port p).word }

/-- `t` is `s` but for what sending flits changes: the fabric ports, the marks of requests that a link retry delays, the
units of relayed streams, the draws of free bits (R219, R349, R372, R378). -/
def OnlySends (s t : State) : Prop :=
  t = { s with fports := t.fports, cores := t.cores, ports := t.ports, freeCtr := t.freeCtr } ∧ OnlyMarks s t ∧ OnlyUnits s t

/-- `t` is `s` but for what the fall of fabric ports changes where no program and no request uses them: the ports and what
sending flits changes, the requests that came in on them, the relays through them, and reports (R368, R389). -/
def OnlyLinks (s t : State) : Prop :=
  t = { s with cores := t.cores, fports := t.fports, admitted := t.admitted, editions := t.editions
               fab := { s.fab with drop := t.fab.drop }, freeCtr := t.freeCtr, pages := t.pages, logs := t.logs, ports := t.ports }
    ∧ (∀ c, t.core c = s.core c) ∧ ∀ i, t.edition i = { s.edition i with relayStopped := (t.edition i).relayStopped }

/-- A fabric port that has left UP or TRAINING holds nothing of its link any more, and its fall is reported (R368,
R388, R389). -/
def Fallen (t : State) (n : Nat) (st : LinkState) (cause : BitVec 4) : Prop :=
  (t.fport n).state = st ∧ (t.fport n).cause = cause ∧ (t.fport n).queues = [] ∧ (t.fport n).retry = [] ∧ (t.fport n).nb = none
    ∧ (t.page (fportPage n)).evtRaw.getLsbD 1 = true ∧ (t.page (fportPage n)).evtRaw.getLsbD 3 = true

/-- No program runs and no core waits for the answer to a window request. -/
def NoProgramUses (s : State) : Prop :=
  (∀ e ∈ s.slots, e.2.state ≠ .running) ∧ ∀ e ∈ s.cores, e.2.xf.tags = []

/-- The fused identity of R11 and of the arrays' columns (R84), the serial number and the straps. -/
def SameIdentity (s t : State) : Prop :=
  t.fuses.grade = s.fuses.grade ∧ t.fuses.c0 = s.fuses.c0 ∧ t.fuses.fusedA = s.fuses.fusedA
    ∧ t.fuses.fusedB = s.fuses.fusedB ∧ t.fuses.columns = s.fuses.columns ∧ t.fuses.serial = s.fuses.serial
    ∧ t.fuses.boardRev = s.fuses.boardRev ∧ t.fuses.ga = s.fuses.ga

/-- A blown fuse stays blown (R467, R469). -/
def FusesStayBlown (s t : State) : Prop :=
  (s.fuses.sealBroken = true → t.fuses.sealBroken = true)
    ∧ (s.fuses.identityWiped = true → t.fuses.identityWiped = true)

/-- The dies' ledgers after an alignment (R232, R234, R486): the leading die's is unchanged; the other takes its
value, or, being ahead, does not step back and slews towards it, unless the lease is VACANT (R451). -/
def DiesAligned (s t : State) : Prop :=
  let other := 1 - s.leadDie
  let gap := ((s.dieLedger s.leadDie).now - (s.dieLedger other).now).toInt
  t.dieLedger s.leadDie = s.dieLedger s.leadDie
    ∧ (0 ≤ gap → (t.dieLedger other).now = (s.dieLedger s.leadDie).now)
    ∧ (gap < 0 → (t.dieLedger other).now = (s.dieLedger other).now
        ∧ (s.charter.lease ≠ .vacant → (t.dieLedger other).slew = (s.dieLedger s.leadDie).slew + gap))

/-- The row whose effect a whole COMMAND packet has, by its code (R407); FOLIO_LOAD's row carries a view of its own. -/
def commandRow (p : TPort) (h : TsdHeader) (b : Bytes) : Option Instr :=
  match h.code.toNat with
  | 0x01 => some (.echo p h.tag b)
  | 0x02 => some (.regRead p h.tag b)
  | 0x03 => some (.regWrite p h.tag b)
  | 0x04 => some (.regBlock p h.tag b)
  | 0x11 => some (.run p h.tag b)
  | 0x12 => some (.halt p h.tag b)
  | 0x18 => some (.tenantBind p h.tag b)
  | 0x19 => some (.tenantRelease p h.tag b)
  | 0x20 => some (.sessionOpen p h.tag b)
  | 0x21 => some (.promptAppend p h.tag b)
  | 0x22 => some (.sessionCancel p h.tag b)
  | 0x23 => some (.sessionClose p h.tag b)
  | 0x28 => some (.editionBegin p h.tag b)
  | 0x29 => some (.shardData p h.tag b)
  | 0x2A => some (.editionCommit p h.tag b)
  | 0x2B => some (.editionSwitch p h.tag b)
  | 0x2C => some (.editionRetire p h.tag b)
  | 0x30 => some (.windowOpen p h.tag b)
  | 0x31 => some (.windowClose p h.tag b)
  | 0x38 => some (.fabIdentity p h.tag b)
  | 0x39 => some (.fabRoutes p h.tag b)
  | 0x40 => some (.attest p h.tag b)
  | 0x41 => some (.fwStage p h.tag b)
  | 0x42 => some (.fwActivate p h.tag b)
  | 0x43 => some (.presenceChallenge p h.tag b)
  | _ => none

/-- The state in which a whole command of a free tag does its work: it is in progress on its port (R403, R404). -/
def State.begun (s : State) (p : Nat) (tag : BitVec 32) (code : BitVec 8) : State :=
  s.modPort p fun x => { x with cmds := x.cmds ++ [⟨tag, code, classOf code, 1, [], .packets⟩] }

/-- Registers read in order, each with what its read clears or latches, and their values, 4 bytes each (R13, R410,
R432). -/
def readEach : List Nat → State → State × Bytes
  | [], s => (s, [])
  | a :: l, s => ((readEach l (s.readAddr a).1).1, leBytes 4 (s.readAddr a).2.toNat ++ (readEach l (s.readAddr a).1).2)

/-- Every entry from the i-th on passes its checks, each as if those before it had been stored (R410, R411). -/
def WritesPass (port : Nat) (tag : BitVec 32) : Nat → List (Nat × Nat) → State → Prop
  | _, [], _ => True
  | i, e :: l, s => s.writeFault port tag i e.1 e.2 = none ∧ WritesPass port tag (i + 1) l (s.entrySet e.1 e.2)

/-- Entries written in order, each with what its write stores and starts (R411). -/
def writeEach (port : Nat) (tag : BitVec 32) : List (Nat × Nat) → State → State
  | [], s => s
  | e :: l, s => writeEach port tag l (State.entryAct port tag s e.1 e.2)

/-- A command that reads these registers (R410, R411): where every address passes its checks, it has read them in
order and answers their values; else nothing is read and the first that does not pass decides. -/
def ReadsRegisters (i : Instr) (p : Nat) (tag : BitVec 32) (code : BitVec 8) (l : List Nat) (s : State) : Prop :=
  let b := s.begun p tag code
  ((∀ a ∈ l, s.readFault p a = none) → exec i s = .next ((readEach l b).1.complete p tag (Reply.ok (readEach l b).2)))
    ∧ ∀ (n a st : Nat), l[n]? = some a → s.readFault p a = some st → (∀ c ∈ l.take n, s.readFault p c = none) →
        exec i s = .next (b.complete p tag (Reply.errAt st n))

/-- A command that writes these entries (R411, R449, R489): where every entry passes its checks, all are written in
order and it answers OK, or waits for the yield, or for the clusters that are not isolated yet; else nothing is
written and the first that does not pass decides. Entries of region 0x1 that do not pass are not spoken of here (R450,
R465). -/
def WritesRegisters (i : Instr) (p : Nat) (tag : BitVec 32) (code : BitVec 8) (l : List (Nat × Nat)) (s : State) : Prop :=
  let b := s.begun p tag code
  let t := writeEach p tag l b
  let left := (l.filterMap fun e => b.entryCluster e.1 e.2).filter fun k => !t.isolated k
  (WritesPass p tag 0 l b →
      ((∀ e ∈ l, entryYields e.1 e.2 = false) → left = [] → exec i s = .next (t.complete p tag (Reply.ok [])))
      ∧ ((∃ e ∈ l, entryYields e.1 e.2 = true) → t.inProgress p tag = true → exec i s = .next (t.setWait p tag .yield))
      ∧ ((∀ e ∈ l, entryYields e.1 e.2 = false) → left ≠ [] → t.inProgress p tag = true →
          exec i s = .next (t.setWait p tag (.isolate left))))
    ∧ ∀ (n : Nat) (e : Nat × Nat) (r : Reply), l[n]? = some e → WritesPass p tag 0 (l.take n) b →
        ((l.take n).foldl (fun (s : State) e => s.entrySet e.1 e.2) b).writeFault p tag n e.1 e.2 = some r →
        e.1 / 2 ^ 28 ≠ 1 → exec i s = .next (b.complete p tag r)

/-- No folio slot is being loaded. -/
def NoLoads (s : State) : Prop := ∀ e ∈ s.slots, e.2.state ≠ .loading

/-- What the loss of the package's state leaves (R426, R502): rails off, memory, cores, programs, tenants and sessions
at reset; fuses, the firmware-signing keys, the chain, the window floor, MAPOUT and which active bank has yet to boot
kept. -/
def LostPackage (s t : State) : Prop :=
  t.power.railsOn = false ∧ t.mem = [] ∧ t.upsets = [] ∧ t.cores = [] ∧ t.pages = [] ∧ t.ports = [] ∧ t.slots = []
    ∧ t.tenants = [] ∧ t.sessions = [] ∧ t.windows = [] ∧ t.editions = [] ∧ t.charter = Charter.reset
    ∧ t.gen = GenPage.reset ∧ t.fuses = s.fuses ∧ t.win.floor = s.win.stored ∧ t.win.stored = s.win.stored
    ∧ t.sec.fwKeys = s.sec.fwKeys ∧ t.sec.fwVersion = s.sec.fwVersion ∧ t.sec.chain = s.sec.chain
    ∧ t.sec.folioKeys = [] ∧ t.pending = s.pending
    ∧ (Tbl.wf Cluster.reset s.clusters = true → ∀ k, (t.cluster k).mapout = (s.cluster k).mapout)
    ∧ (Tbl.wf Curator.reset s.curators = true → ∀ d, t.curator d = { Curator.reset with fresh := (s.curator d).fresh })

end Sys2Proof.Machine
end

