-- ==== Sys2Proof/Certificates/Slice0/Obligations.lean ====
section
/-! DEFINITION. The statements of the first slice, from the numbered rules of the manual: the queue and the whole machine,
the units of a core, the sequencer, repair, memory, the fabric, the Tsudan port and its commands, the ledger, power and
security. -/

open Sys2Proof Sys2Proof.Machine


-- the queue and the whole machine

/-- The command at the front of the queue is run by exec on the state with the queue's rest. -/
def Obligations.FrontCommandRunsExec : Prop :=
  ∀ (c : Instr) (rest : List Instr) (s : State),
    step { s with pending := c :: rest } = exec c { s with pending := rest }

/-- With no command waiting, a step is one die-network cycle (the model's choice, log 3): while the ledgers run, each
die's ledger makes the count of R233 and nothing else changes; before that nothing changes. Without rate correction,
carry and slew the count is 8 units. -/
def Obligations.IdleStepCountsOneCycle : Prop :=
  (∀ s : State, s.pending = [] →
     (s.ledgersRun = false → step s = .next s)
       ∧ (s.ledgersRun = true → ∃ t, step s = .next t ∧ t = { s with ledgers := t.ledgers }
           ∧ t.dieLedger 0 = (s.dieLedger 0).cycle s.ledger.rate ∧ t.dieLedger 1 = (s.dieLedger 1).cycle s.ledger.rate))
  ∧ (∀ l : DieLedger, l.acc = 0 → l.slew = 0 → (l.cycle 0).now = l.now + 8 ∧ (l.cycle 0).acc = 0)

/-- Every step keeps carrels and shelves in canonical form. -/
def Obligations.EveryStepKeepsMemoryCanonical : Prop :=
  ∀ s t : State, s.Canonical → step s = .next t → t.Canonical

/-- What reset leaves (R74, R65, R66, R154, R181, R395, R434, R470): memory of zeros in canonical form, every core in
RESET with empty planes, tile registers of +0, scale registers of 1.0, ports DOWN and enabled, no lease, no command
waiting. Where the model chooses: assumption log 9 and 10. -/
def Obligations.ResetLeavesTheModuleCleared : Prop :=
  State.reset.Canonical ∧ State.reset.pending = [] ∧ (∀ a, State.reset.mem.byte a = 0)
    ∧ (∀ c, (State.reset.core c).sq.mode = .reset ∧ (State.reset.core c).sq.run = false
        ∧ (State.reset.core c).mx.active = none ∧ (State.reset.core c).mx.shadow = .empty
        ∧ (∀ i r, (State.reset.core c).mx.row i r = zeroRow) ∧ (∀ i, (State.reset.core c).mx.scale i = 0x3F800000#32)
        ∧ (∀ i, (State.reset.core c).mx.act i = ⟨0, 0, 0⟩))
    ∧ (∀ p, (State.reset.port p).state = .down ∧ (State.reset.port p).enable = true ∧ (State.reset.port p).events = true)
    ∧ (∀ n, (State.reset.fport n).state = .down ∧ (State.reset.fport n).enable = true)
    ∧ State.reset.charter.lease = .vacant ∧ State.reset.gen.service = false

/-- No command changes the fused identity, and a blown fuse stays blown (R11, R84, R467, R469).
A command's effect leaves the queue of waiting commands alone. -/
def Obligations.EveryStepKeepsIdentityAndQueue : Prop :=
  (∀ s t : State, step s = .next t → SameIdentity s t ∧ FusesStayBlown s t)
  ∧ (∀ (c : Instr) (s t : State), exec c s = .next t → t.pending = s.pending)

/-- Every command answers a next state but the application of an input above 48 V, which alone stops the block (R497).
Where the model chooses: assumption log 8. -/
def Obligations.OnlyOvervoltageStops : Prop :=
  ∀ (c : Instr) (s : State), (∃ t, exec c s = .next t)
    ∨ ∃ mv, c = .inputPowerApplied mv ∧ 48000 < mv ∧ exec c s = .fault .absoluteMaximum

-- the matrix engine

/-- R74: MX.SETA sets its descriptor to EBASE, SBASE and PITCH, through which a source row's elements and block scales
are found; MX.SETS sets its scale register, 1 to 15, to VALUE, and one that names register 0 faults with MX_ILLEGAL,
as does a MUL that uses a descriptor whose PITCH is 0; register 0 reads 1.0, and reset leaves 1.0 in the others and 0
in every descriptor. Every other descriptor, register and part of the state keeps its value. -/
def Obligations.MatrixRegistersAreSet : Prop :=
  (∀ (core : CoreId) (args : BitVec 58) (s : State), s.runs core = true → args.extractLsb' 0 4 = 0 →
    ∃ t, exec (.mxSeta core args) s = .next t ∧ OnlyCore core s t
      ∧ t.core core = { s.core core with mx := { (s.core core).mx with adesc := (t.core core).mx.adesc } }
      ∧ (t.core core).mx.act (args.extractLsb' 54 4).toNat
          = ⟨args.extractLsb' 33 21, args.extractLsb' 12 21, args.extractLsb' 4 8⟩
      ∧ ∀ i, i ≠ (args.extractLsb' 54 4).toNat → (t.core core).mx.act i = (s.core core).mx.act i)
  ∧ (∀ (mem : Memory) (base : Nat) (d : ActDesc) (fmt k i : Nat), actRow mem base d fmt k i
      = ⟨(unpackElems (mxBits fmt) k (mem.read (base + d.ebase.toNat + i * d.pitch.toNat * 16) (actRowBytes fmt k))).map (widen fmt),
          if isMx fmt then mem.read (base + d.sbase.toNat + i * (k / 32)) (k / 32) else []⟩)
  ∧ (∀ (core : CoreId) (args : BitVec 58) (s : State), s.runs core = true → args.extractLsb' 32 22 = 0 →
      args.extractLsb' 54 4 ≠ 0 →
    ∃ t, exec (.mxSets core args) s = .next t ∧ OnlyCore core s t
      ∧ t.core core = { s.core core with mx := { (s.core core).mx with scales := (t.core core).mx.scales } }
      ∧ (t.core core).mx.scale (args.extractLsb' 54 4).toNat = args.extractLsb' 0 32
      ∧ ∀ i, i ≠ (args.extractLsb' 54 4).toNat → (t.core core).mx.scale i = (s.core core).mx.scale i)
  ∧ (∀ (core : CoreId) (args : BitVec 58) (s : State) (i : Instr), s.runs core = true →
      (i = .mxSets core args ∧ args.extractLsb' 54 4 = 0
        ∨ i = .mxMul core args ∧ (∀ l, (s.core core).mx.shadow ≠ .loading l)
          ∧ (((s.core core).mx.act (mulWord (word58 0x02 args)).adesc).pitch = 0
            ∨ (mulWord (word58 0x02 args)).shape = 4
              ∧ ((s.core core).mx.act (mulWord (word58 0x02 args)).adesc2).pitch = 0)) →
    ∃ t, exec i s = .next t ∧ (t.core core).sq.mode = .faulted
      ∧ ((s.page (mxePage core)).evtRaw.getLsbD 0 = false → (t.page (mxePage core)).caps.take 1 = [1#32]))
  ∧ ∀ c : Nat, (∀ s : State, (s.core c).mx.scale 0 = 0x3F800000#32)
      ∧ ∀ i, (State.reset.core c).mx.scale i = 0x3F800000#32 ∧ (State.reset.core c).mx.act i = ⟨0, 0, 0⟩

/-- MX.LOAD that passes its checks makes the shadow plane LOADING with the word's SHAPE, WFMT, source and the scale
register that WSCALE names (R65, R71), a tile in a shelf being requested there (R525); the last bytes make it FULL with
that tile, tW travelling with it (R42, R77). Nothing else of the module changes. Where the model chooses: assumption log
17, 26 and 148. -/
def Obligations.WeightLoadFillsTheShadowPlane : Prop :=
  (∀ (core : CoreId) (args : BitVec 58) (s : State), s.runs core = true →
      (∀ l, (s.core core).mx.shadow ≠ .loading l) → s.matrixIssue core (word58 0x01 args) = none →
    let src := (args.extractLsb' 17 29).toNat
    let bytes := tileBytes (args.extractLsb' 51 4).toNat (args.extractLsb' 55 3).toNat (s.width core)
    ∃ t, exec (.mxLoad core args) s = .next t ∧ t = { s with cores := t.cores, clusters := t.clusters }
      ∧ (∀ d, d ≠ core.val → t.core d = s.core d)
      ∧ t.core core = { s.core core with mx := { (s.core core).mx with
          shadow := .loading ⟨args.extractLsb' 55 3, args.extractLsb' 51 4,
            (s.core core).mx.scale (args.extractLsb' 47 4).toNat, args.getLsbD 46, src,
            word58 0x01 args, ⟨8 * (s.core core).sq.pc, 8 * (s.core core).sq.pc⟩⟩
          badShadow := false } }
      ∧ (args.getLsbD 46 = false → t.clusters = s.clusters)
      ∧ (args.getLsbD 46 = true →
          t.clusters = (s.offer core .matrix false (shelfBase (clusterOf core) + src) bytes).clusters))
  ∧ (∀ (core : CoreId) (s : State) (l : ShadowLoad) (tile : Tile), s.upsets = [] → (s.core core).mx.shadow = .loading l →
      tileOf l.shape.toNat l.wfmt.toNat l.tw (s.width core)
        (s.mem.read (loadSource core l.spc l.src) (tileBytes l.wfmt.toNat l.shape.toNat (s.width core))) = some tile →
    ∃ t, exec (.shadowLoadDone core) s = .next t ∧ OnlyCore core s t ∧ tile.tw = l.tw
      ∧ t.core core = { s.core core with mx := { (s.core core).mx with shadow := .full tile } })

/-- MX.MUL that passes its checks (R51, R65, R70, R72, R86). Of a single-tile shape: with SW = 1 the shadow tile becomes
active and the shadow plane EMPTY, row MROW0 + j of TDST takes the sums of source row AROW0 + j, MXE_ROWS counts the rows;
other rows, memory and the rest of the module stay. Of a paired shape, PK or PN: half 0 goes to TDST and half 1 to TDST2,
PN through one descriptor and PK through two; where both name one register the row of half 1 is made from that of half 0.
Where the model chooses: assumption log 17, 18 and 25. -/
def Obligations.MatrixMultiplyWritesItsRows : Prop :=
  (∀ (core : CoreId) (args : BitVec 58) (s : State) (tile : Tile),
     let f := mulWord (word58 0x02 args)
     let m := (s.core core).mx
     let k := if f.shape = 2 then 64 else if f.shape = 3 then 32 else 128
     s.runs core = true → s.upsets = [] → s.matrixIssue core (word58 0x02 args) = none → f.shape < 4 →
     planeAfter m f.sw = some tile →
     ∃ t, exec (.mxMul core args) s = .next t ∧ OnlyCore core s t
       ∧ t.core core = { s.core core with mx := (t.core core).mx }
       ∧ (t.core core).mx.active = some tile ∧ (t.core core).mx.shadow = (if f.sw then .empty else m.shadow)
       ∧ (t.core core).mx.rows = m.rows + BitVec.ofNat 64 (f.mcount + 1)
       ∧ (∀ j, j ≤ f.mcount → (t.core core).mx.row f.tdst (f.mrow0 + j)
           = mulRow f.afmt tile k tile.half0 (m.scale f.tscale) f.acc
               (actRow s.mem (carrelBase core) (m.act f.adesc) f.afmt k (f.arow0 + j)) (m.row f.tdst (f.mrow0 + j)))
       ∧ ∀ i r, r < 128 → i ≠ f.tdst ∨ r < f.mrow0 ∨ f.mrow0 + f.mcount < r → (t.core core).mx.row i r = m.row i r)
  ∧ (∀ (core : CoreId) (args : BitVec 58) (s : State) (tile : Tile),
     let f := mulWord (word58 0x02 args)
     let m := (s.core core).mx
     let k := if f.shape = 4 then 64 else 128
     let read := fun d j => actRow s.mem (carrelBase core) (m.act d) f.afmt k (f.arow0 + j)
     let first := fun j => mulRow f.afmt tile k tile.half0 (m.scale f.tscale) f.acc (read f.adesc j)
       (m.row f.tdst (f.mrow0 + j))
     let second := fun j old => mulRow f.afmt tile k tile.half1 (m.scale f.tscale) f.acc
       (read (if f.shape = 4 then f.adesc2 else f.adesc) j) old
     s.runs core = true → s.upsets = [] → s.matrixIssue core (word58 0x02 args) = none → 4 ≤ f.shape →
     planeAfter m f.sw = some tile →
     ∃ t, exec (.mxMul core args) s = .next t ∧ OnlyCore core s t
       ∧ t.core core = { s.core core with mx := (t.core core).mx }
       ∧ (∀ j, j ≤ f.mcount →
           (t.core core).mx.row f.tdst2 (f.mrow0 + j)
               = second j (if f.tdst2 = f.tdst then first j else m.row f.tdst2 (f.mrow0 + j))
             ∧ (f.tdst2 ≠ f.tdst → (t.core core).mx.row f.tdst (f.mrow0 + j) = first j))
       ∧ ∀ i r, r < 128 → (i ≠ f.tdst ∧ i ≠ f.tdst2) ∨ r < f.mrow0 ∨ f.mrow0 + f.mcount < r →
           (t.core core).mx.row i r = m.row i r)

/-- MX.STORE that passes its checks (R73): row MROW0 + j of the register lies at DST + j × DPITCH × 64 as little-endian
FP32 of the presented width, with CLR = 1 the row is +0 afterwards, every byte outside the stored rows and every other
tile-register row keeps its value. Where the model chooses: assumption log 17 and 141. -/
def Obligations.MatrixStoreWritesItsRows : Prop :=
  ∀ (core : CoreId) (args : BitVec 58) (s : State),
    let w := word58 0x03 args
    let m := (s.core core).mx
    let at_ := fun j => carrelBase core + fld w 40 20 + j * fld w 19 12 * 64
    s.runs core = true → s.upsets = [] → (s.core core).car.inject.arm = false → s.matrixIssue core w = none →
    ∃ t, exec (.mxStore core args) s = .next t ∧ OnlyCoreAndMemory core s t
      ∧ t.core core = { s.core core with mx := { m with tiles := (t.core core).mx.tiles } }
      ∧ (∀ j i, j ≤ fld w 47 41 → i < (rowBytes (s.width core) (m.row (fld w 57 55) (fld w 54 48 + j))).length →
          t.mem.byte (at_ j + i) = (rowBytes (s.width core) (m.row (fld w 57 55) (fld w 54 48 + j))).getD i 0)
      ∧ (∀ a, (∀ j, j ≤ fld w 47 41 → a < at_ j ∨ at_ j + 4 * s.width core ≤ a) → t.mem.byte a = s.mem.byte a)
      ∧ (∀ j, j ≤ fld w 47 41 → (t.core core).mx.row (fld w 57 55) (fld w 54 48 + j)
          = if fld w 11 11 = 1 then zeroRow else m.row (fld w 57 55) (fld w 54 48 + j))
      ∧ ∀ i r, r < 128 → i ≠ fld w 57 55 ∨ r < fld w 54 48 ∨ fld w 54 48 + fld w 47 41 < r →
          (t.core core).mx.row i r = m.row i r

/-- The tile-axis words that pass their checks write one FP32 value for each row, or for each column, at DST: sums or
maxima folded in ascending order (R120, R121); nothing else changes. In SERVICE they fault (R122). Where the model
chooses: assumption log 17. -/
def Obligations.TileAxisWordsWriteTheirResults : Prop :=
  ∀ q ∈ [(Instr.mxTrsumR, 0x10#6, false, false), (Instr.mxTrsumC, 0x11#6, true, false),
         (Instr.mxTrmaxR, 0x12#6, false, true), (Instr.mxTrmaxC, 0x13#6, true, true)],
    ∀ (core : CoreId) (args : BitVec 58) (s : State),
      let w := word58 q.2.1 args
      let dest := fun c : CoreId => carrelBase c + fld w 40 20
      (s.runs core = true → s.upsets = [] → (s.core core).car.inject.arm = false → s.matrixIssue core w = none →
        exec (q.1 core args) s = .next
          { s with mem := s.mem.write (dest core) (trBytes (s.width core) q.2.2.1 q.2.2.2 (s.core core).mx w) })
      ∧ ((s.core core).sq.mode = .service → s.matrixIssue core w ≠ none)

/-- A matrix word with a fault at issue (R90): the core is FAULTED, the engine's planes, registers and memory keep what
they hold, the MXE page has the cause, the word and its offset, that of the pc for a word that runs alone, unless it
already holds a capture. Here for a core that runs no loaded program. Where the model chooses: assumption log 17, 19, 139
and 140. -/
def Obligations.MatrixFaultIsPrecise : Prop :=
  ∀ (core : CoreId) (args : BitVec 58) (s : State) (cause : Nat),
    let w := word58 0x05 args
    s.runs core = true → s.slotOf core = none → s.matrixIssue core w = some cause →
    ∃ t, exec (.mxSets core args) s = .next t ∧ (t.core core).sq.mode = .faulted ∧ (t.core core).mx = (s.core core).mx
      ∧ t.mem = s.mem ∧ (∀ d, d ≠ core.val → t.core d = s.core d)
      ∧ ((s.page (mxePage core)).evtRaw.getLsbD 0 = false →
          (t.page (mxePage core)).caps.take 4 = [BitVec.ofNat 32 cause, w.extractLsb' 0 32, w.extractLsb' 32 32,
            BitVec.ofNat 32 (8 * (s.core core).sq.pc)])

-- the vector engine and the reduction unit

/-- Every element-wise word of the vector engine that passes its check and meets no element fault leaves the unit and the
carrel as its run over the elements gives them (R92 to R108); nothing else of the module changes. Where the model chooses:
assumption log 17, 22 and 27. -/
def Obligations.VectorWordsRunOverTheirElements : Prop :=
  ∀ q ∈ [(Instr.vxAdd, 0x01#8), (Instr.vxSub, 0x02#8), (Instr.vxMul, 0x03#8), (Instr.vxFma, 0x04#8), (Instr.vxMin, 0x05#8),
         (Instr.vxMax, 0x06#8), (Instr.vxAbs, 0x07#8), (Instr.vxNeg, 0x08#8), (Instr.vxAnd, 0x09#8), (Instr.vxOr, 0x0A#8),
         (Instr.vxXor, 0x0B#8), (Instr.vxShl, 0x0C#8), (Instr.vxShr, 0x0D#8), (Instr.vxSel, 0x0E#8), (Instr.vxMov, 0x0F#8),
         (Instr.vxBcast, 0x10#8), (Instr.vxCmp, 0x11#8), (Instr.vxGather, 0x12#8), (Instr.vxCvt, 0x18#8),
         (Instr.vxPack, 0x19#8), (Instr.vxUnpack, 0x1A#8), (Instr.vxExp, 0x20#8), (Instr.vxExp2, 0x21#8),
         (Instr.vxRcp, 0x22#8), (Instr.vxRsqrt, 0x23#8), (Instr.vxSigm, 0x24#8), (Instr.vxGelu, 0x25#8)],
    ∀ (core : CoreId) (args : BitVec 56) (s : State),
      let w := word56 q.2 args
      let o := (s.vxCtx core (vxWord w)).run (vxWord w) none s.mem
      s.runs core = true → s.upsets = [] → (s.core core).car.inject.arm = false → s.vectorIssue core w = none →
      o.fault = none →
      ∃ t, exec (q.1 core args) s = .next t ∧ OnlyCoreAndMemory core s t ∧ t.mem = o.mem
        ∧ t.core core = { s.core core with vx := o.unit }

/-- What the run of a one-lane word leaves (R92, R95, R96, R100) where DST overlaps no source: each enabled element
takes its result, lowest byte first; a disabled one keeps its bytes, but for VX.SEL, whose mask selects; every other
byte keeps its value, and of the unit only the three counters change. Integer results: with SAT = 1 the nearest value
of the type, with SAT = 0 the value modulo 2 to the width; out of range is counted either way. -/
def Obligations.EnabledElementsTakeTheirResults : Prop :=
  (∀ (k : VxCtx) (v : VxWord) (mem : Memory),
     let size := laneSize v.typ
     let d := k.unit.base v.dst
     let apart := fun o => o + v.n * size ≤ d ∨ d + v.n * size ≤ o
     let out := k.run v none mem
     1 ≤ v.op → v.op ≤ 0x10 → out.fault = none → apart (k.unit.base v.srca) →
     (v.usesB = true → apart (k.unit.base v.srcb)) → (v.usesC = true → apart (k.unit.base v.srcc)) →
     (∀ e, e < v.n → out.mem.read (k.base + d + e * size) size
         = if v.op = 0x0E ∨ k.unit.enabled v.mset v.minv e = true then leBytes size (k.elem v mem e).val
           else mem.read (k.base + d + e * size) size)
       ∧ (∀ a, a < k.base + d ∨ k.base + d + v.n * size ≤ a → out.mem.byte a = mem.byte a)
       ∧ out.unit = { k.unit with
           fpInvalid := out.unit.fpInvalid, fpOverflow := out.unit.fpOverflow, intOverflow := out.unit.intOverflow })
  ∧ (∀ w, 0 < w → ∀ v : Int,
     toSigned w (intRes w true v).val = max (-(2 ^ (w - 1) : Int)) (min (2 ^ (w - 1) - 1) v)
       ∧ ((intRes w false v).val : Int) = v % 2 ^ w
       ∧ ∀ sat, (intRes w sat v).intOvf = true ↔ v < -(2 ^ (w - 1) : Int) ∨ 2 ^ (w - 1) ≤ v)

/-- R105: VX.SETD writes BASE into its descriptor, VX.SETS VALUE into its scale register, 1 to 15; one that names
register 0 faults with VX_ILLEGAL, as does a RSVD bit of either word; register 0 reads 1.0, reset leaves 1.0 in the
others, and the matrix engine's registers are not touched. VX.SETQ loads and VX.STQ stores the mask set that bits
[19:18] name (R95, R98, R100). -/
def Obligations.VectorRegistersAreSet : Prop :=
  (∀ (core : CoreId) (args : BitVec 56) (s : State), s.runs core = true → args.extractLsb' 0 31 = 0 →
    ∃ t, exec (.vxSetd core args) s = .next t ∧ OnlyCore core s t
      ∧ t.core core = { s.core core with vx := { (s.core core).vx with desc := (t.core core).vx.desc } }
      ∧ (t.core core).vx.base (args.extractLsb' 52 4).toNat = (args.extractLsb' 31 21).toNat
      ∧ ∀ i, i ≠ (args.extractLsb' 52 4).toNat → (t.core core).vx.base i = (s.core core).vx.base i)
  ∧ (∀ (core : CoreId) (args : BitVec 56) (s : State), s.runs core = true → args.extractLsb' 32 20 = 0 →
      args.extractLsb' 52 4 ≠ 0 →
    ∃ t, exec (.vxSets core args) s = .next t ∧ OnlyCore core s t
      ∧ t.core core = { s.core core with vx := { (s.core core).vx with scales := (t.core core).vx.scales } }
      ∧ (t.core core).vx.scale (args.extractLsb' 52 4).toNat = args.extractLsb' 0 32
      ∧ ∀ i, i ≠ (args.extractLsb' 52 4).toNat → (t.core core).vx.scale i = (s.core core).vx.scale i)
  ∧ (∀ (core : CoreId) (args : BitVec 56) (s : State) (i : Instr), s.runs core = true →
      (i = .vxSets core args ∧ (args.extractLsb' 52 4 = 0 ∨ args.extractLsb' 32 20 ≠ 0)
        ∨ i = .vxSetd core args ∧ args.extractLsb' 0 31 ≠ 0) →
    ∃ t, exec i s = .next t ∧ (t.core core).sq.mode = .faulted
      ∧ ((s.page (vecPage core)).evtRaw.getLsbD 0 = false → (t.page (vecPage core)).caps.take 1 = [1#32]))
  ∧ (∀ c : Nat, (∀ s : State, (s.core c).vx.scale 0 = 0x3F800000#32) ∧ ∀ i, (State.reset.core c).vx.scale i = 0x3F800000#32)
  ∧ (∀ (core : CoreId) (args : BitVec 56) (s : State),
    let w := word56 0x32 args
    let u := (s.core core).vx
    s.runs core = true → s.upsets = [] → s.vectorIssue core w = none → u.base (fld w 38 35) + 512 ≤ carrelSize →
    ∃ t, exec (.vxSetq core args) s = .next t ∧ OnlyCore core s t
      ∧ t.core core = { s.core core with vx := { u with masks := (t.core core).vx.masks } }
      ∧ ∀ q l, 0 < q → l < 256 → (t.core core).vx.maskWord q l
          = if q = fld w 19 18 then
              BitVec.ofNat 16 (leNat (s.mem.read (carrelBase core + u.base (fld w 38 35) + 2 * l) 2))
            else u.maskWord q l)
  ∧ (∀ (core : CoreId) (args : BitVec 56) (s : State),
    let w := word56 0x33 args
    let u := (s.core core).vx
    let at_ := carrelBase core + u.base (fld w 42 39)
    s.runs core = true → s.upsets = [] → (s.core core).car.inject.arm = false → s.vectorIssue core w = none →
    u.base (fld w 42 39) + 512 ≤ carrelSize →
    ∃ t, exec (.vxStq core args) s = .next t ∧ OnlyCoreAndMemory core s t ∧ t.core core = s.core core
      ∧ (∀ l, l < 256 → leNat (t.mem.read (at_ + 2 * l) 2) = (u.maskWord (fld w 19 18) l).toNat)
      ∧ MemoryKeptOutside at_ 512 s t)

/-- Every reduction word that passes its check writes its groups' results from DST in group order (R112 to R116); nothing
else changes. Where the model chooses: assumption log 17. -/
def Obligations.ReductionWordsWriteTheirResults : Prop :=
  ∀ q ∈ [(Instr.rdSum, 0x01#6), (Instr.rdMax, 0x02#6), (Instr.rdArgmax, 0x03#6), (Instr.rdSumsq, 0x04#6),
         (Instr.rdLse, 0x05#6)],
    ∀ (core : CoreId) (args : BitVec 58) (s : State),
      let r := rdWord (word58 q.2 args)
      let u := (s.core core).vx
      let bs := rdBytes (carrelBase core) u r s.mem
      s.runs core = true → s.upsets = [] → (s.core core).car.inject.arm = false →
      s.reductionIssue core (word58 q.2 args) = none →
      exec (q.1 core args) s = .next { s with mem := s.mem.write (carrelBase core + u.base r.dst) bs }

/-- Over INT32 the tree of R114 gives RD.SUM the sum modulo 2 to the 32 of the enabled elements, RD.MAX the greatest
enabled element, or −2 to the 31 where none is enabled (R113), RD.ARGMAX the greatest enabled element and the first
position that holds it (R115). -/
def Obligations.IntegerReductionsAddAndCompare : Prop :=
  (∀ xs : List (W32 × Bool), xs ≠ [] →
     leNat (groupResult 1 true xs) = ((xs.map fun x => if x.2 then x.1.toNat else 0).sum) % 2 ^ 32
       ∧ ∃ m : W32, groupResult 2 true xs = leBytes 4 m.toNat ∧ (∀ x ∈ xs, x.2 = true → x.1.toInt ≤ m.toInt)
           ∧ ((∃ x ∈ xs, x.2 = true ∧ x.1 = m) ∨ m = 0x80000000#32 ∧ ∀ x ∈ xs, x.2 = false))
  ∧ (∀ (xs : List (W32 × Bool)) (i : Nat) (v : W32), xs[i]? = some (v, true) → xs.length ≤ 8192 →
     (∀ (j : Nat) (y : W32), xs[j]? = some (y, true) → y.toInt ≤ v.toInt ∧ (j < i → y.toInt < v.toInt)) →
     groupResult 3 true xs = leBytes 4 v.toNat ++ leBytes 4 i)

-- words that act on nothing

-- the sequencer

/-- The control words that pass their check (R130 to R132), with q the core's sequencer and q' what the loop rule leaves
after the bundle at the pc: CT.JUMP goes to TARGET, CT.CALL to TARGET with the continuation pushed, CT.RET to the address
on top of the call stack, CT.LOOP pushes an entry for COUNT-1 + 1 iterations, CT.DELAY holds issue for its cycles, CT.HALT
stops issue. A NOP of any slot, its other bits zero, changes nothing, and neither does a word that only waits once what it
waits for holds: XF.FENCE, CT.WAITQ, CT.ACQR; a CT.WAITQ that waits may see credits of its own queue return, and no more
(R68, R100, R113, R191, R129, R136, R140, R145, R201). Where the model chooses: assumption log 17 and 39. -/
def Obligations.ControlWordsMoveTheSequencer : Prop :=
  (∀ (core : CoreId) (args : BitVec 58) (s : State),
     let q := (s.core core).sq
     let next := q.pc + q.bundleLen q.pc
     let q' := q.follow q.pc (q.bundleLen q.pc)
     let ok := fun op : BitVec 6 => s.runs core = true ∧ s.controlIssue core q.pc (word58 op args) = none
     let target := (args.extractLsb' 43 15).toNat
     let to_ := fun r : Sequencer => Host.Outcome.next (s.setCore core { s.core core with sq := r })
     (ok 0x01 → exec (.ctLoop core args) s = to_ { q with
         loops := ⟨next, (args.extractLsb' 19 15).toNat, (args.extractLsb' 34 24).toNat + 1, q.calls.length⟩ :: q.loops })
     ∧ (ok 0x02 → exec (.ctCall core args) s = to_ { q' with calls := q'.pc :: q.calls, pc := target, delay := 1, planned := false })
     ∧ (ok 0x03 → exec (.ctRet core args) s = to_ { q' with calls := q.calls.drop 1, pc := q.calls.headD 0, delay := 1, planned := false })
     ∧ (ok 0x04 → exec (.ctJump core args) s = to_ { q' with pc := target, delay := 1, planned := false })
     ∧ (ok 0x05 → exec (.ctDelay core args) s = to_ { q with delay := (args.extractLsb' 34 24).toNat, planned := true })
     ∧ (ok 0x06 → exec (.ctHalt core args) s = to_ { q with halted := true }))
  ∧ ((∀ (core : CoreId) (s : State),
     exec (.mxNop core 0) s = .next s ∧ exec (.vxNop core 0) s = .next s ∧ exec (.rdNop core 0) s = .next s
       ∧ exec (.xfNop core 0) s = .next s ∧ exec (.ctNop core 0) s = .next s)
   ∧ (∀ (core : CoreId) (args : BitVec 58) (s : State),
       (s.transferIssue core (word58 0x03 args) = none → exec (.xfFence core args) s = .next s)
       ∧ (s.controlIssue core (s.core core).sq.pc (word58 0x08 args) = none →
           (s.controlWait core (word58 0x08 args) = none → exec (.ctWaitq core args) s = .next s)
           ∧ ∃ t, exec (.ctWaitq core args) s = .next t ∧ t = { s with cores := t.cores, freeCtr := t.freeCtr }
             ∧ (∀ d, d ≠ core.val → t.core d = s.core d)
             ∧ t.core core = { s.core core with queues := (t.core core).queues }
             ∧ ∀ q, t.queue core q = { s.queue core q with used := (t.queue core q).used }
               ∧ (t.queue core q).used ≤ (s.queue core q).used)
       ∧ (s.controlIssue core (s.core core).sq.pc (word58 0x09 args) = none → exec (.ctAcqr core args) s = .next s)))

-- stamps

/-- CT.STAMP and CT.STEP that pass their check stop issue at a stamp with their ID, GROUP and PLAN; while S is below PLAN
the core has not arrived and nothing else changes (R149). STAMP_ARRIVAL of a core of a RUNNING slot that waits at a stamp
(R149): its S reaches PLAN, it has arrived with its cause, and the group counts it; while a local member is missing, or
the group has no partner module, nothing is sent. Where the model chooses: assumption log 17. -/
def Obligations.StampsStopTheCoreUntilArrival : Prop :=
  (∀ q ∈ [(Instr.ctStamp, 0x10#6, false), (Instr.ctStep, 0x11#6, true)],
     ∀ (core : CoreId) (args : BitVec 58) (s : State),
       let k := (s.core core).sq
       let id := args.extractLsb' 46 12
       let plan := (args.extractLsb' 12 24).toNat
       s.runs core = true → s.controlIssue core k.pc (word58 q.2.1 args) = none → k.s < plan →
       exec (q.1 core args) s = .next (s.setCore core { s.core core with sq :=
         { k with stampId := id, stamp := some ⟨id, (args.extractLsb' 36 10).toNat, plan, k.s, q.2.2, false, 0, 0⟩ } }))
  ∧ (∀ (core : CoreId) (s : State) (st : StampWait) (i : Nat) (e : StampEntry),
     let g := Tbl.get GroupRun.reset (s.slot i).prog.groups st.group
     (s.core core).sq.stamp = some st → st.arrived = false → s.slotOf core = some i → (s.slot i).group st.group = some e →
     (g.remote = [] ∨ g.id = st.id) → (e.peers = [] ∨ ∃ c ∈ e.members, c ≠ core.val ∧ c ∉ g.arrived) →
     ∃ t, exec (.stampArrival core) s = .next t ∧ t = { s with cores := t.cores, slots := t.slots }
       ∧ (∀ d, d ≠ core.val → t.core d = s.core d) ∧ (t.core core).sq.s = max (s.core core).sq.s st.plan
       ∧ (∃ x, (t.core core).sq.stamp = some x ∧ x.arrived = true ∧ x.id = st.id ∧ x.plan = st.plan
           ∧ x.time = (s.core core).sq.cycle + (st.plan - (s.core core).sq.s))
       ∧ Tbl.get GroupRun.reset (t.slot i).prog.groups st.group
           = { g with id := st.id, arrived := g.arrived ++ [core.val] })

/-- STAMP_RELEASE of a group whose members have all arrived, local and remote, none of them at a CT.STEP (R149, R150,
R242): every member leaves its stamp with S = 0, P cycles after the last arrival, local or of the remote module that
is named; it counts the cycles from its own arrival to the last one as hold, and takes the cause of the last to
arrive, of the lowest core where several arrive last; the group's SEQ rises, and its arrivals are gone. A core of a
loaded program without a STEP_ENTRY section that ends its step (R152): the step count rises, the lanes' draw counters
are 0, the core goes on at the next bundle. Where the model chooses: assumption log 35. -/
def Obligations.StampReleaseFreesTheMembers : Prop :=
  (∀ (slot : SlotId) (group : Fin 1024) (lastRole : Option Nat) (behind : Nat) (s : State) (e : StampEntry),
     let late := lastRole.map fun r => (r, behind)
     let g := Tbl.get GroupRun.reset (s.slot slot).prog.groups group
     let last := s.lastArrival e + (late.map Prod.snd).getD 0
     (∀ x, late = some x → 0 < x.2 ∧ ∃ h ∈ g.remote, h.role = x.1) →
     (s.slot slot).state = .running → (s.slot slot).group group = some e → e.members ≠ [] → e.members.Nodup →
     (∀ c ∈ e.members, c ∈ g.arrived) →
     (∀ p ∈ e.peers, ∃ h ∈ g.remote, h.role = p.role) →
     (∀ c ∈ e.members, ∀ st, (s.core c).sq.stamp = some st → st.ends = false) →
     ∃ t, exec (.stampRelease slot group lastRole behind) s = .next t ∧ t = { s with cores := t.cores, slots := t.slots }
       ∧ (∀ c ∈ e.members, (t.core c).sq.stamp = none ∧ (t.core c).sq.s = 0 ∧ (t.core c).sq.devSince = []
           ∧ (t.core c).sq.hold = sat32 (s.core c).sq.hold (last - s.arrivedAt c)
           ∧ (t.core c).sq.cycle = last + stampPeriod e ∧ (t.core c).sq.pc = (s.core c).sq.pc
           ∧ (s.arrivedAt c = last → (t.core c).sq.holdCause = (s.core c).sq.holdCause)
           ∧ (∀ m ∈ e.members, late = none → s.arrivedAt m = last → (∀ d ∈ e.members, s.arrivedAt d = last → m ≤ d) →
               s.arrivedAt c < last → (t.core c).sq.holdCause = BitVec.ofNat 4 (s.arrivedCause m))
           ∧ ∀ h ∈ g.remote, (∃ k, late = some (h.role, k)) → (∀ h' ∈ g.remote, h'.role = h.role → h' = h) →
               (t.core c).sq.holdCause = BitVec.ofNat 4 (if h.mark then 1 else h.cause))
       ∧ (∀ c, c ∉ e.members → t.core c = s.core c)
       ∧ Tbl.get GroupRun.reset (t.slot slot).prog.groups group = ⟨g.seq + 1, g.id, [], []⟩)
  ∧ (∀ (s : State) (slot c : Nat) (f : Folio), (s.slot slot).folio = some f → f.stepEntry = [] → (s.core c).sq.mode ≠ .faulted →
     OnlyCore c s (s.endStep slot c) ∧ ((s.endStep slot c).core c).sq.step = (s.core c).sq.step + 1
       ∧ ((s.endStep slot c).core c).vx.draws = [] ∧ ((s.endStep slot c).core c).sq.pc = (s.core c).sq.pc)

-- rings and transfers

/-- CT.RELR of a ring other than the batch ring 63 (R143, R146): a put sets the tail slot's presence bit and advances the
tail modulo SLOTS, a take clears the head slot's presence bit and advances the head; every other ring of the cluster, and
all else, keeps its value. Where the model chooses: assumption log 17. -/
def Obligations.RingReleaseMovesHeadOrTail : Prop :=
  ∀ (core : CoreId) (args : BitVec 58) (s : State),
    let w := word58 0x0A args
    let k := clusterOf core
    let g := (args.extractLsb' 52 6).toNat
    let r := s.ring k g
    s.runs core = true → s.controlWait core w = none → s.controlIssue core (s.core core).sq.pc w = none → g ≠ 63 →
    ∃ t, exec (.ctRelr core args) s = .next t ∧ t = { s with clusters := t.clusters }
      ∧ t.ring k g = (if args.getLsbD 51 then { r with present := r.present ++ [r.tail], tail := (r.tail + 1) % r.slots }
          else { r with present := r.present.filter (· ≠ r.head), head := (r.head + 1) % r.slots })
      ∧ (∀ i, i ≠ g → t.ring k i = s.ring k i) ∧ ∀ j, j ≠ k → t.cluster j = s.cluster j

/-- XF.GO of a local move without transposition that passes its check, with no descriptor outstanding and no source
row under a destination row (R191, R193, R195): row r byte i of the destination takes the source's byte, every other
byte keeps its value, one finished descriptor is outstanding, and what lies in a shelf has been requested there.
XF.RST sets a descriptor's running operands to the two that the descriptor holds (R191, R195). DESCRIPTOR_COMPLETE of
an outstanding descriptor that has moved its bytes (R198, R200, R201): its oldest finished instance leaves; a ring
other than 63 that it put to or took from moves on; nothing else changes while no other descriptor waits to start or
to send. Where the model chooses: assumption log 17, 48 and 148. -/
def Obligations.DescriptorsMoveResetAndLeave : Prop :=
  (∀ (core : CoreId) (args : BitVec 58) (s : State),
     let w := word58 0x01 args
     let u := (s.core core).xf
     let x := u.xfer (args.extractLsb' 50 8).toNat
     s.runs core = true → s.transferIssue core w = none → u.out = [] → s.upsets = [] →
     (s.core (coreAt x.dst)).car.inject.arm = false →
     x.sk = 0 → x.dk = 0 → x.trans = false → spaceOf x.src < 2 → spaceOf x.dst < 2 →
     (∀ r r', r < x.rows → r' < x.rows →
       x.dst + r * x.dp + x.len ≤ x.src + r' * x.sp ∨ x.src + r' * x.sp + x.len ≤ x.dst + r * x.dp) →
     (∀ r r', r < r' → r' < x.rows →
       x.dst + r * x.dp + x.len ≤ x.dst + r' * x.dp ∨ x.dst + r' * x.dp + x.len ≤ x.dst + r * x.dp) →
     ∃ t o, exec (.xfGo core args) s = .next t ∧ t = { s with cores := t.cores, clusters := t.clusters, mem := t.mem }
       ∧ (∀ d, d ≠ core.val → t.core d = s.core d)
       ∧ (∀ k, t.cluster k = { s.cluster k with waiting := (t.cluster k).waiting })
       ∧ (spaceOf x.src = 0 → spaceOf x.dst = 0 → t.clusters = s.clusters)
       ∧ (∀ r i, r < x.rows → i < x.len → t.mem.byte (x.dst + r * x.dp + i) = s.mem.byte (x.src + r * x.sp + i))
       ∧ (∀ a, (∀ r, r < x.rows → a < x.dst + r * x.dp ∨ x.dst + r * x.dp + x.len ≤ a) → t.mem.byte a = s.mem.byte a)
       ∧ (t.core core).xf.out = [o] ∧ o.desc = (args.extractLsb' 50 8).toNat ∧ o.done = true
       ∧ o.inst = u.issued
       ∧ t.core core = { s.core core with xf :=
           { u with out := [o], issued := u.issued + 1, running := (t.core core).xf.running } }
       ∧ (args.getLsbD 49 = false → (t.core core).xf.running = u.running))
  ∧ (∀ (core : CoreId) (args : BitVec 58) (s : State),
     let i := (args.extractLsb' 50 8).toNat
     let u := (s.core core).xf
     let d := Tbl.get Desc.zero u.descs i
     s.runs core = true → args.extractLsb' 0 50 = 0 →
     ∃ t, exec (.xfRst core args) s = .next t ∧ OnlyCore core s t
       ∧ t.core core = { s.core core with xf := { u with running := (t.core core).xf.running } }
       ∧ Tbl.get (0, 0) (t.core core).xf.running i = ((d.w1.extractLsb' 0 48).toNat, (d.w2.extractLsb' 0 48).toNat)
       ∧ ∀ j, j ≠ i → Tbl.get (0, 0) (t.core core).xf.running j = Tbl.get (0, 0) u.running j)
  ∧ (∀ (core : CoreId) (desc : Fin 256) (s : State) (i : Nat) (o : Outst),
     let u := (s.core core).xf
     let k := clusterOf core
     u.out.findIdx? (fun o => decide (o.desc = desc.val) && u.finished o) = some i → u.out[i]? = some o →
     (∀ o ∈ u.out, o.started = true ∧ o.toSend = []) → (∀ b, o.xfer.ringOf ≠ some (63, b)) →
     ∃ t, exec (.descriptorComplete core desc) s = .next t ∧ t = { s with cores := t.cores, clusters := t.clusters }
       ∧ (∀ d, d ≠ core.val → t.core d = s.core d)
       ∧ t.core core = { s.core core with xf := { u with out := u.out.eraseIdx i } }
       ∧ (∀ g r, r = s.ring k g → t.ring k g =
           if o.xfer.ringOf = some (g, true) then { r with present := r.present ++ [r.tail], tail := (r.tail + 1) % r.slots }
           else if o.xfer.ringOf = some (g, false) then
             { r with present := r.present.filter (· ≠ r.head), head := (r.head + 1) % r.slots }
           else r)
       ∧ ∀ j, j ≠ k → t.cluster j = s.cluster j)

-- faults

/-- What a core fault leaves on its core (R154, R157): FAULTED, its descriptors abandoned, RUN only while requests wait.
The faults here: the patience of a ring wait ends (R145), no bundle issues for the watchdog's time (R158), a window
request has no answer in time (R216), a descriptor has read an uncorrectable word (R217), a word fails its check at issue;
of the matrix engine only the counts of its waits have changed. Where the model chooses: assumption log 6, 17, 32 and
151. -/
def Obligations.TimeoutsFaultTheirCore : Prop :=
  ∀ (core : CoreId) (s : State), s.runs core = true → s.slotOf core = none → Quiet s →
    let faulted := fun (c : Instr) => ∃ t, exec c s = .next t ∧ (t.core core).sq.mode = .faulted
      ∧ (t.core core).sq.faultedFrom = (s.core core).sq.mode ∧ (t.core core).sq.pc = (s.core core).sq.pc
      ∧ (t.core core).mx = { (s.core core).mx with stall := (t.core core).mx.stall, swapWait := (t.core core).mx.swapWait }
      ∧ (t.core core).vx = (s.core core).vx
      ∧ (t.core core).xf.out = [] ∧ ((t.core core).sq.run = true → (t.core core).xf.waiting = true)
      ∧ (∀ d, d ≠ core.val → t.core d = s.core d) ∧ t.mem = s.mem ∧ t.slots = s.slots
      ∧ (t.page (corePage core)).evtRaw.getLsbD 0 = true
    ((s.ringAwaited core false).isSome = true → faulted (.slotEmptyTimeout core))
      ∧ ((s.ringAwaited core true).isSome = true → faulted (.slotFullTimeout core))
      ∧ ((s.core core).sq.run = true → (s.core core).sq.stamp = none → (s.core core).sq.halted = false →
          (s.core core).sq.delay = 0 ∨ (s.core core).sq.planned = false → faulted (.sqWatchdog core))
      ∧ (∀ reqTag : Fin 64, ((s.core core).xf.tag reqTag).isSome = true → faulted (.xfTimeout core reqTag))
      ∧ (∀ (desc : Fin 256) (o : Outst), o ∈ (s.core core).xf.out → o.desc = desc.val → o.ueAt.isSome = true →
          faulted (.xfEccUe core desc))
      ∧ ∀ (args : BitVec 58) (cause : Nat), s.matrixIssue core (word58 0x03 args) = some cause →
          faulted (.mxStore core args)

-- program faults, recovery, the end of a run

/-- HOLD_TIMEOUT of a core that has arrived at its stamp (R150, R435, R477 to R480): the slot is FAULTED, every core of
the program that ran is FAULTED and has abandoned its descriptors, the sessions in its batch end with FAULT, GEN counts
the expiry; other cores, other slots' states and memory stay. Here without editions and with nothing to be given back.
CORE_RUN_END of a core that has issued CT.HALT and drained (R132): RUN = 0, and the inbound endpoints and consumed rings
that still hold something are counted; where there are none nothing else changes. HALT_COMPLETE of a RUNNING slot whose
cores have all stopped makes it LOADED (R278). Where the model chooses: assumption log 6 and 117. -/
def Obligations.ProgramsFaultAndRunsEnd : Prop :=
  (∀ (core : CoreId) (s : State) (st : StampWait) (i : Nat), (s.core core).sq.stamp = some st → st.arrived = true →
     s.slotOf core = some i → (s.slot i).state = .running → s.editions = [] → Quiet s → Tbl.wf Session.reset s.sessions = true →
     ∃ t, exec (.holdTimeout core) s = .next t ∧ (t.slot i).state = .faulted
       ∧ (∀ c ∈ (s.slot i).cores, s.runs c = true → (t.core c).sq.mode = .faulted ∧ (t.core c).xf.out = [])
       ∧ (∀ c, c ∉ (s.slot i).cores → OnlyMarked (s.core c) (t.core c))
       ∧ (∀ j, j ≠ i → (t.slot j).state = (s.slot j).state) ∧ t.mem = s.mem
       ∧ (∀ j, (s.session j).slot = i → (s.session j).state.inBatch = true →
           (t.session j).state = .ending ∧ (t.session j).endReason = endFault)
       ∧ (t.page genPage).tmoCount = sat32 (s.page genPage).tmoCount 1)
  ∧ ((∀ (core : CoreId) (s : State), (s.core core).sq.run = true → (s.core core).sq.halted = true →
       (s.core core).drained = true →
     ∃ t, exec (.coreRunEnd core) s = .next t
       ∧ t.core core = { s.core core with sq := { (s.core core).sq with
           run := false, residue := sat32 (s.core core).sq.residue (s.residue core) } }
       ∧ (∀ c, c ≠ core.val → t.core c = s.core c)
       ∧ (s.residue core = 0 → t = { s with cores := t.cores })
       ∧ (s.residue core ≠ 0 → (t.page (corePage core)).evtRaw.getLsbD 1 = true
           ∧ t = { s with cores := t.cores, pages := t.pages, logs := t.logs, ports := t.ports }))
   ∧ (∀ (slot : SlotId) (s : State), (s.slot slot).prog.haltPending = true → (s.slot slot).state = .running →
       s.slotStopped slot = true →
     ∃ t, exec (.haltComplete slot) s = .next t ∧ t = { s with slots := t.slots, ports := t.ports }
       ∧ (t.slot slot).state = .loaded ∧ (t.slot slot).prog.haltPending = false
       ∧ (∀ i, i ≠ slot.val → t.slot i = s.slot i)
       ∧ ∀ p, p < 2 → ∀ c ∈ (t.port p).cmds, c.wait ≠ .halt slot))

/-- What follows a program fault (R154, R481, R482), for a cluster k of a slot that no fault in RECOVERY and no
isolation claims: FAULTED_SLOT_CLEAR, once every core has stopped, empties the slot, clears the working state and the
carrels of its cores and moves them to RECOVERY, or to DIAG after a reading-room or self-test folio. A recovery run of
the curator (R482): RECOVERY_RUN starts it on a cluster in RECOVERY that no slot claims or may claim, every core
reading RUN = 1; RECOVERY_RUN_END clears the carrels and moves the cores to SERVICE after a pass, and isolates the
cluster after a failure (R154, R489, R490). Where the model chooses: assumption log 116 and 156. -/
def Obligations.FaultedClustersRecover : Prop :=
  (∀ (slot : SlotId) (s : State) (k : Nat), (s.slot slot).state = .faulted → s.slotStopped slot = true → s.editions = [] →
     Quiet s → k < 32 → (s.slot slot).claims k = true → (s.cluster k).isolating = false →
     (∀ c ∈ clusterCores k, (s.core c).sq.mode = .faulted ∧ (s.core c).sq.faultedFrom ≠ .recovery) →
     ∃ t, exec (.faultedSlotClear slot) s = .next t ∧ (t.slot slot).state = .empty ∧ (t.slot slot).folio = none
       ∧ ∀ c ∈ clusterCores k, (t.core c).car.clearing = true ∧ (t.core c).sq.istore = [] ∧ (t.core c).xf.descs = []
           ∧ (t.core c).mx.active = none ∧ (t.core c).vx.desc = []
           ∧ (t.core c).sq.mode = (if (s.slot slot).kind = 3 ∨ (s.slot slot).kind = 4 then .diag else .recovery))
  ∧ ((∀ (cluster : ClusterId) (s : State), s.clusterIn cluster .recovery = true → s.claimant cluster = none →
       s.mayClaim cluster = false → (s.cluster cluster).recovering = false →
     ∃ t, exec (.recoveryRun cluster) s = .next t ∧ t = { s with cores := t.cores, clusters := t.clusters }
       ∧ t.cluster cluster = { s.cluster cluster with recovering := true }
       ∧ (∀ c ∈ clusterCores cluster, t.core c = { s.core c with sq := { (s.core c).sq with run := true } })
       ∧ (∀ c, c ∉ clusterCores cluster → t.core c = s.core c) ∧ ∀ k, k ≠ cluster.val → t.cluster k = s.cluster k)
   ∧ (∀ (cluster : ClusterId) (passed : Bool) (s : State), (s.cluster cluster).recovering = true →
       s.clusterIn cluster .recovery = true → (s.cluster cluster).isolating = false →
     ∃ t, exec (.recoveryRunEnd cluster passed) s = .next t ∧ (t.cluster cluster).recovering = false ∧ t.mem = s.mem
       ∧ (∀ c ∈ clusterCores cluster, (t.core c).sq.run = false
           ∧ (t.core c).sq.mode = (if passed then .service else .isolated) ∧ (passed = true → (t.core c).car.clearing = true))
       ∧ (passed = false → t.gen.colmap = t.columnDigest)
       ∧ ∀ c, c ∉ clusterCores cluster → t.core c = s.core c))

/-- TABLE_ECC_UE (R485): a standing route entry loses VALID; a session of the batch whose descriptor is lost is marked, to
end at its next commit, and one that is in no batch yet ends at once with FAULT; the tables of a RUNNING slot fault its
program. Where the model chooses: assumption log 77. -/
def Obligations.TableErrorsMarkTheirEntry : Prop :=
  (∀ (e : Fin 2048) (s : State), (s.route e).valid = true → (s.route e).standing = true →
    ∃ t, exec (.tableEccUe (.standingRoute e)) s = .next t ∧ t = { s with routes := t.routes }
      ∧ (t.route e).valid = false ∧ (t.route e).w1 = (s.route e).w1 ∧ ∀ i, i ≠ e.val → t.route i = s.route i)
  ∧ (∀ (i : SessIdx) (s : State), (s.session i).state = .prefill ∨ (s.session i).state = .decode →
    ∃ t, exec (.tableEccUe (.catalogue i)) s = .next t ∧ t = { s with sessions := t.sessions }
      ∧ t.session i = { s.session i with tableUe := true } ∧ ∀ j, j ≠ i.val → t.session j = s.session j)
  ∧ (∀ (i : SessIdx) (s : State), (s.session i).state = .opened ∨ (s.session i).state = .admitted →
      s.adm.autoFree = false → s.editions = [] → Quiet s →
    ∃ t, exec (.tableEccUe (.catalogue i)) s = .next t ∧ (t.session i).state = .closed
      ∧ (t.session i).endReason = endFault ∧ t.mem = s.mem ∧ ∀ j, j ≠ i.val → t.session j = s.session j)
  ∧ ∀ (slot : SlotId) (s : State), (s.slot slot).state = .running → s.editions = [] → Quiet s →
    ∃ t, exec (.tableEccUe (.slotTable slot)) s = .next t ∧ (t.slot slot).state = .faulted ∧ t.mem = s.mem
      ∧ (∀ c ∈ (s.slot slot).cores, s.runs c = true → (t.core c).sq.mode = .faulted ∧ (t.core c).xf.out = [])
      ∧ (∀ c, c ∉ (s.slot slot).cores → OnlyMarked (s.core c) (t.core c))
      ∧ ∀ i, i ≠ slot.val → (t.slot i).state = (s.slot i).state

-- shelves and carrels

/-- The service of a shelf cycle (R167, R168, R172, R177, R525): at most 48 requests are served, at most one for each bank
and none for a bank that a write-back or the second cycle of a partial write takes; a request waits for a conflict only
where its bank is served or so held. SHELF_ARBITRATION, without code errors and with no clearing under way: what was not
served stays pending, what had no room waits, the reads served deliver their granules, and the cores whose requests waited
are known to their next cycle. Where the model chooses: assumption log 44 and 148. -/
def Obligations.ShelfCycleServesOncePerBank : Prop :=
  (∀ (held backs : List Nat) (l : List (ShelfReq × Nat)),
    let out := serve held backs l
    let served := out.filter fun e => e.2.2 = .served
    out.map (fun e => (e.1, e.2.1)) = l ∧ served.length ≤ 48 ∧ (served.map fun e => e.2.1).Nodup
      ∧ (∀ e ∈ served, e.2.1 ∉ backs ∧ e.2.1 ∉ held)
      ∧ ∀ e ∈ out, (e.2.2 = .conflict → e.2.1 ∈ held ∨ ∃ x ∈ served, x.2.1 = e.2.1)
          ∧ (e.2.2 = .slot → 48 ≤ held.length + served.length) ∧ (e.2.2 = .writeBack → e.2.1 ∈ backs))
  ∧ ∀ (cluster : ClusterId) (offers : List ShelfReq) (s : State), s.upsets = [] → s.shelfClears cluster = false →
    let c := s.cluster cluster
    let spans := joinSpans c.pending c.waiting
    let joined := joinPending spans.1 (c.offered ++ offers)
    let backs := c.writeBacks.map fun b => s.bank cluster b.1 b.2
    let out := serve c.held backs ((serviceOrder joined.1).map fun r => (r, s.bank cluster r.part r.granule))
    let served := out.filter fun e => e.2.2 = .served
    ∃ t, exec (.shelfArbitration cluster offers) s = .next t ∧ t = { s with clusters := t.clusters, mem := t.mem }
      ∧ (t.cluster cluster).pending = (out.filter fun e => e.2.2 ≠ .served).map Prod.fst
      ∧ (t.cluster cluster).waiting = spans.2 ∧ (t.cluster cluster).offered = joined.2
      ∧ (t.cluster cluster).writeBacks = [] ∧ (t.cluster cluster).parts = c.parts
      ∧ (∀ owner, owner ∈ (t.cluster cluster).delayed ↔ (∃ x ∈ spans.2, x.owner = owner) ∨ (∃ x ∈ joined.2, x.owner = owner)
          ∨ ∃ e ∈ out, (e.2.2 = .conflict ∨ e.2.2 = .slot) ∧ e.1.owner = owner)
      ∧ (∀ owner, owner ∈ (t.cluster cluster).behind ↔ ∃ e ∈ out, e.2.2 = .writeBack ∧ e.1.owner = owner)
      ∧ ((∀ e ∈ served, e.1.write = false ∨ e.1.moved = true) → t.mem = s.mem
          ∧ (t.cluster cluster).delivered = (served.filter fun e => !e.1.moved && !e.1.write).map fun e =>
              (e.1, s.mem.read (partBase cluster e.1.part + 128 * e.1.granule) 128))
      ∧ ∀ k, k ≠ cluster.val → t.cluster k = s.cluster k

/-- R169: the bank of granule p under each of the hashes H0 to H7, and that the 64 granules of one row lie in 64 different
banks. -/
def Obligations.HashesSpreadARowOverAllBanks : Prop :=
  (∀ p, p < 524288 →
    let a := p % 64
    let b := p / 64 % 64
    let c := p / 4096 % 64
    let d := p / 262144 % 2
    bankOf 0 p = a ∧ bankOf 1 p = a ^^^ b ∧ bankOf 2 p = a ^^^ b ^^^ c ∧ bankOf 3 p = a ^^^ b ^^^ c ^^^ 32 * d
      ∧ bankOf 4 p = a ^^^ (32 * (b % 2) + 16 * (b / 2 % 2) + 8 * (b / 4 % 2) + 4 * (b / 8 % 2) + 2 * (b / 16 % 2) + b / 32)
      ∧ bankOf 5 p = a ^^^ (p / 256 % 64) ∧ bankOf 6 p = a ^^^ ((b + c) % 64)
      ∧ bankOf 7 p = a ^^^ (2 * b % 64 + b / 32) ^^^ (8 * c % 64 + c / 8) ^^^ 32 * d)
  ∧ ∀ h row, h < 8 → row < 8192 →
    (∀ a, a < 64 → bankOf h (64 * row + a) < 64)
      ∧ ∀ a b, a < 64 → b < 64 → bankOf h (64 * row + a) = bankOf h (64 * row + b) → a = b

/-- SCRUB_READ without code errors (R178): a carrel's scrubber goes on to its next granule, counting a pass after the
last of 32,768; that of a shelf bank which the shelf cycle under way has left unused goes on to its next row; memory
stays. CLEAR_DONE of a partition or a carrel that is being cleared (R181, R182): every byte of it reads 0, every other
byte keeps its value, the clearing is counted, and the partition takes the kind and owner it was cleared for, the core
its tenant. Where the model chooses: assumption log 6 and 47. -/
def Obligations.ScrubbingAndClearingGoOn : Prop :=
  ((∀ (c : CoreId) (s : State), s.upsets = [] → (s.core c).car.scrub = true →
     let x := (s.core c).car
     ∃ t, exec (.scrubRead (.carrel c)) s = .next t ∧ OnlyCore c s t
       ∧ t.core c = { s.core c with car := { x with granule := x.granule + 1, passes := if x.granule = 32767 then x.passes + 1 else x.passes } })
   ∧ (∀ (k : ClusterId) (b : Fin 64) (s : State), s.upsets = [] → (s.cluster k).scrub = true →
       b.val ∉ (s.cluster k).busy → Tbl.get 0 (s.cluster k).scrubRow b < 65535 →
     ∃ t, exec (.scrubRead (.shelf k b)) s = .next t ∧ t = { s with clusters := t.clusters }
       ∧ t.cluster k = { s.cluster k with scrubRow := (t.cluster k).scrubRow }
       ∧ Tbl.get 0 (t.cluster k).scrubRow b = Tbl.get 0 (s.cluster k).scrubRow b + 1
       ∧ ∀ j, j ≠ k.val → t.cluster j = s.cluster j))
  ∧ ((∀ (k : ClusterId) (p : Fin 8) (s : State), (s.part k p).kind = .clearing → s.upsets = [] → (s.cluster k).inject.arm = false →
       Quiet s →
     ∃ t, exec (.clearDone (.partition k p)) s = .next t
       ∧ (∀ i, i < partBytes → t.mem.byte (partBase k p + i) = 0) ∧ MemoryKeptOutside (partBase k p) partBytes s t
       ∧ (t.part k p).kind = (s.part k p).next ∧ (t.part k p).hash = none
       ∧ (t.part k p).owner = (if (s.part k p).next = .free then none else (s.part k p).nextOwner)
       ∧ (t.cluster k).clears = (s.cluster k).clears + 1 ∧ t.cores = s.cores)
   ∧ (∀ (c : CoreId) (s : State), (s.core c).car.clearing = true → s.upsets = [] → (s.core c).car.inject.arm = false → Quiet s →
     ∃ t, exec (.clearDone (.carrel c)) s = .next t
       ∧ (∀ i, i < carrelBytes → t.mem.byte (carrelBase c + i) = 0) ∧ MemoryKeptOutside (carrelBase c) carrelBytes s t
       ∧ (t.core c).car.clearing = false ∧ (t.core c).car.clears = (s.core c).car.clears + 1
       ∧ (t.core c).sq.tenant = (s.core c).car.nextTenant ∧ ∀ d, d ≠ c.val → t.core d = s.core d))

-- flits

/-- Flits on a fabric port (R371, R375): a port that is not UP takes none; one that is not the next of its link's sequence
is discarded and sets NAK; an intact one in sequence on another virtual channel than its type's is accepted, counted in
FAB_BAD_FLIT and does nothing more. The link of an UP port (R370 to R372, R377): a link word without NAK retires what
ACKSEQ acknowledges and returns credits, and the port sends its own: the last LSEQ accepted, NAK, the flits freed, under
its CRC; a late acknowledgement below the retry limit begins a replay with MARK on every unacknowledged flit; a rejected
flit sets NAK, one with a wrong CRC also counts, and one of an unknown type is accepted and counted. Where the model
chooses: assumption log 7, 86 and 153. -/
def Obligations.FlitsAreTakenAndAcknowledged : Prop :=
  (∀ q ∈ [(Instr.wreq, 0x20#8), (Instr.wdata, 0x21#8), (Instr.rreq, 0x22#8), (Instr.rdata, 0x23#8), (Instr.ack, 0x24#8),
          (Instr.nack, 0x25#8), (Instr.qdata, 0x10#8), (Instr.hold, 0x11#8), (Instr.callSlip, 0x40#8),
          (Instr.resend, 0x32#8), (Instr.resendFail, 0x33#8), (Instr.equery, 0x41#8), (Instr.eanswer, 0x42#8),
          (Instr.notice, 0x43#8), (Instr.noticeAck, 0x44#8)],
     ∀ (port : FPort) (flit : Flit) (s : State),
       ((s.fport port).state ≠ .up → exec (q.1 port flit) s = .next s)
       ∧ ((s.fport port).state = .up → flit.lseq ≠ (s.fport port).rxNext →
           exec (q.1 port flit) s = .next (s.modFport port fun p => { p with nak := true }))
       ∧ ((s.fport port).state = .up → flit.lseq = (s.fport port).rxNext → vcOfType q.2 ≠ some flit.vc.toNat →
           ∃ t, exec (q.1 port flit) s = .next t ∧ t = { s with fports := t.fports }
             ∧ (t.fport port).rxNext = (s.fport port).rxNext + 1 ∧ (t.fport port).nak = false
             ∧ (t.fport port).badFlit = sat32 (s.fport port).badFlit 1 ∧ ∀ n, n ≠ port.val → t.fport n = s.fport n))
  ∧ ((∀ (port : FPort) (word : BitVec 64) (s : State), (s.fport port).state = .up →
       crc16 (leBytes 6 word.toNat) = word.extractLsb' 48 16 → word.getLsbD 13 = false →
       (∀ vc, (s.fport port).queue vc = []) → (∀ a ∈ s.admitted, a.port ≠ port.val) →
     let p := s.fport port
     ∃ t, exec (.fabLinkWord port word) s = .next t ∧ t = { s with fports := t.fports }
       ∧ (t.fport port).retry = (if word.getLsbD 12 then retryAfter (word.extractLsb' 0 12) p.retry else p.retry)
       ∧ (t.fport port).slots = 0
       ∧ (let sent := (t.fport port).word
          sent.extractLsb' 0 12 = p.rxNext - 1 ∧ sent.getLsbD 12 = p.rxAny ∧ sent.getLsbD 13 = p.nak
            ∧ (∀ vc, vc < 4 → sent.extractLsb' (16 + 8 * vc) 8 = Tbl.get 0 p.freed vc)
            ∧ sent.extractLsb' 48 16 = crc16 (leBytes 6 sent.toNat))
       ∧ (∀ vc, vc < 4 → Tbl.get 0 (t.fport port).credSeen vc = word.extractLsb' (16 + 8 * vc) 8
           ∧ Tbl.get 0 (t.fport port).used vc
             = Tbl.get 0 p.used vc - (word.extractLsb' (16 + 8 * vc) 8 - Tbl.get 0 p.credSeen vc).toNat)
       ∧ ∀ n, n ≠ port.val → t.fport n = s.fport n)
   ∧ (∀ (port : FPort) (s : State), (s.fport port).state = .up → (s.fport port).retry ≠ [] →
       (s.fport port).replaysRun < ((s.tmo (fportPage port) fabTmoReset).extractLsb' 0 8).toNat →
     ∃ t, exec (.fabAckTimeout port) s = .next t
       ∧ t = { s with cores := t.cores, fports := t.fports, pages := t.pages, logs := t.logs, ports := t.ports }
       ∧ OnlyMarks s t ∧ (∀ n, n ≠ port.val → t.fport n = s.fport n)
       ∧ t.fport port = { s.fport port with
           retries := sat32 (s.fport port).retries 1, replaysRun := (s.fport port).replaysRun + 1, markLeft := 64
           replayedFrom := (s.fport port).retry.head?.map fun f => f.lseq - 1
           retry := (s.fport port).retry.map fun f => { f with mark := true }
           slots := (t.fport port).slots, slotsOf := (t.fport port).slotsOf, otherVc := (t.fport port).otherVc
           wire := (t.fport port).wire, word := (t.fport port).word }
       ∧ (t.page (fportPage port)).tmoCount = sat32 (s.page (fportPage port)).tmoCount 1)
   ∧ ∀ (port : FPort) (s : State), (s.fport port).state = .up →
     exec (.fabFlitReject port .sequence) s = .next (s.modFport port fun p => { p with nak := true })
     ∧ (∃ t, exec (.fabFlitReject port .crc) s = .next t ∧ t = { s with fports := t.fports }
         ∧ t.fport port = { s.fport port with crcErr := sat32 (s.fport port).crcErr 1, nak := true })
     ∧ ∃ t, exec (.fabFlitReject port .unknownType) s = .next t ∧ t = { s with fports := t.fports }
         ∧ t.fport port = { s.fport port with
             rxNext := (s.fport port).rxNext + 1, rxAny := true, nak := false, badFlit := sat32 (s.fport port).badFlit 1 })

/-- Window requests at their owner (R208, R209): WREQ and RREQ whose header passes every check are admitted and counted; a
read is answered from memory or waits in turn; WDATA is kept until the last byte is there, then lands in one piece and the
request is answered. Windows here lie in one extent where data lands. Where the model chooses: assumption log 49 and
148. -/
def Obligations.WindowRequestsAreAdmittedAndLand : Prop :=
  (∀ (port : FPort) (flit : Flit) (s : State),
    let a := requestOf port { flit with typ := 0x20 } true
    Takes s port flit 0x20 → s.checkRequest a.handle a.gen a.tenant a.src a.woff a.len true = none →
    ∃ t, exec (.wreq port flit) s = .next t ∧ t = { s with
      fports := t.fports, admitted := s.admitted ++ [a], win := { s.win with admitted := sat32 s.win.admitted 1 } })
  ∧ (∀ (port : FPort) (flit : Flit) (s : State),
    let a := requestOf port { flit with typ := 0x22 } false
    Takes s port flit 0x22 → s.checkRequest a.handle a.gen a.tenant a.src a.woff a.len false = none → s.upsets = [] →
    (∀ x ∈ s.admitted, x.port = port.val → x.write = true) →
    ∃ t n, exec (.rreq port flit) s = .next t
      ∧ t = { s with
          cores := t.cores, clusters := t.clusters, fports := t.fports, ports := t.ports, admitted := t.admitted
          win := { s.win with admitted := sat32 s.win.admitted 1, bytesOut := s.win.bytesOut + min a.len (48 * n) } }
      ∧ OnlyMarks s t ∧ OnlyRequests s t ∧ OnlyUnits s t
      ∧ t.admitted = (if a.len ≤ 48 * n then s.admitted else s.admitted ++ [{ a with sent := n }]))
  ∧ ∀ (port : FPort) (flit : Flit) (s : State) (a : Admitted) (dest : Nat),
    let got := a.got ++ flit.payload
    Takes s port flit 0x21 → s.upsets = [] →
    (s.admitted.filter fun x => decide (x.port = port.val) && x.write && decide (x.src = flit.src.toNat)
      && decide (x.core * 64 + x.tag = flit.tsf.toNat % 2 ^ 14)) = [a] →
    extentPieces (s.window a.handle).extents a.woff a.len = [(dest, a.len)] → isShelf dest = true →
    ∃ t, exec (.wdata port flit) s = .next t
      ∧ (got.length < a.len → t = { s with
          fports := t.fports, admitted := s.admitted.map fun x => if x = a then { a with got := got } else x })
      ∧ (a.len ≤ got.length → t = { s with
          cores := t.cores, clusters := t.clusters, fports := t.fports, ports := t.ports
          mem := s.mem.write dest (got.take a.len), admitted := s.admitted.erase a
          win := { s.win with bytesIn := s.win.bytesIn + a.len } }
        ∧ OnlyMarks s t ∧ OnlyRequests s t ∧ OnlyUnits s t)

/-- Answers to a core's window request from the device that was asked (R201, R207, R215, R216, R372, R376): RDATA
writes its bytes at the request's local place, the last flit frees the tag; an ACK that echoes the request frees the
tag of a write, one that echoes another is counted as late; a NACK that echoes the request is counted, frees the tag
and faults the core. Here for a core with nothing more to send. -/
def Obligations.WindowAnswersReachTheirTag : Prop :=
  ∀ (port : FPort) (flit : Flit) (s : State) (x : WinTag),
    let c := (flitChan flit).1
    let tag := (flitChan flit).2
    let u := (s.core c).xf
    let n := min 48 (x.len - x.got)
    let dest := x.lbase + x.got
    let retries := if flit.mark = true ∧ x.retry = false then sat32 u.retryReq 1 else u.retryReq
    u.tag tag = some x → x.dest = flit.src.toNat → s.runs c = true → Quiet s → s.upsets = [] → (∀ o ∈ u.out, o.toSend = []) →
    (isShelf dest = true ∨ (s.core (coreAt dest)).car.inject.arm = false) →
    (Takes s port flit 0x23 → x.write = false → n ≤ flit.payload.length →
      ∃ t, exec (.rdata port flit) s = .next t
        ∧ t = { s with
            fports := t.fports, cores := t.cores, clusters := t.clusters, mem := s.mem.write dest (flit.payload.take n) }
        ∧ OnlyRequests s t ∧ (∀ d, d ≠ c → t.core d = s.core d)
        ∧ t.core c = { s.core c with xf := (t.core c).xf } ∧ (t.core c).xf.retryReq = retries
        ∧ (t.core c).xf.tag tag = if x.len ≤ x.got + n then none
            else some { x with got := x.got + n, retry := x.retry || flit.mark })
    ∧ (Takes s port flit 0x24 → x.write = true →
      let echoes := fldAt flit.payload 0 4 = x.handle * 2 ^ 20 + x.gen
        ∧ fldAt flit.payload 4 8 = (x.len / 64 - 1) * 2 ^ 34 + x.woff
      (echoes → ∃ t, exec (.ack port flit) s = .next t ∧ t = { s with fports := t.fports, cores := t.cores }
        ∧ (∀ d, d ≠ c → t.core d = s.core d) ∧ t.core c = { s.core c with xf := (t.core c).xf }
        ∧ (t.core c).xf.retryReq = retries ∧ (t.core c).xf.tag tag = none)
      ∧ (¬ echoes → ∃ t, exec (.ack port flit) s = .next t
        ∧ t = { s with fports := t.fports, cores := t.cores, pages := t.pages, logs := t.logs, ports := t.ports }
        ∧ (∀ d, d ≠ c → t.core d = s.core d)
        ∧ t.core c = { s.core c with xf := { u with lateResp := sat32 u.lateResp 1 } }))
    ∧ (Takes s port flit 0x25 → fldAt flit.payload 4 4 = x.handle * 2 ^ 20 + x.gen →
        fldAt flit.payload 8 8 = (x.len / 64 - 1) * 2 ^ 34 + x.woff → s.slotOf c = none →
      ∃ t, exec (.nack port flit) s = .next t ∧ (t.core c).sq.mode = .faulted ∧ (t.core c).xf.tag tag = none
        ∧ (t.core c).xf.nacks = sat32 u.nacks 1 ∧ t.mem = s.mem ∧ ∀ d, d ≠ c → t.core d = s.core d)

/-- QDATA that completes an entry appends it to the bound endpoint it names (R138, R375, R376); HOLD that its module
awaits records the sender's arrival (R242, R243); a routed flit leaves through its next hop's port with HOPIDX one higher
(R380); the first call slip on a port records the partner (R386 to R388). Where the model chooses: assumption log 38, 40
and 149. -/
def Obligations.StreamsHoldsAndRoutesGoOn : Prop :=
  (∀ (port : FPort) (flit : Flit) (s : State) (e : QEntry),
    let c := bits flit.tsf.toNat 15 8
    let qep := bits flit.tsf.toNat 17 16 + 8
    let same := fun q : QStream => decide (q.src = flit.src.toNat) && decide (q.core = c) && decide (q.qep = qep)
    let q := ((s.fport port).streams.find? same).getD ⟨flit.src.toNat, c, qep, [], none, false, 0⟩
    Takes s port flit 0x10 → (q.take flit).2 = some e → (s.queue c qep).bound = true →
    ∃ t, exec (.qdata port flit) s = .next t ∧ t = { s with fports := t.fports, cores := t.cores }
      ∧ (t.queue c qep).entries = (s.queue c qep).entries ++ [e] ∧ ∀ d, d ≠ c → t.core d = s.core d)
  ∧ (∀ (port : FPort) (flit : Flit) (s : State) (i : Nat) (e : StampEntry),
    let g := fldAt flit.payload 0 2 % 1024
    let role := fldAt flit.payload 8 2 % 4096
    let r := Tbl.get GroupRun.reset (s.slot i).prog.groups g
    let id : BitVec 12 := BitVec.ofNat 12 (fldAt flit.payload 2 2)
    Takes s port flit 0x11 → s.holdSlot flit.src.toNat role g = some i → (s.slot i).group g = some e →
    fldAt flit.payload 6 1 / 4 % 2 = 0 → (∃ p ∈ e.peers, p.role = role) → BitVec.ofNat 16 (fldAt flit.payload 4 2) = r.seq →
    (r.arrived = [] ∧ r.remote = [] ∨ r.id = id) →
    ∃ t, exec (.hold port flit) s = .next t ∧ t = { s with fports := t.fports, slots := t.slots }
      ∧ Tbl.get GroupRun.reset (t.slot i).prog.groups g
          = { r with id := id, remote := r.remote ++ [⟨role, fldAt flit.payload 7 1 % 16, flit.mark⟩] })
  ∧ (∀ (port : FPort) (flit : Flit) (s : State),
    let egress := flit.route.toNat / 2 ^ (6 * flit.hopidx.toNat) % 64
    (s.fport port).state = .up → flit.lseq = (s.fport port).rxNext → vcOfType flit.typ = some flit.vc.toNat →
    flit.hopidx.toNat + 1 < flit.hops.toNat → s.fab.idValid = true → (s.fport egress).state = .up →
    ∃ t, exec (.flitForward port flit) s = .next t ∧ OnlySends s t
      ∧ FlitQueued t egress { flitWithRet flit port with hopidx := flit.hopidx + 1 })
  ∧ ∀ (port : FPort) (flit : Flit) (s : State), Takes s port flit 0x40 → (s.fport port).nb = none →
    ∃ t nb, exec (.callSlip port flit) s = .next t
      ∧ t = { s with fports := t.fports, pages := t.pages, logs := t.logs, ports := t.ports }
      ∧ (t.fport port).nb = some nb ∧ nb.serial.toNat = fldAt flit.payload 0 8
      ∧ nb.device.toNat = fldAt flit.payload 32 2 % 4096 ∧ nb.port.toNat = fldAt flit.payload 34 1 % 64
      ∧ (t.page (fportPage port)).evtRaw.getLsbD 2 = true

-- fabric ports and optics

/-- A fabric port's training (R368, R369): light begins it on a port that is DOWN and enabled with its engine ACTIVE,
PORT_UP ends it, and what outbound queues hold for the port leaves; FAB_TRAIN_FAIL takes it DOWN with cause 3. An UP
port goes DOWN with the cause of the row (R226, R366, R368): lost light 2, a clock slip 5, missed call slips 6, a ring
at the end of its range 9. What it held and the record of its partner are gone, DOWN_COUNT rises. Here where no
program and no request of a core uses the port. Where the model chooses: assumption log 6 and 7. -/
def Obligations.FabricPortsTrainAndGoDown : Prop :=
  (∀ (port : FPort) (s : State),
     ((s.fport port).state = .down → (s.fport port).enable = true → (s.engine (engineOf port)).state = .active →
       exec (.fabLightReceived port) s
         = .next (s.modFport port fun p => { p with state := .training, retrain := false }))
     ∧ ((s.fport port).state = .training →
       (∃ t, exec (.portUp port) s = .next t
         ∧ t = { s with cores := t.cores, fports := t.fports, fab := { s.fab with drop := t.fab.drop }, freeCtr := t.freeCtr
                        pages := t.pages, logs := t.logs, ports := t.ports }
         ∧ (t.fport port).state = .up ∧ (t.page (fportPage port)).evtRaw.getLsbD 0 = true
         ∧ ((∀ e ∈ s.cores, ∀ q ∈ e.2.queues, q.2.entries = []) → t.fport port = { s.fport port with state := .up }
           ∧ (∀ n, n ≠ port.val → t.fport n = s.fport n) ∧ ∀ c, t.core c = s.core c))
       ∧ (∃ t, exec (.fabTrainFail port) s = .next t ∧ (t.fport port).state = .down ∧ (t.fport port).cause = 3
         ∧ (t.fport port).enable = (s.fport port).enable ∧ (t.fport port).queues = [] ∧ (t.fport port).downs = (s.fport port).downs
         ∧ OnlyMarks s t ∧ t.mem = s.mem ∧ t.slots = s.slots ∧ (t.page (fportPage port)).evtRaw.getLsbD 1 = true)))
  ∧ (∀ q ∈ [(Instr.portDown, 2), (Instr.clockSlip, 5), (Instr.slipMiss, 6), (Instr.ringUnlock, 9)],
     ∀ (port : FPort) (s : State), (s.fport port).state = .up → NoProgramUses s → Quiet s →
       ∃ t, exec (q.1 port) s = .next t
         ∧ OnlyLinks s t ∧ Fallen t port .down (BitVec.ofNat 4 q.2)
         ∧ (t.fport port).enable = (s.fport port).enable ∧ (t.fport port).downs = sat32 (s.fport port).downs 1
         ∧ ∀ a, a ∈ t.admitted ↔ a ∈ s.admitted ∧ a.port ≠ port.val)

/-- Optics (R365, R366, R494, R495): a cartridge that is fitted or removed, or has ended its ramp, has that in its record;
a calibration that succeeds makes its engine ACTIVE, one that fails in service leaves it in FAULT; the heater range in use
is recorded, and reported when it reaches 922 of 1,023. Where the model chooses: assumption log 7 and 89. -/
def Obligations.OpticsRecordTheirEvents : Prop :=
  (∀ (n : Fin 5) (present : Bool) (s : State), (s.cartridge n).present ≠ present →
    ∃ t, exec (.laserCartridgeChange n present) s = .next t ∧ t.cartridge n = ⟨present, false, false, 0⟩
      ∧ ∀ k, k ≠ n.val → t.cartridge k = s.cartridge k)
  ∧ (∀ (n : Fin 5) (s : State), (s.cartridge n).present = true → (s.cartridge n).fault = false →
    ∃ t, exec (.cartridgeActive n) s = .next t ∧ t.cartridge n = { s.cartridge n with active := true }
      ∧ ∀ k, k ≠ n.val → t.cartridge k = s.cartridge k)
  ∧ (∀ (e : Fin 16) (ok : Bool) (s : State), (s.engine e).state = .calibrating → s.booted bootOptics = true →
    ∃ t, exec (.calDone e ok) s = .next t
      ∧ t = { s with engines := t.engines, pages := t.pages, logs := t.logs, ports := t.ports }
      ∧ (t.engine e).state = (if ok then .active else .fault) ∧ (t.engine e).cals = sat32 (s.engine e).cals 1
      ∧ (t.page optPage).evtRaw.getLsbD (if ok then 3 else 4) = true ∧ ∀ k, k ≠ e.val → t.engine k = s.engine k)
  ∧ ∀ (e : Fin 16) (track : BitVec 10) (s : State),
    ∃ t, exec (.trackLimit e track) s = .next t
      ∧ t = { s with engines := t.engines, pages := t.pages, logs := t.logs, ports := t.ports }
      ∧ t.engine e = { s.engine e with track := track } ∧ (∀ k, k ≠ e.val → t.engine k = s.engine k)
      ∧ ((s.engine e).track.toNat < 922 → 922 ≤ track.toNat → (t.page optPage).evtRaw.getLsbD 2 = true)
      ∧ (track.toNat < 922 ∨ 922 ≤ (s.engine e).track.toNat → t = { s with engines := t.engines })

-- loan windows

/-- The life of a loan window (R203 to R205, R210 to R212): WINDOW_OPEN that passes its checks opens a FREE handle with
the next generation, never 0, and answers it; WINDOW_CLOSE makes it CLOSING; with no admitted request left it is CLOSED,
after the drain time even with some, which are discarded; a millisecond later it is FREE and keeps its generation. Where
the model chooses: assumption log 6 and 51. -/
def Obligations.WindowsOpenCloseAndBecomeFree : Prop :=
  (∀ (p : TPort) (tag : BitVec 32) (b : Bytes) (s : State) (h : Nat), Accepts s p tag → openMalformed b = false →
      s.gen.service = true → (s.tenant (fldAt b 0 1)).state = .bound →
      (∀ e ∈ openExtents b, s.extentAllowed (fldAt b 0 1) (fldAt b 1 1) e = true) → s.freeHandle = some h →
      (s.windows.map fun w => w.2.extents.length).sum + fldAt b 3 1 ≤ 8192 →
    ∃ t r, exec (.windowOpen p tag b) s = .next t ∧ t = { s with windows := t.windows, win := t.win, ports := t.ports }
      ∧ (t.window h).state = .opened ∧ (t.window h).extents = openExtents b
      ∧ (t.window h).gen = some (genPlus ((s.window h).gen.getD s.win.floor) 1) ∧ (t.window h).gen ≠ some 0
      ∧ (t.window h).tenant = BitVec.ofNat 8 (fldAt b 0 1) ∧ (t.window h).access = BitVec.ofNat 2 (fldAt b 1 1)
      ∧ (∀ i, i ≠ h → t.window i = s.window i) ∧ r.status = stOk ∧ leAt r.result 0 2 = h % 65536 ∧ Completed t p tag 0x30 r)
  ∧ (∀ (p : TPort) (tag : BitVec 32) (b : Bytes) (s : State),
    let h := fldAt b 0 2
    Accepts s p tag → b.length = 8 → h ≤ 4095 → fldAt b 4 4 ≤ 0xFFFFF → zeroAt b 3 1 = true → s.gen.service = true →
    (s.window h).state = .opened → (s.window h).gen.map BitVec.toNat = some (fldAt b 4 4) →
    (s.window h).tenant.toNat = fldAt b 2 1 →
    ∃ t, exec (.windowClose p tag b) s = .next t ∧ t = { s with windows := t.windows, ports := t.ports }
      ∧ t.window h = { s.window h with state := .closing, closeBegun := s.now.toNat }
      ∧ (∀ i, i ≠ h → t.window i = s.window i) ∧ ∃ c ∈ (t.port p).cmds, c.tag = tag ∧ c.wait = .close h)
  ∧ (∀ (h : Handle) (s : State), (s.window h).state = .closing → s.inflight h = 0 → Quiet s →
    ∃ t, exec (.windowCloseDone h) s = .next t
      ∧ t = { s with windows := t.windows, pages := t.pages, logs := t.logs, ports := t.ports }
      ∧ t.window h = { s.window h with state := .closed, closedAt := s.now.toNat }
      ∧ (∀ i, i ≠ h.val → t.window i = s.window i) ∧ ∀ q, q < 2 → ∀ c ∈ (t.port q).cmds, c.wait ≠ .close h)
  ∧ (∀ (h : Handle) (s : State), (s.window h).state = .closing → 0 < s.inflight h → Quiet s →
    ∃ t, exec (.drainExpired h) s = .next t ∧ (t.window h).state = .closed ∧ t.mem = s.mem
      ∧ t.admitted = s.admitted.filter (fun a => decide (a.handle ≠ h.val))
      ∧ (t.page winPage).tmoCount = sat32 (s.page winPage).tmoCount 1)
  ∧ ∀ (h : Handle) (s : State), (s.window h).state = .closed → (s.window h).closedAt + 16000000 ≤ s.now.toNat →
    ∃ t, exec (.windowFree h) s = .next t ∧ t = { s with windows := t.windows }
      ∧ (t.window h).state = .free ∧ (t.window h).gen = (s.window h).gen ∧ (t.window h).freeSince = s.now.toNat
      ∧ ∀ i, i ≠ h.val → t.window i = s.window i

-- weight editions

/-- The edition commands that pass their checks (R344 to R348, R352, R354, R358, R359): EDITION_BEGIN opens an entry with
every shard of the role WANTED and answers the manifest's digest; SHARD_DATA at offset 0 of a WANTED shard begins an
attempt and writes its bytes; EDITION_COMMIT and EDITION_SWITCH of a single module make the entry COMMITTED and ACTIVE;
EDITION_RETIRE makes it RETIRING, its partitions due for clearing. Where the model chooses: assumption log 63. -/
def Obligations.EditionCommandsMoveTheirEntry : Prop :=
  ∀ (p : TPort) (tag : BitVec 32) (b : Bytes) (s : State),
    let slot := fldAt b 0 1
    let index := fldAt b 1 1
    let e := s.edition index
    Accepts s p tag → s.gen.service = true → s.holds p = true → (s.slot slot).ownedBy (fldAt b 2 1) = true → Quiet s →
    (s.editionRefused p b = none →
      ∃ t r, exec (.editionBegin p tag b) s = .next t ∧ (t.edition index).state = .receiving ∧ (t.edition index).slot = slot
        ∧ (t.edition index).digest = sha512 ((b.drop 64).take (b.length - 224))
        ∧ (∀ x ∈ (t.edition index).shards, x.state = .wanted ∧ x.attempts = 0)
        ∧ (∀ i, i ≠ index → t.edition i = s.edition i) ∧ t.mem = s.mem
        ∧ r = Reply.ok (t.edition index).digest ∧ Completed t p tag 0x28 r)
    ∧ (∀ (x : Shard) (kp : Nat × Nat), index < 16 → slot < 64 → e.state = .receiving → e.slot = slot → e.relayOut = false →
        e.shard (fldAt b 4 4) = some x → x.state = .wanted → s.shardPart index x = some kp → s.upsets = [] →
        fldAt b 3 1 ≤ 1 → zeroAt b 16 16 = true → fldAt b 8 4 = 0 → 64 ≤ fldAt b 12 4 → fldAt b 12 4 ≤ 65472 →
        fldAt b 12 4 % 64 = 0 → b.length = 32 + fldAt b 12 4 → fldAt b 12 4 < x.len →
        s.openAttempts (s.shardDie index x) < 8 →
      ∃ t y, exec (.shardData p tag b) s = .next t ∧ t.mem = s.mem.write (partBase kp.1 kp.2 + x.offset) (b.drop 32)
        ∧ (t.edition index).shard (fldAt b 4 4) = some y ∧ y.state = .arriving ∧ y.attempts = x.attempts + 1
        ∧ y.got = b.drop 32 ∧ Completed t p tag 0x29 (Reply.ok []))
    ∧ (b.length = 8 → slot < 64 → index < 16 → zeroAt b 3 1 = true → fldAt b 4 2 = 0 → zeroAt b 6 2 = true →
        (∃ f, (s.slot slot).folio = some f ∧ f.moduleCount = 1) → (s.slot slot).isHead = true → e.slot = slot →
        e.state = .verified ∨ e.state = .committed →
      ∃ t, exec (.editionCommit p tag b) s = .next t ∧ (t.edition index).state = .committed
        ∧ (t.edition index).named = [] ∧ (∀ i, i ≠ index → t.edition i = s.edition i)
        ∧ (t.page accPage).evtRaw.getLsbD 2 = true ∧ Completed t p tag 0x2A (Reply.ok []))
    ∧ (b.length = 3 → slot < 64 → index < 16 → (s.slot slot).isHead = true → e.slot = slot →
        e.state = .committed ∨ e.state = .draining → e.named = [] →
      ∃ t, exec (.editionSwitch p tag b) s = .next t ∧ (t.edition index).state = .active
        ∧ (∀ i, i < 16 → i ≠ index → (s.edition i).slot = slot → (s.edition i).state = .active →
            (t.edition i).state = .draining ∨ (t.edition i).state = .retiring)
        ∧ (t.page accPage).evtRaw.getLsbD 3 = true ∧ Completed t p tag 0x2B (Reply.ok []))
    ∧ (b.length = 3 → slot < 64 → index < 16 → (s.slot slot).sideMissing index = false → s.retireRefused slot index = none →
        e.named = [] →
        e.state ≠ .free → e.state ≠ .retiring →
      ∃ t, exec (.editionRetire p tag b) s = .next t ∧ (t.edition index).state = .retiring
        ∧ (∀ kp ∈ e.parts, (t.part kp.1 kp.2).due = true ∨ (t.part kp.1 kp.2).kind = .clearing)
        ∧ ∃ c ∈ (t.port p).cmds, c.tag = tag ∧ c.wait = .retire index)

/-- The relay (R349 to R351, R376, R384): a whole segment in sequence lands at the place of its shard's open attempt;
RESEND of a VERIFIED shard is answered with the shard's segments, of a shard not there yet is held, of an unknown entry is
refused; a RESEND_FAIL or a timeout, whatever the state of the entry, fails an attempt, and below the fourth the shard is
WANTED again. Where the model chooses: assumption log 82 and 83. -/
def Obligations.RelayServesTheShards : Prop :=
  (∀ (port : FPort) (flit : Flit) (data : List Flit) (s : State) (i : Nat) (x : Shard) (kp : Nat × Nat),
    let flits := { flit with typ := 0x30 } :: data.map fun f => { f with typ := 0x31 }
    let n := 64 * (fldAt flit.payload 24 1 % 32 + 1)
    let bytes := (data.flatMap Flit.payload).take n
    let e := s.edition i
    s.inSequence port flits = true → bytes.length = n → s.upsets = [] →
    (s.editionBy (flit.payload.take 16) fun e => e.fromUp && decide (e.upPort = port.val)
      && decide (e.state = .receiving)) = some i → e.relayOut = false → e.shard (fldAt flit.payload 16 4) = some x → x.state = .arriving →
    x.upstream = true → fldAt flit.payload 20 4 = x.got.length → x.got ≠ [] → x.got.length + n < x.len →
    s.shardPart i x = some kp →
    ∃ t y, exec (.relayHead port flit data) s = .next t
      ∧ t = { s with fports := t.fports, editions := t.editions, accDie := t.accDie, mem := t.mem }
      ∧ t.mem = s.mem.write (partBase kp.1 kp.2 + x.offset + x.got.length) bytes
      ∧ (t.edition i).shard (fldAt flit.payload 16 4) = some y ∧ y = { x with got := x.got ++ bytes })
  ∧ (∀ (port : FPort) (flit : Flit) (s : State) (i : Nat) (x : Shard) (kp : Nat × Nat),
    let shard := fldAt flit.payload 16 4
    Takes s port flit 0x32 → (s.editionBy (flit.payload.take 16) fun e =>
        e.relayOut && decide (e.nextPort = port.val) && decide (e.state ≠ .retiring)) = some i →
    (s.edition i).shard shard = some x →
    (x.state = .verified → s.shardPart i x = some kp → s.upsets = [] →
      ∃ t, exec (.resend port flit) s = .next t ∧ OnlySends s t
        ∧ ∀ piece ∈ cutBytes 2048 (x.len / 2048 + 1) 0 (s.mem.read (partBase kp.1 kp.2 + x.offset) x.len),
            ∀ f ∈ segmentFlits (s.edition i).digest shard piece.1 true piece.2,
              FlitQueued t port (s.flit f.1 2 0 0 0 f.2))
    ∧ (x.state = .wanted ∨ x.state = .arriving →
      ∃ t, exec (.resend port flit) s = .next t ∧ t = { s with fports := t.fports, editions := t.editions }
        ∧ (t.edition i).held = (s.edition i).held ++ [(port.val, shard)] ∧ (t.edition i).shards = (s.edition i).shards))
  ∧ (∀ (port : FPort) (flit : Flit) (s : State), Takes s port flit 0x32 →
    (s.editionBy (flit.payload.take 16) fun e =>
        e.relayOut && decide (e.nextPort = port.val) && decide (e.state ≠ .retiring)) = none →
    ∃ t, exec (.resend port flit) s = .next t ∧ OnlySends s t
      ∧ FlitQueued t port (s.flit 0x33 2 0 0 0 (resendPayload (flit.payload.take 16) (fldAt flit.payload 16 4) 2)))
  ∧ (∀ (port : FPort) (flit : Flit) (s : State) (i : Nat) (x : Shard),
    let shard := fldAt flit.payload 16 4
    Takes s port flit 0x33 → (s.editionBy (flit.payload.take 16) fun e =>
        e.fromUp && decide (e.upPort = port.val) && decide (e.state = .receiving)) = some i →
    (s.edition i).shard shard = some x → x.state = .wanted → x.attempts < 3 →
    ∃ t, exec (.resendFail port flit) s = .next t
      ∧ (t.edition i).shard shard = some { x with attempts := x.attempts + 1, lastCause := causeUpstream }
      ∧ (t.page accPage).evtRaw.getLsbD 5 = true ∧ t.mem = s.mem)
  ∧ ∀ (index : EdIdx) (n : Nat) (s : State) (x : Shard),
    (s.edition index).shard n = some x → x.state = .arriving → x.attempts < 4 →
    ∃ t, exec (.shardTimeout index (some n)) s = .next t
      ∧ (t.edition index).shard n = some { x with lastCause := causeTimeout, state := .wanted }
      ∧ (t.page accPage).tmoCount = sat32 (s.page accPage).tmoCount 1 ∧ t.mem = s.mem

/-- The messages between the modules of an edition (R353, R354, R358, R385): a query changes no edition; a COMMIT notice
whose digests match makes a VERIFIED entry COMMITTED; an answer or acknowledgement that is not the last one of its stage
is taken into account; a RETIRING entry whose partitions are clear is FREE, and its EDITION_RETIRE ends unless modules of
the group have still to acknowledge. Where the model chooses: assumption log 79 and 80. -/
def Obligations.EditionMessagesAreTaken : Prop :=
  (∀ (port : FPort) (flit : Flit) (s : State), Takes s port flit 0x41 →
    ∃ t, exec (.equery port flit) s = .next t ∧ OnlySends s t
      ∧ (flit.hops ≠ 0 → s.fab.idValid = true →
          (s.fport (flitRet { flit with typ := 0x41 } port / 2 ^ (6 * (flit.hops.toNat - 1)) % 64)).state = .up →
          ∃ f, f.typ = 0x42 ∧ f.vc = 3
            ∧ FlitQueued t (flitRet { flit with typ := 0x41 } port / 2 ^ (6 * (flit.hops.toNat - 1)) % 64) f))
  ∧ (∀ (port : FPort) (flit : Flit) (s : State),
    let i := fldAt flit.payload 1 1
    Takes s port flit 0x43 → i ≤ 15 → (s.vc3Slot flit.payload).isSome = true → fldAt flit.payload 0 1 = 1 →
    (s.edition i).state = .verified → (s.edition i).digest.take 8 = (flit.payload.drop 12).take 8 →
    ∃ t, exec (.notice port flit) s = .next t
      ∧ t = { s with cores := t.cores, fports := t.fports, editions := t.editions
                     pages := t.pages, logs := t.logs, ports := t.ports }
      ∧ OnlyMarks s t
      ∧ t.edition i = { s.edition i with state := .committed, talk := none } ∧ ∀ j, j ≠ i → t.edition j = s.edition j)
  ∧ (∀ (port : FPort) (flit : Flit) (s : State) (talk : EdTalk) (x : Nat × Nat × Nat),
    let i := fldAt flit.payload 1 1
    i ≤ 15 → (s.edition i).talk = some talk →
    talk.waiting.find? (fun w => decide (w.2.2 = fldAt flit.payload 2 2)) = some x → talk.waiting.erase x ≠ [] →
    (Takes s port flit 0x42 → talk.stage = 0 →
      ∃ t a, exec (.eanswer port flit) s = .next t ∧ t = { s with fports := t.fports, editions := t.editions }
        ∧ a.1 = x.1 ∧ a.2.1 = fldAt flit.payload 20 1
        ∧ (t.edition i).talk = some { talk with waiting := talk.waiting.erase x, answers := talk.answers ++ [a] })
    ∧ (Takes s port flit 0x44 → talk.stage = fldAt flit.payload 0 1 → talk.stage ≠ 0 →
      ∃ t, exec (.noticeAck port flit) s = .next t ∧ t = { s with fports := t.fports, editions := t.editions }
        ∧ (t.edition i).talk = some { talk with waiting := talk.waiting.erase x
                                                answers := talk.answers ++ [(x.1, fldAt flit.payload 20 1, false)] }))
  ∧ ∀ (index : EdIdx) (s : State), (s.edition index).state = .retiring →
    (∀ kp ∈ (s.edition index).parts, (s.part kp.1 kp.2).due = false ∧ (s.part kp.1 kp.2).kind ≠ .clearing) → Quiet s →
    ∃ t, exec (.editionRetired index) s = .next t
      ∧ t = { s with editions := t.editions, pages := t.pages, logs := t.logs, ports := t.ports }
      ∧ t.edition index = { Edition.reset with talk := (s.edition index).talk.filter fun k => decide (k.waiting ≠ []) }
      ∧ ((t.edition index).talk = none → ∀ p, p < 2 → ∀ c ∈ (t.port p).cmds, c.wait ≠ .retire index)
      ∧ (t.page accPage).evtRaw.getLsbD 4 = true ∧ ∀ i, i ≠ index.val → t.edition i = s.edition i

-- tenants, folios and programs

/-- TENANT_BIND that passes its checks, and disturbs no load (R280 to R284): the tenant has the clusters, quotas and
share it was granted, every other tenant loses those clusters, and each named partition that was free and unowned is
the tenant's, of the kind named; the tenant is BOUND and the command complete once nothing is being cleared for it.
TENANT_RELEASE without a RUNNING program leaves it RELEASING or UNBOUND, its sessions FREE. Where the model chooses:
assumption log 63 and 67. -/
def Obligations.TenantsAreBoundAndReleased : Prop :=
  (∀ (p : TPort) (tag : BitVec 32) (b : Bytes) (s : State),
    let id := fldAt b 0 1
    let mask : BitVec 32 := BitVec.ofNat 32 (fldAt b 4 4)
    Accepts s p tag → s.bindCheck p b = none → s.bindMustWait mask (bindParts b) = false → Quiet s →
    (∀ e ∈ s.slots, e.2.state ≠ .loading) →
    ∃ t, exec (.tenantBind p tag b) s = .next t
      ∧ t.tenant id = { state := if t.tenantClear id then .bound else (s.tenant id).state, clusters := mask, sessions := BitVec.ofNat 13 (fldAt b 12 4)
                        kvMib := BitVec.ofNat 32 (fldAt b 16 4), share := BitVec.ofNat 8 (fldAt b 20 1)
                        folioKeys := BitVec.ofNat 64 (fldAt b 24 8), publisherKeys := BitVec.ofNat 64 (fldAt b 32 8) }
      ∧ (t.tenantClear id = true → Completed t p tag 0x18 (Reply.ok []))
      ∧ (t.tenantClear id = false → ∃ c ∈ (t.port p).cmds, c.tag = tag ∧ c.wait = .bound id)
      ∧ (∀ u, u ≠ id → (t.tenant u).clusters = (s.tenant u).clusters &&& ~~~mask)
      ∧ ∀ e ∈ bindParts b, (s.part e.1 e.2.1).owner = none → (s.part e.1 e.2.1).kind = .free → (s.part e.1 e.2.1).due = false →
          (t.part e.1 e.2.1).kind = e.2.2 ∧ (t.part e.1 e.2.1).owner = tenantId id)
  ∧ ∀ (p : TPort) (tag : BitVec 32) (b : Bytes) (s : State), Accepts s p tag → b.length = 1 → s.gen.service = true →
      s.holds p = true → (s.tenant (fldAt b 0 1)).state = .bound → s.slotsOfTenant (fldAt b 0 1) .running = [] →
      s.slotsOfTenant (fldAt b 0 1) .loading = [] → Quiet s →
    ∃ t, exec (.tenantRelease p tag b) s = .next t
      ∧ ((t.tenant (fldAt b 0 1)).state = .releasing ∨ (t.tenant (fldAt b 0 1)).state = .unbound)
      ∧ ∀ i, (s.session i).tenant = fldAt b 0 1 → (t.session i).state = .free

/-- A FOLIO_LOAD into an EMPTY slot whose checks all pass leaves the slot LOADED with its folio and answers the folio
digest (R273, R274); a load whose packets stop coming ends, its slot EMPTY, its command no longer in progress (R275,
R276). Where the model chooses: assumption log 14, 64 and 65. -/
def Obligations.FoliosAreLoadedOrGivenUp : Prop :=
  (∀ (p : TPort) (tag : BitVec 32) (b : Bytes) (view : FolioView) (s : State) (f : Folio) (v : FolioView),
    let slot := fldAt b 0 1
    Accepts s p tag → (s.slot slot).state = .empty → s.loadRefused b = none →
    (readLoad b (some view)).digestFault = none →
    (match ((s.beginLoad p tag b).claimLoad b).judgeLoad b (some view) with
      | .ok r => r = (f, v)
      | .error _ => False) →
    ∃ t, exec (.folioLoad p tag b view) s = .next t ∧ (t.slot slot).state = .loaded ∧ (t.slot slot).folio = some f
      ∧ (t.slot slot).tenant = fldAt b 1 1 ∧ (t.slot slot).load = none ∧ Completed t p tag 0x10 (Reply.ok f.digest))
  ∧ ∀ (slot : SlotId) (s : State) (q : Nat) (tag : BitVec 32), (s.slot slot).state = .loading →
      (s.slot slot).load = some (q, tag) → s.editions = [] → Quiet s →
    ∃ t, exec (.loadIdleTimeout slot) s = .next t ∧ (t.slot slot).state = .empty ∧ (t.slot slot).folio = none
      ∧ t.inProgress q tag = false ∧ t.mem = s.mem

/-- RUN, PROGRAM_START and HALT (R155, R222, R277, R278): a LOADED slot whose conditions hold is RUNNING, its cores'
stacks empty; at START_LEDGER each core starts at its START entry with RUN = 1; a HALT waits, and without CT.STEP stops
every core at once. The start here is of a slot that puts no batch record. Where the model chooses: assumption log 36 and
68. -/
def Obligations.ProgramsRunStartAndHalt : Prop :=
  (∀ (p : TPort) (tag : BitVec 32) (b : Bytes) (s : State) (f : Folio),
    let slot := fldAt b 0 1
    let start : W64 := BitVec.ofNat 64 (fldAt b 8 8)
    Accepts s p tag → b.length = 16 → slot < 64 → zeroAt b 1 7 = true → (s.slot slot).state = .loaded →
    (s.slot slot).folio = some f →
    (f.moduleCount ≤ 1 ∨ s.freqLocked = true ∧ (s.ledger.state = .root ∨ s.ledger.state = .locked)) →
    (f.resident = none ∨ s.activeEdition slot ≠ 0xFF) → (start = 0 ∨ s.now.toNat ≤ start.toNat) →
    ∃ t, exec (.run p tag b) s = .next t
      ∧ t = { s with cores := t.cores, clusters := t.clusters, fports := t.fports, slots := t.slots, ports := t.ports }
      ∧ (∀ n, t.fport n = { s.fport n with streams := (t.fport n).streams }
          ∧ ∀ q ∈ (t.fport n).streams, q.core ∉ (s.slot slot).cores)
      ∧ (t.slot slot).state = .running ∧ (t.slot slot).prog.startLedger = start ∧ (t.slot slot).prog.started = false
      ∧ (∀ c ∈ (s.slot slot).cores, (t.core c).sq.loops = [] ∧ (t.core c).sq.calls = [] ∧ (t.core c).sq.step = 0)
      ∧ (∀ c, c ∉ (s.slot slot).cores → t.core c = s.core c) ∧ Completed t p tag 0x11 (Reply.ok []))
  ∧ (∀ (slot : SlotId) (s : State) (f : Folio), (s.slot slot).state = .running → (s.slot slot).folio = some f →
      (s.slot slot).prog.started = false → (s.slot slot).prog.haltPending = false →
      ((s.slot slot).prog.startLedger = 0 ∨ (s.slot slot).prog.startLedger.toNat ≤ s.now.toNat) →
      ((s.slot slot).isDeployment && (s.slot slot).isHead) = false →
    ∃ t, exec (.programStart slot) s = .next t ∧ t = { s with cores := t.cores, slots := t.slots }
      ∧ (t.slot slot).prog.started = true
      ∧ (∀ i c, (s.slot slot).cores[i]? = some c → (t.core c).sq.run = true ∧ (t.core c).sq.halted = false
          ∧ (t.core c).sq.pc = f.start.getD i 0 ∧ (t.core c).vx.draws = [] ∧ (t.core c).sq.mode = (s.core c).sq.mode)
      ∧ ∀ c, c ∉ (s.slot slot).cores → t.core c = s.core c)
  ∧ ∀ (p : TPort) (tag : BitVec 32) (b : Bytes) (s : State) (f : Folio),
    let slot := fldAt b 0 1
    Accepts s p tag → b.length = 1 → slot < 64 → (s.slot slot).state = .running → (s.slot slot).folio = some f →
    (s.slot slot).isDeployment = false → (s.slot slot).prog.haltPending = false →
    ∃ t, exec (.halt p tag b) s = .next t ∧ t = { s with cores := t.cores, slots := t.slots, ports := t.ports }
      ∧ (t.slot slot).prog.haltPending = true ∧ (t.slot slot).state = .running
      ∧ (∀ c ∈ (s.slot slot).cores, (t.core c).sq.halted = (if f.hasStep then (s.core c).sq.halted else true))
      ∧ ∃ c ∈ (t.port p).cmds, c.tag = tag ∧ c.wait = .halt slot

-- sessions

/-- The session commands that pass their checks (R288 to R293, R332): SESSION_OPEN takes the lowest FREE descriptor, OPEN
with the next generation; PROMPT_APPEND short of the prompt's end counts its tokens and stores them; SESSION_CANCEL closes
an OPEN or ADMITTED session and marks one of the batch; SESSION_CLOSE frees a CLOSED one, keeping its generation. Where
the model chooses: assumption log 63 and 69. -/
def Obligations.SessionCommandsMoveTheirSession : Prop :=
  ∀ (p : TPort) (tag : BitVec 32) (b : Bytes) (s : State), Accepts s p tag → s.gen.service = true → s.adm.autoFree = false →
    s.editions = [] → Quiet s →
    (∀ (i first : Nat),
      let id := fldAt b 0 1
      let slot := fldAt b 1 1
      let x := s.slot slot
      sessionOpenBad b = false → sessionOpenOver b x.serving = false → (s.tenant id).state = .bound → x.state = .running →
      x.tenant = id → x.isHead = true → x.isDeployment = true → fldAt b 5 1 = 0xFF →
      (s.gen.archivalOnly = false ∧ fldAt b 3 1 % 2 = 0 ∨ ∃ f, x.folio = some f ∧ f.archival = true) →
      s.freeDescriptor = some i → s.promptUnits slot ((fldAt b 8 4 + 1023) / 1024) = some first →
      (s.tenant id).share ≠ 0 → s.descriptorUse id < (s.tenant id).sessions.toNat → s.power.shedNow = false →
      ∃ t r, exec (.sessionOpen p tag b) s = .next t ∧ t = { s with sessions := t.sessions, ports := t.ports }
        ∧ (t.session i).state = .opened ∧ (t.session i).gen = genNext (s.session i).gen ∧ (t.session i).gen ≠ 0
        ∧ (t.session i).tenant = id ∧ (t.session i).slot = slot ∧ (t.session i).port = p.val
        ∧ (t.session i).promptTokens = fldAt b 8 4 ∧ (t.session i).maxNew = fldAt b 12 4 ∧ (t.session i).pstore = first
        ∧ (t.session i).ledgerOpen = s.now ∧ (∀ j, j ≠ i → t.session j = s.session j)
        ∧ r.status = stOk ∧ leAt r.result 0 4 = sessHandle i (t.session i) % 2 ^ 32 ∧ Completed t p tag 0x20 r)
    ∧ (∀ (a : Nat),
      let i := handleIndex b
      let x := s.session i
      let n := fldAt b 8 4
      b.length = 16 + 4 * n → 0 < n → n ≤ 16380 → zeroAt b 5 3 = true → zeroAt b 12 4 = true →
      (∀ k, k < n → zeroAt b (19 + 4 * k) 1 = true ∧ fldAt b (16 + 4 * k) 3 < (s.slot x.slot).serving.vocab) →
      s.handleFault p b = none → x.state = .opened → x.promptReceived + n < x.promptTokens →
      s.promptAddr x x.promptReceived = some a → isShelf a = true → s.upsets = [] →
      (∀ e ∈ s.sessions, e.2.endReason ≠ endRefused) →
      ∃ t, exec (.promptAppend p tag b) s = .next t
        ∧ t = { s with mem := s.mem.write a (b.drop 16), sessions := t.sessions, ports := t.ports }
        ∧ t.session i = { x with promptReceived := x.promptReceived + n }
        ∧ (∀ j, j ≠ i → t.session j = s.session j)
        ∧ Completed t p tag 0x21 (Reply.ok (t.session i).appendResult))
    ∧ (let i := handleIndex b
      b.length = 5 → s.handleFault p b = none →
      ∃ t, exec (.sessionCancel p tag b) s = .next t ∧ (t.session i).cancelSeen = true ∧ t.mem = s.mem
        ∧ ((s.session i).state = .opened ∨ (s.session i).state = .admitted →
            (t.session i).state = .closed ∧ (t.session i).endReason = endCancelled)
        ∧ ((s.session i).state = .prefill ∨ (s.session i).state = .decode →
            t.session i = { s.session i with cancelSeen := true, cancelPending := true })
        ∧ (∀ j, j ≠ i → t.session j = s.session j)
        ∧ Completed t p tag 0x22 (Reply.ok [BitVec.ofNat 8 (t.session i).state.code]))
    ∧ (let i := handleIndex b
      b.length = 5 → s.handleFault p b = none → (s.session i).state = .closed →
      ∃ t, exec (.sessionClose p tag b) s = .next t ∧ t = { s with sessions := t.sessions, ports := t.ports }
        ∧ t.session i = { Session.reset with gen := (s.session i).gen } ∧ (∀ j, j ≠ i → t.session j = s.session j)
        ∧ Completed t p tag 0x23 (Reply.ok []))

/-- An evaluation (R299): a session that no refusal test and no queue test stops is ADMITTED with its pages and charge,
the count of admissions rises; one that a queue test stops is queued with the reason; one that a refusal test stops will
end REFUSED with it. What time does to a session (R294, R299, R334, R335): the prompt timeout closes it with TIMEOUT, the
queue timeout with REFUSED, the step timeout closes an ADMITTED one and marks one of the batch; an open token packet
closes 50 µs after its first token, and a closed one that holds no completion record leaves with the port's credits. Where
the model chooses: assumption log 71, 72 and 78. -/
def Obligations.SessionsAreAdmittedAndTimeOut : Prop :=
  (∀ (s : State) (i : Nat),
     let x := s.session i
     let e := s.evaluation x
     let t := s.evaluate i
     (∀ r, s.refusal x e = some r → (t.session i).endReason = endRefused ∧ (t.session i).refuseReason = r
         ∧ (t.session i).queued = false)
     ∧ (∀ r, s.refusal x e = none → s.queueing x e = some r →
         (t.session i).queued = true ∧ (t.session i).refuseReason = r ∧ (t.session i).state = x.state)
     ∧ (s.refusal x e = none → s.queueing x e = none →
         (t.session i).state = .admitted ∧ (t.session i).pages = e.pages ∧ (t.session i).charge = e.charge
         ∧ (t.session i).queued = false ∧ t.adm = { s.adm with admitted := sat32 s.adm.admitted 1 })
     ∧ ∀ j, j ≠ i → t.session j = s.session j)
  ∧ (∀ (i : SessIdx) (s : State), s.adm.autoFree = false → s.editions = [] → Quiet s →
     let x := s.session i
     (x.state = .opened → x.promptReceived < x.promptTokens →
       x.ledgerOpen.toNat + x.lat.promptMs.toNat * 16000000 ≤ s.now.toNat →
       ∃ t, exec (.promptTimeout i) s = .next t ∧ (t.session i).state = .closed ∧ (t.session i).endReason = endTimeout
         ∧ t.mem = s.mem ∧ ∀ j, j ≠ i.val → t.session j = s.session j)
     ∧ (x.state = .opened → x.queued = true → x.queuedAt.toNat + x.lat.queueMs.toNat * 16000000 ≤ s.now.toNat →
       x.refuseReason ≠ 0 →
       ∃ t, exec (.queueTimeout i) s = .next t ∧ (t.session i).state = .closed ∧ (t.session i).endReason = endRefused
         ∧ (t.session i).refuseReason = x.refuseReason ∧ (t.session i).queued = false ∧ t.mem = s.mem
         ∧ ∀ j, j ≠ i.val → t.session j = s.session j)
     ∧ (s.passed (if x.ledgerCommit = 0 then x.ledgerAdmit else x.ledgerCommit) (x.lat.stepUs.toNat * 16000) = true →
       (x.state = .admitted → ∃ t, exec (.stepTimeout i) s = .next t ∧ (t.session i).state = .closed
         ∧ (t.session i).endReason = endTimeout ∧ t.mem = s.mem)
       ∧ (x.state = .prefill ∨ x.state = .decode → exec (.stepTimeout i) s
           = .next (s.modSession i fun x => { x with stepExpired := true })))
     ∧ (∀ k tok rest, x.openPkt = some k → k.tokens = tok :: rest → tok.stamp.toNat + 800000 ≤ s.now.toNat →
       ∃ t, exec (.tokenPacketClose i) s = .next t ∧ t = { s with sessions := t.sessions }
         ∧ t.session i = { x with openPkt := none, closedPkts := x.closedPkts ++ [k] }
         ∧ ∀ j, j ≠ i.val → t.session j = s.session j)
     ∧ ∀ k rest, x.closedPkts = k :: rest → k.final = false → s.tokenReady i = true → x.state ≠ .closed → x.state ≠ .free →
       ∃ t, exec (.tokenPacketSend i) s = .next t ∧ t = { s with sessions := t.sessions, ports := t.ports }
         ∧ t.session i = { x with closedPkts := rest } ∧ Queued t x.port (tokenPacket (x.tokenPayload i k))
         ∧ ∀ j, j ≠ i.val → t.session j = s.session j)

-- the Tsudan port and its commands

/-- The link of a Tsudan port (R395, R398 to R402): light starts training with an INIT word of the module's buffers;
an INIT word that announces at least 1,025 units in every class gives the credits less those of the packets still to
be replayed, a smaller one fails training; RESYNC expects LSEQ 0 and cancels what was not whole; UP, an ACKSEQ frees
the retry buffer up to its packet, the CRED fields add credits, and a NAK or an acknowledgement timeout replays, once
for each ACKSEQ, at the limit the port goes DOWN; a port that leaves UP keeps its sequences, its retry buffer and its
commands. Where the model chooses: assumption log 92, 93 and 153. -/
def Obligations.TsudanPortTrainsAndReplays : Prop :=
  ∀ (p : TPort) (s : State),
    let x := s.port p
    let page := tsdPage p
    (x.state = .down → x.enable = true → s.booted bootReadingRoom = true →
      ∃ t, exec (.tsdLightReceived p) s = .next t ∧ t = { s with ports := t.ports }
        ∧ t.port p = { x with state := .training, retrain := false, word := (t.port p).word }
        ∧ LinkWord (t.port p).word (x.rxAny.toNat + 2 * x.nak.toNat + 4) (x.rxNext - 1).toNat
            (fun c => [2048, 4096, 16384, 0].getD c 0)
        ∧ ∀ q, q ≠ p.val → t.port q = s.port q)
    ∧ (∀ frame : Bytes, (x.state = .up ∨ x.state = .training) → crc16 (frame.take 14) ≠ BitVec.ofNat 16 (leAt frame 14 2) →
      ∃ t, exec (.tsdLinkWord p frame) s = .next t ∧ t = { s with ports := t.ports }
        ∧ t.port p = { x with crcErr := sat32 x.crcErr 1 } ∧ ∀ q, q ≠ p.val → t.port q = s.port q)
    ∧ (∀ frame : Bytes, crc16 (frame.take 14) = BitVec.ofNat 16 (leAt frame 14 2) → leAt frame 0 1 = 0x7F →
      x.state = .training → leAt frame 1 1 / 4 % 2 = 1 → x.peerInit = false →
        ((∃ c, c < 4 ∧ (frameCredit frame c).toNat < 1025) →
          ∃ t, exec (.tsdLinkWord p frame) s = .next t ∧ OnlyReports s t ∧ (t.port p).state = .down ∧ (t.port p).cause = 6
            ∧ (t.port p).retry = x.retry ∧ (t.port p).cmds = x.cmds ∧ (t.page page).evtRaw.getLsbD 1 = true)
        ∧ ((∀ c, c < 4 → 1025 ≤ (frameCredit frame c).toNat) → leAt frame 1 1 / 8 % 2 = 0 →
          ∃ t, exec (.tsdLinkWord p frame) s = .next t ∧ t = { s with ports := t.ports } ∧ (t.port p).state = .training
            ∧ (t.port p).peerInit = true ∧ (t.port p).retry = unacked (BitVec.ofNat 16 (leAt frame 2 2)) x.retry
            ∧ (t.port p).rxNext = x.rxNext ∧ (t.port p).txNext = x.txNext ∧ (t.port p).cmds = x.cmds
            ∧ (∀ c, c < 4 → Tbl.get 0 (t.port p).credits c
                = (frameCredit frame c).toNat - unackedUnits (t.port p).retry c)
            ∧ ∀ q, q ≠ p.val → t.port q = s.port q)
        ∧ ((∀ c, c < 4 → 1025 ≤ (frameCredit frame c).toNat) → leAt frame 1 1 / 8 % 2 = 1 → NoLoads s →
          (∀ c ∈ x.cmds, c.wait = .packets → ∀ d ∈ x.cmds, d.tag = c.tag → d = c) →
          ∃ t, exec (.tsdLinkWord p frame) s = .next t ∧ OnlyReports s t ∧ (t.port p).state = .training
            ∧ (t.port p).peerInit = true ∧ (t.port p).rxNext = 0 ∧ (t.port p).retry = x.retry ∧ (t.port p).txNext = x.txNext
            ∧ (t.page page).evtRaw.getLsbD 3 = true
            ∧ (∀ c, c < 4 → Tbl.get 0 (t.port p).credits c = (frameCredit frame c).toNat - unackedUnits x.retry c)
            ∧ (∀ c ∈ (t.port p).cmds, c ∈ x.cmds ∧ c.wait ≠ .packets)
            ∧ ∀ c ∈ x.cmds, c.wait = .packets → c.cls = classOf c.code →
                Completed t p c.tag c.code (Reply.err stCancelled)))
    ∧ (x.state = .training → x.peerInit = true →
      ∃ t l, exec (.tsdPortUp p) s = .next t ∧ OnlyReports s t ∧ (t.port p).state = .up ∧ (t.port p).cmds = x.cmds
        ∧ (t.port p).rxNext = x.rxNext ∧ (t.port p).retry = x.retry ++ l ∧ (t.page page).evtRaw.getLsbD 0 = true)
    ∧ (∀ frame : Bytes, crc16 (frame.take 14) = BitVec.ofNat 16 (leAt frame 14 2) → leAt frame 0 1 = 0x7F → x.state = .up →
      leAt frame 1 1 / 4 % 2 = 0 →
        let ack : BitVec 16 := BitVec.ofNat 16 (leAt frame 2 2)
        let point : Option (BitVec 16) := x.retry.head?.map fun q => q.lseq - 1
        (leAt frame 1 1 / 2 % 2 = 0 →
          ∃ t l, exec (.tsdLinkWord p frame) s = .next t ∧ t = { s with ports := t.ports }
            ∧ (t.port p).retry = (if leAt frame 1 1 % 2 = 1 then unacked ack x.retry else x.retry) ++ l
            ∧ (t.port p).state = .up ∧ (t.port p).cmds = x.cmds ∧ (t.port p).rxNext = x.rxNext
            ∧ (t.port p).replays = x.replays
            ∧ LinkWord (t.port p).word (x.rxAny.toNat + 2 * x.nak.toNat) (x.rxNext - 1).toNat
                (fun c => (Tbl.get 0 x.freed c).toNat)
            ∧ (x.txQueue = [] → x.evtQueue.length < 64 → l = [] ∧ ∀ c, c < 4 →
                Tbl.get 0 (t.port p).credits c
                    = Tbl.get 0 x.credits c + (frameCredit frame c - Tbl.get 0 x.credSeen c).toNat
                  ∧ Tbl.get 0 (t.port p).credSeen c = frameCredit frame c)
            ∧ ∀ q, q ≠ p.val → t.port q = s.port q)
        ∧ (leAt frame 1 1 % 2 = 0 → leAt frame 1 1 / 2 % 2 = 1 → x.retry ≠ [] → x.replayedFrom ≠ point →
          (x.replaysRun < s.retryLimit p →
            ∃ t l, exec (.tsdLinkWord p frame) s = .next t ∧ OnlyReports s t ∧ (t.port p).state = .up
              ∧ (t.port p).replays = sat32 x.replays 1 ∧ (t.port p).replaysRun = x.replaysRun + 1
              ∧ (t.port p).replayedFrom = point ∧ (t.port p).retry = x.retry ++ l ∧ (t.port p).cmds = x.cmds
              ∧ (t.page page).evtRaw.getLsbD 2 = true)
          ∧ (s.retryLimit p ≤ x.replaysRun →
            ∃ t, exec (.tsdLinkWord p frame) s = .next t ∧ OnlyReports s t ∧ (t.port p).state = .down
              ∧ (t.port p).cause = 4 ∧ (t.port p).retry = x.retry ∧ (t.port p).cmds = x.cmds
              ∧ (t.page page).tmoCount = sat32 (s.page page).tmoCount 1))
        ∧ (leAt frame 1 1 % 2 = 0 → leAt frame 1 1 / 2 % 2 = 1 → x.replayedFrom = point →
          ∃ t l, exec (.tsdLinkWord p frame) s = .next t ∧ t = { s with ports := t.ports } ∧ (t.port p).state = .up
            ∧ (t.port p).replays = x.replays ∧ (t.port p).replaysRun = x.replaysRun ∧ (t.port p).retry = x.retry ++ l))
    ∧ (x.state = .up → x.retry ≠ [] →
      ∃ t l, exec (.tsdAckTimeout p) s = .next t ∧ OnlyReports s t ∧ (t.port p).retry = x.retry ++ l
        ∧ (t.port p).cmds = x.cmds
        ∧ (x.replaysRun < s.retryLimit p → (t.port p).state = .up ∧ (t.port p).replays = sat32 x.replays 1
            ∧ (t.port p).replaysRun = x.replaysRun + 1
            ∧ (t.port p).replayedFrom = x.retry.head?.map (fun q => q.lseq - 1)
            ∧ (t.page page).tmoCount = sat32 (s.page page).tmoCount 1 ∧ (t.page page).evtRaw.getLsbD 2 = true)
        ∧ (s.retryLimit p ≤ x.replaysRun → (t.port p).state = .down ∧ (t.port p).cause = 4 ∧ l = []
            ∧ (t.page page).tmoCount = sat32 (s.page page).tmoCount 2 ∧ (t.page page).evtRaw.getLsbD 1 = true))
    ∧ (x.state = .up ∨ x.state = .training →
      ∃ t, exec (.tsdPortDown p) s = .next t ∧ OnlyReports s t ∧ (t.port p).state = .down ∧ (t.port p).cause = 2
        ∧ (t.port p).rxNext = x.rxNext ∧ (t.port p).txNext = x.txNext ∧ (t.port p).retry = x.retry
        ∧ (t.port p).cmds = x.cmds ∧ (t.page page).evtRaw.getLsbD 1 = true)
    ∧ (∀ credit : Bool, x.state = .training →
      ∃ t, exec (.tsdTrainFail p credit) s = .next t ∧ OnlyReports s t ∧ (t.port p).state = .down
        ∧ (t.port p).cause = (if credit then 6 else 3) ∧ (t.port p).retry = x.retry ∧ (t.port p).cmds = x.cmds
        ∧ (t.page page).evtRaw.getLsbD 1 = true)
    ∧ ∀ r : RejectReason, x.state = .up →
      ∃ t, exec (.tsdPacketReject p r) s = .next t ∧ t = { s with ports := t.ports } ∧ (∀ q, q ≠ p.val → t.port q = s.port q)
        ∧ t.port p = match r with
          | .crc => { x with crcErr := sat32 x.crcErr 1, nak := true }
          | .sequence => { x with nak := true }
          | .unknownType => { x with rxNext := x.rxNext + 1, rxAny := true, nak := false, badPkt := sat32 x.badPkt 1 }

/-- A COMMAND packet (R396, R397, R399, R403): in sequence, whole, with a good header and not a FOLIO_LOAD, it does on the
port that has taken it what the row of its code does; a header with a fault is answered with its status; out of sequence
it only sets NAK. A command whose time is up ends with TIMEOUT (R19); an EVENT packet takes up to 64 records (R421). Where
the model chooses: assumption log 94 and 96. -/
def Obligations.CommandsAreTakenAndEnd : Prop :=
  (∀ (p : TPort) (h : TsdHeader) (b : Bytes) (s : State) (i : Instr), commandRow p h b = some i → Accepts s p h.tag →
      h.lseq = (s.port p).rxNext → h.typ = 1 → isFirst h = true → isLast h = true → headerRefusal h = none →
    ∃ t, exec (.command p h b) s = .next t
      ∧ exec i (s.modPort p fun x => x.accept (classOf h.code) (packetUnits b)) = .next t)
  ∧ (∀ (p : TPort) (h : TsdHeader) (b : Bytes) (s : State) (st : Nat), Accepts s p h.tag → h.lseq = (s.port p).rxNext →
      h.typ = 1 → isFirst h = true → headerRefusal h = some st →
    ∃ t, exec (.command p h b) s = .next t ∧ t = { s with ports := t.ports } ∧ (t.port p).rxNext = (s.port p).rxNext + 1
      ∧ (t.port p).cmds = (s.port p).cmds
      ∧ Queued t p (completionPacket h.tag h.code (h.cls.toNat % 4) false (Reply.err st)))
  ∧ (∀ (p : TPort) (h : TsdHeader) (b : Bytes) (s : State), (s.port p).state = .up → h.lseq ≠ (s.port p).rxNext →
    ∃ t, exec (.command p h b) s = .next t ∧ t = { s with ports := t.ports } ∧ t.port p = { s.port p with nak := true })
  ∧ (∀ (p : TPort) (tag : BitVec 32) (s : State) (c : Cmd), (s.port p).cmds.find? (fun c => decide (c.tag = tag)) = some c →
      c.cls = classOf c.code → (∀ d, c.wait ≠ .activate d) → (∀ i, c.wait ≠ .commit i) → NoLoads s →
    ∃ t, exec (.cmdTimeout p tag) s = .next t ∧ Completed t p tag c.code (Reply.err stTimeout) ∧ t.mem = s.mem
      ∧ t.cores = s.cores ∧ (t.page (tsdPage p)).tmoCount = sat32 (s.page (tsdPage p)).tmoCount 1)
  ∧ ∀ (p : TPort) (s : State), (s.port p).state = .up → (s.port p).events = true → (s.port p).evtQueue ≠ [] →
      (s.port p).headOf 3 = none →
    ∃ t, exec (.eventPacketClose p) s = .next t ∧ t = { s with ports := t.ports }
      ∧ (t.port p).evtQueue = (s.port p).evtQueue.drop 64
      ∧ Queued t p ⟨4, 3, 3, 0, 0, 0, 0, (((s.port p).evtQueue.take 64).map EvRec.bytes).flatten⟩

/-- The commands that read, write and echo (R410, R411, R432): ECHO returns its payload; a REG_READ or a reading
REG_BLOCK reads its registers in order and returns their values, 4 bytes each; a REG_WRITE or a writing REG_BLOCK
writes its entries in order; the first register or entry that does not pass its checks keeps all of them from being
read or written. A register reads its value, and its high half after a read of its low half the value latched then. A
write of the event mask of a core's page sets it and nothing else. Where the model chooses: assumption log 102 and
108. -/
def Obligations.RegisterCommandsAnswer : Prop :=
  ∀ (p : TPort) (tag : BitVec 32) (b : Bytes) (s : State), Accepts s p tag →
    (b.length ≤ 65536 → ∃ t, exec (.echo p tag b) s = .next t ∧ t = { s with ports := t.ports }
      ∧ (∀ q, q ≠ p.val → t.port q = s.port q) ∧ Completed t p tag 0x01 (Reply.ok b))
    ∧ (let n := fldAt b 0 4
      0 < n → n ≤ 256 → b.length = 4 + 4 * n →
        ReadsRegisters (.regRead p tag b) p tag 0x02 ((List.range n).map fun i => fldAt b (4 + 4 * i) 4) s
        ∧ ((∀ i, i < n → s.readFault p (fldAt b (4 + 4 * i) 4) = none) →
          ∃ t r, exec (.regRead p tag b) s = .next t ∧ r.status = stOk ∧ r.result.length = 4 * n
            ∧ Completed t p tag 0x02 r ∧ t.mem = s.mem
            ∧ (n = 1 → Page.ofNumber (fldAt b 4 4 / 4096) = some .gen → (s.page genPage).latch = [] →
                r.result = leBytes 4 (s.regValue .gen (fldAt b 4 4 % 4096)).toNat)))
    ∧ (let n := fldAt b 0 4
      0 < n → n ≤ 256 → b.length = 4 + 8 * n →
        WritesRegisters (.regWrite p tag b) p tag 0x03
          ((List.range n).map fun i => (fldAt b (4 + 8 * i) 4, fldAt b (8 + 8 * i) 4)) s)
    ∧ (let start := fldAt b 4 4
      let n := fldAt b 8 4
      zeroAt b 1 3 = true → zeroAt b 12 4 = true → 0 < n → n ≤ 1024 → start % 4 = 0 → start % 4096 + 4 * n ≤ 4096 →
        (fldAt b 0 1 = 0 → b.length = 16 →
          ReadsRegisters (.regBlock p tag b) p tag 0x04 ((List.range n).map fun i => start + 4 * i) s
          ∧ ((∀ i, i < n → s.readFault p (start + 4 * i) = none) →
            ∃ t r, exec (.regBlock p tag b) s = .next t ∧ r.status = stOk ∧ r.result.length = 4 * n
              ∧ Completed t p tag 0x04 r ∧ t.mem = s.mem))
        ∧ (fldAt b 0 1 = 1 → b.length = 16 + 4 * n →
          WritesRegisters (.regBlock p tag b) p tag 0x04
            ((List.range n).map fun i => (start + 4 * i, fldAt b (16 + 4 * i) 4)) s))
    ∧ (∀ (g : Page) (off : Nat), off < 4096 → off % 4 = 0 → Page.ofNumber g.number = some g →
        (Tbl.get none (s.page g.number).latch off = none → (s.readAddr (g.number * 4096 + off)).2 = s.regValue g off)
        ∧ (∀ v, g.pairs.contains off = false → Tbl.get none (s.page g.number).latch off = some v →
            (s.readAddr (g.number * 4096 + off)).2 = v)
        ∧ (g.pairs.contains off = true → (s.readAddr (g.number * 4096 + off)).1.page g.number
            = { s.page g.number with
                latch := Tbl.put none (s.page g.number).latch (off + 4) (some (s.regValue g (off + 4))) }))
    ∧ ∀ (c : CoreId) (w : W32), s.fused (clusterOf c) = false → s.regBusy p (.core c) = false → w.toNat < 32 →
      (b = leBytes 4 1 ++ leBytes 4 (corePage c * 4096 + 0x014) ++ leBytes 4 w.toNat →
        ∃ t, exec (.regWrite p tag b) s = .next t ∧ t = { s with pages := t.pages, ports := t.ports }
          ∧ t.page (corePage c) = { s.page (corePage c) with mask := w } ∧ (∀ n, n ≠ corePage c → t.page n = s.page n)
          ∧ Completed t p tag 0x03 (Reply.ok []))
      ∧ (b = [1, 0, 0, 0] ++ leBytes 4 (corePage c * 4096 + 0x014) ++ leBytes 4 1 ++ leBytes 4 0 ++ leBytes 4 w.toNat →
        ∃ t, exec (.regBlock p tag b) s = .next t ∧ t = { s with pages := t.pages, ports := t.ports }
          ∧ t.page (corePage c) = { s.page (corePage c) with mask := w } ∧ (∀ n, n ≠ corePage c → t.page n = s.page n)
          ∧ Completed t p tag 0x04 (Reply.ok []))

/-- FAB_IDENTITY sets or clears DEVICE, FAB_ROUTES its entries of the route table, PRESENCE_CHALLENGE opens a window of 30
s, ATTEST answers the signed report, FW_STAGE leaves the image in the inactive bank, FW_ACTIVATE makes the banks of the
optical microcode change places and the curator of the other die restart on its new bank (R379, R386, R457, R458, R461,
R465). Where the model chooses: assumption log 13, 63 and 114. -/
def Obligations.ModuleCommandsTakeEffect : Prop :=
  ∀ (p : TPort) (tag : BitVec 32) (b : Bytes) (s : State), Accepts s p tag →
    (b.length = 3 → fldAt b 0 2 ≤ 4095 → fldAt b 2 1 ≤ 1 → s.holds p = true → (∀ e ∈ s.slots, e.2.state = .empty) →
      ∃ t, exec (.fabIdentity p tag b) s = .next t ∧ t = { s with fab := t.fab, ports := t.ports }
        ∧ t.fab.idValid = decide (fldAt b 2 1 = 0) ∧ Completed t p tag 0x38 (Reply.ok [])
        ∧ t.fab.device = if fldAt b 2 1 = 1 then 0 else BitVec.ofNat 12 (fldAt b 0 2))
    ∧ (let n := fldAt b 0 4
      let e := fun i : Nat => (b.drop (4 + 16 * i)).take 16
      0 < n → n ≤ 256 → b.length = 4 + 16 * n → (∀ i, i < n → s.routeRefused p i (e i) = none) →
      ∃ t, exec (.fabRoutes p tag b) s = .next t ∧ t = { s with routes := t.routes, ports := t.ports }
        ∧ (∀ i, i < n → (∀ j, i < j → j < n → fldAt (e j) 0 2 ≠ fldAt (e i) 0 2) →
            t.route (fldAt (e i) 0 2) = if fldAt (e i) 2 1 = 1 then RouteEntry.reset
              else ⟨BitVec.ofNat 32 (fldAt (e i) 4 4), BitVec.ofNat 32 (fldAt (e i) 8 4), BitVec.ofNat 32 (fldAt (e i) 12 4)⟩)
        ∧ (∀ r, (∀ i, i < n → fldAt (e i) 0 2 ≠ r) → t.route r = s.route r) ∧ Completed t p tag 0x39 (Reply.ok []))
    ∧ (b.length = 1 → fldAt b 0 1 ≠ 0 → fldAt b 0 1 ≤ 3 → s.holds p = true → s.sec.presence = .none →
      (fldAt b 0 1 = 3 → s.fuses.sealBroken = true) →
      ∃ t, exec (.presenceChallenge p tag b) s = .next t ∧ t = { s with sec := t.sec, ports := t.ports }
        ∧ t.sec = { s.sec with presence := .opened, operation := BitVec.ofNat 3 (fldAt b 0 1)
                               windowEnd := (s.dieLedger p).now + 480000000000 }
        ∧ Completed t p tag 0x43 (Reply.ok (leBytes 8 ((s.dieLedger p).now + 480000000000#64).toNat)))
    ∧ (b.length = 64 → s.sec.identity = true → s.dieBusy p (1 - p.val) = false →
      ∃ t, exec (.attest p tag b) s = .next t ∧ t = { s with ports := t.ports }
        ∧ Completed t p tag 0x40
            (Reply.ok (s.attestBlock p b ++ s.identityColophon (s.attestBlock p b) ++ s.sec.chain)))
    ∧ (let d := fldAt b 0 1
      let h := (b.drop 8).take 128
      let n := fldAt h 24 8
      s.stageRefused p b true = none → b.length = 8 + 128 + n + 160 →
      colophonFault s.sec.fwSlots none h (b.drop (136 + n)) = none → (s.banks d (fldAt b 1 1)).floor ≤ (fwImage h).svn →
      sha512 ((b.drop 136).take n) = (h.drop 32).take 64 →
      ∃ t, exec (.fwStage p tag b) s = .next t
        ∧ t = { s with fwCur := t.fwCur, fwOpt := t.fwOpt, pages := t.pages, logs := t.logs, ports := t.ports }
        ∧ t.banks d (fldAt b 1 1) = { s.banks d (fldAt b 1 1) with other := some (fwImage h) }
        ∧ Completed t p tag 0x41 (Reply.ok []))
    ∧ ∀ image : FwImage,
      let d := fldAt b 0 1
      let old := s.banks d (fldAt b 1 1)
      b.length = 2 → d ≤ 1 → s.holds p = true → old.other = some image → NoLoads s → Quiet s →
      (fldAt b 1 1 = 1 → ∃ t, exec (.fwActivate p tag b) s = .next t
        ∧ OnlyReports { s with fwCur := t.fwCur, fwOpt := t.fwOpt } t
        ∧ t.banks d 1 = { activeBank := !old.activeBank, active := image, other := some old.active
                          floor := max old.floor image.svn, bootFails := 0 }
        ∧ (∀ q, q < 2 → t.banks q 0 = s.banks q 0) ∧ t.banks (1 - d) 1 = s.banks (1 - d) 1
        ∧ Completed t p tag 0x42 (Reply.ok []))
      ∧ (fldAt b 1 1 = 0 → s.holds d = false → s.dieBusy p d = false →
          image.peerMin ≤ (s.banks (1 - d) 0).active.svn → (s.banks (1 - d) 0).active.svn ≤ image.peerMax →
          ∃ t, exec (.fwActivate p tag b) s = .next t
            ∧ t.banks d 0 = { activeBank := !old.activeBank, active := image, other := some old.active
                              floor := old.floor, bootFails := 0 }
            ∧ (t.curator d).run = .starting ∧ (t.curator d).activation = some (p.val, tag) ∧ (t.port d).cmds = []
            ∧ t.mem = s.mem ∧ t.cores = s.cores ∧ t.slots = s.slots ∧ t.sessions = s.sessions
            ∧ ∃ c ∈ (t.port p).cmds, c.tag = tag ∧ c.wait = .activate d)

-- registers with behaviour of their own

/-- The keys (R454, R465, R466): ROTATE_FWKEYS of a well-formed set with the next version and ENROLL_CHAIN of a
well-formed chain, with presence SHOWN for the operation and a colophon that a firmware-signing key made, replace the
set or the chain, close the window and raise their event; INSTALL_KEY of a point on the curve whose KEY_ID no other
slot of the volatile sets has puts it in the selected slot; REMOVE_KEY empties the selected slot. Nothing else
changes. Where the model chooses: assumption log 115. -/
def Obligations.KeyOperationsChangeTheStore : Prop :=
  ∀ (p : TPort) (tag : BitVec 32) (s : State), Accepts s p tag → s.holds p = true →
    let x := s.sec
    let held := fun (y : SecPage) (set : Bool) (i : Nat) => Tbl.get none (if set then y.pubKeys else y.folioKeys) i
    (let n := leAt (x.staged 8 1) 0 1
      let keys := (List.range n).map fun i => x.keyAt (16 + 136 * i)
      x.staged 0 4 = [0x4B#8, 0x53#8, 0x45#8, 0x54#8] → leAt (x.staged 4 4) 0 4 = x.fwVersion + 1 → 1 ≤ n → n ≤ 4 →
      zeroAt (x.staged 9 7) 0 7 = true → (∀ k ∈ keys, onCurve k.x k.y = true) →
      (∀ i, i < n → zeroAt (x.staged (148 + 136 * i) 4) 0 4 = true) → x.presence = .shown → x.operation = 1 →
      colophonFault x.fwSlots none (x.staged 0 (16 + 136 * n)) (x.staged (16 + 136 * n) 160) = none → x.fwVersion < 32 →
      ∃ t, exec (.rotateFwkeys p tag) s = .next t ∧ OnlyReports { s with sec := t.sec } t
        ∧ t.sec = { x with fwKeys := keys.map some ++ List.replicate (4 - n) none, fwVersion := x.fwVersion + 1
                           presence := .none, operation := 0 }
        ∧ (t.page secPage).evtRaw.getLsbD 4 = true ∧ Completed t p tag 0x03 (Reply.ok []))
    ∧ (let n := leAt (x.staged 4 4) 0 4
      x.staged 0 4 = [0x41#8, 0x43#8, 0x48#8, 0x4E#8] → 1 ≤ n → n ≤ 16384 → zeroAt (x.staged 8 8) 0 8 = true →
      x.presence = .shown → x.operation = 2 →
      colophonFault x.fwSlots none (x.staged 0 (16 + n)) (x.staged (16 + n) 160) = none →
      ∃ t, exec (.enrollChain p tag) s = .next t ∧ OnlyReports { s with sec := t.sec } t
        ∧ t.sec = { x with chain := x.staged 16 n, presence := .none, operation := 0 }
        ∧ (t.page secPage).evtRaw.getLsbD 5 = true ∧ Completed t p tag 0x03 (Reply.ok []))
    ∧ (let k := x.keyAt 0
      onCurve k.x k.y = true →
      (∀ e ∈ (x.setKey none).folioKeys ++ (x.setKey none).pubKeys, ∀ o, e.2 = some o → keyId o.x o.y ≠ keyId k.x k.y) →
      ∃ t, exec (.installKey p tag) s = .next t ∧ t = { s with sec := t.sec, ports := t.ports }
        ∧ t.sec = { x with folioKeys := t.sec.folioKeys, pubKeys := t.sec.pubKeys }
        ∧ held t.sec x.kset x.kindex.toNat = some k
        ∧ (∀ set i, (set = x.kset → i ≠ x.kindex.toNat) → held t.sec set i = held x set i)
        ∧ (∀ q, q ≠ p.val → t.port q = s.port q) ∧ Completed t p tag 0x03 (Reply.ok []))
    ∧ ∃ t, exec (.removeKey p tag) s = .next t ∧ t = { s with sec := t.sec, ports := t.ports }
        ∧ t.sec = { x with folioKeys := t.sec.folioKeys, pubKeys := t.sec.pubKeys }
        ∧ held t.sec x.kset x.kindex.toNat = none
        ∧ (∀ set i, (set = x.kset → i ≠ x.kindex.toNat) → held t.sec set i = held x set i)
        ∧ (∀ q, q ≠ p.val → t.port q = s.port q) ∧ Completed t p tag 0x03 (Reply.ok [])

/-- Service registers of the shelves, carrels and cores (R160, R188 to R190, R489): ISOLATE, and MAPOUT set, move the
cores of a cluster that no loaded folio claims to ISOLATED, at once where none of them runs or is in RESET, else the
command waits; on an isolated cluster nothing changes; ISOLATE with FORCE on a RUNNING program's cluster faults that
program and waits; MAPOUT otherwise only is stored; an injection is armed in memory without an owner; CORE_QSEL
selects an endpoint and restarts its high-water mark. Where the model chooses: assumption log 102 and 106. -/
def Obligations.ServiceRegistersTakeEffect : Prop :=
  ∀ (p : TPort) (tag : BitVec 32) (s : State), Accepts s p tag →
    (∀ (k : ClusterId), s.regBusy p (.shf k) = false →
      (s.holds p = true → s.fused k = false →
        let free := ∀ e ∈ s.slots, e.2.state = .loading ∨ e.2.state = .loaded ∨ e.2.state = .running → e.2.claims k = false
        let isolates := fun (i : Instr) (mapout : Bool) =>
          (s.isolated k = true → ∃ t, exec i s = .next t ∧ t = { s with clusters := t.clusters, ports := t.ports }
            ∧ t.cluster k = { s.cluster k with mapout := mapout } ∧ (∀ j, j ≠ k.val → t.cluster j = s.cluster j)
            ∧ Completed t p tag 0x03 (Reply.ok []))
          ∧ (free → s.isolated k = false → s.canIsolate k = true →
            ∃ t, exec i s = .next t ∧ OnlyReports { s with cores := t.cores, clusters := t.clusters, gen := t.gen } t
              ∧ t.cluster k = { s.cluster k with mapout := mapout, isolating := false, recovering := false }
              ∧ (∀ j, j ≠ k.val → t.cluster j = s.cluster j)
              ∧ (∀ c ∈ clusterCores k, t.core c = { s.core c with sq := { (s.core c).sq with mode := .isolated } })
              ∧ (∀ c, c ∉ clusterCores k → t.core c = s.core c) ∧ t.gen = { s.gen with colmap := t.columnDigest }
              ∧ Completed t p tag 0x03 (Reply.ok []))
          ∧ (free → s.isolated k = false → s.canIsolate k = false →
            ∃ t, exec i s = .next t ∧ t = { s with clusters := t.clusters, ports := t.ports }
              ∧ t.cluster k = { s.cluster k with mapout := mapout, isolating := true }
              ∧ (∀ j, j ≠ k.val → t.cluster j = s.cluster j) ∧ ∃ c ∈ (t.port p).cmds, c.tag = tag ∧ c.wait = .isolate [k.val])
        (∀ force : Bool, isolates (.isolate p tag k force) (s.cluster k).mapout)
        ∧ ((s.cluster k).mapout = false → isolates (.mapout p tag k true) true)
        ∧ ∀ i, (∀ e ∈ s.slots, e.2.state = .loading ∨ e.2.state = .loaded → e.2.claims k = false) → s.isolated k = false →
            s.firstSlot (fun x => decide (x.state = .running) && x.claims k) = some i → (s.slot i).state = .running →
            (s.slot i).claims k = true → s.editions = [] → Quiet s →
            ∃ t, exec (.isolate p tag k true) s = .next t ∧ (t.slot i).state = .faulted ∧ (t.cluster k).isolating = true
              ∧ (∀ c ∈ (s.slot i).cores, s.runs c = true → (t.core c).sq.mode = .faulted ∧ (t.core c).xf.out = [])
              ∧ (∀ c, c ∉ (s.slot i).cores → OnlyMarked (s.core c) (t.core c))
              ∧ (∀ j, j ≠ i → (t.slot j).state = (s.slot j).state) ∧ t.mem = s.mem
              ∧ ∃ c ∈ (t.port p).cmds, c.tag = tag ∧ c.wait = .isolate [k.val])
      ∧ (∀ on : Bool, on = false ∨ (s.cluster k).mapout = true →
        ∃ t, exec (.mapout p tag k on) s = .next t ∧ t = { s with clusters := t.clusters, ports := t.ports }
          ∧ t.cluster k = { s.cluster k with mapout := on } ∧ (∀ j, j ≠ k.val → t.cluster j = s.cluster j)
          ∧ Completed t p tag 0x03 (Reply.ok []))
      ∧ ∀ (part : BitVec 3) (a b : BitVec 8), injectBit a.toNat 136 = true → injectBit b.toNat 136 = true →
        (s.part k part.toNat).kind = .free →
        ∃ t, exec (.shfEccInject p tag k part a b) s = .next t ∧ t = { s with clusters := t.clusters, ports := t.ports }
          ∧ t.cluster k = { s.cluster k with inject := ⟨true, part, a, b⟩ } ∧ (∀ j, j ≠ k.val → t.cluster j = s.cluster j)
          ∧ Completed t p tag 0x03 (Reply.ok []))
    ∧ ∀ c : CoreId, s.fused (clusterOf c) = false →
      (∀ a b : BitVec 8, s.regBusy p (.car c) = false → injectBit a.toNat 71 = true → injectBit b.toNat 71 = true →
        (s.core c).sq.tenant = none →
        ∃ t, exec (.carEccInject p tag c a b) s = .next t ∧ t = { s with cores := t.cores, ports := t.ports }
          ∧ t.core c = { s.core c with car := { (s.core c).car with
              inject := ⟨true, (s.core c).car.inject.part, a, b⟩ } }
          ∧ (∀ d, d ≠ c.val → t.core d = s.core d) ∧ Completed t p tag 0x03 (Reply.ok []))
      ∧ ∀ q : BitVec 5, s.regBusy p (.core c) = false →
        ∃ t, exec (.coreQsel p tag c q) s = .next t ∧ t = { s with cores := t.cores, ports := t.ports }
          ∧ t.core c = (s.core c).selectQueue q.toNat ∧ (t.core c).sq.qsel = q
          ∧ ((qepClass q.toNat).isSome = true → (t.queue c q.toNat).hwm = (s.queue c q.toNat).occ q.toNat)
          ∧ (∀ d, d ≠ c.val → t.core d = s.core d) ∧ Completed t p tag 0x03 (Reply.ok [])

/-- Port control and calibration (R366, R368, R389, R395): ENABLE = 0 takes a port to DISABLED, ENABLE = 1 a DISABLED
one to DOWN; RETRAIN takes an enabled port to DOWN; CALIBRATE takes the selected engine to CALIBRATING with its die's
active microcode, and its enabled ports to DOWN. A Tsudan port keeps its sequences, its retry buffer and its commands;
a fabric port loses what it held. Nothing else changes where no program and no request uses the fabric ports. Where
the model chooses: assumption log 90 and 109. -/
def Obligations.PortControlsTakeEffect : Prop :=
  ∀ (p : TPort) (tag : BitVec 32) (s : State), Accepts s p tag → Quiet s →
    let ends := fun (i : Instr) (post : State → Prop) =>
      ∃ t, exec i s = .next t ∧ post t ∧ t.mem = s.mem ∧ Completed t p tag 0x03 (Reply.ok [])
    let active := fun (x : LinkState) => x = .up ∨ x = .training
    (∀ n : FPort, s.regBusy p (.fport n) = false →
      let x := s.fport n
      (∀ on : Bool, ends (.fabPortEnable p tag n on) fun t => (t.fport n).enable = on
        ∧ (t.fport n).state = (if on = false then .disabled else if x.state = .disabled then .down else x.state))
      ∧ ends (.fabPortEnable p tag n true) (fun t => t = { s with fports := t.fports, ports := t.ports }
        ∧ t.fport n = { x with enable := true, state := if x.state = .disabled then .down else x.state }
        ∧ ∀ m, m ≠ n.val → t.fport m = s.fport m)
      ∧ (NoProgramUses s → ends (.fabPortEnable p tag n false) fun t => OnlyLinks s t
        ∧ (active x.state → Fallen t n .disabled 1))
      ∧ (x.enable = true →
        ends (.fabPortRetrain p tag n) (fun t => (t.fport n).enable = true ∧ (t.fport n).retrain = true
          ∧ (t.fport n).state = .down)
        ∧ (NoProgramUses s → ends (.fabPortRetrain p tag n) fun t => OnlyLinks s t ∧ (active x.state → Fallen t n .down 0xA))))
    ∧ (∀ n : TPort, s.regBusy p (.tsd n) = false →
      let x := s.port n
      let kept := fun (t : State) => OnlyReports s t ∧ (t.port n).events = x.events ∧ (t.port n).rxNext = x.rxNext
        ∧ ∀ q, (t.port q).cmds = (s.port q).cmds
      (∀ on : Bool, ends (.tsdPortEnable p tag n on) fun t => kept t ∧ (t.port n).enable = on
        ∧ (t.port n).state = (if on = false then .disabled else if x.state = .disabled then .down else x.state)
        ∧ (on = false → (t.port n).retry = x.retry ∧ (t.port n).txNext = x.txNext
            ∧ (active x.state → (t.port n).cause = 1 ∧ (t.page (tsdPage n)).evtRaw.getLsbD 1 = true)))
      ∧ (x.enable = true → ends (.tsdPortRetrain p tag n) fun t => kept t ∧ (t.port n).enable = true
        ∧ (t.port n).retrain = true ∧ (t.port n).state = .down ∧ (t.port n).retry = x.retry ∧ (t.port n).txNext = x.txNext
        ∧ (active x.state → (t.port n).cause = 5 ∧ (t.page (tsdPage n)).evtRaw.getLsbD 1 = true)))
    ∧ (let e := s.oeSel.toNat
      let image := (s.banks (e / 8) 1).active
      s.holds p = true → s.engineUser e = none → (s.engine e).state ≠ .shed → (s.engine e).state ≠ .calibrating →
      let post := fun (t : State) =>
        t.engine e = { s.engine e with state := .calibrating, calibrate := true, ucode := some (image.svn, image.meas) }
          ∧ (∀ k, k ≠ e → t.engine k = s.engine k)
          ∧ ∀ n ∈ enginePorts e, (s.fport n).state ≠ .disabled → (t.fport n).state = .down
      ends (.calibrate p tag) post
      ∧ (NoProgramUses s → ends (.calibrate p tag) fun t => post t ∧ OnlyLinks { s with engines := t.engines } t
        ∧ ∀ n ∈ enginePorts e, active (s.fport n).state → Fallen t n .down 8))

/-- Module registers (R30, R221, R235, R236, R239, R305, R306, R427, R449): EVT_CLEAR clears the named bits;
ARCHIVAL_ONLY, REF_SEL, LDG_CTRL and GOV_CTRL take their values, a new reference starting unlocked unless LOCAL, ROLE
2 making the module ROOT, a ROOT that leaves it HOLDOVER without a slew; AUTO after FIXED starts with both run
counters at 0; a yield stands until it is applied. A module that enters ROOT steps its ledger forward to the greatest
TX of its up neighbours' latest slips plus that port's delay (R239). Where the model chooses: assumption log 54, 55,
57 and 102. -/
def Obligations.ModuleRegistersTakeEffect : Prop :=
  ∀ (p : TPort) (tag : BitVec 32) (s : State), Accepts s p tag →
    (∀ (n : BitVec 20) (bits : BitVec 32) (g : Page), Page.ofNumber n.toNat = some g →
      bits &&& ~~~(BitVec.ofNat 32 g.events) = 0 → (∀ c, g.coreOf = some c → s.fused (clusterOf c) = false) →
      (g.die = none → s.holds p = true) → s.regBusy p g = false →
      ∃ t, exec (.evtClear p tag n bits) s = .next t ∧ t = { s with pages := t.pages, ports := t.ports }
        ∧ t.page n.toNat = { s.page n.toNat with evtRaw := (s.page n.toNat).evtRaw &&& ~~~bits }
        ∧ (∀ m, m ≠ n.toNat → t.page m = s.page m) ∧ Completed t p tag 0x03 (Reply.ok []))
    ∧ (s.holds p = true →
      (∀ on : Bool, (on = true → ∀ e ∈ s.slots, e.2.state = .empty ∨ ∃ f, e.2.folio = some f ∧ f.archival = true) →
        ∃ t, exec (.archivalOnly p tag on) s = .next t ∧ t = { s with gen := t.gen, ports := t.ports }
          ∧ t.gen = { s.gen with archivalOnly := on } ∧ Completed t p tag 0x03 (Reply.ok []))
      ∧ (∀ sel : BitVec 2, sel ≠ 3 → ¬(sel = 2 ∧ s.ledger.role = 2) → (∀ e ∈ s.slots, e.2.state ≠ .running) →
        ∃ t, exec (.refSel p tag sel) s = .next t ∧ t = { s with clock := t.clock, ports := t.ports }
          ∧ t.clock.refSel = sel ∧ (sel = s.clock.refSel → t.clock = s.clock)
          ∧ (sel ≠ s.clock.refSel → t.clock = { s.clock with
              refSel := sel, refLock := decide (sel = 0), refOffset := 0, holdover := false })
          ∧ Completed t p tag 0x03 (Reply.ok []))
      ∧ (∀ (role : BitVec 2) (parent : BitVec 6), role ≠ 3 → ¬(role = 2 ∧ s.clock.refSel = 2) →
        ∃ t, exec (.ldgRole p tag role parent) s = .next t ∧ OnlyReports { s with ledger := t.ledger, ledgers := t.ledgers } t
          ∧ (role ≠ 2 ∨ s.ledger.state = .root ∨ (∀ n, n < 64 → (s.fport n).state ≠ .up) →
              (∀ d, (t.dieLedger d).now = (s.dieLedger d).now)
              ∧ (role = 2 ∨ ¬(s.ledger.role = 2 ∧ s.ledger.state = .root) → t.ledgers = s.ledgers))
          ∧ (role ≠ 2 → s.ledger.role = 2 → s.ledger.state = .root → t.ledger.dist = 15 ∧ ∀ d, d < 2 → (t.dieLedger d).slew = 0)
          ∧ (role = 2 → s.ledger.state ≠ .root →
              t.ledger.dist = 0 ∧ t.ledger.parent = none ∧ t.ledger.rootId = s.srcId)
          ∧ (role = 2 → s.ledger.state ≠ .root → ∀ n x, n < 64 → (s.fport n).state = .up → (s.fport n).slip = some x →
            (∀ m y, m < 64 → m ≠ n → (s.fport m).state = .up → (s.fport m).slip = some y → y.tx.toNat < x.tx.toNat) →
            x.tx.toNat + (s.fport n).delay.toNat < 2 ^ 64 →
            (t.dieLedger s.leadDie).now.toNat =
              max (s.dieLedger s.leadDie).now.toNat (x.tx.toNat + (s.fport n).delay.toNat))
          ∧ t.ledger.role = role ∧ t.ledger.parentPort = parent
          ∧ t.ledger.state = (if role = 2 then .root else if s.ledger.role = 2 ∧ s.ledger.state = .root then .holdover
              else s.ledger.state)
          ∧ Completed t p tag 0x03 (Reply.ok []))
      ∧ (∀ (fixed : Bool) (v : BitVec 4),
        let x := s.slot s.adm.gsel.toNat
        (x.isDeployment = true → x.isHead = true ∧ v.toNat < x.variants
          ∧ (fixed = true → s.eligible s.adm.gsel.toNat v.toNat = true)) →
        ∃ t, exec (.govCtrl p tag fixed v) s = .next t ∧ t = { s with slots := t.slots, ports := t.ports }
          ∧ t.slot s.adm.gsel.toNat = { x with gov := { x.gov with
              fixed := fixed, variant := v
              upRun := if x.gov.fixed = true ∧ fixed = false then 0 else x.gov.upRun
              downRun := if x.gov.fixed = true ∧ fixed = false then 0 else x.gov.downRun } }
          ∧ (∀ j, j ≠ s.adm.gsel.toNat → t.slot j = s.slot j)
          ∧ Completed t p tag 0x03 (Reply.ok []))
      ∧ (s.live (1 - p.val) = true → (∀ c ∈ (s.port p).cmds, needsCharter c.code = false ∧ c.wait ≠ .yield
          ∧ ∀ l, c.wait ≠ .isolate l) →
        ∃ t, exec (.yield p tag) s = .next t ∧ t = { s with charter := t.charter, ports := t.ports }
          ∧ t.charter = { s.charter with yieldPending := some (p.val, tag) }
          ∧ ∃ c ∈ (t.port p).cmds, c.tag = tag ∧ c.wait = .yield))

-- the charter, the clocks, the supply, security

/-- The lease (R446, R447): a lapse passes it to a live other curator with cause 3, else leaves it VACANT; power-on
arbitration grants it to the preferred die that has sent a heartbeat, after 100 ticks to the first that did; each grant
takes the next epoch. Where the model chooses: assumption log 60 and 113. -/
def Obligations.LeaseLapsesAndIsGranted : Prop :=
  (∀ (other : Bool) (s : State) (d : Nat), s.charter.lease.die = some d → s.charter.arbitrating = false → s.live d = false →
      s.live (1 - d) = other →
    ∃ t, exec (.leaseLapse other) s = .next t ∧ t.mem = s.mem
      ∧ t.charter.lease = (if other then leaseOf (1 - d) else .vacant) ∧ t.charter.lastCause = 3
      ∧ t.charter.epoch = (if other then (if s.charter.epoch = 0xFFFFFFFF then 1 else s.charter.epoch + 1) else s.charter.epoch)
      ∧ t.charter.changes = sat32 s.charter.changes 1
      ∧ (t.page chtPage).tmoCount = sat32 (s.page chtPage).tmoCount 1
      ∧ (other = false → ∀ e, e < 2 → (t.dieLedger e).slew = 0)
      ∧ (other = true → (t.curator (1 - d)).believes = some t.charter.epoch))
  ∧ ∀ (first : Die) (s : State),
    let pref := if s.charter.prefB then 1 else 0
    s.charter.arbitrating = true →
      ((s.since pref).isSome = true → ∃ t, exec (.powerOnArbitration first) s = .next t ∧ t.charter.lease = leaseOf pref
        ∧ t.charter.lastCause = 1 ∧ t.charter.arbitrating = false ∧ t.charter.granted = true ∧ t.mem = s.mem)
      ∧ ((s.since pref).isSome = false → 100 ≤ s.charter.sinceGood → (s.since first).isSome = true →
        ∃ t, exec (.powerOnArbitration first) s = .next t ∧ t.charter.lease = leaseOf first ∧ t.charter.lastCause = 1
          ∧ t.charter.arbitrating = false ∧ t.charter.granted = true ∧ t.mem = s.mem)

/-- The curators (R444, R445, R446, R458, R459, R511): a watchdog restarts a running curator, ends every command of its
port and takes the charter from it; a boot makes it run, proves a newly activated bank and ends the activation; the second
failure in a row of a bank switches banks, or leaves the curator down. Where the model chooses: assumption log 6, 111 and
112. -/
def Obligations.CuratorsRestartAndBoot : Prop :=
  ∀ (die : Die) (s : State),
    let x := s.curator die
    (s.curatorUp die = true → NoLoads s → Quiet s →
      ∃ t, exec (.curatorWatchdog die) s = .next t ∧ (t.curator die).run = .starting ∧ (t.curator die).believes = none
        ∧ (t.curator die).restarts = sat32 x.restarts 1 ∧ (t.port die).cmds = [] ∧ t.mem = s.mem
        ∧ (s.holds die = true → t.charter.lastCause = 4
            ∧ t.charter.lease = if s.live (1 - die.val) then leaseOf (1 - die.val) else .vacant)
        ∧ (t.page (dieChtPage die)).tmoCount = sat32 (s.page (dieChtPage die)).tmoCount 1
        ∧ (s.holds die = false → t.charter = { s.charter with yieldPending := t.charter.yieldPending }))
    ∧ (x.run = .starting → s.aligned = true →
      ∃ t, exec (.curatorBoot die) s = .next t ∧ (t.curator die).run = .running ∧ (t.curator die).bootedOnce = true
        ∧ (t.curator die).fresh = false ∧ t.booted die.val = true ∧ t.since die.val = some 0 ∧ t.mem = s.mem
        ∧ (t.banks die 0).bootFails = 0
        ∧ (t.banks die 0).floor = (if x.fresh then max (s.banks die 0).floor (s.banks die 0).active.svn else (s.banks die 0).floor)
        ∧ ∀ p tag, x.activation = some (p, tag) → t.inProgress p tag = false)
    ∧ (x.run = .starting → s.aligned = true →
      let b := s.banks die 0
      let n := min 7 (b.bootFails + 1)
      (n % 2 = 1 → ∃ t, exec (.bootFail die) s = .next t ∧ t = { s with fwCur := t.fwCur }
        ∧ t.banks die 0 = { b with bootFails := n })
      ∧ (n % 2 = 0 →
        (∀ image, x.fellBack = false → b.other = some image →
          ∃ t, exec (.bootFail die) s = .next t
            ∧ t.banks die 0 = { b with activeBank := !b.activeBank, active := image, other := some b.active, bootFails := n }
            ∧ (t.curator die).run = .starting ∧ (t.curator die).fellBack = true ∧ t.mem = s.mem
            ∧ ∀ p tag, x.activation = some (p, tag) → t.inProgress p tag = false)
        ∧ (x.fellBack = true ∨ b.other = none →
          ∃ t, exec (.bootFail die) s = .next t ∧ (t.curator die).run = .down ∧ t.mem = s.mem
            ∧ (t.banks die 0).active = b.active
            ∧ ∀ p tag, x.activation = some (p, tag) → t.inProgress p tag = false)))

/-- A tick (R29, R31, R230, R233, R446, R467, R522) once the ledgers run: telemetry, each region's temperature and
thermal level and the SEAL loop are taken, THROTTLE_POLICY as written comes into force, heartbeats restart or advance
the lease's counts, the tick's number advances. Before that a tick does nothing. Where the model chooses: assumption
log 4 and 59. -/
def Obligations.TicksTakeTheirInputs : Prop :=
  ∀ (i : TickInputs) (s : State),
    (s.ledgersRun = false → exec (.tick i) s = .next s)
    ∧ (s.ledgersRun = true → ∃ t, exec (.tick i) s = .next t ∧ t.mem = s.mem
      ∧ (t.power.vin = BitVec.ofNat 16 i.vinMv ∧ t.power.iin = BitVec.ofNat 16 i.iinMa ∧ t.power.pin = BitVec.ofNat 16 i.pinW
          ∧ t.power.energy = s.power.energy + BitVec.ofNat 64 i.energyMj ∧ t.power.sinceGood = s.power.sinceGood + 1)
      ∧ (∀ r, r < 32 → s.fused r = false → (t.region r).temp = (i.temps[r]?).getD 0
          ∧ (t.region r).kThermal = levelStep (s.region r).kThermal
              (decide ((s.dieClock (r / 16)).tThr.toNat < (i.temps[r]?).getD 0))
              (decide ((i.temps[r]?).getD 0 + 3 < (s.dieClock (r / 16)).tThr.toNat)))
      ∧ t.since 0 = (if i.heartbeatA && s.curatorUp 0 then some 0 else (s.since 0).map (· + 1))
      ∧ t.since 1 = (if i.heartbeatB && s.curatorUp 1 then some 0 else (s.since 1).map (· + 1))
      ∧ t.power.shedNow = s.power.shed ∧ t.power.sealOpen = i.sealOpen ∧ (i.sealOpen = true → t.fuses.sealBroken = true)
      ∧ (s.ledger.lastTick * tickUnits ≤ s.now.toNat → s.now.toNat + 2 * tickUnits < 2 ^ 64 →
          s.ledger.lastTick < t.ledger.lastTick))

/-- References, throttling and the die-to-die interface (R223, R225, R230, R231, R234, R236, R486, R519): each event does
what its rule says and nothing else. Where the model chooses: assumption log 7, 57, 58 and 60. -/
def Obligations.ClockEventsTakeEffect : Prop :=
  ∀ s : State,
    (s.aligned = true → s.clock.holdover = false → ∃ t, exec .refHoldover s = .next t
      ∧ OnlyReports { s with clock := t.clock } t
      ∧ t.clock = { s.clock with refLock := false, holdover := true, holdovers := sat32 s.clock.holdovers 1 })
    ∧ (∀ ppb, s.aligned = true → s.clock.refLock = false → ∃ t, exec (.refLocked ppb) s = .next t
      ∧ OnlyReports { s with clock := t.clock } t
      ∧ t.clock = { s.clock with refLock := true, holdover := false, refOffset := if s.clock.refSel = 0 then 0 else ppb })
    ∧ (s.ledger.state = .acquire ∨ s.ledger.state = .locked → 3 ≤ s.ledger.missed → ∃ t, exec .ldgHoldover s = .next t
      ∧ OnlyReports { s with ledger := t.ledger, ledgers := t.ledgers } t
      ∧ t.ledger = { s.ledger with state := .holdover, goodRun := 0, missed := 0 }
      ∧ ∀ d, d < 2 → t.dieLedger d = { s.dieLedger d with slew := 0, cyc := 0 })
    ∧ (∀ k : ClusterId, s.power.railsOn = true → s.fused k = false → ∃ t, exec (.droop k) s = .next t
      ∧ OnlyReports { s with regions := t.regions } t
      ∧ t.region k = { s.region k with kDroop := 8, drooped := true, droops := sat32 (s.region k).droops 1 }
      ∧ (t.page (dieClkPage (k / 16))).evtRaw.getLsbD 2 = true)
    ∧ (∀ k : ClusterId, ∃ t, exec (.droopHoldEnd k) s = .next t ∧ t = { s with regions := t.regions }
      ∧ t.region k = { s.region k with kDroop := 0 } ∧ ∀ j, j ≠ k.val → t.region j = s.region j)
    ∧ (∀ (k : ClusterId) (temp : Nat), s.power.railsOn = true → s.fused k = false → 110 ≤ temp →
      ∃ t, exec (.junctionNear k temp) s = .next t ∧ OnlyReports { s with regions := t.regions } t
        ∧ t.region k = { s.region k with temp := temp } ∧ (t.page pwrPage).evtRaw.getLsbD 5 = true)
    ∧ (∀ (ok : BitVec 32) (net : BitVec 2) (d2d : Bool), s.power.railsOn = true → s.aligned = false →
      ∃ t, exec (.alignmentDone ok net d2d) s = .next t ∧ t.aligned = true
        ∧ OnlyReports { s with clock := t.clock, dieClocks := t.dieClocks, ledgers := t.ledgers, gen := t.gen, power := t.power } t
        ∧ t.clock = { s.clock with refLock := true } ∧ DiesAligned s t
        ∧ t.power = { s.power with boot := t.power.boot } ∧ t.gen = { s.gen with alignFailed := t.gen.alignFailed }
        ∧ ∀ d : Die, t.dieClock d = { s.dieClock d with
            alignDone := true, d2dOk := d2d, netOk := net.getLsbD d, clusterOk := ok.extractLsb' (16 * d) 16 })
    ∧ (s.power.railsOn = true → ∃ t, exec .d2dRetrain s = .next t ∧ t.gen.d2dDown = true ∧ t.mem = s.mem
      ∧ ∀ i, (s.slot i).state = .running → (s.slot i).spansDies = true → (t.slot i).state = .faulted)
    ∧ (s.gen.d2dDown = true → (∃ t, exec (.d2dRetrainEnd true) s = .next t ∧ t = { s with gen := t.gen, ledgers := t.ledgers }
        ∧ t.gen = { s.gen with d2dDown := false } ∧ DiesAligned s t)
      ∧ ∃ t, exec (.d2dRetrainEnd false) s = .next t ∧ OnlyReports { s with gen := t.gen } t
        ∧ t.gen = { s.gen with service := false } ∧ (t.page (dieClkPage 1)).evtRaw.getLsbD 3 = true)

/-- Power (R426, R497, R500 to R502, R505, R511, R522): input above 35 V starts the supply, power-good after such a
rise senses the jumpers and puts the rails on, a loss of input or a reset of at least 1 ms loses the package's state,
a shorter one from 10 µs either does or does not, a trip also records its cause and latches but for UNDERVOLTAGE,
which needs a new rise of the input; it clears as RESET_N is released after 1 ms, unless the coolant outlet of a
JUNCTION or COOLANT trip reads above 60.0 °C, or as the input falls. Where the model chooses: assumption log 10, 119,
120 and 121. -/
def Obligations.PowerComesAndGoes : Prop :=
  ∀ s : State,
    (∀ mv, 35000 < mv → mv ≤ 48000 → exec (.inputPowerApplied mv) s
        = .next { s with power := { s.power with inputOn := true, risen := true } })
    ∧ (∀ mv, mv ≤ 35000 → exec (.inputPowerApplied mv) s = .next s)
    ∧ (∃ t, exec .inputPowerLoss s = .next t ∧ LostPackage s t
        ∧ t.power = { Power.reset with inputOn := false, risen := false, sealOpen := s.power.sealOpen })
    ∧ (s.power.inputOn = true → s.power.risen = true → s.power.railsOn = false → s.power.tripped = none → ∀ sense : PowerSense,
      ∃ t, exec (.powerGood sense) s = .next t ∧ t.power.railsOn = true ∧ t.power.debugJumper = sense.debug
        ∧ t.power.sealOpen = sense.sealOpen ∧ t.charter = { s.charter with prefB := sense.prefB }
        ∧ t.sec = { s.sec with debugUnlocked := sense.debug, identity := !s.fuses.identityWiped }
        ∧ t.fuses = { s.fuses with sealBroken := s.fuses.sealBroken || sense.sealOpen }
        ∧ t.mem = s.mem ∧ t.cores = s.cores)
    ∧ (∀ us, us < 10 → exec (.resetN us) s = .next s)
    ∧ (s.power.inputOn = true → (∀ us, 1000 ≤ us → ∃ t, exec (.resetN us) s = .next t ∧ LostPackage s t
        ∧ t.power = { Power.reset with
            risen := s.power.risen, tripped := s.power.tripped, released := s.power.tripped.isSome, sealOpen := s.power.sealOpen
            lastTrip := s.power.lastTrip, tripDetail := s.power.tripDetail, trips := s.power.trips }
        ∧ t.freeCtr = s.freeCtr)
      ∧ ∀ us, 10 ≤ us → us < 1000 → ∃ t, exec (.resetN us) s = .next t
        ∧ (t = { s with freeCtr := s.freeCtr + 1 } ∨ LostPackage s t))
    ∧ (∀ cause : TripCause, s.power.inputOn = true → s.power.tripped = none →
      (cause = .overpower → 100 ≤ s.power.kPowerTicks) →
      ∃ t, exec (.trip cause) s = .next t ∧ LostPackage s t ∧ t.power.trips = sat32 s.power.trips 1
        ∧ t.power.lastTrip = BitVec.ofNat 8 (TripCause.code cause)
        ∧ t.power.tripDetail = BitVec.ofNat 8 (TripCause.detail cause)
        ∧ t.power.risen = (s.power.risen && TripCause.latched cause) ∧ t.power.sealOpen = s.power.sealOpen
        ∧ t.power.tripped = if TripCause.latched cause then some cause else none)
    ∧ ∀ (cause : TripCause) (outlet : Nat), s.power.tripped = some cause →
      (s.power.released = true → (TripCause.hot cause = true → outlet ≤ 600) →
        exec (.tripClear (some outlet)) s = .next { s with power := { s.power with tripped := none, released := false } })
      ∧ (s.power.released = true → TripCause.hot cause = true → 600 < outlet →
        exec (.tripClear (some outlet)) s = .next { s with power := { s.power with released := false } })
      ∧ (s.power.released = false → exec (.tripClear (some outlet)) s = .next s)
      ∧ ∃ t, exec (.tripClear none) s = .next t ∧ LostPackage s t
        ∧ t.power = { Power.reset with inputOn := false, risen := false, sealOpen := s.power.sealOpen }

/-- Bring-up (R119, R154, R181, R511 to R513, R515): self-test marks each reduction unit and isolates the clusters that
fail; with both dies done every partition is being cleared; the reading room lights the enabled Tsudan ports; service
begins with every core of DIAG in SERVICE. Where the model chooses: assumption log 47 and 118. -/
def Obligations.BringUpReachesService : Prop :=
  ∀ s : State,
    (∀ (die : Die) (pass : BitVec 16) (rdu : BitVec 128), s.charter.granted = true → s.curatorUp die = true →
      (if die.val = 0 then s.gen.selftestA else s.gen.selftestB) = false →
      ∃ t, exec (.selftestDone die pass rdu) s = .next t ∧ t.mem = s.mem
        ∧ (if die.val = 0 then t.gen.selftestA else t.gen.selftestB) = true
        ∧ (∀ k, k / 16 = die.val → s.clusterIn k .diag = true → ∀ c ∈ clusterCores k,
            (t.core c).rd.tested = true ∧ (t.core c).rd.pass = rdu.getLsbD (c % 128)
            ∧ (t.core c).sq.mode = if pass.getLsbD (k % 16) && !s.gen.alignFailed.getLsbD k
                && (clusterCores k).all (fun d => rdu.getLsbD (d % 128)) then .diag else .isolated)
        ∧ ((if die.val = 0 then s.gen.selftestB else s.gen.selftestA) = true → t.booted bootSelftest = true
            ∧ ∀ k p, k < 32 → p < 8 → (t.part k p).kind = .clearing ∧ (t.part k p).owner = none))
    ∧ (s.booted bootCleared = true → s.booted bootReadingRoom = false →
      ∃ t, exec .readingRoomBegin s = .next t ∧ t.gen.readingRoom = true ∧ t.booted bootReadingRoom = true ∧ t.mem = s.mem
        ∧ t.power.rrMs = BitVec.ofNat 16 (min 65535 s.power.sinceGood)
        ∧ ∀ p : TPort, (s.port p).enable = true → (s.port p).state = .down → (t.port p).state = .training
            ∧ LinkWord (t.port p).word ((s.port p).rxAny.toNat + 2 * (s.port p).nak.toNat + 4) ((s.port p).rxNext - 1).toNat
                (fun c => [2048, 4096, 16384, 0].getD c 0))
    ∧ (s.booted bootReadingRoom = true → s.gen.service = false → s.serviceReady = true →
      ∃ t, exec .serviceBegin s = .next t ∧ t.gen = { s.gen with service := true, readingRoom := false, serviceLedger := s.now }
        ∧ t.booted bootService = true ∧ t.mem = s.mem
        ∧ ∀ c : CoreId, s.fused (clusterOf c) = false →
            (t.core c).sq.mode = if (s.core c).sq.mode = .diag then .service else (s.core c).sq.mode)

/-- Presence, the identity wipe and the management bus (R464, R465, R469, R509, R510): a press shows presence in an open
window; the window ends at its time; the wipe blows its fuse, empties the key set and the chain; a bus read answers its
data bytes and their PEC and clears nothing, or is not answered. Where the model chooses: assumption log 115 and 122. -/
def Obligations.PresenceAndBusEvents : Prop :=
  ∀ s : State,
    (s.power.railsOn = true → ∃ t, exec .presencePress s = .next t ∧ OnlyReports { s with sec := t.sec } t
      ∧ t.sec = (if s.sec.presence = .opened then { s.sec with presence := .shown } else s.sec)
      ∧ (t.page secPage).evtRaw.getLsbD 0 = true)
    ∧ (s.sec.presence ≠ .none → s.sec.windowEnd.toNat ≤ s.now.toNat → ∃ t, exec .presenceExpired s = .next t
      ∧ OnlyReports { s with sec := t.sec } t ∧ t.sec = { s.sec with presence := .none, operation := 0 }
      ∧ (s.sec.presence = .opened → (t.page secPage).evtRaw.getLsbD 2 = true))
    ∧ (s.sec.presence ≠ .none → s.sec.operation = 3 → s.fuses.sealBroken = true → ∃ t, exec .identityWiped s = .next t
      ∧ OnlyReports { s with sec := t.sec, fuses := t.fuses } t ∧ t.fuses = { s.fuses with identityWiped := true }
      ∧ t.sec = { s.sec with fwKeys := List.replicate 4 none, chain := [], identity := false }
      ∧ (t.page secPage).evtRaw.getLsbD 6 = true)
    ∧ ∀ (addr : BitVec 32) (n : BitVec 8) (g : Page), Page.ofNumber (addr.toNat / 4096) = some g →
      (addr.toNat % 4 = 0 → addr.toNat % 4096 + 4 * n.toNat ≤ 4096 → 0 < n.toNat → n.toNat ≤ 16 → s.busPage g = true →
        ∃ t b, exec (.mgmtBusRead addr n) s = .next t ∧ t = { s with busLatch := t.busLatch, busData := t.busData }
          ∧ t.busData = some b ∧ b.length = 4 * n.toNat + 1
          ∧ (s.busLatch = [] → b.take 4 = leBytes 4 (s.regValue g (addr.toNat % 4096)).toNat))
      ∧ (addr.toNat % 4 ≠ 0 ∨ 4096 < addr.toNat % 4096 + 4 * n.toNat ∨ n.toNat = 0 ∨ 16 < n.toNat ∨ s.busPage g = false →
        exec (.mgmtBusRead addr n) s = .next { s with busData := none })

/-- One engine cycle of a running core without descriptors (R127 to R131, R148, R149, R158): at a stamp or after a
halt S alone counts, and the core arrives as S reaches PLAN; a planned delay counts down, a branch's cycle is one
without an issue that the watchdog counts; a bundle without a word moves the pc past itself, through the loop rule; a
bundle of CT.JUMP goes to its target. Where the model chooses: assumption log 16, 31 and 35. -/
def Obligations.BundlesIssueOnePerCycle : Prop :=
  ∀ (c : CoreId) (w : UnitWaits) (s : State),
    let q := (s.core c).sq
    let n := max (max (max w.mx w.vx) (max w.rd w.other)) w.link
    let step := fun (m : Nat) => (q.s + m) % 2 ^ 24
    s.runs c = true → q.run = true → (s.cluster (clusterOf c)).recovering = false → (s.core c).xf.out = [] →
    (∀ k ∈ s.clusters, c.val ∉ k.2.delayed ∧ c.val ∉ k.2.behind) →
      ((q.stamp.isSome || q.halted) = true → (∀ st, q.stamp = some st → st.arrived = true ∨ step 1 < st.plan) →
        ∃ t, exec (.bundleIssue c w) s = .next t ∧ OnlyCore c s t
          ∧ t.core c = { s.core c with sq := { q with s := step 1, cycle := q.cycle + 1 } })
      ∧ (∀ st i, q.stamp = some st → st.arrived = false → st.plan ≤ step 1 → s.slotOf c = some i →
        (Tbl.get GroupRun.reset (s.slot i).prog.groups st.group).remote = [] →
        ∃ t x, exec (.bundleIssue c w) s = .next t ∧ (t.core c).sq.stamp = some x ∧ x.arrived = true
          ∧ x.time = q.cycle + 1 ∧ x.plan = st.plan ∧ (t.core c).sq.s = step 1 ∧ t.mem = s.mem
          ∧ c.val ∈ (Tbl.get GroupRun.reset (t.slot i).prog.groups st.group).arrived)
      ∧ (q.stamp = none → q.halted = false → 0 < q.delay →
        (q.planned = true → ∃ t, exec (.bundleIssue c w) s = .next t ∧ OnlyCore c s t
          ∧ t.core c = { s.core c with sq := { q with delay := q.delay - 1, s := step 1, cycle := q.cycle + 1 } })
        ∧ (q.planned = false → q.idle + 1 < s.watchdogLimit c → ∃ t, exec (.bundleIssue c w) s = .next t ∧ OnlyCore c s t
          ∧ t.core c = { s.core c with sq := { q with
              delay := q.delay - 1, s := step 1, cycle := q.cycle + 1, idle := q.idle + 1 } }))
      ∧ (q.stamp = none → q.halted = false → q.delay = 0 → q.fetchFault q.pc = none →
        (headerSlots (Tbl.get 0 q.istore q.pc) = [] → ∃ t, exec (.bundleIssue c w) s = .next t ∧ OnlyCore c s t
          ∧ (t.core c).sq.pc = (loopRule q.pc q.calls.length (q.pc + 1) q.loops).1
          ∧ (t.core c).sq.loops = (loopRule q.pc q.calls.length (q.pc + 1) q.loops).2
          ∧ (t.core c).sq.calls = q.calls ∧ (t.core c).sq.s = step (n + 1) ∧ (t.core c).sq.cycle = q.cycle + (n + 1)
          ∧ (t.core c).sq.idle = 0 ∧ (t.core c).sq.ringWait = 0)
        ∧ (headerSlots (Tbl.get 0 q.istore q.pc) = [59] → fld (Tbl.get 0 q.istore (q.pc + 1)) 63 58 = 0x04 →
          (Tbl.get 0 q.istore (q.pc + 1)).toNat % 2 ^ 43 = 0 → ∃ t, exec (.bundleIssue c w) s = .next t ∧ OnlyCore c s t
          ∧ (t.core c).sq.pc = fld (Tbl.get 0 q.istore (q.pc + 1)) 57 43 ∧ (t.core c).sq.delay = 1
          ∧ (t.core c).sq.planned = false ∧ (t.core c).sq.calls = q.calls ∧ (t.core c).sq.s = step (n + 1)
          ∧ (t.core c).sq.idle = 0))
end

