-- ==== Sys2Proof/Laws/Tbl.lean ====
section
/-! SUPPORT. The laws of sparse tables: what a key holds after an entry is placed, and that the canonical form is kept. -/

namespace Sys2Proof

theorem Tbl.get_erase {α : Type} (d : α) (t : Tbl α) (k j : Nat) :
    Tbl.get d (Tbl.erase t k) j = if j = k then d else Tbl.get d t j := by
  induction t with
  | nil => simp [Tbl.erase, Tbl.get]
  | cons p r ih =>
    obtain ⟨k', v⟩ := p
    by_cases h : k' = k <;> by_cases hj : k' = j <;> simp_all [Tbl.erase, Tbl.get]

theorem Tbl.get_insert_ne {α : Type} (d : α) (t : Tbl α) (k j : Nat) (v : α) (h : j ≠ k) :
    Tbl.get d (Tbl.insert k v t) j = Tbl.get d t j := by
  induction t with
  | nil => simp [Tbl.insert, Tbl.get, h.symm]
  | cons p r ih =>
    obtain ⟨k', v'⟩ := p
    by_cases hk : k < k' <;> simp [Tbl.insert, Tbl.get, hk, h.symm, ih]

theorem Tbl.get_insert_erase {α : Type} (d : α) (t : Tbl α) (k : Nat) (v : α) :
    Tbl.get d (Tbl.insert k v (Tbl.erase t k)) k = v := by
  induction t with
  | nil => simp [Tbl.erase, Tbl.insert, Tbl.get]
  | cons p r ih =>
    obtain ⟨k', v'⟩ := p
    by_cases h : k' = k
    · simp [Tbl.erase, h, ih]
    · by_cases hk : k < k' <;> simp [Tbl.erase, Tbl.insert, Tbl.get, h, hk, ih]

/-- Reading a table after an entry is placed. -/
theorem Tbl.get_put {α : Type} [DecidableEq α] (d : α) (t : Tbl α) (k j : Nat) (v : α) :
    Tbl.get d (Tbl.put d t k v) j = if j = k then v else Tbl.get d t j := by
  unfold Tbl.put
  split
  · rename_i h; rw [Tbl.get_erase]; split <;> simp_all
  · by_cases h : j = k
    · subst h; simp [Tbl.get_insert_erase]
    · rw [Tbl.get_insert_ne _ _ _ _ _ h, Tbl.get_erase]; simp [h]

@[simp] theorem Tbl.get_put_self {α : Type} [DecidableEq α] (d : α) (t : Tbl α) (k : Nat) (v : α) :
    Tbl.get d (Tbl.put d t k v) k = v := by simp [Tbl.get_put]

theorem Tbl.get_put_ne {α : Type} [DecidableEq α] (d : α) (t : Tbl α) (k j : Nat) (v : α) (h : j ≠ k) :
    Tbl.get d (Tbl.put d t k v) j = Tbl.get d t j := by simp [Tbl.get_put, h]

@[simp] theorem Tbl.get_modify_self {α : Type} [DecidableEq α] (d : α) (t : Tbl α) (k : Nat) (f : α → α) :
    Tbl.get d (Tbl.modify d t k f) k = f (Tbl.get d t k) := by simp [Tbl.modify]

theorem Tbl.get_modify_ne {α : Type} [DecidableEq α] (d : α) (t : Tbl α) (k j : Nat) (f : α → α) (h : j ≠ k) :
    Tbl.get d (Tbl.modify d t k f) j = Tbl.get d t j := Tbl.get_put_ne d t k j _ h

@[simp] theorem Tbl.get_nil {α : Type} (d : α) (k : Nat) : Tbl.get d [] k = d := rfl

-- the canonical form

theorem Tbl.wfFrom_weaken {α : Type} [DecidableEq α] (d : α) {lo lo' : Nat} (t : Tbl α) (h : lo' ≤ lo)
    (w : Tbl.wfFrom d lo t = true) : Tbl.wfFrom d lo' t = true := by
  cases t with
  | nil => rfl
  | cons p r =>
    obtain ⟨k, v⟩ := p
    simp only [Tbl.wfFrom, Bool.and_eq_true, decide_eq_true_eq] at w ⊢
    exact ⟨⟨by omega, w.1.2⟩, w.2⟩

theorem Tbl.wfFrom_erase {α : Type} [DecidableEq α] (d : α) (lo k : Nat) (t : Tbl α)
    (w : Tbl.wfFrom d lo t = true) : Tbl.wfFrom d lo (Tbl.erase t k) = true := by
  induction t generalizing lo with
  | nil => rfl
  | cons p r ih =>
    obtain ⟨k', v⟩ := p
    simp only [Tbl.wfFrom, Bool.and_eq_true, decide_eq_true_eq] at w
    by_cases h : k' = k
    · simp only [Tbl.erase, h, if_true]
      exact Tbl.wfFrom_weaken d _ (by omega) (ih _ (h ▸ w.2))
    · simp only [Tbl.erase, h, if_false, Tbl.wfFrom, Bool.and_eq_true, decide_eq_true_eq]
      exact ⟨w.1, ih _ w.2⟩

theorem Tbl.wfFrom_insert {α : Type} [DecidableEq α] (d : α) (lo k : Nat) (v : α) (t : Tbl α) (hl : lo ≤ k) (hv : v ≠ d)
    (hk : ∀ p ∈ t, p.1 ≠ k) (w : Tbl.wfFrom d lo t = true) : Tbl.wfFrom d lo (Tbl.insert k v t) = true := by
  induction t generalizing lo with
  | nil => simp [Tbl.insert, Tbl.wfFrom, hl, hv]
  | cons p r ih =>
    obtain ⟨k', v'⟩ := p
    simp only [Tbl.wfFrom, Bool.and_eq_true, decide_eq_true_eq] at w
    have hne : k' ≠ k := hk (k', v') (by simp)
    by_cases h : k < k'
    · simp only [Tbl.insert, h, if_true, Tbl.wfFrom, Bool.and_eq_true, decide_eq_true_eq]
      exact ⟨⟨hl, hv⟩, ⟨by omega, w.1.2⟩, w.2⟩
    · simp only [Tbl.insert, h, if_false, Tbl.wfFrom, Bool.and_eq_true, decide_eq_true_eq]
      exact ⟨w.1, ih _ (by omega) (fun p hp => hk p (by simp [hp])) w.2⟩

theorem Tbl.erase_ne {α : Type} (t : Tbl α) (k : Nat) : ∀ p ∈ Tbl.erase t k, p.1 ≠ k := by
  induction t with
  | nil => simp [Tbl.erase]
  | cons q r ih =>
    obtain ⟨k', v⟩ := q
    by_cases h : k' = k
    · simpa [Tbl.erase, h] using ih
    · intro p hp
      simp only [Tbl.erase, h, if_false, List.mem_cons] at hp
      rcases hp with rfl | hp
      · exact h
      · exact ih p hp

/-- Placing an entry keeps the canonical form. -/
theorem Tbl.wf_put {α : Type} [DecidableEq α] (d : α) (t : Tbl α) (k : Nat) (v : α) (w : Tbl.wf d t = true) :
    Tbl.wf d (Tbl.put d t k v) = true := by
  unfold Tbl.put
  split
  · exact Tbl.wfFrom_erase d 0 k t w
  · rename_i h
    exact Tbl.wfFrom_insert d 0 k v _ (Nat.zero_le k) h (Tbl.erase_ne t k) (Tbl.wfFrom_erase d 0 k t w)

theorem Tbl.wf_modify {α : Type} [DecidableEq α] (d : α) (t : Tbl α) (k : Nat) (f : α → α) (w : Tbl.wf d t = true) :
    Tbl.wf d (Tbl.modify d t k f) = true := Tbl.wf_put d t k _ w

@[simp] theorem Tbl.wf_nil {α : Type} [DecidableEq α] (d : α) : Tbl.wf d [] = true := rfl

end Sys2Proof
end

