-- ==== Sys2Proof/Laws/Memory.lean ====
section
/-! SUPPORT. The laws of the byte memory: what a byte reads as after a write or a clear, and that both keep the
canonical form. -/

namespace Sys2Proof

@[simp] theorem Memory.wf_nil : Memory.wf [] = true := rfl

theorem Memory.wfFrom_below (lo a : Nat) (m : Memory) (w : Tbl.wfFrom 0#8 lo m = true) :
    Tbl.wfFrom 0#8 lo (Memory.below m a) = true := by
  induction m generalizing lo with
  | nil => rfl
  | cons p r ih =>
    obtain ⟨k, v⟩ := p
    simp only [Tbl.wfFrom, Bool.and_eq_true, decide_eq_true_eq] at w
    by_cases h : k < a
    · simp only [Memory.below, h, if_true, Tbl.wfFrom, Bool.and_eq_true, decide_eq_true_eq]
      exact ⟨w.1, ih _ w.2⟩
    · simp only [Memory.below, h, if_false]
      exact ih _ (Tbl.wfFrom_weaken _ r (by omega) w.2)

theorem Memory.wfFrom_above (lo a : Nat) (m : Memory) (w : Tbl.wfFrom 0#8 lo m = true) :
    Tbl.wfFrom 0#8 a (Memory.above m a) = true := by
  induction m generalizing lo with
  | nil => rfl
  | cons p r ih =>
    obtain ⟨k, v⟩ := p
    simp only [Tbl.wfFrom, Bool.and_eq_true, decide_eq_true_eq] at w
    by_cases h : a ≤ k
    · simp only [Memory.above, h, if_true, Tbl.wfFrom, Bool.and_eq_true, decide_eq_true_eq]
      refine ⟨⟨trivial, w.1.2⟩, ?_⟩
      have := ih (k + 1) w.2
      clear ih
      have hr : Memory.above r a = r := by
        clear this
        have w2 := w.2
        clear w
        generalize hlo : k + 1 = lo' at w2
        have hle : a ≤ lo' := by omega
        clear hlo h
        induction r generalizing lo' with
        | nil => rfl
        | cons q r ih =>
          obtain ⟨k2, v2⟩ := q
          simp only [Tbl.wfFrom, Bool.and_eq_true, decide_eq_true_eq] at w2
          have : a ≤ k2 := by omega
          simp only [Memory.above, this, if_true]
          rw [ih (k2 + 1) w2.2 (by omega)]
      rw [hr]; exact w.2
    · simp only [Memory.above, h, if_false]
      exact ih _ w.2

theorem Memory.wfFrom_cells (a : Nat) (bs : Bytes) : Tbl.wfFrom 0#8 a (Memory.cells a bs) = true := by
  induction bs generalizing a with
  | nil => rfl
  | cons b bs ih =>
    by_cases h : b = 0#8
    · simp only [Memory.cells, h, if_true]; exact Tbl.wfFrom_weaken _ _ (by omega) (ih (a + 1))
    · simp only [Memory.cells, h, if_false, Tbl.wfFrom, Bool.and_eq_true, decide_eq_true_eq]
      exact ⟨⟨Nat.le_refl a, h⟩, ih (a + 1)⟩

/-- Appending cells that begin past the last key. -/
theorem Tbl.wfFrom_append {α : Type} [DecidableEq α] (d : α) (lo hi : Nat) (t u : Tbl α) (h : lo ≤ hi)
    (wt : Tbl.wfFrom d lo t = true) (ht : ∀ p ∈ t, p.1 < hi) (wu : Tbl.wfFrom d hi u = true) :
    Tbl.wfFrom d lo (t ++ u) = true := by
  induction t generalizing lo with
  | nil => exact Tbl.wfFrom_weaken d u h wu
  | cons p r ih =>
    obtain ⟨k, v⟩ := p
    simp only [List.cons_append, Tbl.wfFrom, Bool.and_eq_true, decide_eq_true_eq] at wt ⊢
    have hk : k < hi := ht (k, v) (by simp)
    exact ⟨wt.1, ih (k + 1) (by omega) wt.2 (fun q hq => ht q (by simp [hq]))⟩

theorem Memory.below_lt (m : Memory) (a : Nat) : ∀ p ∈ Memory.below m a, p.1 < a := by
  induction m with
  | nil => simp [Memory.below]
  | cons q r ih =>
    obtain ⟨k, v⟩ := q
    by_cases h : k < a
    · intro p hp
      simp only [Memory.below, h, if_true, List.mem_cons] at hp
      rcases hp with rfl | hp
      · exact h
      · exact ih p hp
    · simpa [Memory.below, h] using ih

theorem Memory.cells_lt (a : Nat) (bs : Bytes) : ∀ p ∈ Memory.cells a bs, p.1 < a + bs.length := by
  induction bs generalizing a with
  | nil => simp [Memory.cells]
  | cons b bs ih =>
    intro p hp
    by_cases h : b = 0#8
    · simp only [Memory.cells, h, if_true] at hp
      have := ih (a + 1) p hp
      simp only [List.length_cons]; omega
    · simp only [Memory.cells, h, if_false, List.mem_cons] at hp
      rcases hp with rfl | hp
      · simp
      · have := ih (a + 1) p hp
        simp only [List.length_cons]; omega

/-- A write keeps the canonical form. -/
theorem Memory.wf_write (m : Memory) (a : Nat) (bs : Bytes) (w : Memory.wf m = true) :
    Memory.wf (Memory.write m a bs) = true := by
  refine Tbl.wfFrom_append _ 0 a _ _ (Nat.zero_le a) (Memory.wfFrom_below 0 a m w) (Memory.below_lt m a) ?_
  exact Tbl.wfFrom_append _ a (a + bs.length) _ _ (by omega) (Memory.wfFrom_cells a bs) (Memory.cells_lt a bs)
    (Memory.wfFrom_above 0 _ m w)

/-- A clear keeps the canonical form. -/
theorem Memory.wf_clear (m : Memory) (a n : Nat) (w : Memory.wf m = true) : Memory.wf (Memory.clear m a n) = true :=
  Tbl.wfFrom_append _ 0 (a + n) _ _ (Nat.zero_le _) (Memory.wfFrom_below 0 a m w)
    (fun p hp => Nat.lt_of_lt_of_le (Memory.below_lt m a p hp) (by omega)) (Memory.wfFrom_above 0 _ m w)

-- reading a byte

theorem Memory.byte_below (m : Memory) (a k : Nat) : Memory.byte (Memory.below m a) k = if k < a then Memory.byte m k else 0#8 := by
  unfold Memory.byte
  induction m with
  | nil => simp [Memory.below]
  | cons q r ih =>
    obtain ⟨k', v⟩ := q
    by_cases hk : k' = k
    · subst hk
      by_cases h : k' < a <;> simp only [Memory.below, h, if_true, if_false, Tbl.get] at ih ⊢
      simpa using ih
    · by_cases h : k' < a <;> simp only [Memory.below, h, if_true, if_false, Tbl.get, hk] at ih ⊢ <;> simpa using ih

theorem Memory.byte_above (m : Memory) (a k : Nat) : Memory.byte (Memory.above m a) k = if a ≤ k then Memory.byte m k else 0#8 := by
  unfold Memory.byte
  induction m with
  | nil => simp [Memory.above]
  | cons q r ih =>
    obtain ⟨k', v⟩ := q
    by_cases hk : k' = k
    · subst hk
      by_cases h : a ≤ k' <;> simp only [Memory.above, h, if_true, if_false, Tbl.get] at ih ⊢
      simpa using ih
    · by_cases h : a ≤ k' <;> simp only [Memory.above, h, if_true, if_false, Tbl.get, hk] at ih ⊢ <;> simpa using ih

theorem Memory.byte_append (m n : Memory) (k : Nat) :
    Memory.byte (m ++ n) k = if (∃ p ∈ m, p.1 = k) then Memory.byte m k else Memory.byte n k := by
  unfold Memory.byte
  induction m with
  | nil => simp
  | cons q r ih =>
    obtain ⟨k', v⟩ := q
    by_cases h : k' = k <;> simp [Tbl.get, h, ih]

theorem Memory.byte_absent (m : Memory) (k : Nat) (h : ¬ ∃ p ∈ m, p.1 = k) : Memory.byte m k = 0#8 := by
  unfold Memory.byte
  induction m with
  | nil => rfl
  | cons q r ih =>
    obtain ⟨k', v⟩ := q
    have h1 : k' ≠ k := fun e => h ⟨(k', v), by simp, e⟩
    simp only [Tbl.get, h1, if_false]
    exact ih (fun ⟨p, hp, e⟩ => h ⟨p, by simp [hp], e⟩)

theorem Memory.byte_cells (a k : Nat) (bs : Bytes) :
    Memory.byte (Memory.cells a bs) k = if a ≤ k then bs.getD (k - a) 0#8 else 0#8 := by
  induction bs generalizing a with
  | nil => simp [Memory.cells, Memory.byte]
  | cons b bs ih =>
    have ih' := ih (a + 1)
    unfold Memory.byte at ih' ⊢
    by_cases hb : b = 0#8
    · simp only [Memory.cells, hb, if_true, ih']
      by_cases h : a ≤ k
      · by_cases he : a = k
        · subst he; simp
        · have : a + 1 ≤ k := by omega
          have e : k - a = (k - (a + 1)) + 1 := by omega
          simp [h, this, e]
      · simp [h, show ¬ (a + 1 ≤ k) by omega]
    · simp only [Memory.cells, hb, if_false, Tbl.get]
      by_cases he : a = k
      · subst he; simp
      · simp only [he, if_false, ih']
        by_cases h : a ≤ k
        · have : a + 1 ≤ k := by omega
          have e : k - a = (k - (a + 1)) + 1 := by omega
          simp [h, this, e]
        · simp [h, show ¬ (a + 1 ≤ k) by omega]

/-- A byte after a write: the one written inside the string, as before outside. -/
theorem Memory.byte_write (m : Memory) (a k : Nat) (bs : Bytes) :
    Memory.byte (Memory.write m a bs) k
      = if a ≤ k ∧ k < a + bs.length then bs.getD (k - a) 0#8 else Memory.byte m k := by
  unfold Memory.write
  rw [Memory.byte_append]
  by_cases h1 : ∃ p ∈ Memory.below m a, p.1 = k
  · have hk : k < a := by obtain ⟨p, hp, e⟩ := h1; rw [← e]; exact Memory.below_lt m a p hp
    rw [if_pos h1, Memory.byte_below, if_pos hk, if_neg (by omega)]
  · rw [if_neg h1, Memory.byte_append]
    have hb := Memory.byte_absent _ _ h1
    rw [Memory.byte_below] at hb
    by_cases h2 : ∃ p ∈ Memory.cells a bs, p.1 = k
    · have hk : k < a + bs.length := by obtain ⟨p, hp, e⟩ := h2; rw [← e]; exact Memory.cells_lt a bs p hp
      rw [if_pos h2, Memory.byte_cells]
      by_cases ha : a ≤ k
      · rw [if_pos ha, if_pos ⟨ha, hk⟩]
      · exfalso
        obtain ⟨p, hp, e⟩ := h2
        have : ∀ (a : Nat) (bs : Bytes), ∀ p ∈ Memory.cells a bs, a ≤ p.1 := by
          intro a bs
          induction bs generalizing a with
          | nil => simp [Memory.cells]
          | cons b bs ih =>
            intro p hp
            by_cases h : b = 0#8
            · simp only [Memory.cells, h, if_true] at hp
              have := ih (a + 1) p hp; omega
            · simp only [Memory.cells, h, if_false, List.mem_cons] at hp
              rcases hp with rfl | hp
              · simp
              · have := ih (a + 1) p hp; omega
        have := this a bs p hp
        omega
    · have hc := Memory.byte_absent _ _ h2
      rw [Memory.byte_cells] at hc
      rw [if_neg h2, Memory.byte_above]
      by_cases ha : k < a
      · rw [if_pos ha] at hb
        rw [if_neg (by omega), if_neg (by omega), hb]
      · by_cases hk : k < a + bs.length
        · rw [if_neg (by omega), if_pos ⟨by omega, hk⟩]
          rw [if_pos (by omega)] at hc
          exact hc.symm
        · rw [if_pos (by omega), if_neg (by omega)]

/-- A byte after a clear. -/
theorem Memory.byte_clear (m : Memory) (a n k : Nat) :
    Memory.byte (Memory.clear m a n) k = if a ≤ k ∧ k < a + n then 0#8 else Memory.byte m k := by
  unfold Memory.clear
  rw [Memory.byte_append]
  by_cases h1 : ∃ p ∈ Memory.below m a, p.1 = k
  · have hk : k < a := by obtain ⟨p, hp, e⟩ := h1; rw [← e]; exact Memory.below_lt m a p hp
    rw [if_pos h1, Memory.byte_below, if_pos hk, if_neg (by omega)]
  · rw [if_neg h1, Memory.byte_above]
    have hb := Memory.byte_absent _ _ h1
    rw [Memory.byte_below] at hb
    by_cases ha : k < a
    · rw [if_pos ha] at hb
      rw [if_neg (by omega), if_neg (by omega), hb]
    · by_cases hk : k < a + n
      · rw [if_neg (by omega), if_pos ⟨by omega, hk⟩]
      · rw [if_pos (by omega), if_neg (by omega)]

end Sys2Proof
end

