-- ==== Sys2Proof/Laws/State.lean ====
section
/-! SUPPORT. One lemma for each field and each update of one table of State: what the update leaves alone. -/

namespace Sys2Proof.Machine

open Sys2Proof

@[simp] theorem State.setCore_fuses (s : State) (c : Nat) (v : Core) : (s.setCore c v).fuses = s.fuses := rfl
@[simp] theorem State.setCore_mem (s : State) (c : Nat) (v : Core) : (s.setCore c v).mem = s.mem := rfl
@[simp] theorem State.setCore_upsets (s : State) (c : Nat) (v : Core) : (s.setCore c v).upsets = s.upsets := rfl
@[simp] theorem State.setCore_clusters (s : State) (c : Nat) (v : Core) : (s.setCore c v).clusters = s.clusters := rfl
@[simp] theorem State.setCore_pages (s : State) (c : Nat) (v : Core) : (s.setCore c v).pages = s.pages := rfl
@[simp] theorem State.setCore_logs (s : State) (c : Nat) (v : Core) : (s.setCore c v).logs = s.logs := rfl
@[simp] theorem State.setCore_ports (s : State) (c : Nat) (v : Core) : (s.setCore c v).ports = s.ports := rfl
@[simp] theorem State.setCore_regions (s : State) (c : Nat) (v : Core) : (s.setCore c v).regions = s.regions := rfl
@[simp] theorem State.setCore_dieClocks (s : State) (c : Nat) (v : Core) : (s.setCore c v).dieClocks = s.dieClocks := rfl
@[simp] theorem State.setCore_clock (s : State) (c : Nat) (v : Core) : (s.setCore c v).clock = s.clock := rfl
@[simp] theorem State.setCore_ledgers (s : State) (c : Nat) (v : Core) : (s.setCore c v).ledgers = s.ledgers := rfl
@[simp] theorem State.setCore_ledger (s : State) (c : Nat) (v : Core) : (s.setCore c v).ledger = s.ledger := rfl
@[simp] theorem State.setCore_windows (s : State) (c : Nat) (v : Core) : (s.setCore c v).windows = s.windows := rfl
@[simp] theorem State.setCore_admitted (s : State) (c : Nat) (v : Core) : (s.setCore c v).admitted = s.admitted := rfl
@[simp] theorem State.setCore_remote (s : State) (c : Nat) (v : Core) : (s.setCore c v).remote = s.remote := rfl
@[simp] theorem State.setCore_win (s : State) (c : Nat) (v : Core) : (s.setCore c v).win = s.win := rfl
@[simp] theorem State.setCore_tenants (s : State) (c : Nat) (v : Core) : (s.setCore c v).tenants = s.tenants := rfl
@[simp] theorem State.setCore_slots (s : State) (c : Nat) (v : Core) : (s.setCore c v).slots = s.slots := rfl
@[simp] theorem State.setCore_sessions (s : State) (c : Nat) (v : Core) : (s.setCore c v).sessions = s.sessions := rfl
@[simp] theorem State.setCore_adm (s : State) (c : Nat) (v : Core) : (s.setCore c v).adm = s.adm := rfl
@[simp] theorem State.setCore_fab (s : State) (c : Nat) (v : Core) : (s.setCore c v).fab = s.fab := rfl
@[simp] theorem State.setCore_fports (s : State) (c : Nat) (v : Core) : (s.setCore c v).fports = s.fports := rfl
@[simp] theorem State.setCore_routes (s : State) (c : Nat) (v : Core) : (s.setCore c v).routes = s.routes := rfl
@[simp] theorem State.setCore_cartridges (s : State) (c : Nat) (v : Core) : (s.setCore c v).cartridges = s.cartridges := rfl
@[simp] theorem State.setCore_engines (s : State) (c : Nat) (v : Core) : (s.setCore c v).engines = s.engines := rfl
@[simp] theorem State.setCore_oeSel (s : State) (c : Nat) (v : Core) : (s.setCore c v).oeSel = s.oeSel := rfl
@[simp] theorem State.setCore_editions (s : State) (c : Nat) (v : Core) : (s.setCore c v).editions = s.editions := rfl
@[simp] theorem State.setCore_acc (s : State) (c : Nat) (v : Core) : (s.setCore c v).acc = s.acc := rfl
@[simp] theorem State.setCore_accDie (s : State) (c : Nat) (v : Core) : (s.setCore c v).accDie = s.accDie := rfl
@[simp] theorem State.setCore_charter (s : State) (c : Nat) (v : Core) : (s.setCore c v).charter = s.charter := rfl
@[simp] theorem State.setCore_curators (s : State) (c : Nat) (v : Core) : (s.setCore c v).curators = s.curators := rfl
@[simp] theorem State.setCore_fwCur (s : State) (c : Nat) (v : Core) : (s.setCore c v).fwCur = s.fwCur := rfl
@[simp] theorem State.setCore_fwOpt (s : State) (c : Nat) (v : Core) : (s.setCore c v).fwOpt = s.fwOpt := rfl
@[simp] theorem State.setCore_sec (s : State) (c : Nat) (v : Core) : (s.setCore c v).sec = s.sec := rfl
@[simp] theorem State.setCore_gen (s : State) (c : Nat) (v : Core) : (s.setCore c v).gen = s.gen := rfl
@[simp] theorem State.setCore_power (s : State) (c : Nat) (v : Core) : (s.setCore c v).power = s.power := rfl
@[simp] theorem State.setCore_busData (s : State) (c : Nat) (v : Core) : (s.setCore c v).busData = s.busData := rfl
@[simp] theorem State.setCore_busLatch (s : State) (c : Nat) (v : Core) : (s.setCore c v).busLatch = s.busLatch := rfl
@[simp] theorem State.setCore_freeCtr (s : State) (c : Nat) (v : Core) : (s.setCore c v).freeCtr = s.freeCtr := rfl
@[simp] theorem State.setCore_pending (s : State) (c : Nat) (v : Core) : (s.setCore c v).pending = s.pending := rfl

@[simp] theorem State.modCore_fuses (s : State) (c : Nat) (f : Core → Core) : (s.modCore c f).fuses = s.fuses := rfl
@[simp] theorem State.modCore_mem (s : State) (c : Nat) (f : Core → Core) : (s.modCore c f).mem = s.mem := rfl
@[simp] theorem State.modCore_upsets (s : State) (c : Nat) (f : Core → Core) : (s.modCore c f).upsets = s.upsets := rfl
@[simp] theorem State.modCore_clusters (s : State) (c : Nat) (f : Core → Core) : (s.modCore c f).clusters = s.clusters := rfl
@[simp] theorem State.modCore_pages (s : State) (c : Nat) (f : Core → Core) : (s.modCore c f).pages = s.pages := rfl
@[simp] theorem State.modCore_logs (s : State) (c : Nat) (f : Core → Core) : (s.modCore c f).logs = s.logs := rfl
@[simp] theorem State.modCore_ports (s : State) (c : Nat) (f : Core → Core) : (s.modCore c f).ports = s.ports := rfl
@[simp] theorem State.modCore_regions (s : State) (c : Nat) (f : Core → Core) : (s.modCore c f).regions = s.regions := rfl
@[simp] theorem State.modCore_dieClocks (s : State) (c : Nat) (f : Core → Core) : (s.modCore c f).dieClocks = s.dieClocks := rfl
@[simp] theorem State.modCore_clock (s : State) (c : Nat) (f : Core → Core) : (s.modCore c f).clock = s.clock := rfl
@[simp] theorem State.modCore_ledgers (s : State) (c : Nat) (f : Core → Core) : (s.modCore c f).ledgers = s.ledgers := rfl
@[simp] theorem State.modCore_ledger (s : State) (c : Nat) (f : Core → Core) : (s.modCore c f).ledger = s.ledger := rfl
@[simp] theorem State.modCore_windows (s : State) (c : Nat) (f : Core → Core) : (s.modCore c f).windows = s.windows := rfl
@[simp] theorem State.modCore_admitted (s : State) (c : Nat) (f : Core → Core) : (s.modCore c f).admitted = s.admitted := rfl
@[simp] theorem State.modCore_remote (s : State) (c : Nat) (f : Core → Core) : (s.modCore c f).remote = s.remote := rfl
@[simp] theorem State.modCore_win (s : State) (c : Nat) (f : Core → Core) : (s.modCore c f).win = s.win := rfl
@[simp] theorem State.modCore_tenants (s : State) (c : Nat) (f : Core → Core) : (s.modCore c f).tenants = s.tenants := rfl
@[simp] theorem State.modCore_slots (s : State) (c : Nat) (f : Core → Core) : (s.modCore c f).slots = s.slots := rfl
@[simp] theorem State.modCore_sessions (s : State) (c : Nat) (f : Core → Core) : (s.modCore c f).sessions = s.sessions := rfl
@[simp] theorem State.modCore_adm (s : State) (c : Nat) (f : Core → Core) : (s.modCore c f).adm = s.adm := rfl
@[simp] theorem State.modCore_fab (s : State) (c : Nat) (f : Core → Core) : (s.modCore c f).fab = s.fab := rfl
@[simp] theorem State.modCore_fports (s : State) (c : Nat) (f : Core → Core) : (s.modCore c f).fports = s.fports := rfl
@[simp] theorem State.modCore_routes (s : State) (c : Nat) (f : Core → Core) : (s.modCore c f).routes = s.routes := rfl
@[simp] theorem State.modCore_cartridges (s : State) (c : Nat) (f : Core → Core) : (s.modCore c f).cartridges = s.cartridges := rfl
@[simp] theorem State.modCore_engines (s : State) (c : Nat) (f : Core → Core) : (s.modCore c f).engines = s.engines := rfl
@[simp] theorem State.modCore_oeSel (s : State) (c : Nat) (f : Core → Core) : (s.modCore c f).oeSel = s.oeSel := rfl
@[simp] theorem State.modCore_editions (s : State) (c : Nat) (f : Core → Core) : (s.modCore c f).editions = s.editions := rfl
@[simp] theorem State.modCore_acc (s : State) (c : Nat) (f : Core → Core) : (s.modCore c f).acc = s.acc := rfl
@[simp] theorem State.modCore_accDie (s : State) (c : Nat) (f : Core → Core) : (s.modCore c f).accDie = s.accDie := rfl
@[simp] theorem State.modCore_charter (s : State) (c : Nat) (f : Core → Core) : (s.modCore c f).charter = s.charter := rfl
@[simp] theorem State.modCore_curators (s : State) (c : Nat) (f : Core → Core) : (s.modCore c f).curators = s.curators := rfl
@[simp] theorem State.modCore_fwCur (s : State) (c : Nat) (f : Core → Core) : (s.modCore c f).fwCur = s.fwCur := rfl
@[simp] theorem State.modCore_fwOpt (s : State) (c : Nat) (f : Core → Core) : (s.modCore c f).fwOpt = s.fwOpt := rfl
@[simp] theorem State.modCore_sec (s : State) (c : Nat) (f : Core → Core) : (s.modCore c f).sec = s.sec := rfl
@[simp] theorem State.modCore_gen (s : State) (c : Nat) (f : Core → Core) : (s.modCore c f).gen = s.gen := rfl
@[simp] theorem State.modCore_power (s : State) (c : Nat) (f : Core → Core) : (s.modCore c f).power = s.power := rfl
@[simp] theorem State.modCore_busData (s : State) (c : Nat) (f : Core → Core) : (s.modCore c f).busData = s.busData := rfl
@[simp] theorem State.modCore_busLatch (s : State) (c : Nat) (f : Core → Core) : (s.modCore c f).busLatch = s.busLatch := rfl
@[simp] theorem State.modCore_freeCtr (s : State) (c : Nat) (f : Core → Core) : (s.modCore c f).freeCtr = s.freeCtr := rfl
@[simp] theorem State.modCore_pending (s : State) (c : Nat) (f : Core → Core) : (s.modCore c f).pending = s.pending := rfl

@[simp] theorem State.modMx_fuses (s : State) (c : Nat) (f : MatrixUnit → MatrixUnit) : (s.modMx c f).fuses = s.fuses := rfl
@[simp] theorem State.modMx_mem (s : State) (c : Nat) (f : MatrixUnit → MatrixUnit) : (s.modMx c f).mem = s.mem := rfl
@[simp] theorem State.modMx_upsets (s : State) (c : Nat) (f : MatrixUnit → MatrixUnit) : (s.modMx c f).upsets = s.upsets := rfl
@[simp] theorem State.modMx_clusters (s : State) (c : Nat) (f : MatrixUnit → MatrixUnit) : (s.modMx c f).clusters = s.clusters := rfl
@[simp] theorem State.modMx_pages (s : State) (c : Nat) (f : MatrixUnit → MatrixUnit) : (s.modMx c f).pages = s.pages := rfl
@[simp] theorem State.modMx_logs (s : State) (c : Nat) (f : MatrixUnit → MatrixUnit) : (s.modMx c f).logs = s.logs := rfl
@[simp] theorem State.modMx_ports (s : State) (c : Nat) (f : MatrixUnit → MatrixUnit) : (s.modMx c f).ports = s.ports := rfl
@[simp] theorem State.modMx_regions (s : State) (c : Nat) (f : MatrixUnit → MatrixUnit) : (s.modMx c f).regions = s.regions := rfl
@[simp] theorem State.modMx_dieClocks (s : State) (c : Nat) (f : MatrixUnit → MatrixUnit) : (s.modMx c f).dieClocks = s.dieClocks := rfl
@[simp] theorem State.modMx_clock (s : State) (c : Nat) (f : MatrixUnit → MatrixUnit) : (s.modMx c f).clock = s.clock := rfl
@[simp] theorem State.modMx_ledgers (s : State) (c : Nat) (f : MatrixUnit → MatrixUnit) : (s.modMx c f).ledgers = s.ledgers := rfl
@[simp] theorem State.modMx_ledger (s : State) (c : Nat) (f : MatrixUnit → MatrixUnit) : (s.modMx c f).ledger = s.ledger := rfl
@[simp] theorem State.modMx_windows (s : State) (c : Nat) (f : MatrixUnit → MatrixUnit) : (s.modMx c f).windows = s.windows := rfl
@[simp] theorem State.modMx_admitted (s : State) (c : Nat) (f : MatrixUnit → MatrixUnit) : (s.modMx c f).admitted = s.admitted := rfl
@[simp] theorem State.modMx_remote (s : State) (c : Nat) (f : MatrixUnit → MatrixUnit) : (s.modMx c f).remote = s.remote := rfl
@[simp] theorem State.modMx_win (s : State) (c : Nat) (f : MatrixUnit → MatrixUnit) : (s.modMx c f).win = s.win := rfl
@[simp] theorem State.modMx_tenants (s : State) (c : Nat) (f : MatrixUnit → MatrixUnit) : (s.modMx c f).tenants = s.tenants := rfl
@[simp] theorem State.modMx_slots (s : State) (c : Nat) (f : MatrixUnit → MatrixUnit) : (s.modMx c f).slots = s.slots := rfl
@[simp] theorem State.modMx_sessions (s : State) (c : Nat) (f : MatrixUnit → MatrixUnit) : (s.modMx c f).sessions = s.sessions := rfl
@[simp] theorem State.modMx_adm (s : State) (c : Nat) (f : MatrixUnit → MatrixUnit) : (s.modMx c f).adm = s.adm := rfl
@[simp] theorem State.modMx_fab (s : State) (c : Nat) (f : MatrixUnit → MatrixUnit) : (s.modMx c f).fab = s.fab := rfl
@[simp] theorem State.modMx_fports (s : State) (c : Nat) (f : MatrixUnit → MatrixUnit) : (s.modMx c f).fports = s.fports := rfl
@[simp] theorem State.modMx_routes (s : State) (c : Nat) (f : MatrixUnit → MatrixUnit) : (s.modMx c f).routes = s.routes := rfl
@[simp] theorem State.modMx_cartridges (s : State) (c : Nat) (f : MatrixUnit → MatrixUnit) : (s.modMx c f).cartridges = s.cartridges := rfl
@[simp] theorem State.modMx_engines (s : State) (c : Nat) (f : MatrixUnit → MatrixUnit) : (s.modMx c f).engines = s.engines := rfl
@[simp] theorem State.modMx_oeSel (s : State) (c : Nat) (f : MatrixUnit → MatrixUnit) : (s.modMx c f).oeSel = s.oeSel := rfl
@[simp] theorem State.modMx_editions (s : State) (c : Nat) (f : MatrixUnit → MatrixUnit) : (s.modMx c f).editions = s.editions := rfl
@[simp] theorem State.modMx_acc (s : State) (c : Nat) (f : MatrixUnit → MatrixUnit) : (s.modMx c f).acc = s.acc := rfl
@[simp] theorem State.modMx_accDie (s : State) (c : Nat) (f : MatrixUnit → MatrixUnit) : (s.modMx c f).accDie = s.accDie := rfl
@[simp] theorem State.modMx_charter (s : State) (c : Nat) (f : MatrixUnit → MatrixUnit) : (s.modMx c f).charter = s.charter := rfl
@[simp] theorem State.modMx_curators (s : State) (c : Nat) (f : MatrixUnit → MatrixUnit) : (s.modMx c f).curators = s.curators := rfl
@[simp] theorem State.modMx_fwCur (s : State) (c : Nat) (f : MatrixUnit → MatrixUnit) : (s.modMx c f).fwCur = s.fwCur := rfl
@[simp] theorem State.modMx_fwOpt (s : State) (c : Nat) (f : MatrixUnit → MatrixUnit) : (s.modMx c f).fwOpt = s.fwOpt := rfl
@[simp] theorem State.modMx_sec (s : State) (c : Nat) (f : MatrixUnit → MatrixUnit) : (s.modMx c f).sec = s.sec := rfl
@[simp] theorem State.modMx_gen (s : State) (c : Nat) (f : MatrixUnit → MatrixUnit) : (s.modMx c f).gen = s.gen := rfl
@[simp] theorem State.modMx_power (s : State) (c : Nat) (f : MatrixUnit → MatrixUnit) : (s.modMx c f).power = s.power := rfl
@[simp] theorem State.modMx_busData (s : State) (c : Nat) (f : MatrixUnit → MatrixUnit) : (s.modMx c f).busData = s.busData := rfl
@[simp] theorem State.modMx_busLatch (s : State) (c : Nat) (f : MatrixUnit → MatrixUnit) : (s.modMx c f).busLatch = s.busLatch := rfl
@[simp] theorem State.modMx_freeCtr (s : State) (c : Nat) (f : MatrixUnit → MatrixUnit) : (s.modMx c f).freeCtr = s.freeCtr := rfl
@[simp] theorem State.modMx_pending (s : State) (c : Nat) (f : MatrixUnit → MatrixUnit) : (s.modMx c f).pending = s.pending := rfl

@[simp] theorem State.modVx_fuses (s : State) (c : Nat) (f : VectorUnit → VectorUnit) : (s.modVx c f).fuses = s.fuses := rfl
@[simp] theorem State.modVx_mem (s : State) (c : Nat) (f : VectorUnit → VectorUnit) : (s.modVx c f).mem = s.mem := rfl
@[simp] theorem State.modVx_upsets (s : State) (c : Nat) (f : VectorUnit → VectorUnit) : (s.modVx c f).upsets = s.upsets := rfl
@[simp] theorem State.modVx_clusters (s : State) (c : Nat) (f : VectorUnit → VectorUnit) : (s.modVx c f).clusters = s.clusters := rfl
@[simp] theorem State.modVx_pages (s : State) (c : Nat) (f : VectorUnit → VectorUnit) : (s.modVx c f).pages = s.pages := rfl
@[simp] theorem State.modVx_logs (s : State) (c : Nat) (f : VectorUnit → VectorUnit) : (s.modVx c f).logs = s.logs := rfl
@[simp] theorem State.modVx_ports (s : State) (c : Nat) (f : VectorUnit → VectorUnit) : (s.modVx c f).ports = s.ports := rfl
@[simp] theorem State.modVx_regions (s : State) (c : Nat) (f : VectorUnit → VectorUnit) : (s.modVx c f).regions = s.regions := rfl
@[simp] theorem State.modVx_dieClocks (s : State) (c : Nat) (f : VectorUnit → VectorUnit) : (s.modVx c f).dieClocks = s.dieClocks := rfl
@[simp] theorem State.modVx_clock (s : State) (c : Nat) (f : VectorUnit → VectorUnit) : (s.modVx c f).clock = s.clock := rfl
@[simp] theorem State.modVx_ledgers (s : State) (c : Nat) (f : VectorUnit → VectorUnit) : (s.modVx c f).ledgers = s.ledgers := rfl
@[simp] theorem State.modVx_ledger (s : State) (c : Nat) (f : VectorUnit → VectorUnit) : (s.modVx c f).ledger = s.ledger := rfl
@[simp] theorem State.modVx_windows (s : State) (c : Nat) (f : VectorUnit → VectorUnit) : (s.modVx c f).windows = s.windows := rfl
@[simp] theorem State.modVx_admitted (s : State) (c : Nat) (f : VectorUnit → VectorUnit) : (s.modVx c f).admitted = s.admitted := rfl
@[simp] theorem State.modVx_remote (s : State) (c : Nat) (f : VectorUnit → VectorUnit) : (s.modVx c f).remote = s.remote := rfl
@[simp] theorem State.modVx_win (s : State) (c : Nat) (f : VectorUnit → VectorUnit) : (s.modVx c f).win = s.win := rfl
@[simp] theorem State.modVx_tenants (s : State) (c : Nat) (f : VectorUnit → VectorUnit) : (s.modVx c f).tenants = s.tenants := rfl
@[simp] theorem State.modVx_slots (s : State) (c : Nat) (f : VectorUnit → VectorUnit) : (s.modVx c f).slots = s.slots := rfl
@[simp] theorem State.modVx_sessions (s : State) (c : Nat) (f : VectorUnit → VectorUnit) : (s.modVx c f).sessions = s.sessions := rfl
@[simp] theorem State.modVx_adm (s : State) (c : Nat) (f : VectorUnit → VectorUnit) : (s.modVx c f).adm = s.adm := rfl
@[simp] theorem State.modVx_fab (s : State) (c : Nat) (f : VectorUnit → VectorUnit) : (s.modVx c f).fab = s.fab := rfl
@[simp] theorem State.modVx_fports (s : State) (c : Nat) (f : VectorUnit → VectorUnit) : (s.modVx c f).fports = s.fports := rfl
@[simp] theorem State.modVx_routes (s : State) (c : Nat) (f : VectorUnit → VectorUnit) : (s.modVx c f).routes = s.routes := rfl
@[simp] theorem State.modVx_cartridges (s : State) (c : Nat) (f : VectorUnit → VectorUnit) : (s.modVx c f).cartridges = s.cartridges := rfl
@[simp] theorem State.modVx_engines (s : State) (c : Nat) (f : VectorUnit → VectorUnit) : (s.modVx c f).engines = s.engines := rfl
@[simp] theorem State.modVx_oeSel (s : State) (c : Nat) (f : VectorUnit → VectorUnit) : (s.modVx c f).oeSel = s.oeSel := rfl
@[simp] theorem State.modVx_editions (s : State) (c : Nat) (f : VectorUnit → VectorUnit) : (s.modVx c f).editions = s.editions := rfl
@[simp] theorem State.modVx_acc (s : State) (c : Nat) (f : VectorUnit → VectorUnit) : (s.modVx c f).acc = s.acc := rfl
@[simp] theorem State.modVx_accDie (s : State) (c : Nat) (f : VectorUnit → VectorUnit) : (s.modVx c f).accDie = s.accDie := rfl
@[simp] theorem State.modVx_charter (s : State) (c : Nat) (f : VectorUnit → VectorUnit) : (s.modVx c f).charter = s.charter := rfl
@[simp] theorem State.modVx_curators (s : State) (c : Nat) (f : VectorUnit → VectorUnit) : (s.modVx c f).curators = s.curators := rfl
@[simp] theorem State.modVx_fwCur (s : State) (c : Nat) (f : VectorUnit → VectorUnit) : (s.modVx c f).fwCur = s.fwCur := rfl
@[simp] theorem State.modVx_fwOpt (s : State) (c : Nat) (f : VectorUnit → VectorUnit) : (s.modVx c f).fwOpt = s.fwOpt := rfl
@[simp] theorem State.modVx_sec (s : State) (c : Nat) (f : VectorUnit → VectorUnit) : (s.modVx c f).sec = s.sec := rfl
@[simp] theorem State.modVx_gen (s : State) (c : Nat) (f : VectorUnit → VectorUnit) : (s.modVx c f).gen = s.gen := rfl
@[simp] theorem State.modVx_power (s : State) (c : Nat) (f : VectorUnit → VectorUnit) : (s.modVx c f).power = s.power := rfl
@[simp] theorem State.modVx_busData (s : State) (c : Nat) (f : VectorUnit → VectorUnit) : (s.modVx c f).busData = s.busData := rfl
@[simp] theorem State.modVx_busLatch (s : State) (c : Nat) (f : VectorUnit → VectorUnit) : (s.modVx c f).busLatch = s.busLatch := rfl
@[simp] theorem State.modVx_freeCtr (s : State) (c : Nat) (f : VectorUnit → VectorUnit) : (s.modVx c f).freeCtr = s.freeCtr := rfl
@[simp] theorem State.modVx_pending (s : State) (c : Nat) (f : VectorUnit → VectorUnit) : (s.modVx c f).pending = s.pending := rfl

@[simp] theorem State.modRd_fuses (s : State) (c : Nat) (f : ReductionUnit → ReductionUnit) : (s.modRd c f).fuses = s.fuses := rfl
@[simp] theorem State.modRd_mem (s : State) (c : Nat) (f : ReductionUnit → ReductionUnit) : (s.modRd c f).mem = s.mem := rfl
@[simp] theorem State.modRd_upsets (s : State) (c : Nat) (f : ReductionUnit → ReductionUnit) : (s.modRd c f).upsets = s.upsets := rfl
@[simp] theorem State.modRd_clusters (s : State) (c : Nat) (f : ReductionUnit → ReductionUnit) : (s.modRd c f).clusters = s.clusters := rfl
@[simp] theorem State.modRd_pages (s : State) (c : Nat) (f : ReductionUnit → ReductionUnit) : (s.modRd c f).pages = s.pages := rfl
@[simp] theorem State.modRd_logs (s : State) (c : Nat) (f : ReductionUnit → ReductionUnit) : (s.modRd c f).logs = s.logs := rfl
@[simp] theorem State.modRd_ports (s : State) (c : Nat) (f : ReductionUnit → ReductionUnit) : (s.modRd c f).ports = s.ports := rfl
@[simp] theorem State.modRd_regions (s : State) (c : Nat) (f : ReductionUnit → ReductionUnit) : (s.modRd c f).regions = s.regions := rfl
@[simp] theorem State.modRd_dieClocks (s : State) (c : Nat) (f : ReductionUnit → ReductionUnit) : (s.modRd c f).dieClocks = s.dieClocks := rfl
@[simp] theorem State.modRd_clock (s : State) (c : Nat) (f : ReductionUnit → ReductionUnit) : (s.modRd c f).clock = s.clock := rfl
@[simp] theorem State.modRd_ledgers (s : State) (c : Nat) (f : ReductionUnit → ReductionUnit) : (s.modRd c f).ledgers = s.ledgers := rfl
@[simp] theorem State.modRd_ledger (s : State) (c : Nat) (f : ReductionUnit → ReductionUnit) : (s.modRd c f).ledger = s.ledger := rfl
@[simp] theorem State.modRd_windows (s : State) (c : Nat) (f : ReductionUnit → ReductionUnit) : (s.modRd c f).windows = s.windows := rfl
@[simp] theorem State.modRd_admitted (s : State) (c : Nat) (f : ReductionUnit → ReductionUnit) : (s.modRd c f).admitted = s.admitted := rfl
@[simp] theorem State.modRd_remote (s : State) (c : Nat) (f : ReductionUnit → ReductionUnit) : (s.modRd c f).remote = s.remote := rfl
@[simp] theorem State.modRd_win (s : State) (c : Nat) (f : ReductionUnit → ReductionUnit) : (s.modRd c f).win = s.win := rfl
@[simp] theorem State.modRd_tenants (s : State) (c : Nat) (f : ReductionUnit → ReductionUnit) : (s.modRd c f).tenants = s.tenants := rfl
@[simp] theorem State.modRd_slots (s : State) (c : Nat) (f : ReductionUnit → ReductionUnit) : (s.modRd c f).slots = s.slots := rfl
@[simp] theorem State.modRd_sessions (s : State) (c : Nat) (f : ReductionUnit → ReductionUnit) : (s.modRd c f).sessions = s.sessions := rfl
@[simp] theorem State.modRd_adm (s : State) (c : Nat) (f : ReductionUnit → ReductionUnit) : (s.modRd c f).adm = s.adm := rfl
@[simp] theorem State.modRd_fab (s : State) (c : Nat) (f : ReductionUnit → ReductionUnit) : (s.modRd c f).fab = s.fab := rfl
@[simp] theorem State.modRd_fports (s : State) (c : Nat) (f : ReductionUnit → ReductionUnit) : (s.modRd c f).fports = s.fports := rfl
@[simp] theorem State.modRd_routes (s : State) (c : Nat) (f : ReductionUnit → ReductionUnit) : (s.modRd c f).routes = s.routes := rfl
@[simp] theorem State.modRd_cartridges (s : State) (c : Nat) (f : ReductionUnit → ReductionUnit) : (s.modRd c f).cartridges = s.cartridges := rfl
@[simp] theorem State.modRd_engines (s : State) (c : Nat) (f : ReductionUnit → ReductionUnit) : (s.modRd c f).engines = s.engines := rfl
@[simp] theorem State.modRd_oeSel (s : State) (c : Nat) (f : ReductionUnit → ReductionUnit) : (s.modRd c f).oeSel = s.oeSel := rfl
@[simp] theorem State.modRd_editions (s : State) (c : Nat) (f : ReductionUnit → ReductionUnit) : (s.modRd c f).editions = s.editions := rfl
@[simp] theorem State.modRd_acc (s : State) (c : Nat) (f : ReductionUnit → ReductionUnit) : (s.modRd c f).acc = s.acc := rfl
@[simp] theorem State.modRd_accDie (s : State) (c : Nat) (f : ReductionUnit → ReductionUnit) : (s.modRd c f).accDie = s.accDie := rfl
@[simp] theorem State.modRd_charter (s : State) (c : Nat) (f : ReductionUnit → ReductionUnit) : (s.modRd c f).charter = s.charter := rfl
@[simp] theorem State.modRd_curators (s : State) (c : Nat) (f : ReductionUnit → ReductionUnit) : (s.modRd c f).curators = s.curators := rfl
@[simp] theorem State.modRd_fwCur (s : State) (c : Nat) (f : ReductionUnit → ReductionUnit) : (s.modRd c f).fwCur = s.fwCur := rfl
@[simp] theorem State.modRd_fwOpt (s : State) (c : Nat) (f : ReductionUnit → ReductionUnit) : (s.modRd c f).fwOpt = s.fwOpt := rfl
@[simp] theorem State.modRd_sec (s : State) (c : Nat) (f : ReductionUnit → ReductionUnit) : (s.modRd c f).sec = s.sec := rfl
@[simp] theorem State.modRd_gen (s : State) (c : Nat) (f : ReductionUnit → ReductionUnit) : (s.modRd c f).gen = s.gen := rfl
@[simp] theorem State.modRd_power (s : State) (c : Nat) (f : ReductionUnit → ReductionUnit) : (s.modRd c f).power = s.power := rfl
@[simp] theorem State.modRd_busData (s : State) (c : Nat) (f : ReductionUnit → ReductionUnit) : (s.modRd c f).busData = s.busData := rfl
@[simp] theorem State.modRd_busLatch (s : State) (c : Nat) (f : ReductionUnit → ReductionUnit) : (s.modRd c f).busLatch = s.busLatch := rfl
@[simp] theorem State.modRd_freeCtr (s : State) (c : Nat) (f : ReductionUnit → ReductionUnit) : (s.modRd c f).freeCtr = s.freeCtr := rfl
@[simp] theorem State.modRd_pending (s : State) (c : Nat) (f : ReductionUnit → ReductionUnit) : (s.modRd c f).pending = s.pending := rfl

@[simp] theorem State.modSq_fuses (s : State) (c : Nat) (f : Sequencer → Sequencer) : (s.modSq c f).fuses = s.fuses := rfl
@[simp] theorem State.modSq_mem (s : State) (c : Nat) (f : Sequencer → Sequencer) : (s.modSq c f).mem = s.mem := rfl
@[simp] theorem State.modSq_upsets (s : State) (c : Nat) (f : Sequencer → Sequencer) : (s.modSq c f).upsets = s.upsets := rfl
@[simp] theorem State.modSq_clusters (s : State) (c : Nat) (f : Sequencer → Sequencer) : (s.modSq c f).clusters = s.clusters := rfl
@[simp] theorem State.modSq_pages (s : State) (c : Nat) (f : Sequencer → Sequencer) : (s.modSq c f).pages = s.pages := rfl
@[simp] theorem State.modSq_logs (s : State) (c : Nat) (f : Sequencer → Sequencer) : (s.modSq c f).logs = s.logs := rfl
@[simp] theorem State.modSq_ports (s : State) (c : Nat) (f : Sequencer → Sequencer) : (s.modSq c f).ports = s.ports := rfl
@[simp] theorem State.modSq_regions (s : State) (c : Nat) (f : Sequencer → Sequencer) : (s.modSq c f).regions = s.regions := rfl
@[simp] theorem State.modSq_dieClocks (s : State) (c : Nat) (f : Sequencer → Sequencer) : (s.modSq c f).dieClocks = s.dieClocks := rfl
@[simp] theorem State.modSq_clock (s : State) (c : Nat) (f : Sequencer → Sequencer) : (s.modSq c f).clock = s.clock := rfl
@[simp] theorem State.modSq_ledgers (s : State) (c : Nat) (f : Sequencer → Sequencer) : (s.modSq c f).ledgers = s.ledgers := rfl
@[simp] theorem State.modSq_ledger (s : State) (c : Nat) (f : Sequencer → Sequencer) : (s.modSq c f).ledger = s.ledger := rfl
@[simp] theorem State.modSq_windows (s : State) (c : Nat) (f : Sequencer → Sequencer) : (s.modSq c f).windows = s.windows := rfl
@[simp] theorem State.modSq_admitted (s : State) (c : Nat) (f : Sequencer → Sequencer) : (s.modSq c f).admitted = s.admitted := rfl
@[simp] theorem State.modSq_remote (s : State) (c : Nat) (f : Sequencer → Sequencer) : (s.modSq c f).remote = s.remote := rfl
@[simp] theorem State.modSq_win (s : State) (c : Nat) (f : Sequencer → Sequencer) : (s.modSq c f).win = s.win := rfl
@[simp] theorem State.modSq_tenants (s : State) (c : Nat) (f : Sequencer → Sequencer) : (s.modSq c f).tenants = s.tenants := rfl
@[simp] theorem State.modSq_slots (s : State) (c : Nat) (f : Sequencer → Sequencer) : (s.modSq c f).slots = s.slots := rfl
@[simp] theorem State.modSq_sessions (s : State) (c : Nat) (f : Sequencer → Sequencer) : (s.modSq c f).sessions = s.sessions := rfl
@[simp] theorem State.modSq_adm (s : State) (c : Nat) (f : Sequencer → Sequencer) : (s.modSq c f).adm = s.adm := rfl
@[simp] theorem State.modSq_fab (s : State) (c : Nat) (f : Sequencer → Sequencer) : (s.modSq c f).fab = s.fab := rfl
@[simp] theorem State.modSq_fports (s : State) (c : Nat) (f : Sequencer → Sequencer) : (s.modSq c f).fports = s.fports := rfl
@[simp] theorem State.modSq_routes (s : State) (c : Nat) (f : Sequencer → Sequencer) : (s.modSq c f).routes = s.routes := rfl
@[simp] theorem State.modSq_cartridges (s : State) (c : Nat) (f : Sequencer → Sequencer) : (s.modSq c f).cartridges = s.cartridges := rfl
@[simp] theorem State.modSq_engines (s : State) (c : Nat) (f : Sequencer → Sequencer) : (s.modSq c f).engines = s.engines := rfl
@[simp] theorem State.modSq_oeSel (s : State) (c : Nat) (f : Sequencer → Sequencer) : (s.modSq c f).oeSel = s.oeSel := rfl
@[simp] theorem State.modSq_editions (s : State) (c : Nat) (f : Sequencer → Sequencer) : (s.modSq c f).editions = s.editions := rfl
@[simp] theorem State.modSq_acc (s : State) (c : Nat) (f : Sequencer → Sequencer) : (s.modSq c f).acc = s.acc := rfl
@[simp] theorem State.modSq_accDie (s : State) (c : Nat) (f : Sequencer → Sequencer) : (s.modSq c f).accDie = s.accDie := rfl
@[simp] theorem State.modSq_charter (s : State) (c : Nat) (f : Sequencer → Sequencer) : (s.modSq c f).charter = s.charter := rfl
@[simp] theorem State.modSq_curators (s : State) (c : Nat) (f : Sequencer → Sequencer) : (s.modSq c f).curators = s.curators := rfl
@[simp] theorem State.modSq_fwCur (s : State) (c : Nat) (f : Sequencer → Sequencer) : (s.modSq c f).fwCur = s.fwCur := rfl
@[simp] theorem State.modSq_fwOpt (s : State) (c : Nat) (f : Sequencer → Sequencer) : (s.modSq c f).fwOpt = s.fwOpt := rfl
@[simp] theorem State.modSq_sec (s : State) (c : Nat) (f : Sequencer → Sequencer) : (s.modSq c f).sec = s.sec := rfl
@[simp] theorem State.modSq_gen (s : State) (c : Nat) (f : Sequencer → Sequencer) : (s.modSq c f).gen = s.gen := rfl
@[simp] theorem State.modSq_power (s : State) (c : Nat) (f : Sequencer → Sequencer) : (s.modSq c f).power = s.power := rfl
@[simp] theorem State.modSq_busData (s : State) (c : Nat) (f : Sequencer → Sequencer) : (s.modSq c f).busData = s.busData := rfl
@[simp] theorem State.modSq_busLatch (s : State) (c : Nat) (f : Sequencer → Sequencer) : (s.modSq c f).busLatch = s.busLatch := rfl
@[simp] theorem State.modSq_freeCtr (s : State) (c : Nat) (f : Sequencer → Sequencer) : (s.modSq c f).freeCtr = s.freeCtr := rfl
@[simp] theorem State.modSq_pending (s : State) (c : Nat) (f : Sequencer → Sequencer) : (s.modSq c f).pending = s.pending := rfl

@[simp] theorem State.modXf_fuses (s : State) (c : Nat) (f : TransferUnit → TransferUnit) : (s.modXf c f).fuses = s.fuses := rfl
@[simp] theorem State.modXf_mem (s : State) (c : Nat) (f : TransferUnit → TransferUnit) : (s.modXf c f).mem = s.mem := rfl
@[simp] theorem State.modXf_upsets (s : State) (c : Nat) (f : TransferUnit → TransferUnit) : (s.modXf c f).upsets = s.upsets := rfl
@[simp] theorem State.modXf_clusters (s : State) (c : Nat) (f : TransferUnit → TransferUnit) : (s.modXf c f).clusters = s.clusters := rfl
@[simp] theorem State.modXf_pages (s : State) (c : Nat) (f : TransferUnit → TransferUnit) : (s.modXf c f).pages = s.pages := rfl
@[simp] theorem State.modXf_logs (s : State) (c : Nat) (f : TransferUnit → TransferUnit) : (s.modXf c f).logs = s.logs := rfl
@[simp] theorem State.modXf_ports (s : State) (c : Nat) (f : TransferUnit → TransferUnit) : (s.modXf c f).ports = s.ports := rfl
@[simp] theorem State.modXf_regions (s : State) (c : Nat) (f : TransferUnit → TransferUnit) : (s.modXf c f).regions = s.regions := rfl
@[simp] theorem State.modXf_dieClocks (s : State) (c : Nat) (f : TransferUnit → TransferUnit) : (s.modXf c f).dieClocks = s.dieClocks := rfl
@[simp] theorem State.modXf_clock (s : State) (c : Nat) (f : TransferUnit → TransferUnit) : (s.modXf c f).clock = s.clock := rfl
@[simp] theorem State.modXf_ledgers (s : State) (c : Nat) (f : TransferUnit → TransferUnit) : (s.modXf c f).ledgers = s.ledgers := rfl
@[simp] theorem State.modXf_ledger (s : State) (c : Nat) (f : TransferUnit → TransferUnit) : (s.modXf c f).ledger = s.ledger := rfl
@[simp] theorem State.modXf_windows (s : State) (c : Nat) (f : TransferUnit → TransferUnit) : (s.modXf c f).windows = s.windows := rfl
@[simp] theorem State.modXf_admitted (s : State) (c : Nat) (f : TransferUnit → TransferUnit) : (s.modXf c f).admitted = s.admitted := rfl
@[simp] theorem State.modXf_remote (s : State) (c : Nat) (f : TransferUnit → TransferUnit) : (s.modXf c f).remote = s.remote := rfl
@[simp] theorem State.modXf_win (s : State) (c : Nat) (f : TransferUnit → TransferUnit) : (s.modXf c f).win = s.win := rfl
@[simp] theorem State.modXf_tenants (s : State) (c : Nat) (f : TransferUnit → TransferUnit) : (s.modXf c f).tenants = s.tenants := rfl
@[simp] theorem State.modXf_slots (s : State) (c : Nat) (f : TransferUnit → TransferUnit) : (s.modXf c f).slots = s.slots := rfl
@[simp] theorem State.modXf_sessions (s : State) (c : Nat) (f : TransferUnit → TransferUnit) : (s.modXf c f).sessions = s.sessions := rfl
@[simp] theorem State.modXf_adm (s : State) (c : Nat) (f : TransferUnit → TransferUnit) : (s.modXf c f).adm = s.adm := rfl
@[simp] theorem State.modXf_fab (s : State) (c : Nat) (f : TransferUnit → TransferUnit) : (s.modXf c f).fab = s.fab := rfl
@[simp] theorem State.modXf_fports (s : State) (c : Nat) (f : TransferUnit → TransferUnit) : (s.modXf c f).fports = s.fports := rfl
@[simp] theorem State.modXf_routes (s : State) (c : Nat) (f : TransferUnit → TransferUnit) : (s.modXf c f).routes = s.routes := rfl
@[simp] theorem State.modXf_cartridges (s : State) (c : Nat) (f : TransferUnit → TransferUnit) : (s.modXf c f).cartridges = s.cartridges := rfl
@[simp] theorem State.modXf_engines (s : State) (c : Nat) (f : TransferUnit → TransferUnit) : (s.modXf c f).engines = s.engines := rfl
@[simp] theorem State.modXf_oeSel (s : State) (c : Nat) (f : TransferUnit → TransferUnit) : (s.modXf c f).oeSel = s.oeSel := rfl
@[simp] theorem State.modXf_editions (s : State) (c : Nat) (f : TransferUnit → TransferUnit) : (s.modXf c f).editions = s.editions := rfl
@[simp] theorem State.modXf_acc (s : State) (c : Nat) (f : TransferUnit → TransferUnit) : (s.modXf c f).acc = s.acc := rfl
@[simp] theorem State.modXf_accDie (s : State) (c : Nat) (f : TransferUnit → TransferUnit) : (s.modXf c f).accDie = s.accDie := rfl
@[simp] theorem State.modXf_charter (s : State) (c : Nat) (f : TransferUnit → TransferUnit) : (s.modXf c f).charter = s.charter := rfl
@[simp] theorem State.modXf_curators (s : State) (c : Nat) (f : TransferUnit → TransferUnit) : (s.modXf c f).curators = s.curators := rfl
@[simp] theorem State.modXf_fwCur (s : State) (c : Nat) (f : TransferUnit → TransferUnit) : (s.modXf c f).fwCur = s.fwCur := rfl
@[simp] theorem State.modXf_fwOpt (s : State) (c : Nat) (f : TransferUnit → TransferUnit) : (s.modXf c f).fwOpt = s.fwOpt := rfl
@[simp] theorem State.modXf_sec (s : State) (c : Nat) (f : TransferUnit → TransferUnit) : (s.modXf c f).sec = s.sec := rfl
@[simp] theorem State.modXf_gen (s : State) (c : Nat) (f : TransferUnit → TransferUnit) : (s.modXf c f).gen = s.gen := rfl
@[simp] theorem State.modXf_power (s : State) (c : Nat) (f : TransferUnit → TransferUnit) : (s.modXf c f).power = s.power := rfl
@[simp] theorem State.modXf_busData (s : State) (c : Nat) (f : TransferUnit → TransferUnit) : (s.modXf c f).busData = s.busData := rfl
@[simp] theorem State.modXf_busLatch (s : State) (c : Nat) (f : TransferUnit → TransferUnit) : (s.modXf c f).busLatch = s.busLatch := rfl
@[simp] theorem State.modXf_freeCtr (s : State) (c : Nat) (f : TransferUnit → TransferUnit) : (s.modXf c f).freeCtr = s.freeCtr := rfl
@[simp] theorem State.modXf_pending (s : State) (c : Nat) (f : TransferUnit → TransferUnit) : (s.modXf c f).pending = s.pending := rfl

@[simp] theorem State.modCar_fuses (s : State) (c : Nat) (f : CarrelUnit → CarrelUnit) : (s.modCar c f).fuses = s.fuses := rfl
@[simp] theorem State.modCar_mem (s : State) (c : Nat) (f : CarrelUnit → CarrelUnit) : (s.modCar c f).mem = s.mem := rfl
@[simp] theorem State.modCar_upsets (s : State) (c : Nat) (f : CarrelUnit → CarrelUnit) : (s.modCar c f).upsets = s.upsets := rfl
@[simp] theorem State.modCar_clusters (s : State) (c : Nat) (f : CarrelUnit → CarrelUnit) : (s.modCar c f).clusters = s.clusters := rfl
@[simp] theorem State.modCar_pages (s : State) (c : Nat) (f : CarrelUnit → CarrelUnit) : (s.modCar c f).pages = s.pages := rfl
@[simp] theorem State.modCar_logs (s : State) (c : Nat) (f : CarrelUnit → CarrelUnit) : (s.modCar c f).logs = s.logs := rfl
@[simp] theorem State.modCar_ports (s : State) (c : Nat) (f : CarrelUnit → CarrelUnit) : (s.modCar c f).ports = s.ports := rfl
@[simp] theorem State.modCar_regions (s : State) (c : Nat) (f : CarrelUnit → CarrelUnit) : (s.modCar c f).regions = s.regions := rfl
@[simp] theorem State.modCar_dieClocks (s : State) (c : Nat) (f : CarrelUnit → CarrelUnit) : (s.modCar c f).dieClocks = s.dieClocks := rfl
@[simp] theorem State.modCar_clock (s : State) (c : Nat) (f : CarrelUnit → CarrelUnit) : (s.modCar c f).clock = s.clock := rfl
@[simp] theorem State.modCar_ledgers (s : State) (c : Nat) (f : CarrelUnit → CarrelUnit) : (s.modCar c f).ledgers = s.ledgers := rfl
@[simp] theorem State.modCar_ledger (s : State) (c : Nat) (f : CarrelUnit → CarrelUnit) : (s.modCar c f).ledger = s.ledger := rfl
@[simp] theorem State.modCar_windows (s : State) (c : Nat) (f : CarrelUnit → CarrelUnit) : (s.modCar c f).windows = s.windows := rfl
@[simp] theorem State.modCar_admitted (s : State) (c : Nat) (f : CarrelUnit → CarrelUnit) : (s.modCar c f).admitted = s.admitted := rfl
@[simp] theorem State.modCar_remote (s : State) (c : Nat) (f : CarrelUnit → CarrelUnit) : (s.modCar c f).remote = s.remote := rfl
@[simp] theorem State.modCar_win (s : State) (c : Nat) (f : CarrelUnit → CarrelUnit) : (s.modCar c f).win = s.win := rfl
@[simp] theorem State.modCar_tenants (s : State) (c : Nat) (f : CarrelUnit → CarrelUnit) : (s.modCar c f).tenants = s.tenants := rfl
@[simp] theorem State.modCar_slots (s : State) (c : Nat) (f : CarrelUnit → CarrelUnit) : (s.modCar c f).slots = s.slots := rfl
@[simp] theorem State.modCar_sessions (s : State) (c : Nat) (f : CarrelUnit → CarrelUnit) : (s.modCar c f).sessions = s.sessions := rfl
@[simp] theorem State.modCar_adm (s : State) (c : Nat) (f : CarrelUnit → CarrelUnit) : (s.modCar c f).adm = s.adm := rfl
@[simp] theorem State.modCar_fab (s : State) (c : Nat) (f : CarrelUnit → CarrelUnit) : (s.modCar c f).fab = s.fab := rfl
@[simp] theorem State.modCar_fports (s : State) (c : Nat) (f : CarrelUnit → CarrelUnit) : (s.modCar c f).fports = s.fports := rfl
@[simp] theorem State.modCar_routes (s : State) (c : Nat) (f : CarrelUnit → CarrelUnit) : (s.modCar c f).routes = s.routes := rfl
@[simp] theorem State.modCar_cartridges (s : State) (c : Nat) (f : CarrelUnit → CarrelUnit) : (s.modCar c f).cartridges = s.cartridges := rfl
@[simp] theorem State.modCar_engines (s : State) (c : Nat) (f : CarrelUnit → CarrelUnit) : (s.modCar c f).engines = s.engines := rfl
@[simp] theorem State.modCar_oeSel (s : State) (c : Nat) (f : CarrelUnit → CarrelUnit) : (s.modCar c f).oeSel = s.oeSel := rfl
@[simp] theorem State.modCar_editions (s : State) (c : Nat) (f : CarrelUnit → CarrelUnit) : (s.modCar c f).editions = s.editions := rfl
@[simp] theorem State.modCar_acc (s : State) (c : Nat) (f : CarrelUnit → CarrelUnit) : (s.modCar c f).acc = s.acc := rfl
@[simp] theorem State.modCar_accDie (s : State) (c : Nat) (f : CarrelUnit → CarrelUnit) : (s.modCar c f).accDie = s.accDie := rfl
@[simp] theorem State.modCar_charter (s : State) (c : Nat) (f : CarrelUnit → CarrelUnit) : (s.modCar c f).charter = s.charter := rfl
@[simp] theorem State.modCar_curators (s : State) (c : Nat) (f : CarrelUnit → CarrelUnit) : (s.modCar c f).curators = s.curators := rfl
@[simp] theorem State.modCar_fwCur (s : State) (c : Nat) (f : CarrelUnit → CarrelUnit) : (s.modCar c f).fwCur = s.fwCur := rfl
@[simp] theorem State.modCar_fwOpt (s : State) (c : Nat) (f : CarrelUnit → CarrelUnit) : (s.modCar c f).fwOpt = s.fwOpt := rfl
@[simp] theorem State.modCar_sec (s : State) (c : Nat) (f : CarrelUnit → CarrelUnit) : (s.modCar c f).sec = s.sec := rfl
@[simp] theorem State.modCar_gen (s : State) (c : Nat) (f : CarrelUnit → CarrelUnit) : (s.modCar c f).gen = s.gen := rfl
@[simp] theorem State.modCar_power (s : State) (c : Nat) (f : CarrelUnit → CarrelUnit) : (s.modCar c f).power = s.power := rfl
@[simp] theorem State.modCar_busData (s : State) (c : Nat) (f : CarrelUnit → CarrelUnit) : (s.modCar c f).busData = s.busData := rfl
@[simp] theorem State.modCar_busLatch (s : State) (c : Nat) (f : CarrelUnit → CarrelUnit) : (s.modCar c f).busLatch = s.busLatch := rfl
@[simp] theorem State.modCar_freeCtr (s : State) (c : Nat) (f : CarrelUnit → CarrelUnit) : (s.modCar c f).freeCtr = s.freeCtr := rfl
@[simp] theorem State.modCar_pending (s : State) (c : Nat) (f : CarrelUnit → CarrelUnit) : (s.modCar c f).pending = s.pending := rfl

@[simp] theorem State.modQueue_fuses (s : State) (c q : Nat) (f : Endpoint → Endpoint) : (s.modQueue c q f).fuses = s.fuses := rfl
@[simp] theorem State.modQueue_mem (s : State) (c q : Nat) (f : Endpoint → Endpoint) : (s.modQueue c q f).mem = s.mem := rfl
@[simp] theorem State.modQueue_upsets (s : State) (c q : Nat) (f : Endpoint → Endpoint) : (s.modQueue c q f).upsets = s.upsets := rfl
@[simp] theorem State.modQueue_clusters (s : State) (c q : Nat) (f : Endpoint → Endpoint) : (s.modQueue c q f).clusters = s.clusters := rfl
@[simp] theorem State.modQueue_pages (s : State) (c q : Nat) (f : Endpoint → Endpoint) : (s.modQueue c q f).pages = s.pages := rfl
@[simp] theorem State.modQueue_logs (s : State) (c q : Nat) (f : Endpoint → Endpoint) : (s.modQueue c q f).logs = s.logs := rfl
@[simp] theorem State.modQueue_ports (s : State) (c q : Nat) (f : Endpoint → Endpoint) : (s.modQueue c q f).ports = s.ports := rfl
@[simp] theorem State.modQueue_regions (s : State) (c q : Nat) (f : Endpoint → Endpoint) : (s.modQueue c q f).regions = s.regions := rfl
@[simp] theorem State.modQueue_dieClocks (s : State) (c q : Nat) (f : Endpoint → Endpoint) : (s.modQueue c q f).dieClocks = s.dieClocks := rfl
@[simp] theorem State.modQueue_clock (s : State) (c q : Nat) (f : Endpoint → Endpoint) : (s.modQueue c q f).clock = s.clock := rfl
@[simp] theorem State.modQueue_ledgers (s : State) (c q : Nat) (f : Endpoint → Endpoint) : (s.modQueue c q f).ledgers = s.ledgers := rfl
@[simp] theorem State.modQueue_ledger (s : State) (c q : Nat) (f : Endpoint → Endpoint) : (s.modQueue c q f).ledger = s.ledger := rfl
@[simp] theorem State.modQueue_windows (s : State) (c q : Nat) (f : Endpoint → Endpoint) : (s.modQueue c q f).windows = s.windows := rfl
@[simp] theorem State.modQueue_admitted (s : State) (c q : Nat) (f : Endpoint → Endpoint) : (s.modQueue c q f).admitted = s.admitted := rfl
@[simp] theorem State.modQueue_remote (s : State) (c q : Nat) (f : Endpoint → Endpoint) : (s.modQueue c q f).remote = s.remote := rfl
@[simp] theorem State.modQueue_win (s : State) (c q : Nat) (f : Endpoint → Endpoint) : (s.modQueue c q f).win = s.win := rfl
@[simp] theorem State.modQueue_tenants (s : State) (c q : Nat) (f : Endpoint → Endpoint) : (s.modQueue c q f).tenants = s.tenants := rfl
@[simp] theorem State.modQueue_slots (s : State) (c q : Nat) (f : Endpoint → Endpoint) : (s.modQueue c q f).slots = s.slots := rfl
@[simp] theorem State.modQueue_sessions (s : State) (c q : Nat) (f : Endpoint → Endpoint) : (s.modQueue c q f).sessions = s.sessions := rfl
@[simp] theorem State.modQueue_adm (s : State) (c q : Nat) (f : Endpoint → Endpoint) : (s.modQueue c q f).adm = s.adm := rfl
@[simp] theorem State.modQueue_fab (s : State) (c q : Nat) (f : Endpoint → Endpoint) : (s.modQueue c q f).fab = s.fab := rfl
@[simp] theorem State.modQueue_fports (s : State) (c q : Nat) (f : Endpoint → Endpoint) : (s.modQueue c q f).fports = s.fports := rfl
@[simp] theorem State.modQueue_routes (s : State) (c q : Nat) (f : Endpoint → Endpoint) : (s.modQueue c q f).routes = s.routes := rfl
@[simp] theorem State.modQueue_cartridges (s : State) (c q : Nat) (f : Endpoint → Endpoint) : (s.modQueue c q f).cartridges = s.cartridges := rfl
@[simp] theorem State.modQueue_engines (s : State) (c q : Nat) (f : Endpoint → Endpoint) : (s.modQueue c q f).engines = s.engines := rfl
@[simp] theorem State.modQueue_oeSel (s : State) (c q : Nat) (f : Endpoint → Endpoint) : (s.modQueue c q f).oeSel = s.oeSel := rfl
@[simp] theorem State.modQueue_editions (s : State) (c q : Nat) (f : Endpoint → Endpoint) : (s.modQueue c q f).editions = s.editions := rfl
@[simp] theorem State.modQueue_acc (s : State) (c q : Nat) (f : Endpoint → Endpoint) : (s.modQueue c q f).acc = s.acc := rfl
@[simp] theorem State.modQueue_accDie (s : State) (c q : Nat) (f : Endpoint → Endpoint) : (s.modQueue c q f).accDie = s.accDie := rfl
@[simp] theorem State.modQueue_charter (s : State) (c q : Nat) (f : Endpoint → Endpoint) : (s.modQueue c q f).charter = s.charter := rfl
@[simp] theorem State.modQueue_curators (s : State) (c q : Nat) (f : Endpoint → Endpoint) : (s.modQueue c q f).curators = s.curators := rfl
@[simp] theorem State.modQueue_fwCur (s : State) (c q : Nat) (f : Endpoint → Endpoint) : (s.modQueue c q f).fwCur = s.fwCur := rfl
@[simp] theorem State.modQueue_fwOpt (s : State) (c q : Nat) (f : Endpoint → Endpoint) : (s.modQueue c q f).fwOpt = s.fwOpt := rfl
@[simp] theorem State.modQueue_sec (s : State) (c q : Nat) (f : Endpoint → Endpoint) : (s.modQueue c q f).sec = s.sec := rfl
@[simp] theorem State.modQueue_gen (s : State) (c q : Nat) (f : Endpoint → Endpoint) : (s.modQueue c q f).gen = s.gen := rfl
@[simp] theorem State.modQueue_power (s : State) (c q : Nat) (f : Endpoint → Endpoint) : (s.modQueue c q f).power = s.power := rfl
@[simp] theorem State.modQueue_busData (s : State) (c q : Nat) (f : Endpoint → Endpoint) : (s.modQueue c q f).busData = s.busData := rfl
@[simp] theorem State.modQueue_busLatch (s : State) (c q : Nat) (f : Endpoint → Endpoint) : (s.modQueue c q f).busLatch = s.busLatch := rfl
@[simp] theorem State.modQueue_freeCtr (s : State) (c q : Nat) (f : Endpoint → Endpoint) : (s.modQueue c q f).freeCtr = s.freeCtr := rfl
@[simp] theorem State.modQueue_pending (s : State) (c q : Nat) (f : Endpoint → Endpoint) : (s.modQueue c q f).pending = s.pending := rfl

@[simp] theorem State.modCluster_fuses (s : State) (c : Nat) (f : Cluster → Cluster) : (s.modCluster c f).fuses = s.fuses := rfl
@[simp] theorem State.modCluster_mem (s : State) (c : Nat) (f : Cluster → Cluster) : (s.modCluster c f).mem = s.mem := rfl
@[simp] theorem State.modCluster_upsets (s : State) (c : Nat) (f : Cluster → Cluster) : (s.modCluster c f).upsets = s.upsets := rfl
@[simp] theorem State.modCluster_cores (s : State) (c : Nat) (f : Cluster → Cluster) : (s.modCluster c f).cores = s.cores := rfl
@[simp] theorem State.modCluster_pages (s : State) (c : Nat) (f : Cluster → Cluster) : (s.modCluster c f).pages = s.pages := rfl
@[simp] theorem State.modCluster_logs (s : State) (c : Nat) (f : Cluster → Cluster) : (s.modCluster c f).logs = s.logs := rfl
@[simp] theorem State.modCluster_ports (s : State) (c : Nat) (f : Cluster → Cluster) : (s.modCluster c f).ports = s.ports := rfl
@[simp] theorem State.modCluster_regions (s : State) (c : Nat) (f : Cluster → Cluster) : (s.modCluster c f).regions = s.regions := rfl
@[simp] theorem State.modCluster_dieClocks (s : State) (c : Nat) (f : Cluster → Cluster) : (s.modCluster c f).dieClocks = s.dieClocks := rfl
@[simp] theorem State.modCluster_clock (s : State) (c : Nat) (f : Cluster → Cluster) : (s.modCluster c f).clock = s.clock := rfl
@[simp] theorem State.modCluster_ledgers (s : State) (c : Nat) (f : Cluster → Cluster) : (s.modCluster c f).ledgers = s.ledgers := rfl
@[simp] theorem State.modCluster_ledger (s : State) (c : Nat) (f : Cluster → Cluster) : (s.modCluster c f).ledger = s.ledger := rfl
@[simp] theorem State.modCluster_windows (s : State) (c : Nat) (f : Cluster → Cluster) : (s.modCluster c f).windows = s.windows := rfl
@[simp] theorem State.modCluster_admitted (s : State) (c : Nat) (f : Cluster → Cluster) : (s.modCluster c f).admitted = s.admitted := rfl
@[simp] theorem State.modCluster_remote (s : State) (c : Nat) (f : Cluster → Cluster) : (s.modCluster c f).remote = s.remote := rfl
@[simp] theorem State.modCluster_win (s : State) (c : Nat) (f : Cluster → Cluster) : (s.modCluster c f).win = s.win := rfl
@[simp] theorem State.modCluster_tenants (s : State) (c : Nat) (f : Cluster → Cluster) : (s.modCluster c f).tenants = s.tenants := rfl
@[simp] theorem State.modCluster_slots (s : State) (c : Nat) (f : Cluster → Cluster) : (s.modCluster c f).slots = s.slots := rfl
@[simp] theorem State.modCluster_sessions (s : State) (c : Nat) (f : Cluster → Cluster) : (s.modCluster c f).sessions = s.sessions := rfl
@[simp] theorem State.modCluster_adm (s : State) (c : Nat) (f : Cluster → Cluster) : (s.modCluster c f).adm = s.adm := rfl
@[simp] theorem State.modCluster_fab (s : State) (c : Nat) (f : Cluster → Cluster) : (s.modCluster c f).fab = s.fab := rfl
@[simp] theorem State.modCluster_fports (s : State) (c : Nat) (f : Cluster → Cluster) : (s.modCluster c f).fports = s.fports := rfl
@[simp] theorem State.modCluster_routes (s : State) (c : Nat) (f : Cluster → Cluster) : (s.modCluster c f).routes = s.routes := rfl
@[simp] theorem State.modCluster_cartridges (s : State) (c : Nat) (f : Cluster → Cluster) : (s.modCluster c f).cartridges = s.cartridges := rfl
@[simp] theorem State.modCluster_engines (s : State) (c : Nat) (f : Cluster → Cluster) : (s.modCluster c f).engines = s.engines := rfl
@[simp] theorem State.modCluster_oeSel (s : State) (c : Nat) (f : Cluster → Cluster) : (s.modCluster c f).oeSel = s.oeSel := rfl
@[simp] theorem State.modCluster_editions (s : State) (c : Nat) (f : Cluster → Cluster) : (s.modCluster c f).editions = s.editions := rfl
@[simp] theorem State.modCluster_acc (s : State) (c : Nat) (f : Cluster → Cluster) : (s.modCluster c f).acc = s.acc := rfl
@[simp] theorem State.modCluster_accDie (s : State) (c : Nat) (f : Cluster → Cluster) : (s.modCluster c f).accDie = s.accDie := rfl
@[simp] theorem State.modCluster_charter (s : State) (c : Nat) (f : Cluster → Cluster) : (s.modCluster c f).charter = s.charter := rfl
@[simp] theorem State.modCluster_curators (s : State) (c : Nat) (f : Cluster → Cluster) : (s.modCluster c f).curators = s.curators := rfl
@[simp] theorem State.modCluster_fwCur (s : State) (c : Nat) (f : Cluster → Cluster) : (s.modCluster c f).fwCur = s.fwCur := rfl
@[simp] theorem State.modCluster_fwOpt (s : State) (c : Nat) (f : Cluster → Cluster) : (s.modCluster c f).fwOpt = s.fwOpt := rfl
@[simp] theorem State.modCluster_sec (s : State) (c : Nat) (f : Cluster → Cluster) : (s.modCluster c f).sec = s.sec := rfl
@[simp] theorem State.modCluster_gen (s : State) (c : Nat) (f : Cluster → Cluster) : (s.modCluster c f).gen = s.gen := rfl
@[simp] theorem State.modCluster_power (s : State) (c : Nat) (f : Cluster → Cluster) : (s.modCluster c f).power = s.power := rfl
@[simp] theorem State.modCluster_busData (s : State) (c : Nat) (f : Cluster → Cluster) : (s.modCluster c f).busData = s.busData := rfl
@[simp] theorem State.modCluster_busLatch (s : State) (c : Nat) (f : Cluster → Cluster) : (s.modCluster c f).busLatch = s.busLatch := rfl
@[simp] theorem State.modCluster_freeCtr (s : State) (c : Nat) (f : Cluster → Cluster) : (s.modCluster c f).freeCtr = s.freeCtr := rfl
@[simp] theorem State.modCluster_pending (s : State) (c : Nat) (f : Cluster → Cluster) : (s.modCluster c f).pending = s.pending := rfl

@[simp] theorem State.modRing_fuses (s : State) (c r : Nat) (f : Ring → Ring) : (s.modRing c r f).fuses = s.fuses := rfl
@[simp] theorem State.modRing_mem (s : State) (c r : Nat) (f : Ring → Ring) : (s.modRing c r f).mem = s.mem := rfl
@[simp] theorem State.modRing_upsets (s : State) (c r : Nat) (f : Ring → Ring) : (s.modRing c r f).upsets = s.upsets := rfl
@[simp] theorem State.modRing_cores (s : State) (c r : Nat) (f : Ring → Ring) : (s.modRing c r f).cores = s.cores := rfl
@[simp] theorem State.modRing_pages (s : State) (c r : Nat) (f : Ring → Ring) : (s.modRing c r f).pages = s.pages := rfl
@[simp] theorem State.modRing_logs (s : State) (c r : Nat) (f : Ring → Ring) : (s.modRing c r f).logs = s.logs := rfl
@[simp] theorem State.modRing_ports (s : State) (c r : Nat) (f : Ring → Ring) : (s.modRing c r f).ports = s.ports := rfl
@[simp] theorem State.modRing_regions (s : State) (c r : Nat) (f : Ring → Ring) : (s.modRing c r f).regions = s.regions := rfl
@[simp] theorem State.modRing_dieClocks (s : State) (c r : Nat) (f : Ring → Ring) : (s.modRing c r f).dieClocks = s.dieClocks := rfl
@[simp] theorem State.modRing_clock (s : State) (c r : Nat) (f : Ring → Ring) : (s.modRing c r f).clock = s.clock := rfl
@[simp] theorem State.modRing_ledgers (s : State) (c r : Nat) (f : Ring → Ring) : (s.modRing c r f).ledgers = s.ledgers := rfl
@[simp] theorem State.modRing_ledger (s : State) (c r : Nat) (f : Ring → Ring) : (s.modRing c r f).ledger = s.ledger := rfl
@[simp] theorem State.modRing_windows (s : State) (c r : Nat) (f : Ring → Ring) : (s.modRing c r f).windows = s.windows := rfl
@[simp] theorem State.modRing_admitted (s : State) (c r : Nat) (f : Ring → Ring) : (s.modRing c r f).admitted = s.admitted := rfl
@[simp] theorem State.modRing_remote (s : State) (c r : Nat) (f : Ring → Ring) : (s.modRing c r f).remote = s.remote := rfl
@[simp] theorem State.modRing_win (s : State) (c r : Nat) (f : Ring → Ring) : (s.modRing c r f).win = s.win := rfl
@[simp] theorem State.modRing_tenants (s : State) (c r : Nat) (f : Ring → Ring) : (s.modRing c r f).tenants = s.tenants := rfl
@[simp] theorem State.modRing_slots (s : State) (c r : Nat) (f : Ring → Ring) : (s.modRing c r f).slots = s.slots := rfl
@[simp] theorem State.modRing_sessions (s : State) (c r : Nat) (f : Ring → Ring) : (s.modRing c r f).sessions = s.sessions := rfl
@[simp] theorem State.modRing_adm (s : State) (c r : Nat) (f : Ring → Ring) : (s.modRing c r f).adm = s.adm := rfl
@[simp] theorem State.modRing_fab (s : State) (c r : Nat) (f : Ring → Ring) : (s.modRing c r f).fab = s.fab := rfl
@[simp] theorem State.modRing_fports (s : State) (c r : Nat) (f : Ring → Ring) : (s.modRing c r f).fports = s.fports := rfl
@[simp] theorem State.modRing_routes (s : State) (c r : Nat) (f : Ring → Ring) : (s.modRing c r f).routes = s.routes := rfl
@[simp] theorem State.modRing_cartridges (s : State) (c r : Nat) (f : Ring → Ring) : (s.modRing c r f).cartridges = s.cartridges := rfl
@[simp] theorem State.modRing_engines (s : State) (c r : Nat) (f : Ring → Ring) : (s.modRing c r f).engines = s.engines := rfl
@[simp] theorem State.modRing_oeSel (s : State) (c r : Nat) (f : Ring → Ring) : (s.modRing c r f).oeSel = s.oeSel := rfl
@[simp] theorem State.modRing_editions (s : State) (c r : Nat) (f : Ring → Ring) : (s.modRing c r f).editions = s.editions := rfl
@[simp] theorem State.modRing_acc (s : State) (c r : Nat) (f : Ring → Ring) : (s.modRing c r f).acc = s.acc := rfl
@[simp] theorem State.modRing_accDie (s : State) (c r : Nat) (f : Ring → Ring) : (s.modRing c r f).accDie = s.accDie := rfl
@[simp] theorem State.modRing_charter (s : State) (c r : Nat) (f : Ring → Ring) : (s.modRing c r f).charter = s.charter := rfl
@[simp] theorem State.modRing_curators (s : State) (c r : Nat) (f : Ring → Ring) : (s.modRing c r f).curators = s.curators := rfl
@[simp] theorem State.modRing_fwCur (s : State) (c r : Nat) (f : Ring → Ring) : (s.modRing c r f).fwCur = s.fwCur := rfl
@[simp] theorem State.modRing_fwOpt (s : State) (c r : Nat) (f : Ring → Ring) : (s.modRing c r f).fwOpt = s.fwOpt := rfl
@[simp] theorem State.modRing_sec (s : State) (c r : Nat) (f : Ring → Ring) : (s.modRing c r f).sec = s.sec := rfl
@[simp] theorem State.modRing_gen (s : State) (c r : Nat) (f : Ring → Ring) : (s.modRing c r f).gen = s.gen := rfl
@[simp] theorem State.modRing_power (s : State) (c r : Nat) (f : Ring → Ring) : (s.modRing c r f).power = s.power := rfl
@[simp] theorem State.modRing_busData (s : State) (c r : Nat) (f : Ring → Ring) : (s.modRing c r f).busData = s.busData := rfl
@[simp] theorem State.modRing_busLatch (s : State) (c r : Nat) (f : Ring → Ring) : (s.modRing c r f).busLatch = s.busLatch := rfl
@[simp] theorem State.modRing_freeCtr (s : State) (c r : Nat) (f : Ring → Ring) : (s.modRing c r f).freeCtr = s.freeCtr := rfl
@[simp] theorem State.modRing_pending (s : State) (c r : Nat) (f : Ring → Ring) : (s.modRing c r f).pending = s.pending := rfl

@[simp] theorem State.modPart_fuses (s : State) (c p : Nat) (f : Part → Part) : (s.modPart c p f).fuses = s.fuses := rfl
@[simp] theorem State.modPart_mem (s : State) (c p : Nat) (f : Part → Part) : (s.modPart c p f).mem = s.mem := rfl
@[simp] theorem State.modPart_upsets (s : State) (c p : Nat) (f : Part → Part) : (s.modPart c p f).upsets = s.upsets := rfl
@[simp] theorem State.modPart_cores (s : State) (c p : Nat) (f : Part → Part) : (s.modPart c p f).cores = s.cores := rfl
@[simp] theorem State.modPart_pages (s : State) (c p : Nat) (f : Part → Part) : (s.modPart c p f).pages = s.pages := rfl
@[simp] theorem State.modPart_logs (s : State) (c p : Nat) (f : Part → Part) : (s.modPart c p f).logs = s.logs := rfl
@[simp] theorem State.modPart_ports (s : State) (c p : Nat) (f : Part → Part) : (s.modPart c p f).ports = s.ports := rfl
@[simp] theorem State.modPart_regions (s : State) (c p : Nat) (f : Part → Part) : (s.modPart c p f).regions = s.regions := rfl
@[simp] theorem State.modPart_dieClocks (s : State) (c p : Nat) (f : Part → Part) : (s.modPart c p f).dieClocks = s.dieClocks := rfl
@[simp] theorem State.modPart_clock (s : State) (c p : Nat) (f : Part → Part) : (s.modPart c p f).clock = s.clock := rfl
@[simp] theorem State.modPart_ledgers (s : State) (c p : Nat) (f : Part → Part) : (s.modPart c p f).ledgers = s.ledgers := rfl
@[simp] theorem State.modPart_ledger (s : State) (c p : Nat) (f : Part → Part) : (s.modPart c p f).ledger = s.ledger := rfl
@[simp] theorem State.modPart_windows (s : State) (c p : Nat) (f : Part → Part) : (s.modPart c p f).windows = s.windows := rfl
@[simp] theorem State.modPart_admitted (s : State) (c p : Nat) (f : Part → Part) : (s.modPart c p f).admitted = s.admitted := rfl
@[simp] theorem State.modPart_remote (s : State) (c p : Nat) (f : Part → Part) : (s.modPart c p f).remote = s.remote := rfl
@[simp] theorem State.modPart_win (s : State) (c p : Nat) (f : Part → Part) : (s.modPart c p f).win = s.win := rfl
@[simp] theorem State.modPart_tenants (s : State) (c p : Nat) (f : Part → Part) : (s.modPart c p f).tenants = s.tenants := rfl
@[simp] theorem State.modPart_slots (s : State) (c p : Nat) (f : Part → Part) : (s.modPart c p f).slots = s.slots := rfl
@[simp] theorem State.modPart_sessions (s : State) (c p : Nat) (f : Part → Part) : (s.modPart c p f).sessions = s.sessions := rfl
@[simp] theorem State.modPart_adm (s : State) (c p : Nat) (f : Part → Part) : (s.modPart c p f).adm = s.adm := rfl
@[simp] theorem State.modPart_fab (s : State) (c p : Nat) (f : Part → Part) : (s.modPart c p f).fab = s.fab := rfl
@[simp] theorem State.modPart_fports (s : State) (c p : Nat) (f : Part → Part) : (s.modPart c p f).fports = s.fports := rfl
@[simp] theorem State.modPart_routes (s : State) (c p : Nat) (f : Part → Part) : (s.modPart c p f).routes = s.routes := rfl
@[simp] theorem State.modPart_cartridges (s : State) (c p : Nat) (f : Part → Part) : (s.modPart c p f).cartridges = s.cartridges := rfl
@[simp] theorem State.modPart_engines (s : State) (c p : Nat) (f : Part → Part) : (s.modPart c p f).engines = s.engines := rfl
@[simp] theorem State.modPart_oeSel (s : State) (c p : Nat) (f : Part → Part) : (s.modPart c p f).oeSel = s.oeSel := rfl
@[simp] theorem State.modPart_editions (s : State) (c p : Nat) (f : Part → Part) : (s.modPart c p f).editions = s.editions := rfl
@[simp] theorem State.modPart_acc (s : State) (c p : Nat) (f : Part → Part) : (s.modPart c p f).acc = s.acc := rfl
@[simp] theorem State.modPart_accDie (s : State) (c p : Nat) (f : Part → Part) : (s.modPart c p f).accDie = s.accDie := rfl
@[simp] theorem State.modPart_charter (s : State) (c p : Nat) (f : Part → Part) : (s.modPart c p f).charter = s.charter := rfl
@[simp] theorem State.modPart_curators (s : State) (c p : Nat) (f : Part → Part) : (s.modPart c p f).curators = s.curators := rfl
@[simp] theorem State.modPart_fwCur (s : State) (c p : Nat) (f : Part → Part) : (s.modPart c p f).fwCur = s.fwCur := rfl
@[simp] theorem State.modPart_fwOpt (s : State) (c p : Nat) (f : Part → Part) : (s.modPart c p f).fwOpt = s.fwOpt := rfl
@[simp] theorem State.modPart_sec (s : State) (c p : Nat) (f : Part → Part) : (s.modPart c p f).sec = s.sec := rfl
@[simp] theorem State.modPart_gen (s : State) (c p : Nat) (f : Part → Part) : (s.modPart c p f).gen = s.gen := rfl
@[simp] theorem State.modPart_power (s : State) (c p : Nat) (f : Part → Part) : (s.modPart c p f).power = s.power := rfl
@[simp] theorem State.modPart_busData (s : State) (c p : Nat) (f : Part → Part) : (s.modPart c p f).busData = s.busData := rfl
@[simp] theorem State.modPart_busLatch (s : State) (c p : Nat) (f : Part → Part) : (s.modPart c p f).busLatch = s.busLatch := rfl
@[simp] theorem State.modPart_freeCtr (s : State) (c p : Nat) (f : Part → Part) : (s.modPart c p f).freeCtr = s.freeCtr := rfl
@[simp] theorem State.modPart_pending (s : State) (c p : Nat) (f : Part → Part) : (s.modPart c p f).pending = s.pending := rfl

@[simp] theorem State.modPage_fuses (s : State) (p : Nat) (f : PageHdr → PageHdr) : (s.modPage p f).fuses = s.fuses := rfl
@[simp] theorem State.modPage_mem (s : State) (p : Nat) (f : PageHdr → PageHdr) : (s.modPage p f).mem = s.mem := rfl
@[simp] theorem State.modPage_upsets (s : State) (p : Nat) (f : PageHdr → PageHdr) : (s.modPage p f).upsets = s.upsets := rfl
@[simp] theorem State.modPage_cores (s : State) (p : Nat) (f : PageHdr → PageHdr) : (s.modPage p f).cores = s.cores := rfl
@[simp] theorem State.modPage_clusters (s : State) (p : Nat) (f : PageHdr → PageHdr) : (s.modPage p f).clusters = s.clusters := rfl
@[simp] theorem State.modPage_logs (s : State) (p : Nat) (f : PageHdr → PageHdr) : (s.modPage p f).logs = s.logs := rfl
@[simp] theorem State.modPage_ports (s : State) (p : Nat) (f : PageHdr → PageHdr) : (s.modPage p f).ports = s.ports := rfl
@[simp] theorem State.modPage_regions (s : State) (p : Nat) (f : PageHdr → PageHdr) : (s.modPage p f).regions = s.regions := rfl
@[simp] theorem State.modPage_dieClocks (s : State) (p : Nat) (f : PageHdr → PageHdr) : (s.modPage p f).dieClocks = s.dieClocks := rfl
@[simp] theorem State.modPage_clock (s : State) (p : Nat) (f : PageHdr → PageHdr) : (s.modPage p f).clock = s.clock := rfl
@[simp] theorem State.modPage_ledgers (s : State) (p : Nat) (f : PageHdr → PageHdr) : (s.modPage p f).ledgers = s.ledgers := rfl
@[simp] theorem State.modPage_ledger (s : State) (p : Nat) (f : PageHdr → PageHdr) : (s.modPage p f).ledger = s.ledger := rfl
@[simp] theorem State.modPage_windows (s : State) (p : Nat) (f : PageHdr → PageHdr) : (s.modPage p f).windows = s.windows := rfl
@[simp] theorem State.modPage_admitted (s : State) (p : Nat) (f : PageHdr → PageHdr) : (s.modPage p f).admitted = s.admitted := rfl
@[simp] theorem State.modPage_remote (s : State) (p : Nat) (f : PageHdr → PageHdr) : (s.modPage p f).remote = s.remote := rfl
@[simp] theorem State.modPage_win (s : State) (p : Nat) (f : PageHdr → PageHdr) : (s.modPage p f).win = s.win := rfl
@[simp] theorem State.modPage_tenants (s : State) (p : Nat) (f : PageHdr → PageHdr) : (s.modPage p f).tenants = s.tenants := rfl
@[simp] theorem State.modPage_slots (s : State) (p : Nat) (f : PageHdr → PageHdr) : (s.modPage p f).slots = s.slots := rfl
@[simp] theorem State.modPage_sessions (s : State) (p : Nat) (f : PageHdr → PageHdr) : (s.modPage p f).sessions = s.sessions := rfl
@[simp] theorem State.modPage_adm (s : State) (p : Nat) (f : PageHdr → PageHdr) : (s.modPage p f).adm = s.adm := rfl
@[simp] theorem State.modPage_fab (s : State) (p : Nat) (f : PageHdr → PageHdr) : (s.modPage p f).fab = s.fab := rfl
@[simp] theorem State.modPage_fports (s : State) (p : Nat) (f : PageHdr → PageHdr) : (s.modPage p f).fports = s.fports := rfl
@[simp] theorem State.modPage_routes (s : State) (p : Nat) (f : PageHdr → PageHdr) : (s.modPage p f).routes = s.routes := rfl
@[simp] theorem State.modPage_cartridges (s : State) (p : Nat) (f : PageHdr → PageHdr) : (s.modPage p f).cartridges = s.cartridges := rfl
@[simp] theorem State.modPage_engines (s : State) (p : Nat) (f : PageHdr → PageHdr) : (s.modPage p f).engines = s.engines := rfl
@[simp] theorem State.modPage_oeSel (s : State) (p : Nat) (f : PageHdr → PageHdr) : (s.modPage p f).oeSel = s.oeSel := rfl
@[simp] theorem State.modPage_editions (s : State) (p : Nat) (f : PageHdr → PageHdr) : (s.modPage p f).editions = s.editions := rfl
@[simp] theorem State.modPage_acc (s : State) (p : Nat) (f : PageHdr → PageHdr) : (s.modPage p f).acc = s.acc := rfl
@[simp] theorem State.modPage_accDie (s : State) (p : Nat) (f : PageHdr → PageHdr) : (s.modPage p f).accDie = s.accDie := rfl
@[simp] theorem State.modPage_charter (s : State) (p : Nat) (f : PageHdr → PageHdr) : (s.modPage p f).charter = s.charter := rfl
@[simp] theorem State.modPage_curators (s : State) (p : Nat) (f : PageHdr → PageHdr) : (s.modPage p f).curators = s.curators := rfl
@[simp] theorem State.modPage_fwCur (s : State) (p : Nat) (f : PageHdr → PageHdr) : (s.modPage p f).fwCur = s.fwCur := rfl
@[simp] theorem State.modPage_fwOpt (s : State) (p : Nat) (f : PageHdr → PageHdr) : (s.modPage p f).fwOpt = s.fwOpt := rfl
@[simp] theorem State.modPage_sec (s : State) (p : Nat) (f : PageHdr → PageHdr) : (s.modPage p f).sec = s.sec := rfl
@[simp] theorem State.modPage_gen (s : State) (p : Nat) (f : PageHdr → PageHdr) : (s.modPage p f).gen = s.gen := rfl
@[simp] theorem State.modPage_power (s : State) (p : Nat) (f : PageHdr → PageHdr) : (s.modPage p f).power = s.power := rfl
@[simp] theorem State.modPage_busData (s : State) (p : Nat) (f : PageHdr → PageHdr) : (s.modPage p f).busData = s.busData := rfl
@[simp] theorem State.modPage_busLatch (s : State) (p : Nat) (f : PageHdr → PageHdr) : (s.modPage p f).busLatch = s.busLatch := rfl
@[simp] theorem State.modPage_freeCtr (s : State) (p : Nat) (f : PageHdr → PageHdr) : (s.modPage p f).freeCtr = s.freeCtr := rfl
@[simp] theorem State.modPage_pending (s : State) (p : Nat) (f : PageHdr → PageHdr) : (s.modPage p f).pending = s.pending := rfl

@[simp] theorem State.modLog_fuses (s : State) (d : Nat) (f : EvLog → EvLog) : (s.modLog d f).fuses = s.fuses := rfl
@[simp] theorem State.modLog_mem (s : State) (d : Nat) (f : EvLog → EvLog) : (s.modLog d f).mem = s.mem := rfl
@[simp] theorem State.modLog_upsets (s : State) (d : Nat) (f : EvLog → EvLog) : (s.modLog d f).upsets = s.upsets := rfl
@[simp] theorem State.modLog_cores (s : State) (d : Nat) (f : EvLog → EvLog) : (s.modLog d f).cores = s.cores := rfl
@[simp] theorem State.modLog_clusters (s : State) (d : Nat) (f : EvLog → EvLog) : (s.modLog d f).clusters = s.clusters := rfl
@[simp] theorem State.modLog_pages (s : State) (d : Nat) (f : EvLog → EvLog) : (s.modLog d f).pages = s.pages := rfl
@[simp] theorem State.modLog_ports (s : State) (d : Nat) (f : EvLog → EvLog) : (s.modLog d f).ports = s.ports := rfl
@[simp] theorem State.modLog_regions (s : State) (d : Nat) (f : EvLog → EvLog) : (s.modLog d f).regions = s.regions := rfl
@[simp] theorem State.modLog_dieClocks (s : State) (d : Nat) (f : EvLog → EvLog) : (s.modLog d f).dieClocks = s.dieClocks := rfl
@[simp] theorem State.modLog_clock (s : State) (d : Nat) (f : EvLog → EvLog) : (s.modLog d f).clock = s.clock := rfl
@[simp] theorem State.modLog_ledgers (s : State) (d : Nat) (f : EvLog → EvLog) : (s.modLog d f).ledgers = s.ledgers := rfl
@[simp] theorem State.modLog_ledger (s : State) (d : Nat) (f : EvLog → EvLog) : (s.modLog d f).ledger = s.ledger := rfl
@[simp] theorem State.modLog_windows (s : State) (d : Nat) (f : EvLog → EvLog) : (s.modLog d f).windows = s.windows := rfl
@[simp] theorem State.modLog_admitted (s : State) (d : Nat) (f : EvLog → EvLog) : (s.modLog d f).admitted = s.admitted := rfl
@[simp] theorem State.modLog_remote (s : State) (d : Nat) (f : EvLog → EvLog) : (s.modLog d f).remote = s.remote := rfl
@[simp] theorem State.modLog_win (s : State) (d : Nat) (f : EvLog → EvLog) : (s.modLog d f).win = s.win := rfl
@[simp] theorem State.modLog_tenants (s : State) (d : Nat) (f : EvLog → EvLog) : (s.modLog d f).tenants = s.tenants := rfl
@[simp] theorem State.modLog_slots (s : State) (d : Nat) (f : EvLog → EvLog) : (s.modLog d f).slots = s.slots := rfl
@[simp] theorem State.modLog_sessions (s : State) (d : Nat) (f : EvLog → EvLog) : (s.modLog d f).sessions = s.sessions := rfl
@[simp] theorem State.modLog_adm (s : State) (d : Nat) (f : EvLog → EvLog) : (s.modLog d f).adm = s.adm := rfl
@[simp] theorem State.modLog_fab (s : State) (d : Nat) (f : EvLog → EvLog) : (s.modLog d f).fab = s.fab := rfl
@[simp] theorem State.modLog_fports (s : State) (d : Nat) (f : EvLog → EvLog) : (s.modLog d f).fports = s.fports := rfl
@[simp] theorem State.modLog_routes (s : State) (d : Nat) (f : EvLog → EvLog) : (s.modLog d f).routes = s.routes := rfl
@[simp] theorem State.modLog_cartridges (s : State) (d : Nat) (f : EvLog → EvLog) : (s.modLog d f).cartridges = s.cartridges := rfl
@[simp] theorem State.modLog_engines (s : State) (d : Nat) (f : EvLog → EvLog) : (s.modLog d f).engines = s.engines := rfl
@[simp] theorem State.modLog_oeSel (s : State) (d : Nat) (f : EvLog → EvLog) : (s.modLog d f).oeSel = s.oeSel := rfl
@[simp] theorem State.modLog_editions (s : State) (d : Nat) (f : EvLog → EvLog) : (s.modLog d f).editions = s.editions := rfl
@[simp] theorem State.modLog_acc (s : State) (d : Nat) (f : EvLog → EvLog) : (s.modLog d f).acc = s.acc := rfl
@[simp] theorem State.modLog_accDie (s : State) (d : Nat) (f : EvLog → EvLog) : (s.modLog d f).accDie = s.accDie := rfl
@[simp] theorem State.modLog_charter (s : State) (d : Nat) (f : EvLog → EvLog) : (s.modLog d f).charter = s.charter := rfl
@[simp] theorem State.modLog_curators (s : State) (d : Nat) (f : EvLog → EvLog) : (s.modLog d f).curators = s.curators := rfl
@[simp] theorem State.modLog_fwCur (s : State) (d : Nat) (f : EvLog → EvLog) : (s.modLog d f).fwCur = s.fwCur := rfl
@[simp] theorem State.modLog_fwOpt (s : State) (d : Nat) (f : EvLog → EvLog) : (s.modLog d f).fwOpt = s.fwOpt := rfl
@[simp] theorem State.modLog_sec (s : State) (d : Nat) (f : EvLog → EvLog) : (s.modLog d f).sec = s.sec := rfl
@[simp] theorem State.modLog_gen (s : State) (d : Nat) (f : EvLog → EvLog) : (s.modLog d f).gen = s.gen := rfl
@[simp] theorem State.modLog_power (s : State) (d : Nat) (f : EvLog → EvLog) : (s.modLog d f).power = s.power := rfl
@[simp] theorem State.modLog_busData (s : State) (d : Nat) (f : EvLog → EvLog) : (s.modLog d f).busData = s.busData := rfl
@[simp] theorem State.modLog_busLatch (s : State) (d : Nat) (f : EvLog → EvLog) : (s.modLog d f).busLatch = s.busLatch := rfl
@[simp] theorem State.modLog_freeCtr (s : State) (d : Nat) (f : EvLog → EvLog) : (s.modLog d f).freeCtr = s.freeCtr := rfl
@[simp] theorem State.modLog_pending (s : State) (d : Nat) (f : EvLog → EvLog) : (s.modLog d f).pending = s.pending := rfl

@[simp] theorem State.modPort_fuses (s : State) (p : Nat) (f : TsdPort → TsdPort) : (s.modPort p f).fuses = s.fuses := rfl
@[simp] theorem State.modPort_mem (s : State) (p : Nat) (f : TsdPort → TsdPort) : (s.modPort p f).mem = s.mem := rfl
@[simp] theorem State.modPort_upsets (s : State) (p : Nat) (f : TsdPort → TsdPort) : (s.modPort p f).upsets = s.upsets := rfl
@[simp] theorem State.modPort_cores (s : State) (p : Nat) (f : TsdPort → TsdPort) : (s.modPort p f).cores = s.cores := rfl
@[simp] theorem State.modPort_clusters (s : State) (p : Nat) (f : TsdPort → TsdPort) : (s.modPort p f).clusters = s.clusters := rfl
@[simp] theorem State.modPort_pages (s : State) (p : Nat) (f : TsdPort → TsdPort) : (s.modPort p f).pages = s.pages := rfl
@[simp] theorem State.modPort_logs (s : State) (p : Nat) (f : TsdPort → TsdPort) : (s.modPort p f).logs = s.logs := rfl
@[simp] theorem State.modPort_regions (s : State) (p : Nat) (f : TsdPort → TsdPort) : (s.modPort p f).regions = s.regions := rfl
@[simp] theorem State.modPort_dieClocks (s : State) (p : Nat) (f : TsdPort → TsdPort) : (s.modPort p f).dieClocks = s.dieClocks := rfl
@[simp] theorem State.modPort_clock (s : State) (p : Nat) (f : TsdPort → TsdPort) : (s.modPort p f).clock = s.clock := rfl
@[simp] theorem State.modPort_ledgers (s : State) (p : Nat) (f : TsdPort → TsdPort) : (s.modPort p f).ledgers = s.ledgers := rfl
@[simp] theorem State.modPort_ledger (s : State) (p : Nat) (f : TsdPort → TsdPort) : (s.modPort p f).ledger = s.ledger := rfl
@[simp] theorem State.modPort_windows (s : State) (p : Nat) (f : TsdPort → TsdPort) : (s.modPort p f).windows = s.windows := rfl
@[simp] theorem State.modPort_admitted (s : State) (p : Nat) (f : TsdPort → TsdPort) : (s.modPort p f).admitted = s.admitted := rfl
@[simp] theorem State.modPort_remote (s : State) (p : Nat) (f : TsdPort → TsdPort) : (s.modPort p f).remote = s.remote := rfl
@[simp] theorem State.modPort_win (s : State) (p : Nat) (f : TsdPort → TsdPort) : (s.modPort p f).win = s.win := rfl
@[simp] theorem State.modPort_tenants (s : State) (p : Nat) (f : TsdPort → TsdPort) : (s.modPort p f).tenants = s.tenants := rfl
@[simp] theorem State.modPort_slots (s : State) (p : Nat) (f : TsdPort → TsdPort) : (s.modPort p f).slots = s.slots := rfl
@[simp] theorem State.modPort_sessions (s : State) (p : Nat) (f : TsdPort → TsdPort) : (s.modPort p f).sessions = s.sessions := rfl
@[simp] theorem State.modPort_adm (s : State) (p : Nat) (f : TsdPort → TsdPort) : (s.modPort p f).adm = s.adm := rfl
@[simp] theorem State.modPort_fab (s : State) (p : Nat) (f : TsdPort → TsdPort) : (s.modPort p f).fab = s.fab := rfl
@[simp] theorem State.modPort_fports (s : State) (p : Nat) (f : TsdPort → TsdPort) : (s.modPort p f).fports = s.fports := rfl
@[simp] theorem State.modPort_routes (s : State) (p : Nat) (f : TsdPort → TsdPort) : (s.modPort p f).routes = s.routes := rfl
@[simp] theorem State.modPort_cartridges (s : State) (p : Nat) (f : TsdPort → TsdPort) : (s.modPort p f).cartridges = s.cartridges := rfl
@[simp] theorem State.modPort_engines (s : State) (p : Nat) (f : TsdPort → TsdPort) : (s.modPort p f).engines = s.engines := rfl
@[simp] theorem State.modPort_oeSel (s : State) (p : Nat) (f : TsdPort → TsdPort) : (s.modPort p f).oeSel = s.oeSel := rfl
@[simp] theorem State.modPort_editions (s : State) (p : Nat) (f : TsdPort → TsdPort) : (s.modPort p f).editions = s.editions := rfl
@[simp] theorem State.modPort_acc (s : State) (p : Nat) (f : TsdPort → TsdPort) : (s.modPort p f).acc = s.acc := rfl
@[simp] theorem State.modPort_accDie (s : State) (p : Nat) (f : TsdPort → TsdPort) : (s.modPort p f).accDie = s.accDie := rfl
@[simp] theorem State.modPort_charter (s : State) (p : Nat) (f : TsdPort → TsdPort) : (s.modPort p f).charter = s.charter := rfl
@[simp] theorem State.modPort_curators (s : State) (p : Nat) (f : TsdPort → TsdPort) : (s.modPort p f).curators = s.curators := rfl
@[simp] theorem State.modPort_fwCur (s : State) (p : Nat) (f : TsdPort → TsdPort) : (s.modPort p f).fwCur = s.fwCur := rfl
@[simp] theorem State.modPort_fwOpt (s : State) (p : Nat) (f : TsdPort → TsdPort) : (s.modPort p f).fwOpt = s.fwOpt := rfl
@[simp] theorem State.modPort_sec (s : State) (p : Nat) (f : TsdPort → TsdPort) : (s.modPort p f).sec = s.sec := rfl
@[simp] theorem State.modPort_gen (s : State) (p : Nat) (f : TsdPort → TsdPort) : (s.modPort p f).gen = s.gen := rfl
@[simp] theorem State.modPort_power (s : State) (p : Nat) (f : TsdPort → TsdPort) : (s.modPort p f).power = s.power := rfl
@[simp] theorem State.modPort_busData (s : State) (p : Nat) (f : TsdPort → TsdPort) : (s.modPort p f).busData = s.busData := rfl
@[simp] theorem State.modPort_busLatch (s : State) (p : Nat) (f : TsdPort → TsdPort) : (s.modPort p f).busLatch = s.busLatch := rfl
@[simp] theorem State.modPort_freeCtr (s : State) (p : Nat) (f : TsdPort → TsdPort) : (s.modPort p f).freeCtr = s.freeCtr := rfl
@[simp] theorem State.modPort_pending (s : State) (p : Nat) (f : TsdPort → TsdPort) : (s.modPort p f).pending = s.pending := rfl

@[simp] theorem State.modRegion_fuses (s : State) (r : Nat) (f : Region → Region) : (s.modRegion r f).fuses = s.fuses := rfl
@[simp] theorem State.modRegion_mem (s : State) (r : Nat) (f : Region → Region) : (s.modRegion r f).mem = s.mem := rfl
@[simp] theorem State.modRegion_upsets (s : State) (r : Nat) (f : Region → Region) : (s.modRegion r f).upsets = s.upsets := rfl
@[simp] theorem State.modRegion_cores (s : State) (r : Nat) (f : Region → Region) : (s.modRegion r f).cores = s.cores := rfl
@[simp] theorem State.modRegion_clusters (s : State) (r : Nat) (f : Region → Region) : (s.modRegion r f).clusters = s.clusters := rfl
@[simp] theorem State.modRegion_pages (s : State) (r : Nat) (f : Region → Region) : (s.modRegion r f).pages = s.pages := rfl
@[simp] theorem State.modRegion_logs (s : State) (r : Nat) (f : Region → Region) : (s.modRegion r f).logs = s.logs := rfl
@[simp] theorem State.modRegion_ports (s : State) (r : Nat) (f : Region → Region) : (s.modRegion r f).ports = s.ports := rfl
@[simp] theorem State.modRegion_dieClocks (s : State) (r : Nat) (f : Region → Region) : (s.modRegion r f).dieClocks = s.dieClocks := rfl
@[simp] theorem State.modRegion_clock (s : State) (r : Nat) (f : Region → Region) : (s.modRegion r f).clock = s.clock := rfl
@[simp] theorem State.modRegion_ledgers (s : State) (r : Nat) (f : Region → Region) : (s.modRegion r f).ledgers = s.ledgers := rfl
@[simp] theorem State.modRegion_ledger (s : State) (r : Nat) (f : Region → Region) : (s.modRegion r f).ledger = s.ledger := rfl
@[simp] theorem State.modRegion_windows (s : State) (r : Nat) (f : Region → Region) : (s.modRegion r f).windows = s.windows := rfl
@[simp] theorem State.modRegion_admitted (s : State) (r : Nat) (f : Region → Region) : (s.modRegion r f).admitted = s.admitted := rfl
@[simp] theorem State.modRegion_remote (s : State) (r : Nat) (f : Region → Region) : (s.modRegion r f).remote = s.remote := rfl
@[simp] theorem State.modRegion_win (s : State) (r : Nat) (f : Region → Region) : (s.modRegion r f).win = s.win := rfl
@[simp] theorem State.modRegion_tenants (s : State) (r : Nat) (f : Region → Region) : (s.modRegion r f).tenants = s.tenants := rfl
@[simp] theorem State.modRegion_slots (s : State) (r : Nat) (f : Region → Region) : (s.modRegion r f).slots = s.slots := rfl
@[simp] theorem State.modRegion_sessions (s : State) (r : Nat) (f : Region → Region) : (s.modRegion r f).sessions = s.sessions := rfl
@[simp] theorem State.modRegion_adm (s : State) (r : Nat) (f : Region → Region) : (s.modRegion r f).adm = s.adm := rfl
@[simp] theorem State.modRegion_fab (s : State) (r : Nat) (f : Region → Region) : (s.modRegion r f).fab = s.fab := rfl
@[simp] theorem State.modRegion_fports (s : State) (r : Nat) (f : Region → Region) : (s.modRegion r f).fports = s.fports := rfl
@[simp] theorem State.modRegion_routes (s : State) (r : Nat) (f : Region → Region) : (s.modRegion r f).routes = s.routes := rfl
@[simp] theorem State.modRegion_cartridges (s : State) (r : Nat) (f : Region → Region) : (s.modRegion r f).cartridges = s.cartridges := rfl
@[simp] theorem State.modRegion_engines (s : State) (r : Nat) (f : Region → Region) : (s.modRegion r f).engines = s.engines := rfl
@[simp] theorem State.modRegion_oeSel (s : State) (r : Nat) (f : Region → Region) : (s.modRegion r f).oeSel = s.oeSel := rfl
@[simp] theorem State.modRegion_editions (s : State) (r : Nat) (f : Region → Region) : (s.modRegion r f).editions = s.editions := rfl
@[simp] theorem State.modRegion_acc (s : State) (r : Nat) (f : Region → Region) : (s.modRegion r f).acc = s.acc := rfl
@[simp] theorem State.modRegion_accDie (s : State) (r : Nat) (f : Region → Region) : (s.modRegion r f).accDie = s.accDie := rfl
@[simp] theorem State.modRegion_charter (s : State) (r : Nat) (f : Region → Region) : (s.modRegion r f).charter = s.charter := rfl
@[simp] theorem State.modRegion_curators (s : State) (r : Nat) (f : Region → Region) : (s.modRegion r f).curators = s.curators := rfl
@[simp] theorem State.modRegion_fwCur (s : State) (r : Nat) (f : Region → Region) : (s.modRegion r f).fwCur = s.fwCur := rfl
@[simp] theorem State.modRegion_fwOpt (s : State) (r : Nat) (f : Region → Region) : (s.modRegion r f).fwOpt = s.fwOpt := rfl
@[simp] theorem State.modRegion_sec (s : State) (r : Nat) (f : Region → Region) : (s.modRegion r f).sec = s.sec := rfl
@[simp] theorem State.modRegion_gen (s : State) (r : Nat) (f : Region → Region) : (s.modRegion r f).gen = s.gen := rfl
@[simp] theorem State.modRegion_power (s : State) (r : Nat) (f : Region → Region) : (s.modRegion r f).power = s.power := rfl
@[simp] theorem State.modRegion_busData (s : State) (r : Nat) (f : Region → Region) : (s.modRegion r f).busData = s.busData := rfl
@[simp] theorem State.modRegion_busLatch (s : State) (r : Nat) (f : Region → Region) : (s.modRegion r f).busLatch = s.busLatch := rfl
@[simp] theorem State.modRegion_freeCtr (s : State) (r : Nat) (f : Region → Region) : (s.modRegion r f).freeCtr = s.freeCtr := rfl
@[simp] theorem State.modRegion_pending (s : State) (r : Nat) (f : Region → Region) : (s.modRegion r f).pending = s.pending := rfl

@[simp] theorem State.modDieClock_fuses (s : State) (d : Nat) (f : DieClock → DieClock) : (s.modDieClock d f).fuses = s.fuses := rfl
@[simp] theorem State.modDieClock_mem (s : State) (d : Nat) (f : DieClock → DieClock) : (s.modDieClock d f).mem = s.mem := rfl
@[simp] theorem State.modDieClock_upsets (s : State) (d : Nat) (f : DieClock → DieClock) : (s.modDieClock d f).upsets = s.upsets := rfl
@[simp] theorem State.modDieClock_cores (s : State) (d : Nat) (f : DieClock → DieClock) : (s.modDieClock d f).cores = s.cores := rfl
@[simp] theorem State.modDieClock_clusters (s : State) (d : Nat) (f : DieClock → DieClock) : (s.modDieClock d f).clusters = s.clusters := rfl
@[simp] theorem State.modDieClock_pages (s : State) (d : Nat) (f : DieClock → DieClock) : (s.modDieClock d f).pages = s.pages := rfl
@[simp] theorem State.modDieClock_logs (s : State) (d : Nat) (f : DieClock → DieClock) : (s.modDieClock d f).logs = s.logs := rfl
@[simp] theorem State.modDieClock_ports (s : State) (d : Nat) (f : DieClock → DieClock) : (s.modDieClock d f).ports = s.ports := rfl
@[simp] theorem State.modDieClock_regions (s : State) (d : Nat) (f : DieClock → DieClock) : (s.modDieClock d f).regions = s.regions := rfl
@[simp] theorem State.modDieClock_clock (s : State) (d : Nat) (f : DieClock → DieClock) : (s.modDieClock d f).clock = s.clock := rfl
@[simp] theorem State.modDieClock_ledgers (s : State) (d : Nat) (f : DieClock → DieClock) : (s.modDieClock d f).ledgers = s.ledgers := rfl
@[simp] theorem State.modDieClock_ledger (s : State) (d : Nat) (f : DieClock → DieClock) : (s.modDieClock d f).ledger = s.ledger := rfl
@[simp] theorem State.modDieClock_windows (s : State) (d : Nat) (f : DieClock → DieClock) : (s.modDieClock d f).windows = s.windows := rfl
@[simp] theorem State.modDieClock_admitted (s : State) (d : Nat) (f : DieClock → DieClock) : (s.modDieClock d f).admitted = s.admitted := rfl
@[simp] theorem State.modDieClock_remote (s : State) (d : Nat) (f : DieClock → DieClock) : (s.modDieClock d f).remote = s.remote := rfl
@[simp] theorem State.modDieClock_win (s : State) (d : Nat) (f : DieClock → DieClock) : (s.modDieClock d f).win = s.win := rfl
@[simp] theorem State.modDieClock_tenants (s : State) (d : Nat) (f : DieClock → DieClock) : (s.modDieClock d f).tenants = s.tenants := rfl
@[simp] theorem State.modDieClock_slots (s : State) (d : Nat) (f : DieClock → DieClock) : (s.modDieClock d f).slots = s.slots := rfl
@[simp] theorem State.modDieClock_sessions (s : State) (d : Nat) (f : DieClock → DieClock) : (s.modDieClock d f).sessions = s.sessions := rfl
@[simp] theorem State.modDieClock_adm (s : State) (d : Nat) (f : DieClock → DieClock) : (s.modDieClock d f).adm = s.adm := rfl
@[simp] theorem State.modDieClock_fab (s : State) (d : Nat) (f : DieClock → DieClock) : (s.modDieClock d f).fab = s.fab := rfl
@[simp] theorem State.modDieClock_fports (s : State) (d : Nat) (f : DieClock → DieClock) : (s.modDieClock d f).fports = s.fports := rfl
@[simp] theorem State.modDieClock_routes (s : State) (d : Nat) (f : DieClock → DieClock) : (s.modDieClock d f).routes = s.routes := rfl
@[simp] theorem State.modDieClock_cartridges (s : State) (d : Nat) (f : DieClock → DieClock) : (s.modDieClock d f).cartridges = s.cartridges := rfl
@[simp] theorem State.modDieClock_engines (s : State) (d : Nat) (f : DieClock → DieClock) : (s.modDieClock d f).engines = s.engines := rfl
@[simp] theorem State.modDieClock_oeSel (s : State) (d : Nat) (f : DieClock → DieClock) : (s.modDieClock d f).oeSel = s.oeSel := rfl
@[simp] theorem State.modDieClock_editions (s : State) (d : Nat) (f : DieClock → DieClock) : (s.modDieClock d f).editions = s.editions := rfl
@[simp] theorem State.modDieClock_acc (s : State) (d : Nat) (f : DieClock → DieClock) : (s.modDieClock d f).acc = s.acc := rfl
@[simp] theorem State.modDieClock_accDie (s : State) (d : Nat) (f : DieClock → DieClock) : (s.modDieClock d f).accDie = s.accDie := rfl
@[simp] theorem State.modDieClock_charter (s : State) (d : Nat) (f : DieClock → DieClock) : (s.modDieClock d f).charter = s.charter := rfl
@[simp] theorem State.modDieClock_curators (s : State) (d : Nat) (f : DieClock → DieClock) : (s.modDieClock d f).curators = s.curators := rfl
@[simp] theorem State.modDieClock_fwCur (s : State) (d : Nat) (f : DieClock → DieClock) : (s.modDieClock d f).fwCur = s.fwCur := rfl
@[simp] theorem State.modDieClock_fwOpt (s : State) (d : Nat) (f : DieClock → DieClock) : (s.modDieClock d f).fwOpt = s.fwOpt := rfl
@[simp] theorem State.modDieClock_sec (s : State) (d : Nat) (f : DieClock → DieClock) : (s.modDieClock d f).sec = s.sec := rfl
@[simp] theorem State.modDieClock_gen (s : State) (d : Nat) (f : DieClock → DieClock) : (s.modDieClock d f).gen = s.gen := rfl
@[simp] theorem State.modDieClock_power (s : State) (d : Nat) (f : DieClock → DieClock) : (s.modDieClock d f).power = s.power := rfl
@[simp] theorem State.modDieClock_busData (s : State) (d : Nat) (f : DieClock → DieClock) : (s.modDieClock d f).busData = s.busData := rfl
@[simp] theorem State.modDieClock_busLatch (s : State) (d : Nat) (f : DieClock → DieClock) : (s.modDieClock d f).busLatch = s.busLatch := rfl
@[simp] theorem State.modDieClock_freeCtr (s : State) (d : Nat) (f : DieClock → DieClock) : (s.modDieClock d f).freeCtr = s.freeCtr := rfl
@[simp] theorem State.modDieClock_pending (s : State) (d : Nat) (f : DieClock → DieClock) : (s.modDieClock d f).pending = s.pending := rfl

@[simp] theorem State.modDieLedger_fuses (s : State) (d : Nat) (f : DieLedger → DieLedger) : (s.modDieLedger d f).fuses = s.fuses := rfl
@[simp] theorem State.modDieLedger_mem (s : State) (d : Nat) (f : DieLedger → DieLedger) : (s.modDieLedger d f).mem = s.mem := rfl
@[simp] theorem State.modDieLedger_upsets (s : State) (d : Nat) (f : DieLedger → DieLedger) : (s.modDieLedger d f).upsets = s.upsets := rfl
@[simp] theorem State.modDieLedger_cores (s : State) (d : Nat) (f : DieLedger → DieLedger) : (s.modDieLedger d f).cores = s.cores := rfl
@[simp] theorem State.modDieLedger_clusters (s : State) (d : Nat) (f : DieLedger → DieLedger) : (s.modDieLedger d f).clusters = s.clusters := rfl
@[simp] theorem State.modDieLedger_pages (s : State) (d : Nat) (f : DieLedger → DieLedger) : (s.modDieLedger d f).pages = s.pages := rfl
@[simp] theorem State.modDieLedger_logs (s : State) (d : Nat) (f : DieLedger → DieLedger) : (s.modDieLedger d f).logs = s.logs := rfl
@[simp] theorem State.modDieLedger_ports (s : State) (d : Nat) (f : DieLedger → DieLedger) : (s.modDieLedger d f).ports = s.ports := rfl
@[simp] theorem State.modDieLedger_regions (s : State) (d : Nat) (f : DieLedger → DieLedger) : (s.modDieLedger d f).regions = s.regions := rfl
@[simp] theorem State.modDieLedger_dieClocks (s : State) (d : Nat) (f : DieLedger → DieLedger) : (s.modDieLedger d f).dieClocks = s.dieClocks := rfl
@[simp] theorem State.modDieLedger_clock (s : State) (d : Nat) (f : DieLedger → DieLedger) : (s.modDieLedger d f).clock = s.clock := rfl
@[simp] theorem State.modDieLedger_ledger (s : State) (d : Nat) (f : DieLedger → DieLedger) : (s.modDieLedger d f).ledger = s.ledger := rfl
@[simp] theorem State.modDieLedger_windows (s : State) (d : Nat) (f : DieLedger → DieLedger) : (s.modDieLedger d f).windows = s.windows := rfl
@[simp] theorem State.modDieLedger_admitted (s : State) (d : Nat) (f : DieLedger → DieLedger) : (s.modDieLedger d f).admitted = s.admitted := rfl
@[simp] theorem State.modDieLedger_remote (s : State) (d : Nat) (f : DieLedger → DieLedger) : (s.modDieLedger d f).remote = s.remote := rfl
@[simp] theorem State.modDieLedger_win (s : State) (d : Nat) (f : DieLedger → DieLedger) : (s.modDieLedger d f).win = s.win := rfl
@[simp] theorem State.modDieLedger_tenants (s : State) (d : Nat) (f : DieLedger → DieLedger) : (s.modDieLedger d f).tenants = s.tenants := rfl
@[simp] theorem State.modDieLedger_slots (s : State) (d : Nat) (f : DieLedger → DieLedger) : (s.modDieLedger d f).slots = s.slots := rfl
@[simp] theorem State.modDieLedger_sessions (s : State) (d : Nat) (f : DieLedger → DieLedger) : (s.modDieLedger d f).sessions = s.sessions := rfl
@[simp] theorem State.modDieLedger_adm (s : State) (d : Nat) (f : DieLedger → DieLedger) : (s.modDieLedger d f).adm = s.adm := rfl
@[simp] theorem State.modDieLedger_fab (s : State) (d : Nat) (f : DieLedger → DieLedger) : (s.modDieLedger d f).fab = s.fab := rfl
@[simp] theorem State.modDieLedger_fports (s : State) (d : Nat) (f : DieLedger → DieLedger) : (s.modDieLedger d f).fports = s.fports := rfl
@[simp] theorem State.modDieLedger_routes (s : State) (d : Nat) (f : DieLedger → DieLedger) : (s.modDieLedger d f).routes = s.routes := rfl
@[simp] theorem State.modDieLedger_cartridges (s : State) (d : Nat) (f : DieLedger → DieLedger) : (s.modDieLedger d f).cartridges = s.cartridges := rfl
@[simp] theorem State.modDieLedger_engines (s : State) (d : Nat) (f : DieLedger → DieLedger) : (s.modDieLedger d f).engines = s.engines := rfl
@[simp] theorem State.modDieLedger_oeSel (s : State) (d : Nat) (f : DieLedger → DieLedger) : (s.modDieLedger d f).oeSel = s.oeSel := rfl
@[simp] theorem State.modDieLedger_editions (s : State) (d : Nat) (f : DieLedger → DieLedger) : (s.modDieLedger d f).editions = s.editions := rfl
@[simp] theorem State.modDieLedger_acc (s : State) (d : Nat) (f : DieLedger → DieLedger) : (s.modDieLedger d f).acc = s.acc := rfl
@[simp] theorem State.modDieLedger_accDie (s : State) (d : Nat) (f : DieLedger → DieLedger) : (s.modDieLedger d f).accDie = s.accDie := rfl
@[simp] theorem State.modDieLedger_charter (s : State) (d : Nat) (f : DieLedger → DieLedger) : (s.modDieLedger d f).charter = s.charter := rfl
@[simp] theorem State.modDieLedger_curators (s : State) (d : Nat) (f : DieLedger → DieLedger) : (s.modDieLedger d f).curators = s.curators := rfl
@[simp] theorem State.modDieLedger_fwCur (s : State) (d : Nat) (f : DieLedger → DieLedger) : (s.modDieLedger d f).fwCur = s.fwCur := rfl
@[simp] theorem State.modDieLedger_fwOpt (s : State) (d : Nat) (f : DieLedger → DieLedger) : (s.modDieLedger d f).fwOpt = s.fwOpt := rfl
@[simp] theorem State.modDieLedger_sec (s : State) (d : Nat) (f : DieLedger → DieLedger) : (s.modDieLedger d f).sec = s.sec := rfl
@[simp] theorem State.modDieLedger_gen (s : State) (d : Nat) (f : DieLedger → DieLedger) : (s.modDieLedger d f).gen = s.gen := rfl
@[simp] theorem State.modDieLedger_power (s : State) (d : Nat) (f : DieLedger → DieLedger) : (s.modDieLedger d f).power = s.power := rfl
@[simp] theorem State.modDieLedger_busData (s : State) (d : Nat) (f : DieLedger → DieLedger) : (s.modDieLedger d f).busData = s.busData := rfl
@[simp] theorem State.modDieLedger_busLatch (s : State) (d : Nat) (f : DieLedger → DieLedger) : (s.modDieLedger d f).busLatch = s.busLatch := rfl
@[simp] theorem State.modDieLedger_freeCtr (s : State) (d : Nat) (f : DieLedger → DieLedger) : (s.modDieLedger d f).freeCtr = s.freeCtr := rfl
@[simp] theorem State.modDieLedger_pending (s : State) (d : Nat) (f : DieLedger → DieLedger) : (s.modDieLedger d f).pending = s.pending := rfl

@[simp] theorem State.modWindow_fuses (s : State) (h : Nat) (f : Window → Window) : (s.modWindow h f).fuses = s.fuses := rfl
@[simp] theorem State.modWindow_mem (s : State) (h : Nat) (f : Window → Window) : (s.modWindow h f).mem = s.mem := rfl
@[simp] theorem State.modWindow_upsets (s : State) (h : Nat) (f : Window → Window) : (s.modWindow h f).upsets = s.upsets := rfl
@[simp] theorem State.modWindow_cores (s : State) (h : Nat) (f : Window → Window) : (s.modWindow h f).cores = s.cores := rfl
@[simp] theorem State.modWindow_clusters (s : State) (h : Nat) (f : Window → Window) : (s.modWindow h f).clusters = s.clusters := rfl
@[simp] theorem State.modWindow_pages (s : State) (h : Nat) (f : Window → Window) : (s.modWindow h f).pages = s.pages := rfl
@[simp] theorem State.modWindow_logs (s : State) (h : Nat) (f : Window → Window) : (s.modWindow h f).logs = s.logs := rfl
@[simp] theorem State.modWindow_ports (s : State) (h : Nat) (f : Window → Window) : (s.modWindow h f).ports = s.ports := rfl
@[simp] theorem State.modWindow_regions (s : State) (h : Nat) (f : Window → Window) : (s.modWindow h f).regions = s.regions := rfl
@[simp] theorem State.modWindow_dieClocks (s : State) (h : Nat) (f : Window → Window) : (s.modWindow h f).dieClocks = s.dieClocks := rfl
@[simp] theorem State.modWindow_clock (s : State) (h : Nat) (f : Window → Window) : (s.modWindow h f).clock = s.clock := rfl
@[simp] theorem State.modWindow_ledgers (s : State) (h : Nat) (f : Window → Window) : (s.modWindow h f).ledgers = s.ledgers := rfl
@[simp] theorem State.modWindow_ledger (s : State) (h : Nat) (f : Window → Window) : (s.modWindow h f).ledger = s.ledger := rfl
@[simp] theorem State.modWindow_admitted (s : State) (h : Nat) (f : Window → Window) : (s.modWindow h f).admitted = s.admitted := rfl
@[simp] theorem State.modWindow_remote (s : State) (h : Nat) (f : Window → Window) : (s.modWindow h f).remote = s.remote := rfl
@[simp] theorem State.modWindow_win (s : State) (h : Nat) (f : Window → Window) : (s.modWindow h f).win = s.win := rfl
@[simp] theorem State.modWindow_tenants (s : State) (h : Nat) (f : Window → Window) : (s.modWindow h f).tenants = s.tenants := rfl
@[simp] theorem State.modWindow_slots (s : State) (h : Nat) (f : Window → Window) : (s.modWindow h f).slots = s.slots := rfl
@[simp] theorem State.modWindow_sessions (s : State) (h : Nat) (f : Window → Window) : (s.modWindow h f).sessions = s.sessions := rfl
@[simp] theorem State.modWindow_adm (s : State) (h : Nat) (f : Window → Window) : (s.modWindow h f).adm = s.adm := rfl
@[simp] theorem State.modWindow_fab (s : State) (h : Nat) (f : Window → Window) : (s.modWindow h f).fab = s.fab := rfl
@[simp] theorem State.modWindow_fports (s : State) (h : Nat) (f : Window → Window) : (s.modWindow h f).fports = s.fports := rfl
@[simp] theorem State.modWindow_routes (s : State) (h : Nat) (f : Window → Window) : (s.modWindow h f).routes = s.routes := rfl
@[simp] theorem State.modWindow_cartridges (s : State) (h : Nat) (f : Window → Window) : (s.modWindow h f).cartridges = s.cartridges := rfl
@[simp] theorem State.modWindow_engines (s : State) (h : Nat) (f : Window → Window) : (s.modWindow h f).engines = s.engines := rfl
@[simp] theorem State.modWindow_oeSel (s : State) (h : Nat) (f : Window → Window) : (s.modWindow h f).oeSel = s.oeSel := rfl
@[simp] theorem State.modWindow_editions (s : State) (h : Nat) (f : Window → Window) : (s.modWindow h f).editions = s.editions := rfl
@[simp] theorem State.modWindow_acc (s : State) (h : Nat) (f : Window → Window) : (s.modWindow h f).acc = s.acc := rfl
@[simp] theorem State.modWindow_accDie (s : State) (h : Nat) (f : Window → Window) : (s.modWindow h f).accDie = s.accDie := rfl
@[simp] theorem State.modWindow_charter (s : State) (h : Nat) (f : Window → Window) : (s.modWindow h f).charter = s.charter := rfl
@[simp] theorem State.modWindow_curators (s : State) (h : Nat) (f : Window → Window) : (s.modWindow h f).curators = s.curators := rfl
@[simp] theorem State.modWindow_fwCur (s : State) (h : Nat) (f : Window → Window) : (s.modWindow h f).fwCur = s.fwCur := rfl
@[simp] theorem State.modWindow_fwOpt (s : State) (h : Nat) (f : Window → Window) : (s.modWindow h f).fwOpt = s.fwOpt := rfl
@[simp] theorem State.modWindow_sec (s : State) (h : Nat) (f : Window → Window) : (s.modWindow h f).sec = s.sec := rfl
@[simp] theorem State.modWindow_gen (s : State) (h : Nat) (f : Window → Window) : (s.modWindow h f).gen = s.gen := rfl
@[simp] theorem State.modWindow_power (s : State) (h : Nat) (f : Window → Window) : (s.modWindow h f).power = s.power := rfl
@[simp] theorem State.modWindow_busData (s : State) (h : Nat) (f : Window → Window) : (s.modWindow h f).busData = s.busData := rfl
@[simp] theorem State.modWindow_busLatch (s : State) (h : Nat) (f : Window → Window) : (s.modWindow h f).busLatch = s.busLatch := rfl
@[simp] theorem State.modWindow_freeCtr (s : State) (h : Nat) (f : Window → Window) : (s.modWindow h f).freeCtr = s.freeCtr := rfl
@[simp] theorem State.modWindow_pending (s : State) (h : Nat) (f : Window → Window) : (s.modWindow h f).pending = s.pending := rfl

@[simp] theorem State.modRemoteWin_fuses (s : State) (h : Nat) (f : RemoteWin → RemoteWin) : (s.modRemoteWin h f).fuses = s.fuses := rfl
@[simp] theorem State.modRemoteWin_mem (s : State) (h : Nat) (f : RemoteWin → RemoteWin) : (s.modRemoteWin h f).mem = s.mem := rfl
@[simp] theorem State.modRemoteWin_upsets (s : State) (h : Nat) (f : RemoteWin → RemoteWin) : (s.modRemoteWin h f).upsets = s.upsets := rfl
@[simp] theorem State.modRemoteWin_cores (s : State) (h : Nat) (f : RemoteWin → RemoteWin) : (s.modRemoteWin h f).cores = s.cores := rfl
@[simp] theorem State.modRemoteWin_clusters (s : State) (h : Nat) (f : RemoteWin → RemoteWin) : (s.modRemoteWin h f).clusters = s.clusters := rfl
@[simp] theorem State.modRemoteWin_pages (s : State) (h : Nat) (f : RemoteWin → RemoteWin) : (s.modRemoteWin h f).pages = s.pages := rfl
@[simp] theorem State.modRemoteWin_logs (s : State) (h : Nat) (f : RemoteWin → RemoteWin) : (s.modRemoteWin h f).logs = s.logs := rfl
@[simp] theorem State.modRemoteWin_ports (s : State) (h : Nat) (f : RemoteWin → RemoteWin) : (s.modRemoteWin h f).ports = s.ports := rfl
@[simp] theorem State.modRemoteWin_regions (s : State) (h : Nat) (f : RemoteWin → RemoteWin) : (s.modRemoteWin h f).regions = s.regions := rfl
@[simp] theorem State.modRemoteWin_dieClocks (s : State) (h : Nat) (f : RemoteWin → RemoteWin) : (s.modRemoteWin h f).dieClocks = s.dieClocks := rfl
@[simp] theorem State.modRemoteWin_clock (s : State) (h : Nat) (f : RemoteWin → RemoteWin) : (s.modRemoteWin h f).clock = s.clock := rfl
@[simp] theorem State.modRemoteWin_ledgers (s : State) (h : Nat) (f : RemoteWin → RemoteWin) : (s.modRemoteWin h f).ledgers = s.ledgers := rfl
@[simp] theorem State.modRemoteWin_ledger (s : State) (h : Nat) (f : RemoteWin → RemoteWin) : (s.modRemoteWin h f).ledger = s.ledger := rfl
@[simp] theorem State.modRemoteWin_windows (s : State) (h : Nat) (f : RemoteWin → RemoteWin) : (s.modRemoteWin h f).windows = s.windows := rfl
@[simp] theorem State.modRemoteWin_admitted (s : State) (h : Nat) (f : RemoteWin → RemoteWin) : (s.modRemoteWin h f).admitted = s.admitted := rfl
@[simp] theorem State.modRemoteWin_win (s : State) (h : Nat) (f : RemoteWin → RemoteWin) : (s.modRemoteWin h f).win = s.win := rfl
@[simp] theorem State.modRemoteWin_tenants (s : State) (h : Nat) (f : RemoteWin → RemoteWin) : (s.modRemoteWin h f).tenants = s.tenants := rfl
@[simp] theorem State.modRemoteWin_slots (s : State) (h : Nat) (f : RemoteWin → RemoteWin) : (s.modRemoteWin h f).slots = s.slots := rfl
@[simp] theorem State.modRemoteWin_sessions (s : State) (h : Nat) (f : RemoteWin → RemoteWin) : (s.modRemoteWin h f).sessions = s.sessions := rfl
@[simp] theorem State.modRemoteWin_adm (s : State) (h : Nat) (f : RemoteWin → RemoteWin) : (s.modRemoteWin h f).adm = s.adm := rfl
@[simp] theorem State.modRemoteWin_fab (s : State) (h : Nat) (f : RemoteWin → RemoteWin) : (s.modRemoteWin h f).fab = s.fab := rfl
@[simp] theorem State.modRemoteWin_fports (s : State) (h : Nat) (f : RemoteWin → RemoteWin) : (s.modRemoteWin h f).fports = s.fports := rfl
@[simp] theorem State.modRemoteWin_routes (s : State) (h : Nat) (f : RemoteWin → RemoteWin) : (s.modRemoteWin h f).routes = s.routes := rfl
@[simp] theorem State.modRemoteWin_cartridges (s : State) (h : Nat) (f : RemoteWin → RemoteWin) : (s.modRemoteWin h f).cartridges = s.cartridges := rfl
@[simp] theorem State.modRemoteWin_engines (s : State) (h : Nat) (f : RemoteWin → RemoteWin) : (s.modRemoteWin h f).engines = s.engines := rfl
@[simp] theorem State.modRemoteWin_oeSel (s : State) (h : Nat) (f : RemoteWin → RemoteWin) : (s.modRemoteWin h f).oeSel = s.oeSel := rfl
@[simp] theorem State.modRemoteWin_editions (s : State) (h : Nat) (f : RemoteWin → RemoteWin) : (s.modRemoteWin h f).editions = s.editions := rfl
@[simp] theorem State.modRemoteWin_acc (s : State) (h : Nat) (f : RemoteWin → RemoteWin) : (s.modRemoteWin h f).acc = s.acc := rfl
@[simp] theorem State.modRemoteWin_accDie (s : State) (h : Nat) (f : RemoteWin → RemoteWin) : (s.modRemoteWin h f).accDie = s.accDie := rfl
@[simp] theorem State.modRemoteWin_charter (s : State) (h : Nat) (f : RemoteWin → RemoteWin) : (s.modRemoteWin h f).charter = s.charter := rfl
@[simp] theorem State.modRemoteWin_curators (s : State) (h : Nat) (f : RemoteWin → RemoteWin) : (s.modRemoteWin h f).curators = s.curators := rfl
@[simp] theorem State.modRemoteWin_fwCur (s : State) (h : Nat) (f : RemoteWin → RemoteWin) : (s.modRemoteWin h f).fwCur = s.fwCur := rfl
@[simp] theorem State.modRemoteWin_fwOpt (s : State) (h : Nat) (f : RemoteWin → RemoteWin) : (s.modRemoteWin h f).fwOpt = s.fwOpt := rfl
@[simp] theorem State.modRemoteWin_sec (s : State) (h : Nat) (f : RemoteWin → RemoteWin) : (s.modRemoteWin h f).sec = s.sec := rfl
@[simp] theorem State.modRemoteWin_gen (s : State) (h : Nat) (f : RemoteWin → RemoteWin) : (s.modRemoteWin h f).gen = s.gen := rfl
@[simp] theorem State.modRemoteWin_power (s : State) (h : Nat) (f : RemoteWin → RemoteWin) : (s.modRemoteWin h f).power = s.power := rfl
@[simp] theorem State.modRemoteWin_busData (s : State) (h : Nat) (f : RemoteWin → RemoteWin) : (s.modRemoteWin h f).busData = s.busData := rfl
@[simp] theorem State.modRemoteWin_busLatch (s : State) (h : Nat) (f : RemoteWin → RemoteWin) : (s.modRemoteWin h f).busLatch = s.busLatch := rfl
@[simp] theorem State.modRemoteWin_freeCtr (s : State) (h : Nat) (f : RemoteWin → RemoteWin) : (s.modRemoteWin h f).freeCtr = s.freeCtr := rfl
@[simp] theorem State.modRemoteWin_pending (s : State) (h : Nat) (f : RemoteWin → RemoteWin) : (s.modRemoteWin h f).pending = s.pending := rfl

@[simp] theorem State.modTenant_fuses (s : State) (t : Nat) (f : Tenant → Tenant) : (s.modTenant t f).fuses = s.fuses := rfl
@[simp] theorem State.modTenant_mem (s : State) (t : Nat) (f : Tenant → Tenant) : (s.modTenant t f).mem = s.mem := rfl
@[simp] theorem State.modTenant_upsets (s : State) (t : Nat) (f : Tenant → Tenant) : (s.modTenant t f).upsets = s.upsets := rfl
@[simp] theorem State.modTenant_cores (s : State) (t : Nat) (f : Tenant → Tenant) : (s.modTenant t f).cores = s.cores := rfl
@[simp] theorem State.modTenant_clusters (s : State) (t : Nat) (f : Tenant → Tenant) : (s.modTenant t f).clusters = s.clusters := rfl
@[simp] theorem State.modTenant_pages (s : State) (t : Nat) (f : Tenant → Tenant) : (s.modTenant t f).pages = s.pages := rfl
@[simp] theorem State.modTenant_logs (s : State) (t : Nat) (f : Tenant → Tenant) : (s.modTenant t f).logs = s.logs := rfl
@[simp] theorem State.modTenant_ports (s : State) (t : Nat) (f : Tenant → Tenant) : (s.modTenant t f).ports = s.ports := rfl
@[simp] theorem State.modTenant_regions (s : State) (t : Nat) (f : Tenant → Tenant) : (s.modTenant t f).regions = s.regions := rfl
@[simp] theorem State.modTenant_dieClocks (s : State) (t : Nat) (f : Tenant → Tenant) : (s.modTenant t f).dieClocks = s.dieClocks := rfl
@[simp] theorem State.modTenant_clock (s : State) (t : Nat) (f : Tenant → Tenant) : (s.modTenant t f).clock = s.clock := rfl
@[simp] theorem State.modTenant_ledgers (s : State) (t : Nat) (f : Tenant → Tenant) : (s.modTenant t f).ledgers = s.ledgers := rfl
@[simp] theorem State.modTenant_ledger (s : State) (t : Nat) (f : Tenant → Tenant) : (s.modTenant t f).ledger = s.ledger := rfl
@[simp] theorem State.modTenant_windows (s : State) (t : Nat) (f : Tenant → Tenant) : (s.modTenant t f).windows = s.windows := rfl
@[simp] theorem State.modTenant_admitted (s : State) (t : Nat) (f : Tenant → Tenant) : (s.modTenant t f).admitted = s.admitted := rfl
@[simp] theorem State.modTenant_remote (s : State) (t : Nat) (f : Tenant → Tenant) : (s.modTenant t f).remote = s.remote := rfl
@[simp] theorem State.modTenant_win (s : State) (t : Nat) (f : Tenant → Tenant) : (s.modTenant t f).win = s.win := rfl
@[simp] theorem State.modTenant_slots (s : State) (t : Nat) (f : Tenant → Tenant) : (s.modTenant t f).slots = s.slots := rfl
@[simp] theorem State.modTenant_sessions (s : State) (t : Nat) (f : Tenant → Tenant) : (s.modTenant t f).sessions = s.sessions := rfl
@[simp] theorem State.modTenant_adm (s : State) (t : Nat) (f : Tenant → Tenant) : (s.modTenant t f).adm = s.adm := rfl
@[simp] theorem State.modTenant_fab (s : State) (t : Nat) (f : Tenant → Tenant) : (s.modTenant t f).fab = s.fab := rfl
@[simp] theorem State.modTenant_fports (s : State) (t : Nat) (f : Tenant → Tenant) : (s.modTenant t f).fports = s.fports := rfl
@[simp] theorem State.modTenant_routes (s : State) (t : Nat) (f : Tenant → Tenant) : (s.modTenant t f).routes = s.routes := rfl
@[simp] theorem State.modTenant_cartridges (s : State) (t : Nat) (f : Tenant → Tenant) : (s.modTenant t f).cartridges = s.cartridges := rfl
@[simp] theorem State.modTenant_engines (s : State) (t : Nat) (f : Tenant → Tenant) : (s.modTenant t f).engines = s.engines := rfl
@[simp] theorem State.modTenant_oeSel (s : State) (t : Nat) (f : Tenant → Tenant) : (s.modTenant t f).oeSel = s.oeSel := rfl
@[simp] theorem State.modTenant_editions (s : State) (t : Nat) (f : Tenant → Tenant) : (s.modTenant t f).editions = s.editions := rfl
@[simp] theorem State.modTenant_acc (s : State) (t : Nat) (f : Tenant → Tenant) : (s.modTenant t f).acc = s.acc := rfl
@[simp] theorem State.modTenant_accDie (s : State) (t : Nat) (f : Tenant → Tenant) : (s.modTenant t f).accDie = s.accDie := rfl
@[simp] theorem State.modTenant_charter (s : State) (t : Nat) (f : Tenant → Tenant) : (s.modTenant t f).charter = s.charter := rfl
@[simp] theorem State.modTenant_curators (s : State) (t : Nat) (f : Tenant → Tenant) : (s.modTenant t f).curators = s.curators := rfl
@[simp] theorem State.modTenant_fwCur (s : State) (t : Nat) (f : Tenant → Tenant) : (s.modTenant t f).fwCur = s.fwCur := rfl
@[simp] theorem State.modTenant_fwOpt (s : State) (t : Nat) (f : Tenant → Tenant) : (s.modTenant t f).fwOpt = s.fwOpt := rfl
@[simp] theorem State.modTenant_sec (s : State) (t : Nat) (f : Tenant → Tenant) : (s.modTenant t f).sec = s.sec := rfl
@[simp] theorem State.modTenant_gen (s : State) (t : Nat) (f : Tenant → Tenant) : (s.modTenant t f).gen = s.gen := rfl
@[simp] theorem State.modTenant_power (s : State) (t : Nat) (f : Tenant → Tenant) : (s.modTenant t f).power = s.power := rfl
@[simp] theorem State.modTenant_busData (s : State) (t : Nat) (f : Tenant → Tenant) : (s.modTenant t f).busData = s.busData := rfl
@[simp] theorem State.modTenant_busLatch (s : State) (t : Nat) (f : Tenant → Tenant) : (s.modTenant t f).busLatch = s.busLatch := rfl
@[simp] theorem State.modTenant_freeCtr (s : State) (t : Nat) (f : Tenant → Tenant) : (s.modTenant t f).freeCtr = s.freeCtr := rfl
@[simp] theorem State.modTenant_pending (s : State) (t : Nat) (f : Tenant → Tenant) : (s.modTenant t f).pending = s.pending := rfl

@[simp] theorem State.modSlot_fuses (s : State) (i : Nat) (f : Slot → Slot) : (s.modSlot i f).fuses = s.fuses := rfl
@[simp] theorem State.modSlot_mem (s : State) (i : Nat) (f : Slot → Slot) : (s.modSlot i f).mem = s.mem := rfl
@[simp] theorem State.modSlot_upsets (s : State) (i : Nat) (f : Slot → Slot) : (s.modSlot i f).upsets = s.upsets := rfl
@[simp] theorem State.modSlot_cores (s : State) (i : Nat) (f : Slot → Slot) : (s.modSlot i f).cores = s.cores := rfl
@[simp] theorem State.modSlot_clusters (s : State) (i : Nat) (f : Slot → Slot) : (s.modSlot i f).clusters = s.clusters := rfl
@[simp] theorem State.modSlot_pages (s : State) (i : Nat) (f : Slot → Slot) : (s.modSlot i f).pages = s.pages := rfl
@[simp] theorem State.modSlot_logs (s : State) (i : Nat) (f : Slot → Slot) : (s.modSlot i f).logs = s.logs := rfl
@[simp] theorem State.modSlot_ports (s : State) (i : Nat) (f : Slot → Slot) : (s.modSlot i f).ports = s.ports := rfl
@[simp] theorem State.modSlot_regions (s : State) (i : Nat) (f : Slot → Slot) : (s.modSlot i f).regions = s.regions := rfl
@[simp] theorem State.modSlot_dieClocks (s : State) (i : Nat) (f : Slot → Slot) : (s.modSlot i f).dieClocks = s.dieClocks := rfl
@[simp] theorem State.modSlot_clock (s : State) (i : Nat) (f : Slot → Slot) : (s.modSlot i f).clock = s.clock := rfl
@[simp] theorem State.modSlot_ledgers (s : State) (i : Nat) (f : Slot → Slot) : (s.modSlot i f).ledgers = s.ledgers := rfl
@[simp] theorem State.modSlot_ledger (s : State) (i : Nat) (f : Slot → Slot) : (s.modSlot i f).ledger = s.ledger := rfl
@[simp] theorem State.modSlot_windows (s : State) (i : Nat) (f : Slot → Slot) : (s.modSlot i f).windows = s.windows := rfl
@[simp] theorem State.modSlot_admitted (s : State) (i : Nat) (f : Slot → Slot) : (s.modSlot i f).admitted = s.admitted := rfl
@[simp] theorem State.modSlot_remote (s : State) (i : Nat) (f : Slot → Slot) : (s.modSlot i f).remote = s.remote := rfl
@[simp] theorem State.modSlot_win (s : State) (i : Nat) (f : Slot → Slot) : (s.modSlot i f).win = s.win := rfl
@[simp] theorem State.modSlot_tenants (s : State) (i : Nat) (f : Slot → Slot) : (s.modSlot i f).tenants = s.tenants := rfl
@[simp] theorem State.modSlot_sessions (s : State) (i : Nat) (f : Slot → Slot) : (s.modSlot i f).sessions = s.sessions := rfl
@[simp] theorem State.modSlot_adm (s : State) (i : Nat) (f : Slot → Slot) : (s.modSlot i f).adm = s.adm := rfl
@[simp] theorem State.modSlot_fab (s : State) (i : Nat) (f : Slot → Slot) : (s.modSlot i f).fab = s.fab := rfl
@[simp] theorem State.modSlot_fports (s : State) (i : Nat) (f : Slot → Slot) : (s.modSlot i f).fports = s.fports := rfl
@[simp] theorem State.modSlot_routes (s : State) (i : Nat) (f : Slot → Slot) : (s.modSlot i f).routes = s.routes := rfl
@[simp] theorem State.modSlot_cartridges (s : State) (i : Nat) (f : Slot → Slot) : (s.modSlot i f).cartridges = s.cartridges := rfl
@[simp] theorem State.modSlot_engines (s : State) (i : Nat) (f : Slot → Slot) : (s.modSlot i f).engines = s.engines := rfl
@[simp] theorem State.modSlot_oeSel (s : State) (i : Nat) (f : Slot → Slot) : (s.modSlot i f).oeSel = s.oeSel := rfl
@[simp] theorem State.modSlot_editions (s : State) (i : Nat) (f : Slot → Slot) : (s.modSlot i f).editions = s.editions := rfl
@[simp] theorem State.modSlot_acc (s : State) (i : Nat) (f : Slot → Slot) : (s.modSlot i f).acc = s.acc := rfl
@[simp] theorem State.modSlot_accDie (s : State) (i : Nat) (f : Slot → Slot) : (s.modSlot i f).accDie = s.accDie := rfl
@[simp] theorem State.modSlot_charter (s : State) (i : Nat) (f : Slot → Slot) : (s.modSlot i f).charter = s.charter := rfl
@[simp] theorem State.modSlot_curators (s : State) (i : Nat) (f : Slot → Slot) : (s.modSlot i f).curators = s.curators := rfl
@[simp] theorem State.modSlot_fwCur (s : State) (i : Nat) (f : Slot → Slot) : (s.modSlot i f).fwCur = s.fwCur := rfl
@[simp] theorem State.modSlot_fwOpt (s : State) (i : Nat) (f : Slot → Slot) : (s.modSlot i f).fwOpt = s.fwOpt := rfl
@[simp] theorem State.modSlot_sec (s : State) (i : Nat) (f : Slot → Slot) : (s.modSlot i f).sec = s.sec := rfl
@[simp] theorem State.modSlot_gen (s : State) (i : Nat) (f : Slot → Slot) : (s.modSlot i f).gen = s.gen := rfl
@[simp] theorem State.modSlot_power (s : State) (i : Nat) (f : Slot → Slot) : (s.modSlot i f).power = s.power := rfl
@[simp] theorem State.modSlot_busData (s : State) (i : Nat) (f : Slot → Slot) : (s.modSlot i f).busData = s.busData := rfl
@[simp] theorem State.modSlot_busLatch (s : State) (i : Nat) (f : Slot → Slot) : (s.modSlot i f).busLatch = s.busLatch := rfl
@[simp] theorem State.modSlot_freeCtr (s : State) (i : Nat) (f : Slot → Slot) : (s.modSlot i f).freeCtr = s.freeCtr := rfl
@[simp] theorem State.modSlot_pending (s : State) (i : Nat) (f : Slot → Slot) : (s.modSlot i f).pending = s.pending := rfl

@[simp] theorem State.modProg_fuses (s : State) (i : Nat) (f : Prog → Prog) : (s.modProg i f).fuses = s.fuses := rfl
@[simp] theorem State.modProg_mem (s : State) (i : Nat) (f : Prog → Prog) : (s.modProg i f).mem = s.mem := rfl
@[simp] theorem State.modProg_upsets (s : State) (i : Nat) (f : Prog → Prog) : (s.modProg i f).upsets = s.upsets := rfl
@[simp] theorem State.modProg_cores (s : State) (i : Nat) (f : Prog → Prog) : (s.modProg i f).cores = s.cores := rfl
@[simp] theorem State.modProg_clusters (s : State) (i : Nat) (f : Prog → Prog) : (s.modProg i f).clusters = s.clusters := rfl
@[simp] theorem State.modProg_pages (s : State) (i : Nat) (f : Prog → Prog) : (s.modProg i f).pages = s.pages := rfl
@[simp] theorem State.modProg_logs (s : State) (i : Nat) (f : Prog → Prog) : (s.modProg i f).logs = s.logs := rfl
@[simp] theorem State.modProg_ports (s : State) (i : Nat) (f : Prog → Prog) : (s.modProg i f).ports = s.ports := rfl
@[simp] theorem State.modProg_regions (s : State) (i : Nat) (f : Prog → Prog) : (s.modProg i f).regions = s.regions := rfl
@[simp] theorem State.modProg_dieClocks (s : State) (i : Nat) (f : Prog → Prog) : (s.modProg i f).dieClocks = s.dieClocks := rfl
@[simp] theorem State.modProg_clock (s : State) (i : Nat) (f : Prog → Prog) : (s.modProg i f).clock = s.clock := rfl
@[simp] theorem State.modProg_ledgers (s : State) (i : Nat) (f : Prog → Prog) : (s.modProg i f).ledgers = s.ledgers := rfl
@[simp] theorem State.modProg_ledger (s : State) (i : Nat) (f : Prog → Prog) : (s.modProg i f).ledger = s.ledger := rfl
@[simp] theorem State.modProg_windows (s : State) (i : Nat) (f : Prog → Prog) : (s.modProg i f).windows = s.windows := rfl
@[simp] theorem State.modProg_admitted (s : State) (i : Nat) (f : Prog → Prog) : (s.modProg i f).admitted = s.admitted := rfl
@[simp] theorem State.modProg_remote (s : State) (i : Nat) (f : Prog → Prog) : (s.modProg i f).remote = s.remote := rfl
@[simp] theorem State.modProg_win (s : State) (i : Nat) (f : Prog → Prog) : (s.modProg i f).win = s.win := rfl
@[simp] theorem State.modProg_tenants (s : State) (i : Nat) (f : Prog → Prog) : (s.modProg i f).tenants = s.tenants := rfl
@[simp] theorem State.modProg_sessions (s : State) (i : Nat) (f : Prog → Prog) : (s.modProg i f).sessions = s.sessions := rfl
@[simp] theorem State.modProg_adm (s : State) (i : Nat) (f : Prog → Prog) : (s.modProg i f).adm = s.adm := rfl
@[simp] theorem State.modProg_fab (s : State) (i : Nat) (f : Prog → Prog) : (s.modProg i f).fab = s.fab := rfl
@[simp] theorem State.modProg_fports (s : State) (i : Nat) (f : Prog → Prog) : (s.modProg i f).fports = s.fports := rfl
@[simp] theorem State.modProg_routes (s : State) (i : Nat) (f : Prog → Prog) : (s.modProg i f).routes = s.routes := rfl
@[simp] theorem State.modProg_cartridges (s : State) (i : Nat) (f : Prog → Prog) : (s.modProg i f).cartridges = s.cartridges := rfl
@[simp] theorem State.modProg_engines (s : State) (i : Nat) (f : Prog → Prog) : (s.modProg i f).engines = s.engines := rfl
@[simp] theorem State.modProg_oeSel (s : State) (i : Nat) (f : Prog → Prog) : (s.modProg i f).oeSel = s.oeSel := rfl
@[simp] theorem State.modProg_editions (s : State) (i : Nat) (f : Prog → Prog) : (s.modProg i f).editions = s.editions := rfl
@[simp] theorem State.modProg_acc (s : State) (i : Nat) (f : Prog → Prog) : (s.modProg i f).acc = s.acc := rfl
@[simp] theorem State.modProg_accDie (s : State) (i : Nat) (f : Prog → Prog) : (s.modProg i f).accDie = s.accDie := rfl
@[simp] theorem State.modProg_charter (s : State) (i : Nat) (f : Prog → Prog) : (s.modProg i f).charter = s.charter := rfl
@[simp] theorem State.modProg_curators (s : State) (i : Nat) (f : Prog → Prog) : (s.modProg i f).curators = s.curators := rfl
@[simp] theorem State.modProg_fwCur (s : State) (i : Nat) (f : Prog → Prog) : (s.modProg i f).fwCur = s.fwCur := rfl
@[simp] theorem State.modProg_fwOpt (s : State) (i : Nat) (f : Prog → Prog) : (s.modProg i f).fwOpt = s.fwOpt := rfl
@[simp] theorem State.modProg_sec (s : State) (i : Nat) (f : Prog → Prog) : (s.modProg i f).sec = s.sec := rfl
@[simp] theorem State.modProg_gen (s : State) (i : Nat) (f : Prog → Prog) : (s.modProg i f).gen = s.gen := rfl
@[simp] theorem State.modProg_power (s : State) (i : Nat) (f : Prog → Prog) : (s.modProg i f).power = s.power := rfl
@[simp] theorem State.modProg_busData (s : State) (i : Nat) (f : Prog → Prog) : (s.modProg i f).busData = s.busData := rfl
@[simp] theorem State.modProg_busLatch (s : State) (i : Nat) (f : Prog → Prog) : (s.modProg i f).busLatch = s.busLatch := rfl
@[simp] theorem State.modProg_freeCtr (s : State) (i : Nat) (f : Prog → Prog) : (s.modProg i f).freeCtr = s.freeCtr := rfl
@[simp] theorem State.modProg_pending (s : State) (i : Nat) (f : Prog → Prog) : (s.modProg i f).pending = s.pending := rfl

@[simp] theorem State.modSession_fuses (s : State) (i : Nat) (f : Session → Session) : (s.modSession i f).fuses = s.fuses := rfl
@[simp] theorem State.modSession_mem (s : State) (i : Nat) (f : Session → Session) : (s.modSession i f).mem = s.mem := rfl
@[simp] theorem State.modSession_upsets (s : State) (i : Nat) (f : Session → Session) : (s.modSession i f).upsets = s.upsets := rfl
@[simp] theorem State.modSession_cores (s : State) (i : Nat) (f : Session → Session) : (s.modSession i f).cores = s.cores := rfl
@[simp] theorem State.modSession_clusters (s : State) (i : Nat) (f : Session → Session) : (s.modSession i f).clusters = s.clusters := rfl
@[simp] theorem State.modSession_pages (s : State) (i : Nat) (f : Session → Session) : (s.modSession i f).pages = s.pages := rfl
@[simp] theorem State.modSession_logs (s : State) (i : Nat) (f : Session → Session) : (s.modSession i f).logs = s.logs := rfl
@[simp] theorem State.modSession_ports (s : State) (i : Nat) (f : Session → Session) : (s.modSession i f).ports = s.ports := rfl
@[simp] theorem State.modSession_regions (s : State) (i : Nat) (f : Session → Session) : (s.modSession i f).regions = s.regions := rfl
@[simp] theorem State.modSession_dieClocks (s : State) (i : Nat) (f : Session → Session) : (s.modSession i f).dieClocks = s.dieClocks := rfl
@[simp] theorem State.modSession_clock (s : State) (i : Nat) (f : Session → Session) : (s.modSession i f).clock = s.clock := rfl
@[simp] theorem State.modSession_ledgers (s : State) (i : Nat) (f : Session → Session) : (s.modSession i f).ledgers = s.ledgers := rfl
@[simp] theorem State.modSession_ledger (s : State) (i : Nat) (f : Session → Session) : (s.modSession i f).ledger = s.ledger := rfl
@[simp] theorem State.modSession_windows (s : State) (i : Nat) (f : Session → Session) : (s.modSession i f).windows = s.windows := rfl
@[simp] theorem State.modSession_admitted (s : State) (i : Nat) (f : Session → Session) : (s.modSession i f).admitted = s.admitted := rfl
@[simp] theorem State.modSession_remote (s : State) (i : Nat) (f : Session → Session) : (s.modSession i f).remote = s.remote := rfl
@[simp] theorem State.modSession_win (s : State) (i : Nat) (f : Session → Session) : (s.modSession i f).win = s.win := rfl
@[simp] theorem State.modSession_tenants (s : State) (i : Nat) (f : Session → Session) : (s.modSession i f).tenants = s.tenants := rfl
@[simp] theorem State.modSession_slots (s : State) (i : Nat) (f : Session → Session) : (s.modSession i f).slots = s.slots := rfl
@[simp] theorem State.modSession_adm (s : State) (i : Nat) (f : Session → Session) : (s.modSession i f).adm = s.adm := rfl
@[simp] theorem State.modSession_fab (s : State) (i : Nat) (f : Session → Session) : (s.modSession i f).fab = s.fab := rfl
@[simp] theorem State.modSession_fports (s : State) (i : Nat) (f : Session → Session) : (s.modSession i f).fports = s.fports := rfl
@[simp] theorem State.modSession_routes (s : State) (i : Nat) (f : Session → Session) : (s.modSession i f).routes = s.routes := rfl
@[simp] theorem State.modSession_cartridges (s : State) (i : Nat) (f : Session → Session) : (s.modSession i f).cartridges = s.cartridges := rfl
@[simp] theorem State.modSession_engines (s : State) (i : Nat) (f : Session → Session) : (s.modSession i f).engines = s.engines := rfl
@[simp] theorem State.modSession_oeSel (s : State) (i : Nat) (f : Session → Session) : (s.modSession i f).oeSel = s.oeSel := rfl
@[simp] theorem State.modSession_editions (s : State) (i : Nat) (f : Session → Session) : (s.modSession i f).editions = s.editions := rfl
@[simp] theorem State.modSession_acc (s : State) (i : Nat) (f : Session → Session) : (s.modSession i f).acc = s.acc := rfl
@[simp] theorem State.modSession_accDie (s : State) (i : Nat) (f : Session → Session) : (s.modSession i f).accDie = s.accDie := rfl
@[simp] theorem State.modSession_charter (s : State) (i : Nat) (f : Session → Session) : (s.modSession i f).charter = s.charter := rfl
@[simp] theorem State.modSession_curators (s : State) (i : Nat) (f : Session → Session) : (s.modSession i f).curators = s.curators := rfl
@[simp] theorem State.modSession_fwCur (s : State) (i : Nat) (f : Session → Session) : (s.modSession i f).fwCur = s.fwCur := rfl
@[simp] theorem State.modSession_fwOpt (s : State) (i : Nat) (f : Session → Session) : (s.modSession i f).fwOpt = s.fwOpt := rfl
@[simp] theorem State.modSession_sec (s : State) (i : Nat) (f : Session → Session) : (s.modSession i f).sec = s.sec := rfl
@[simp] theorem State.modSession_gen (s : State) (i : Nat) (f : Session → Session) : (s.modSession i f).gen = s.gen := rfl
@[simp] theorem State.modSession_power (s : State) (i : Nat) (f : Session → Session) : (s.modSession i f).power = s.power := rfl
@[simp] theorem State.modSession_busData (s : State) (i : Nat) (f : Session → Session) : (s.modSession i f).busData = s.busData := rfl
@[simp] theorem State.modSession_busLatch (s : State) (i : Nat) (f : Session → Session) : (s.modSession i f).busLatch = s.busLatch := rfl
@[simp] theorem State.modSession_freeCtr (s : State) (i : Nat) (f : Session → Session) : (s.modSession i f).freeCtr = s.freeCtr := rfl
@[simp] theorem State.modSession_pending (s : State) (i : Nat) (f : Session → Session) : (s.modSession i f).pending = s.pending := rfl

@[simp] theorem State.modFport_fuses (s : State) (p : Nat) (f : FabPort → FabPort) : (s.modFport p f).fuses = s.fuses := rfl
@[simp] theorem State.modFport_mem (s : State) (p : Nat) (f : FabPort → FabPort) : (s.modFport p f).mem = s.mem := rfl
@[simp] theorem State.modFport_upsets (s : State) (p : Nat) (f : FabPort → FabPort) : (s.modFport p f).upsets = s.upsets := rfl
@[simp] theorem State.modFport_cores (s : State) (p : Nat) (f : FabPort → FabPort) : (s.modFport p f).cores = s.cores := rfl
@[simp] theorem State.modFport_clusters (s : State) (p : Nat) (f : FabPort → FabPort) : (s.modFport p f).clusters = s.clusters := rfl
@[simp] theorem State.modFport_pages (s : State) (p : Nat) (f : FabPort → FabPort) : (s.modFport p f).pages = s.pages := rfl
@[simp] theorem State.modFport_logs (s : State) (p : Nat) (f : FabPort → FabPort) : (s.modFport p f).logs = s.logs := rfl
@[simp] theorem State.modFport_ports (s : State) (p : Nat) (f : FabPort → FabPort) : (s.modFport p f).ports = s.ports := rfl
@[simp] theorem State.modFport_regions (s : State) (p : Nat) (f : FabPort → FabPort) : (s.modFport p f).regions = s.regions := rfl
@[simp] theorem State.modFport_dieClocks (s : State) (p : Nat) (f : FabPort → FabPort) : (s.modFport p f).dieClocks = s.dieClocks := rfl
@[simp] theorem State.modFport_clock (s : State) (p : Nat) (f : FabPort → FabPort) : (s.modFport p f).clock = s.clock := rfl
@[simp] theorem State.modFport_ledgers (s : State) (p : Nat) (f : FabPort → FabPort) : (s.modFport p f).ledgers = s.ledgers := rfl
@[simp] theorem State.modFport_ledger (s : State) (p : Nat) (f : FabPort → FabPort) : (s.modFport p f).ledger = s.ledger := rfl
@[simp] theorem State.modFport_windows (s : State) (p : Nat) (f : FabPort → FabPort) : (s.modFport p f).windows = s.windows := rfl
@[simp] theorem State.modFport_admitted (s : State) (p : Nat) (f : FabPort → FabPort) : (s.modFport p f).admitted = s.admitted := rfl
@[simp] theorem State.modFport_remote (s : State) (p : Nat) (f : FabPort → FabPort) : (s.modFport p f).remote = s.remote := rfl
@[simp] theorem State.modFport_win (s : State) (p : Nat) (f : FabPort → FabPort) : (s.modFport p f).win = s.win := rfl
@[simp] theorem State.modFport_tenants (s : State) (p : Nat) (f : FabPort → FabPort) : (s.modFport p f).tenants = s.tenants := rfl
@[simp] theorem State.modFport_slots (s : State) (p : Nat) (f : FabPort → FabPort) : (s.modFport p f).slots = s.slots := rfl
@[simp] theorem State.modFport_sessions (s : State) (p : Nat) (f : FabPort → FabPort) : (s.modFport p f).sessions = s.sessions := rfl
@[simp] theorem State.modFport_adm (s : State) (p : Nat) (f : FabPort → FabPort) : (s.modFport p f).adm = s.adm := rfl
@[simp] theorem State.modFport_fab (s : State) (p : Nat) (f : FabPort → FabPort) : (s.modFport p f).fab = s.fab := rfl
@[simp] theorem State.modFport_routes (s : State) (p : Nat) (f : FabPort → FabPort) : (s.modFport p f).routes = s.routes := rfl
@[simp] theorem State.modFport_cartridges (s : State) (p : Nat) (f : FabPort → FabPort) : (s.modFport p f).cartridges = s.cartridges := rfl
@[simp] theorem State.modFport_engines (s : State) (p : Nat) (f : FabPort → FabPort) : (s.modFport p f).engines = s.engines := rfl
@[simp] theorem State.modFport_oeSel (s : State) (p : Nat) (f : FabPort → FabPort) : (s.modFport p f).oeSel = s.oeSel := rfl
@[simp] theorem State.modFport_editions (s : State) (p : Nat) (f : FabPort → FabPort) : (s.modFport p f).editions = s.editions := rfl
@[simp] theorem State.modFport_acc (s : State) (p : Nat) (f : FabPort → FabPort) : (s.modFport p f).acc = s.acc := rfl
@[simp] theorem State.modFport_accDie (s : State) (p : Nat) (f : FabPort → FabPort) : (s.modFport p f).accDie = s.accDie := rfl
@[simp] theorem State.modFport_charter (s : State) (p : Nat) (f : FabPort → FabPort) : (s.modFport p f).charter = s.charter := rfl
@[simp] theorem State.modFport_curators (s : State) (p : Nat) (f : FabPort → FabPort) : (s.modFport p f).curators = s.curators := rfl
@[simp] theorem State.modFport_fwCur (s : State) (p : Nat) (f : FabPort → FabPort) : (s.modFport p f).fwCur = s.fwCur := rfl
@[simp] theorem State.modFport_fwOpt (s : State) (p : Nat) (f : FabPort → FabPort) : (s.modFport p f).fwOpt = s.fwOpt := rfl
@[simp] theorem State.modFport_sec (s : State) (p : Nat) (f : FabPort → FabPort) : (s.modFport p f).sec = s.sec := rfl
@[simp] theorem State.modFport_gen (s : State) (p : Nat) (f : FabPort → FabPort) : (s.modFport p f).gen = s.gen := rfl
@[simp] theorem State.modFport_power (s : State) (p : Nat) (f : FabPort → FabPort) : (s.modFport p f).power = s.power := rfl
@[simp] theorem State.modFport_busData (s : State) (p : Nat) (f : FabPort → FabPort) : (s.modFport p f).busData = s.busData := rfl
@[simp] theorem State.modFport_busLatch (s : State) (p : Nat) (f : FabPort → FabPort) : (s.modFport p f).busLatch = s.busLatch := rfl
@[simp] theorem State.modFport_freeCtr (s : State) (p : Nat) (f : FabPort → FabPort) : (s.modFport p f).freeCtr = s.freeCtr := rfl
@[simp] theorem State.modFport_pending (s : State) (p : Nat) (f : FabPort → FabPort) : (s.modFport p f).pending = s.pending := rfl

@[simp] theorem State.setRoute_fuses (s : State) (r : Nat) (v : RouteEntry) : (s.setRoute r v).fuses = s.fuses := rfl
@[simp] theorem State.setRoute_mem (s : State) (r : Nat) (v : RouteEntry) : (s.setRoute r v).mem = s.mem := rfl
@[simp] theorem State.setRoute_upsets (s : State) (r : Nat) (v : RouteEntry) : (s.setRoute r v).upsets = s.upsets := rfl
@[simp] theorem State.setRoute_cores (s : State) (r : Nat) (v : RouteEntry) : (s.setRoute r v).cores = s.cores := rfl
@[simp] theorem State.setRoute_clusters (s : State) (r : Nat) (v : RouteEntry) : (s.setRoute r v).clusters = s.clusters := rfl
@[simp] theorem State.setRoute_pages (s : State) (r : Nat) (v : RouteEntry) : (s.setRoute r v).pages = s.pages := rfl
@[simp] theorem State.setRoute_logs (s : State) (r : Nat) (v : RouteEntry) : (s.setRoute r v).logs = s.logs := rfl
@[simp] theorem State.setRoute_ports (s : State) (r : Nat) (v : RouteEntry) : (s.setRoute r v).ports = s.ports := rfl
@[simp] theorem State.setRoute_regions (s : State) (r : Nat) (v : RouteEntry) : (s.setRoute r v).regions = s.regions := rfl
@[simp] theorem State.setRoute_dieClocks (s : State) (r : Nat) (v : RouteEntry) : (s.setRoute r v).dieClocks = s.dieClocks := rfl
@[simp] theorem State.setRoute_clock (s : State) (r : Nat) (v : RouteEntry) : (s.setRoute r v).clock = s.clock := rfl
@[simp] theorem State.setRoute_ledgers (s : State) (r : Nat) (v : RouteEntry) : (s.setRoute r v).ledgers = s.ledgers := rfl
@[simp] theorem State.setRoute_ledger (s : State) (r : Nat) (v : RouteEntry) : (s.setRoute r v).ledger = s.ledger := rfl
@[simp] theorem State.setRoute_windows (s : State) (r : Nat) (v : RouteEntry) : (s.setRoute r v).windows = s.windows := rfl
@[simp] theorem State.setRoute_admitted (s : State) (r : Nat) (v : RouteEntry) : (s.setRoute r v).admitted = s.admitted := rfl
@[simp] theorem State.setRoute_remote (s : State) (r : Nat) (v : RouteEntry) : (s.setRoute r v).remote = s.remote := rfl
@[simp] theorem State.setRoute_win (s : State) (r : Nat) (v : RouteEntry) : (s.setRoute r v).win = s.win := rfl
@[simp] theorem State.setRoute_tenants (s : State) (r : Nat) (v : RouteEntry) : (s.setRoute r v).tenants = s.tenants := rfl
@[simp] theorem State.setRoute_slots (s : State) (r : Nat) (v : RouteEntry) : (s.setRoute r v).slots = s.slots := rfl
@[simp] theorem State.setRoute_sessions (s : State) (r : Nat) (v : RouteEntry) : (s.setRoute r v).sessions = s.sessions := rfl
@[simp] theorem State.setRoute_adm (s : State) (r : Nat) (v : RouteEntry) : (s.setRoute r v).adm = s.adm := rfl
@[simp] theorem State.setRoute_fab (s : State) (r : Nat) (v : RouteEntry) : (s.setRoute r v).fab = s.fab := rfl
@[simp] theorem State.setRoute_fports (s : State) (r : Nat) (v : RouteEntry) : (s.setRoute r v).fports = s.fports := rfl
@[simp] theorem State.setRoute_cartridges (s : State) (r : Nat) (v : RouteEntry) : (s.setRoute r v).cartridges = s.cartridges := rfl
@[simp] theorem State.setRoute_engines (s : State) (r : Nat) (v : RouteEntry) : (s.setRoute r v).engines = s.engines := rfl
@[simp] theorem State.setRoute_oeSel (s : State) (r : Nat) (v : RouteEntry) : (s.setRoute r v).oeSel = s.oeSel := rfl
@[simp] theorem State.setRoute_editions (s : State) (r : Nat) (v : RouteEntry) : (s.setRoute r v).editions = s.editions := rfl
@[simp] theorem State.setRoute_acc (s : State) (r : Nat) (v : RouteEntry) : (s.setRoute r v).acc = s.acc := rfl
@[simp] theorem State.setRoute_accDie (s : State) (r : Nat) (v : RouteEntry) : (s.setRoute r v).accDie = s.accDie := rfl
@[simp] theorem State.setRoute_charter (s : State) (r : Nat) (v : RouteEntry) : (s.setRoute r v).charter = s.charter := rfl
@[simp] theorem State.setRoute_curators (s : State) (r : Nat) (v : RouteEntry) : (s.setRoute r v).curators = s.curators := rfl
@[simp] theorem State.setRoute_fwCur (s : State) (r : Nat) (v : RouteEntry) : (s.setRoute r v).fwCur = s.fwCur := rfl
@[simp] theorem State.setRoute_fwOpt (s : State) (r : Nat) (v : RouteEntry) : (s.setRoute r v).fwOpt = s.fwOpt := rfl
@[simp] theorem State.setRoute_sec (s : State) (r : Nat) (v : RouteEntry) : (s.setRoute r v).sec = s.sec := rfl
@[simp] theorem State.setRoute_gen (s : State) (r : Nat) (v : RouteEntry) : (s.setRoute r v).gen = s.gen := rfl
@[simp] theorem State.setRoute_power (s : State) (r : Nat) (v : RouteEntry) : (s.setRoute r v).power = s.power := rfl
@[simp] theorem State.setRoute_busData (s : State) (r : Nat) (v : RouteEntry) : (s.setRoute r v).busData = s.busData := rfl
@[simp] theorem State.setRoute_busLatch (s : State) (r : Nat) (v : RouteEntry) : (s.setRoute r v).busLatch = s.busLatch := rfl
@[simp] theorem State.setRoute_freeCtr (s : State) (r : Nat) (v : RouteEntry) : (s.setRoute r v).freeCtr = s.freeCtr := rfl
@[simp] theorem State.setRoute_pending (s : State) (r : Nat) (v : RouteEntry) : (s.setRoute r v).pending = s.pending := rfl

@[simp] theorem State.modCartridge_fuses (s : State) (n : Nat) (f : Cartridge → Cartridge) : (s.modCartridge n f).fuses = s.fuses := rfl
@[simp] theorem State.modCartridge_mem (s : State) (n : Nat) (f : Cartridge → Cartridge) : (s.modCartridge n f).mem = s.mem := rfl
@[simp] theorem State.modCartridge_upsets (s : State) (n : Nat) (f : Cartridge → Cartridge) : (s.modCartridge n f).upsets = s.upsets := rfl
@[simp] theorem State.modCartridge_cores (s : State) (n : Nat) (f : Cartridge → Cartridge) : (s.modCartridge n f).cores = s.cores := rfl
@[simp] theorem State.modCartridge_clusters (s : State) (n : Nat) (f : Cartridge → Cartridge) : (s.modCartridge n f).clusters = s.clusters := rfl
@[simp] theorem State.modCartridge_pages (s : State) (n : Nat) (f : Cartridge → Cartridge) : (s.modCartridge n f).pages = s.pages := rfl
@[simp] theorem State.modCartridge_logs (s : State) (n : Nat) (f : Cartridge → Cartridge) : (s.modCartridge n f).logs = s.logs := rfl
@[simp] theorem State.modCartridge_ports (s : State) (n : Nat) (f : Cartridge → Cartridge) : (s.modCartridge n f).ports = s.ports := rfl
@[simp] theorem State.modCartridge_regions (s : State) (n : Nat) (f : Cartridge → Cartridge) : (s.modCartridge n f).regions = s.regions := rfl
@[simp] theorem State.modCartridge_dieClocks (s : State) (n : Nat) (f : Cartridge → Cartridge) : (s.modCartridge n f).dieClocks = s.dieClocks := rfl
@[simp] theorem State.modCartridge_clock (s : State) (n : Nat) (f : Cartridge → Cartridge) : (s.modCartridge n f).clock = s.clock := rfl
@[simp] theorem State.modCartridge_ledgers (s : State) (n : Nat) (f : Cartridge → Cartridge) : (s.modCartridge n f).ledgers = s.ledgers := rfl
@[simp] theorem State.modCartridge_ledger (s : State) (n : Nat) (f : Cartridge → Cartridge) : (s.modCartridge n f).ledger = s.ledger := rfl
@[simp] theorem State.modCartridge_windows (s : State) (n : Nat) (f : Cartridge → Cartridge) : (s.modCartridge n f).windows = s.windows := rfl
@[simp] theorem State.modCartridge_admitted (s : State) (n : Nat) (f : Cartridge → Cartridge) : (s.modCartridge n f).admitted = s.admitted := rfl
@[simp] theorem State.modCartridge_remote (s : State) (n : Nat) (f : Cartridge → Cartridge) : (s.modCartridge n f).remote = s.remote := rfl
@[simp] theorem State.modCartridge_win (s : State) (n : Nat) (f : Cartridge → Cartridge) : (s.modCartridge n f).win = s.win := rfl
@[simp] theorem State.modCartridge_tenants (s : State) (n : Nat) (f : Cartridge → Cartridge) : (s.modCartridge n f).tenants = s.tenants := rfl
@[simp] theorem State.modCartridge_slots (s : State) (n : Nat) (f : Cartridge → Cartridge) : (s.modCartridge n f).slots = s.slots := rfl
@[simp] theorem State.modCartridge_sessions (s : State) (n : Nat) (f : Cartridge → Cartridge) : (s.modCartridge n f).sessions = s.sessions := rfl
@[simp] theorem State.modCartridge_adm (s : State) (n : Nat) (f : Cartridge → Cartridge) : (s.modCartridge n f).adm = s.adm := rfl
@[simp] theorem State.modCartridge_fab (s : State) (n : Nat) (f : Cartridge → Cartridge) : (s.modCartridge n f).fab = s.fab := rfl
@[simp] theorem State.modCartridge_fports (s : State) (n : Nat) (f : Cartridge → Cartridge) : (s.modCartridge n f).fports = s.fports := rfl
@[simp] theorem State.modCartridge_routes (s : State) (n : Nat) (f : Cartridge → Cartridge) : (s.modCartridge n f).routes = s.routes := rfl
@[simp] theorem State.modCartridge_engines (s : State) (n : Nat) (f : Cartridge → Cartridge) : (s.modCartridge n f).engines = s.engines := rfl
@[simp] theorem State.modCartridge_oeSel (s : State) (n : Nat) (f : Cartridge → Cartridge) : (s.modCartridge n f).oeSel = s.oeSel := rfl
@[simp] theorem State.modCartridge_editions (s : State) (n : Nat) (f : Cartridge → Cartridge) : (s.modCartridge n f).editions = s.editions := rfl
@[simp] theorem State.modCartridge_acc (s : State) (n : Nat) (f : Cartridge → Cartridge) : (s.modCartridge n f).acc = s.acc := rfl
@[simp] theorem State.modCartridge_accDie (s : State) (n : Nat) (f : Cartridge → Cartridge) : (s.modCartridge n f).accDie = s.accDie := rfl
@[simp] theorem State.modCartridge_charter (s : State) (n : Nat) (f : Cartridge → Cartridge) : (s.modCartridge n f).charter = s.charter := rfl
@[simp] theorem State.modCartridge_curators (s : State) (n : Nat) (f : Cartridge → Cartridge) : (s.modCartridge n f).curators = s.curators := rfl
@[simp] theorem State.modCartridge_fwCur (s : State) (n : Nat) (f : Cartridge → Cartridge) : (s.modCartridge n f).fwCur = s.fwCur := rfl
@[simp] theorem State.modCartridge_fwOpt (s : State) (n : Nat) (f : Cartridge → Cartridge) : (s.modCartridge n f).fwOpt = s.fwOpt := rfl
@[simp] theorem State.modCartridge_sec (s : State) (n : Nat) (f : Cartridge → Cartridge) : (s.modCartridge n f).sec = s.sec := rfl
@[simp] theorem State.modCartridge_gen (s : State) (n : Nat) (f : Cartridge → Cartridge) : (s.modCartridge n f).gen = s.gen := rfl
@[simp] theorem State.modCartridge_power (s : State) (n : Nat) (f : Cartridge → Cartridge) : (s.modCartridge n f).power = s.power := rfl
@[simp] theorem State.modCartridge_busData (s : State) (n : Nat) (f : Cartridge → Cartridge) : (s.modCartridge n f).busData = s.busData := rfl
@[simp] theorem State.modCartridge_busLatch (s : State) (n : Nat) (f : Cartridge → Cartridge) : (s.modCartridge n f).busLatch = s.busLatch := rfl
@[simp] theorem State.modCartridge_freeCtr (s : State) (n : Nat) (f : Cartridge → Cartridge) : (s.modCartridge n f).freeCtr = s.freeCtr := rfl
@[simp] theorem State.modCartridge_pending (s : State) (n : Nat) (f : Cartridge → Cartridge) : (s.modCartridge n f).pending = s.pending := rfl

@[simp] theorem State.modEngine_fuses (s : State) (n : Nat) (f : OptEngine → OptEngine) : (s.modEngine n f).fuses = s.fuses := rfl
@[simp] theorem State.modEngine_mem (s : State) (n : Nat) (f : OptEngine → OptEngine) : (s.modEngine n f).mem = s.mem := rfl
@[simp] theorem State.modEngine_upsets (s : State) (n : Nat) (f : OptEngine → OptEngine) : (s.modEngine n f).upsets = s.upsets := rfl
@[simp] theorem State.modEngine_cores (s : State) (n : Nat) (f : OptEngine → OptEngine) : (s.modEngine n f).cores = s.cores := rfl
@[simp] theorem State.modEngine_clusters (s : State) (n : Nat) (f : OptEngine → OptEngine) : (s.modEngine n f).clusters = s.clusters := rfl
@[simp] theorem State.modEngine_pages (s : State) (n : Nat) (f : OptEngine → OptEngine) : (s.modEngine n f).pages = s.pages := rfl
@[simp] theorem State.modEngine_logs (s : State) (n : Nat) (f : OptEngine → OptEngine) : (s.modEngine n f).logs = s.logs := rfl
@[simp] theorem State.modEngine_ports (s : State) (n : Nat) (f : OptEngine → OptEngine) : (s.modEngine n f).ports = s.ports := rfl
@[simp] theorem State.modEngine_regions (s : State) (n : Nat) (f : OptEngine → OptEngine) : (s.modEngine n f).regions = s.regions := rfl
@[simp] theorem State.modEngine_dieClocks (s : State) (n : Nat) (f : OptEngine → OptEngine) : (s.modEngine n f).dieClocks = s.dieClocks := rfl
@[simp] theorem State.modEngine_clock (s : State) (n : Nat) (f : OptEngine → OptEngine) : (s.modEngine n f).clock = s.clock := rfl
@[simp] theorem State.modEngine_ledgers (s : State) (n : Nat) (f : OptEngine → OptEngine) : (s.modEngine n f).ledgers = s.ledgers := rfl
@[simp] theorem State.modEngine_ledger (s : State) (n : Nat) (f : OptEngine → OptEngine) : (s.modEngine n f).ledger = s.ledger := rfl
@[simp] theorem State.modEngine_windows (s : State) (n : Nat) (f : OptEngine → OptEngine) : (s.modEngine n f).windows = s.windows := rfl
@[simp] theorem State.modEngine_admitted (s : State) (n : Nat) (f : OptEngine → OptEngine) : (s.modEngine n f).admitted = s.admitted := rfl
@[simp] theorem State.modEngine_remote (s : State) (n : Nat) (f : OptEngine → OptEngine) : (s.modEngine n f).remote = s.remote := rfl
@[simp] theorem State.modEngine_win (s : State) (n : Nat) (f : OptEngine → OptEngine) : (s.modEngine n f).win = s.win := rfl
@[simp] theorem State.modEngine_tenants (s : State) (n : Nat) (f : OptEngine → OptEngine) : (s.modEngine n f).tenants = s.tenants := rfl
@[simp] theorem State.modEngine_slots (s : State) (n : Nat) (f : OptEngine → OptEngine) : (s.modEngine n f).slots = s.slots := rfl
@[simp] theorem State.modEngine_sessions (s : State) (n : Nat) (f : OptEngine → OptEngine) : (s.modEngine n f).sessions = s.sessions := rfl
@[simp] theorem State.modEngine_adm (s : State) (n : Nat) (f : OptEngine → OptEngine) : (s.modEngine n f).adm = s.adm := rfl
@[simp] theorem State.modEngine_fab (s : State) (n : Nat) (f : OptEngine → OptEngine) : (s.modEngine n f).fab = s.fab := rfl
@[simp] theorem State.modEngine_fports (s : State) (n : Nat) (f : OptEngine → OptEngine) : (s.modEngine n f).fports = s.fports := rfl
@[simp] theorem State.modEngine_routes (s : State) (n : Nat) (f : OptEngine → OptEngine) : (s.modEngine n f).routes = s.routes := rfl
@[simp] theorem State.modEngine_cartridges (s : State) (n : Nat) (f : OptEngine → OptEngine) : (s.modEngine n f).cartridges = s.cartridges := rfl
@[simp] theorem State.modEngine_oeSel (s : State) (n : Nat) (f : OptEngine → OptEngine) : (s.modEngine n f).oeSel = s.oeSel := rfl
@[simp] theorem State.modEngine_editions (s : State) (n : Nat) (f : OptEngine → OptEngine) : (s.modEngine n f).editions = s.editions := rfl
@[simp] theorem State.modEngine_acc (s : State) (n : Nat) (f : OptEngine → OptEngine) : (s.modEngine n f).acc = s.acc := rfl
@[simp] theorem State.modEngine_accDie (s : State) (n : Nat) (f : OptEngine → OptEngine) : (s.modEngine n f).accDie = s.accDie := rfl
@[simp] theorem State.modEngine_charter (s : State) (n : Nat) (f : OptEngine → OptEngine) : (s.modEngine n f).charter = s.charter := rfl
@[simp] theorem State.modEngine_curators (s : State) (n : Nat) (f : OptEngine → OptEngine) : (s.modEngine n f).curators = s.curators := rfl
@[simp] theorem State.modEngine_fwCur (s : State) (n : Nat) (f : OptEngine → OptEngine) : (s.modEngine n f).fwCur = s.fwCur := rfl
@[simp] theorem State.modEngine_fwOpt (s : State) (n : Nat) (f : OptEngine → OptEngine) : (s.modEngine n f).fwOpt = s.fwOpt := rfl
@[simp] theorem State.modEngine_sec (s : State) (n : Nat) (f : OptEngine → OptEngine) : (s.modEngine n f).sec = s.sec := rfl
@[simp] theorem State.modEngine_gen (s : State) (n : Nat) (f : OptEngine → OptEngine) : (s.modEngine n f).gen = s.gen := rfl
@[simp] theorem State.modEngine_power (s : State) (n : Nat) (f : OptEngine → OptEngine) : (s.modEngine n f).power = s.power := rfl
@[simp] theorem State.modEngine_busData (s : State) (n : Nat) (f : OptEngine → OptEngine) : (s.modEngine n f).busData = s.busData := rfl
@[simp] theorem State.modEngine_busLatch (s : State) (n : Nat) (f : OptEngine → OptEngine) : (s.modEngine n f).busLatch = s.busLatch := rfl
@[simp] theorem State.modEngine_freeCtr (s : State) (n : Nat) (f : OptEngine → OptEngine) : (s.modEngine n f).freeCtr = s.freeCtr := rfl
@[simp] theorem State.modEngine_pending (s : State) (n : Nat) (f : OptEngine → OptEngine) : (s.modEngine n f).pending = s.pending := rfl

@[simp] theorem State.modEdition_fuses (s : State) (i : Nat) (f : Edition → Edition) : (s.modEdition i f).fuses = s.fuses := rfl
@[simp] theorem State.modEdition_mem (s : State) (i : Nat) (f : Edition → Edition) : (s.modEdition i f).mem = s.mem := rfl
@[simp] theorem State.modEdition_upsets (s : State) (i : Nat) (f : Edition → Edition) : (s.modEdition i f).upsets = s.upsets := rfl
@[simp] theorem State.modEdition_cores (s : State) (i : Nat) (f : Edition → Edition) : (s.modEdition i f).cores = s.cores := rfl
@[simp] theorem State.modEdition_clusters (s : State) (i : Nat) (f : Edition → Edition) : (s.modEdition i f).clusters = s.clusters := rfl
@[simp] theorem State.modEdition_pages (s : State) (i : Nat) (f : Edition → Edition) : (s.modEdition i f).pages = s.pages := rfl
@[simp] theorem State.modEdition_logs (s : State) (i : Nat) (f : Edition → Edition) : (s.modEdition i f).logs = s.logs := rfl
@[simp] theorem State.modEdition_ports (s : State) (i : Nat) (f : Edition → Edition) : (s.modEdition i f).ports = s.ports := rfl
@[simp] theorem State.modEdition_regions (s : State) (i : Nat) (f : Edition → Edition) : (s.modEdition i f).regions = s.regions := rfl
@[simp] theorem State.modEdition_dieClocks (s : State) (i : Nat) (f : Edition → Edition) : (s.modEdition i f).dieClocks = s.dieClocks := rfl
@[simp] theorem State.modEdition_clock (s : State) (i : Nat) (f : Edition → Edition) : (s.modEdition i f).clock = s.clock := rfl
@[simp] theorem State.modEdition_ledgers (s : State) (i : Nat) (f : Edition → Edition) : (s.modEdition i f).ledgers = s.ledgers := rfl
@[simp] theorem State.modEdition_ledger (s : State) (i : Nat) (f : Edition → Edition) : (s.modEdition i f).ledger = s.ledger := rfl
@[simp] theorem State.modEdition_windows (s : State) (i : Nat) (f : Edition → Edition) : (s.modEdition i f).windows = s.windows := rfl
@[simp] theorem State.modEdition_admitted (s : State) (i : Nat) (f : Edition → Edition) : (s.modEdition i f).admitted = s.admitted := rfl
@[simp] theorem State.modEdition_remote (s : State) (i : Nat) (f : Edition → Edition) : (s.modEdition i f).remote = s.remote := rfl
@[simp] theorem State.modEdition_win (s : State) (i : Nat) (f : Edition → Edition) : (s.modEdition i f).win = s.win := rfl
@[simp] theorem State.modEdition_tenants (s : State) (i : Nat) (f : Edition → Edition) : (s.modEdition i f).tenants = s.tenants := rfl
@[simp] theorem State.modEdition_slots (s : State) (i : Nat) (f : Edition → Edition) : (s.modEdition i f).slots = s.slots := rfl
@[simp] theorem State.modEdition_sessions (s : State) (i : Nat) (f : Edition → Edition) : (s.modEdition i f).sessions = s.sessions := rfl
@[simp] theorem State.modEdition_adm (s : State) (i : Nat) (f : Edition → Edition) : (s.modEdition i f).adm = s.adm := rfl
@[simp] theorem State.modEdition_fab (s : State) (i : Nat) (f : Edition → Edition) : (s.modEdition i f).fab = s.fab := rfl
@[simp] theorem State.modEdition_fports (s : State) (i : Nat) (f : Edition → Edition) : (s.modEdition i f).fports = s.fports := rfl
@[simp] theorem State.modEdition_routes (s : State) (i : Nat) (f : Edition → Edition) : (s.modEdition i f).routes = s.routes := rfl
@[simp] theorem State.modEdition_cartridges (s : State) (i : Nat) (f : Edition → Edition) : (s.modEdition i f).cartridges = s.cartridges := rfl
@[simp] theorem State.modEdition_engines (s : State) (i : Nat) (f : Edition → Edition) : (s.modEdition i f).engines = s.engines := rfl
@[simp] theorem State.modEdition_oeSel (s : State) (i : Nat) (f : Edition → Edition) : (s.modEdition i f).oeSel = s.oeSel := rfl
@[simp] theorem State.modEdition_acc (s : State) (i : Nat) (f : Edition → Edition) : (s.modEdition i f).acc = s.acc := rfl
@[simp] theorem State.modEdition_accDie (s : State) (i : Nat) (f : Edition → Edition) : (s.modEdition i f).accDie = s.accDie := rfl
@[simp] theorem State.modEdition_charter (s : State) (i : Nat) (f : Edition → Edition) : (s.modEdition i f).charter = s.charter := rfl
@[simp] theorem State.modEdition_curators (s : State) (i : Nat) (f : Edition → Edition) : (s.modEdition i f).curators = s.curators := rfl
@[simp] theorem State.modEdition_fwCur (s : State) (i : Nat) (f : Edition → Edition) : (s.modEdition i f).fwCur = s.fwCur := rfl
@[simp] theorem State.modEdition_fwOpt (s : State) (i : Nat) (f : Edition → Edition) : (s.modEdition i f).fwOpt = s.fwOpt := rfl
@[simp] theorem State.modEdition_sec (s : State) (i : Nat) (f : Edition → Edition) : (s.modEdition i f).sec = s.sec := rfl
@[simp] theorem State.modEdition_gen (s : State) (i : Nat) (f : Edition → Edition) : (s.modEdition i f).gen = s.gen := rfl
@[simp] theorem State.modEdition_power (s : State) (i : Nat) (f : Edition → Edition) : (s.modEdition i f).power = s.power := rfl
@[simp] theorem State.modEdition_busData (s : State) (i : Nat) (f : Edition → Edition) : (s.modEdition i f).busData = s.busData := rfl
@[simp] theorem State.modEdition_busLatch (s : State) (i : Nat) (f : Edition → Edition) : (s.modEdition i f).busLatch = s.busLatch := rfl
@[simp] theorem State.modEdition_freeCtr (s : State) (i : Nat) (f : Edition → Edition) : (s.modEdition i f).freeCtr = s.freeCtr := rfl
@[simp] theorem State.modEdition_pending (s : State) (i : Nat) (f : Edition → Edition) : (s.modEdition i f).pending = s.pending := rfl

@[simp] theorem State.modAccDie_fuses (s : State) (d : Nat) (f : AccDie → AccDie) : (s.modAccDie d f).fuses = s.fuses := rfl
@[simp] theorem State.modAccDie_mem (s : State) (d : Nat) (f : AccDie → AccDie) : (s.modAccDie d f).mem = s.mem := rfl
@[simp] theorem State.modAccDie_upsets (s : State) (d : Nat) (f : AccDie → AccDie) : (s.modAccDie d f).upsets = s.upsets := rfl
@[simp] theorem State.modAccDie_cores (s : State) (d : Nat) (f : AccDie → AccDie) : (s.modAccDie d f).cores = s.cores := rfl
@[simp] theorem State.modAccDie_clusters (s : State) (d : Nat) (f : AccDie → AccDie) : (s.modAccDie d f).clusters = s.clusters := rfl
@[simp] theorem State.modAccDie_pages (s : State) (d : Nat) (f : AccDie → AccDie) : (s.modAccDie d f).pages = s.pages := rfl
@[simp] theorem State.modAccDie_logs (s : State) (d : Nat) (f : AccDie → AccDie) : (s.modAccDie d f).logs = s.logs := rfl
@[simp] theorem State.modAccDie_ports (s : State) (d : Nat) (f : AccDie → AccDie) : (s.modAccDie d f).ports = s.ports := rfl
@[simp] theorem State.modAccDie_regions (s : State) (d : Nat) (f : AccDie → AccDie) : (s.modAccDie d f).regions = s.regions := rfl
@[simp] theorem State.modAccDie_dieClocks (s : State) (d : Nat) (f : AccDie → AccDie) : (s.modAccDie d f).dieClocks = s.dieClocks := rfl
@[simp] theorem State.modAccDie_clock (s : State) (d : Nat) (f : AccDie → AccDie) : (s.modAccDie d f).clock = s.clock := rfl
@[simp] theorem State.modAccDie_ledgers (s : State) (d : Nat) (f : AccDie → AccDie) : (s.modAccDie d f).ledgers = s.ledgers := rfl
@[simp] theorem State.modAccDie_ledger (s : State) (d : Nat) (f : AccDie → AccDie) : (s.modAccDie d f).ledger = s.ledger := rfl
@[simp] theorem State.modAccDie_windows (s : State) (d : Nat) (f : AccDie → AccDie) : (s.modAccDie d f).windows = s.windows := rfl
@[simp] theorem State.modAccDie_admitted (s : State) (d : Nat) (f : AccDie → AccDie) : (s.modAccDie d f).admitted = s.admitted := rfl
@[simp] theorem State.modAccDie_remote (s : State) (d : Nat) (f : AccDie → AccDie) : (s.modAccDie d f).remote = s.remote := rfl
@[simp] theorem State.modAccDie_win (s : State) (d : Nat) (f : AccDie → AccDie) : (s.modAccDie d f).win = s.win := rfl
@[simp] theorem State.modAccDie_tenants (s : State) (d : Nat) (f : AccDie → AccDie) : (s.modAccDie d f).tenants = s.tenants := rfl
@[simp] theorem State.modAccDie_slots (s : State) (d : Nat) (f : AccDie → AccDie) : (s.modAccDie d f).slots = s.slots := rfl
@[simp] theorem State.modAccDie_sessions (s : State) (d : Nat) (f : AccDie → AccDie) : (s.modAccDie d f).sessions = s.sessions := rfl
@[simp] theorem State.modAccDie_adm (s : State) (d : Nat) (f : AccDie → AccDie) : (s.modAccDie d f).adm = s.adm := rfl
@[simp] theorem State.modAccDie_fab (s : State) (d : Nat) (f : AccDie → AccDie) : (s.modAccDie d f).fab = s.fab := rfl
@[simp] theorem State.modAccDie_fports (s : State) (d : Nat) (f : AccDie → AccDie) : (s.modAccDie d f).fports = s.fports := rfl
@[simp] theorem State.modAccDie_routes (s : State) (d : Nat) (f : AccDie → AccDie) : (s.modAccDie d f).routes = s.routes := rfl
@[simp] theorem State.modAccDie_cartridges (s : State) (d : Nat) (f : AccDie → AccDie) : (s.modAccDie d f).cartridges = s.cartridges := rfl
@[simp] theorem State.modAccDie_engines (s : State) (d : Nat) (f : AccDie → AccDie) : (s.modAccDie d f).engines = s.engines := rfl
@[simp] theorem State.modAccDie_oeSel (s : State) (d : Nat) (f : AccDie → AccDie) : (s.modAccDie d f).oeSel = s.oeSel := rfl
@[simp] theorem State.modAccDie_editions (s : State) (d : Nat) (f : AccDie → AccDie) : (s.modAccDie d f).editions = s.editions := rfl
@[simp] theorem State.modAccDie_acc (s : State) (d : Nat) (f : AccDie → AccDie) : (s.modAccDie d f).acc = s.acc := rfl
@[simp] theorem State.modAccDie_charter (s : State) (d : Nat) (f : AccDie → AccDie) : (s.modAccDie d f).charter = s.charter := rfl
@[simp] theorem State.modAccDie_curators (s : State) (d : Nat) (f : AccDie → AccDie) : (s.modAccDie d f).curators = s.curators := rfl
@[simp] theorem State.modAccDie_fwCur (s : State) (d : Nat) (f : AccDie → AccDie) : (s.modAccDie d f).fwCur = s.fwCur := rfl
@[simp] theorem State.modAccDie_fwOpt (s : State) (d : Nat) (f : AccDie → AccDie) : (s.modAccDie d f).fwOpt = s.fwOpt := rfl
@[simp] theorem State.modAccDie_sec (s : State) (d : Nat) (f : AccDie → AccDie) : (s.modAccDie d f).sec = s.sec := rfl
@[simp] theorem State.modAccDie_gen (s : State) (d : Nat) (f : AccDie → AccDie) : (s.modAccDie d f).gen = s.gen := rfl
@[simp] theorem State.modAccDie_power (s : State) (d : Nat) (f : AccDie → AccDie) : (s.modAccDie d f).power = s.power := rfl
@[simp] theorem State.modAccDie_busData (s : State) (d : Nat) (f : AccDie → AccDie) : (s.modAccDie d f).busData = s.busData := rfl
@[simp] theorem State.modAccDie_busLatch (s : State) (d : Nat) (f : AccDie → AccDie) : (s.modAccDie d f).busLatch = s.busLatch := rfl
@[simp] theorem State.modAccDie_freeCtr (s : State) (d : Nat) (f : AccDie → AccDie) : (s.modAccDie d f).freeCtr = s.freeCtr := rfl
@[simp] theorem State.modAccDie_pending (s : State) (d : Nat) (f : AccDie → AccDie) : (s.modAccDie d f).pending = s.pending := rfl

@[simp] theorem State.modCurator_fuses (s : State) (d : Nat) (f : Curator → Curator) : (s.modCurator d f).fuses = s.fuses := rfl
@[simp] theorem State.modCurator_mem (s : State) (d : Nat) (f : Curator → Curator) : (s.modCurator d f).mem = s.mem := rfl
@[simp] theorem State.modCurator_upsets (s : State) (d : Nat) (f : Curator → Curator) : (s.modCurator d f).upsets = s.upsets := rfl
@[simp] theorem State.modCurator_cores (s : State) (d : Nat) (f : Curator → Curator) : (s.modCurator d f).cores = s.cores := rfl
@[simp] theorem State.modCurator_clusters (s : State) (d : Nat) (f : Curator → Curator) : (s.modCurator d f).clusters = s.clusters := rfl
@[simp] theorem State.modCurator_pages (s : State) (d : Nat) (f : Curator → Curator) : (s.modCurator d f).pages = s.pages := rfl
@[simp] theorem State.modCurator_logs (s : State) (d : Nat) (f : Curator → Curator) : (s.modCurator d f).logs = s.logs := rfl
@[simp] theorem State.modCurator_ports (s : State) (d : Nat) (f : Curator → Curator) : (s.modCurator d f).ports = s.ports := rfl
@[simp] theorem State.modCurator_regions (s : State) (d : Nat) (f : Curator → Curator) : (s.modCurator d f).regions = s.regions := rfl
@[simp] theorem State.modCurator_dieClocks (s : State) (d : Nat) (f : Curator → Curator) : (s.modCurator d f).dieClocks = s.dieClocks := rfl
@[simp] theorem State.modCurator_clock (s : State) (d : Nat) (f : Curator → Curator) : (s.modCurator d f).clock = s.clock := rfl
@[simp] theorem State.modCurator_ledgers (s : State) (d : Nat) (f : Curator → Curator) : (s.modCurator d f).ledgers = s.ledgers := rfl
@[simp] theorem State.modCurator_ledger (s : State) (d : Nat) (f : Curator → Curator) : (s.modCurator d f).ledger = s.ledger := rfl
@[simp] theorem State.modCurator_windows (s : State) (d : Nat) (f : Curator → Curator) : (s.modCurator d f).windows = s.windows := rfl
@[simp] theorem State.modCurator_admitted (s : State) (d : Nat) (f : Curator → Curator) : (s.modCurator d f).admitted = s.admitted := rfl
@[simp] theorem State.modCurator_remote (s : State) (d : Nat) (f : Curator → Curator) : (s.modCurator d f).remote = s.remote := rfl
@[simp] theorem State.modCurator_win (s : State) (d : Nat) (f : Curator → Curator) : (s.modCurator d f).win = s.win := rfl
@[simp] theorem State.modCurator_tenants (s : State) (d : Nat) (f : Curator → Curator) : (s.modCurator d f).tenants = s.tenants := rfl
@[simp] theorem State.modCurator_slots (s : State) (d : Nat) (f : Curator → Curator) : (s.modCurator d f).slots = s.slots := rfl
@[simp] theorem State.modCurator_sessions (s : State) (d : Nat) (f : Curator → Curator) : (s.modCurator d f).sessions = s.sessions := rfl
@[simp] theorem State.modCurator_adm (s : State) (d : Nat) (f : Curator → Curator) : (s.modCurator d f).adm = s.adm := rfl
@[simp] theorem State.modCurator_fab (s : State) (d : Nat) (f : Curator → Curator) : (s.modCurator d f).fab = s.fab := rfl
@[simp] theorem State.modCurator_fports (s : State) (d : Nat) (f : Curator → Curator) : (s.modCurator d f).fports = s.fports := rfl
@[simp] theorem State.modCurator_routes (s : State) (d : Nat) (f : Curator → Curator) : (s.modCurator d f).routes = s.routes := rfl
@[simp] theorem State.modCurator_cartridges (s : State) (d : Nat) (f : Curator → Curator) : (s.modCurator d f).cartridges = s.cartridges := rfl
@[simp] theorem State.modCurator_engines (s : State) (d : Nat) (f : Curator → Curator) : (s.modCurator d f).engines = s.engines := rfl
@[simp] theorem State.modCurator_oeSel (s : State) (d : Nat) (f : Curator → Curator) : (s.modCurator d f).oeSel = s.oeSel := rfl
@[simp] theorem State.modCurator_editions (s : State) (d : Nat) (f : Curator → Curator) : (s.modCurator d f).editions = s.editions := rfl
@[simp] theorem State.modCurator_acc (s : State) (d : Nat) (f : Curator → Curator) : (s.modCurator d f).acc = s.acc := rfl
@[simp] theorem State.modCurator_accDie (s : State) (d : Nat) (f : Curator → Curator) : (s.modCurator d f).accDie = s.accDie := rfl
@[simp] theorem State.modCurator_charter (s : State) (d : Nat) (f : Curator → Curator) : (s.modCurator d f).charter = s.charter := rfl
@[simp] theorem State.modCurator_fwCur (s : State) (d : Nat) (f : Curator → Curator) : (s.modCurator d f).fwCur = s.fwCur := rfl
@[simp] theorem State.modCurator_fwOpt (s : State) (d : Nat) (f : Curator → Curator) : (s.modCurator d f).fwOpt = s.fwOpt := rfl
@[simp] theorem State.modCurator_sec (s : State) (d : Nat) (f : Curator → Curator) : (s.modCurator d f).sec = s.sec := rfl
@[simp] theorem State.modCurator_gen (s : State) (d : Nat) (f : Curator → Curator) : (s.modCurator d f).gen = s.gen := rfl
@[simp] theorem State.modCurator_power (s : State) (d : Nat) (f : Curator → Curator) : (s.modCurator d f).power = s.power := rfl
@[simp] theorem State.modCurator_busData (s : State) (d : Nat) (f : Curator → Curator) : (s.modCurator d f).busData = s.busData := rfl
@[simp] theorem State.modCurator_busLatch (s : State) (d : Nat) (f : Curator → Curator) : (s.modCurator d f).busLatch = s.busLatch := rfl
@[simp] theorem State.modCurator_freeCtr (s : State) (d : Nat) (f : Curator → Curator) : (s.modCurator d f).freeCtr = s.freeCtr := rfl
@[simp] theorem State.modCurator_pending (s : State) (d : Nat) (f : Curator → Curator) : (s.modCurator d f).pending = s.pending := rfl

@[simp] theorem State.modBanks_fuses (s : State) (d target : Nat) (f : FwBanks → FwBanks) : (s.modBanks d target f).fuses = s.fuses := by
  unfold State.modBanks; split <;> rfl
@[simp] theorem State.modBanks_mem (s : State) (d target : Nat) (f : FwBanks → FwBanks) : (s.modBanks d target f).mem = s.mem := by
  unfold State.modBanks; split <;> rfl
@[simp] theorem State.modBanks_upsets (s : State) (d target : Nat) (f : FwBanks → FwBanks) : (s.modBanks d target f).upsets = s.upsets := by
  unfold State.modBanks; split <;> rfl
@[simp] theorem State.modBanks_cores (s : State) (d target : Nat) (f : FwBanks → FwBanks) : (s.modBanks d target f).cores = s.cores := by
  unfold State.modBanks; split <;> rfl
@[simp] theorem State.modBanks_clusters (s : State) (d target : Nat) (f : FwBanks → FwBanks) : (s.modBanks d target f).clusters = s.clusters := by
  unfold State.modBanks; split <;> rfl
@[simp] theorem State.modBanks_pages (s : State) (d target : Nat) (f : FwBanks → FwBanks) : (s.modBanks d target f).pages = s.pages := by
  unfold State.modBanks; split <;> rfl
@[simp] theorem State.modBanks_logs (s : State) (d target : Nat) (f : FwBanks → FwBanks) : (s.modBanks d target f).logs = s.logs := by
  unfold State.modBanks; split <;> rfl
@[simp] theorem State.modBanks_ports (s : State) (d target : Nat) (f : FwBanks → FwBanks) : (s.modBanks d target f).ports = s.ports := by
  unfold State.modBanks; split <;> rfl
@[simp] theorem State.modBanks_regions (s : State) (d target : Nat) (f : FwBanks → FwBanks) : (s.modBanks d target f).regions = s.regions := by
  unfold State.modBanks; split <;> rfl
@[simp] theorem State.modBanks_dieClocks (s : State) (d target : Nat) (f : FwBanks → FwBanks) : (s.modBanks d target f).dieClocks = s.dieClocks := by
  unfold State.modBanks; split <;> rfl
@[simp] theorem State.modBanks_clock (s : State) (d target : Nat) (f : FwBanks → FwBanks) : (s.modBanks d target f).clock = s.clock := by
  unfold State.modBanks; split <;> rfl
@[simp] theorem State.modBanks_ledgers (s : State) (d target : Nat) (f : FwBanks → FwBanks) : (s.modBanks d target f).ledgers = s.ledgers := by
  unfold State.modBanks; split <;> rfl
@[simp] theorem State.modBanks_ledger (s : State) (d target : Nat) (f : FwBanks → FwBanks) : (s.modBanks d target f).ledger = s.ledger := by
  unfold State.modBanks; split <;> rfl
@[simp] theorem State.modBanks_windows (s : State) (d target : Nat) (f : FwBanks → FwBanks) : (s.modBanks d target f).windows = s.windows := by
  unfold State.modBanks; split <;> rfl
@[simp] theorem State.modBanks_admitted (s : State) (d target : Nat) (f : FwBanks → FwBanks) : (s.modBanks d target f).admitted = s.admitted := by
  unfold State.modBanks; split <;> rfl
@[simp] theorem State.modBanks_remote (s : State) (d target : Nat) (f : FwBanks → FwBanks) : (s.modBanks d target f).remote = s.remote := by
  unfold State.modBanks; split <;> rfl
@[simp] theorem State.modBanks_win (s : State) (d target : Nat) (f : FwBanks → FwBanks) : (s.modBanks d target f).win = s.win := by
  unfold State.modBanks; split <;> rfl
@[simp] theorem State.modBanks_tenants (s : State) (d target : Nat) (f : FwBanks → FwBanks) : (s.modBanks d target f).tenants = s.tenants := by
  unfold State.modBanks; split <;> rfl
@[simp] theorem State.modBanks_slots (s : State) (d target : Nat) (f : FwBanks → FwBanks) : (s.modBanks d target f).slots = s.slots := by
  unfold State.modBanks; split <;> rfl
@[simp] theorem State.modBanks_sessions (s : State) (d target : Nat) (f : FwBanks → FwBanks) : (s.modBanks d target f).sessions = s.sessions := by
  unfold State.modBanks; split <;> rfl
@[simp] theorem State.modBanks_adm (s : State) (d target : Nat) (f : FwBanks → FwBanks) : (s.modBanks d target f).adm = s.adm := by
  unfold State.modBanks; split <;> rfl
@[simp] theorem State.modBanks_fab (s : State) (d target : Nat) (f : FwBanks → FwBanks) : (s.modBanks d target f).fab = s.fab := by
  unfold State.modBanks; split <;> rfl
@[simp] theorem State.modBanks_fports (s : State) (d target : Nat) (f : FwBanks → FwBanks) : (s.modBanks d target f).fports = s.fports := by
  unfold State.modBanks; split <;> rfl
@[simp] theorem State.modBanks_routes (s : State) (d target : Nat) (f : FwBanks → FwBanks) : (s.modBanks d target f).routes = s.routes := by
  unfold State.modBanks; split <;> rfl
@[simp] theorem State.modBanks_cartridges (s : State) (d target : Nat) (f : FwBanks → FwBanks) : (s.modBanks d target f).cartridges = s.cartridges := by
  unfold State.modBanks; split <;> rfl
@[simp] theorem State.modBanks_engines (s : State) (d target : Nat) (f : FwBanks → FwBanks) : (s.modBanks d target f).engines = s.engines := by
  unfold State.modBanks; split <;> rfl
@[simp] theorem State.modBanks_oeSel (s : State) (d target : Nat) (f : FwBanks → FwBanks) : (s.modBanks d target f).oeSel = s.oeSel := by
  unfold State.modBanks; split <;> rfl
@[simp] theorem State.modBanks_editions (s : State) (d target : Nat) (f : FwBanks → FwBanks) : (s.modBanks d target f).editions = s.editions := by
  unfold State.modBanks; split <;> rfl
@[simp] theorem State.modBanks_acc (s : State) (d target : Nat) (f : FwBanks → FwBanks) : (s.modBanks d target f).acc = s.acc := by
  unfold State.modBanks; split <;> rfl
@[simp] theorem State.modBanks_accDie (s : State) (d target : Nat) (f : FwBanks → FwBanks) : (s.modBanks d target f).accDie = s.accDie := by
  unfold State.modBanks; split <;> rfl
@[simp] theorem State.modBanks_charter (s : State) (d target : Nat) (f : FwBanks → FwBanks) : (s.modBanks d target f).charter = s.charter := by
  unfold State.modBanks; split <;> rfl
@[simp] theorem State.modBanks_curators (s : State) (d target : Nat) (f : FwBanks → FwBanks) : (s.modBanks d target f).curators = s.curators := by
  unfold State.modBanks; split <;> rfl
@[simp] theorem State.modBanks_sec (s : State) (d target : Nat) (f : FwBanks → FwBanks) : (s.modBanks d target f).sec = s.sec := by
  unfold State.modBanks; split <;> rfl
@[simp] theorem State.modBanks_gen (s : State) (d target : Nat) (f : FwBanks → FwBanks) : (s.modBanks d target f).gen = s.gen := by
  unfold State.modBanks; split <;> rfl
@[simp] theorem State.modBanks_power (s : State) (d target : Nat) (f : FwBanks → FwBanks) : (s.modBanks d target f).power = s.power := by
  unfold State.modBanks; split <;> rfl
@[simp] theorem State.modBanks_busData (s : State) (d target : Nat) (f : FwBanks → FwBanks) : (s.modBanks d target f).busData = s.busData := by
  unfold State.modBanks; split <;> rfl
@[simp] theorem State.modBanks_busLatch (s : State) (d target : Nat) (f : FwBanks → FwBanks) : (s.modBanks d target f).busLatch = s.busLatch := by
  unfold State.modBanks; split <;> rfl
@[simp] theorem State.modBanks_freeCtr (s : State) (d target : Nat) (f : FwBanks → FwBanks) : (s.modBanks d target f).freeCtr = s.freeCtr := by
  unfold State.modBanks; split <;> rfl
@[simp] theorem State.modBanks_pending (s : State) (d target : Nat) (f : FwBanks → FwBanks) : (s.modBanks d target f).pending = s.pending := by
  unfold State.modBanks; split <;> rfl

@[simp] theorem State.draw_fuses (s : State) : s.draw.2.fuses = s.fuses := rfl
@[simp] theorem State.draw_mem (s : State) : s.draw.2.mem = s.mem := rfl
@[simp] theorem State.draw_upsets (s : State) : s.draw.2.upsets = s.upsets := rfl
@[simp] theorem State.draw_cores (s : State) : s.draw.2.cores = s.cores := rfl
@[simp] theorem State.draw_clusters (s : State) : s.draw.2.clusters = s.clusters := rfl
@[simp] theorem State.draw_pages (s : State) : s.draw.2.pages = s.pages := rfl
@[simp] theorem State.draw_logs (s : State) : s.draw.2.logs = s.logs := rfl
@[simp] theorem State.draw_ports (s : State) : s.draw.2.ports = s.ports := rfl
@[simp] theorem State.draw_regions (s : State) : s.draw.2.regions = s.regions := rfl
@[simp] theorem State.draw_dieClocks (s : State) : s.draw.2.dieClocks = s.dieClocks := rfl
@[simp] theorem State.draw_clock (s : State) : s.draw.2.clock = s.clock := rfl
@[simp] theorem State.draw_ledgers (s : State) : s.draw.2.ledgers = s.ledgers := rfl
@[simp] theorem State.draw_ledger (s : State) : s.draw.2.ledger = s.ledger := rfl
@[simp] theorem State.draw_windows (s : State) : s.draw.2.windows = s.windows := rfl
@[simp] theorem State.draw_admitted (s : State) : s.draw.2.admitted = s.admitted := rfl
@[simp] theorem State.draw_remote (s : State) : s.draw.2.remote = s.remote := rfl
@[simp] theorem State.draw_win (s : State) : s.draw.2.win = s.win := rfl
@[simp] theorem State.draw_tenants (s : State) : s.draw.2.tenants = s.tenants := rfl
@[simp] theorem State.draw_slots (s : State) : s.draw.2.slots = s.slots := rfl
@[simp] theorem State.draw_sessions (s : State) : s.draw.2.sessions = s.sessions := rfl
@[simp] theorem State.draw_adm (s : State) : s.draw.2.adm = s.adm := rfl
@[simp] theorem State.draw_fab (s : State) : s.draw.2.fab = s.fab := rfl
@[simp] theorem State.draw_fports (s : State) : s.draw.2.fports = s.fports := rfl
@[simp] theorem State.draw_routes (s : State) : s.draw.2.routes = s.routes := rfl
@[simp] theorem State.draw_cartridges (s : State) : s.draw.2.cartridges = s.cartridges := rfl
@[simp] theorem State.draw_engines (s : State) : s.draw.2.engines = s.engines := rfl
@[simp] theorem State.draw_oeSel (s : State) : s.draw.2.oeSel = s.oeSel := rfl
@[simp] theorem State.draw_editions (s : State) : s.draw.2.editions = s.editions := rfl
@[simp] theorem State.draw_acc (s : State) : s.draw.2.acc = s.acc := rfl
@[simp] theorem State.draw_accDie (s : State) : s.draw.2.accDie = s.accDie := rfl
@[simp] theorem State.draw_charter (s : State) : s.draw.2.charter = s.charter := rfl
@[simp] theorem State.draw_curators (s : State) : s.draw.2.curators = s.curators := rfl
@[simp] theorem State.draw_fwCur (s : State) : s.draw.2.fwCur = s.fwCur := rfl
@[simp] theorem State.draw_fwOpt (s : State) : s.draw.2.fwOpt = s.fwOpt := rfl
@[simp] theorem State.draw_sec (s : State) : s.draw.2.sec = s.sec := rfl
@[simp] theorem State.draw_gen (s : State) : s.draw.2.gen = s.gen := rfl
@[simp] theorem State.draw_power (s : State) : s.draw.2.power = s.power := rfl
@[simp] theorem State.draw_busData (s : State) : s.draw.2.busData = s.busData := rfl
@[simp] theorem State.draw_busLatch (s : State) : s.draw.2.busLatch = s.busLatch := rfl
@[simp] theorem State.draw_pending (s : State) : s.draw.2.pending = s.pending := rfl
@[simp] theorem State.draw_freeCtr (s : State) : s.draw.2.freeCtr = s.freeCtr + 1 := rfl
@[simp] theorem State.draw_fst (s : State) : s.draw.1 = s.freeCtr := rfl

end Sys2Proof.Machine
end

