-- ==== Sys2Proof/Laws/Ops.lean ====
section
/-! SUPPORT. What the shared operations can do, said once: events change reports alone, packets their port alone, a command
that a port takes is operated on, memory without code errors is read and written as it stands, and a quiet state has
nothing to give back. -/

namespace Sys2Proof.Machine

open Sys2Proof

-- events

theorem OnlyReports.refl (s : State) : OnlyReports s s := rfl

theorem OnlyReports.trans {s t u : State} (h : OnlyReports s t) (k : OnlyReports t u) : OnlyReports s u := by
  unfold OnlyReports at *
  rw [k, h]

theorem modPage_reports (s : State) (p : Nat) (f : PageHdr → PageHdr) : OnlyReports s (s.modPage p f) := rfl
theorem modLog_reports (s : State) (d : Nat) (f : EvLog → EvLog) : OnlyReports s (s.modLog d f) := rfl
theorem modPort_reports (s : State) (p : Nat) (f : TsdPort → TsdPort) : OnlyReports s (s.modPort p f) := rfl
theorem pumpPort_reports (s : State) (p : Nat) : OnlyReports s (s.pumpPort p) := rfl
theorem sendPacket_reports (s : State) (p : Nat) (q : TxPacket) : OnlyReports s (s.sendPacket p q) :=
  (modPort_reports ..).trans (pumpPort_reports ..)

theorem ite_reports {s t u : State} {b : Prop} [Decidable b] (h : OnlyReports s t) (k : OnlyReports s u) :
    OnlyReports s (if b then t else u) := by split <;> assumption

theorem foldl_reports {α : Type} (f : State → α → State) (l : List α) (h : ∀ s a, OnlyReports s (f s a)) (s : State) :
    OnlyReports s (l.foldl f s) := by
  induction l generalizing s with
  | nil => exact .refl s
  | cons a l ih => exact (h s a).trans (ih _)

theorem emit_reports (fuel : Nat) (s : State) (page bit : Nat) (detail : Bytes) :
    OnlyReports s (s.emit fuel page bit detail) := by
  induction fuel generalizing s page bit detail with
  | zero => exact .refl s
  | succ n ih =>
    have opt (s : State) (b : Prop) [Decidable b] (p i : Nat) : OnlyReports s (if b then s.emit n p i [] else s) := by
      split
      · exact ih ..
      · exact .refl s
    unfold State.emit
    refine OnlyReports.trans (modPage_reports s page fun h => { h with evtRaw := setBit h.evtRaw bit }) ?_
    dsimp only
    split
    · exact .refl _
    · have log {s : State} (b c : Prop) [Decidable b] [Decidable c] (f : EvLog → EvLog) (d p i : Nat) :
          OnlyReports s (if b then s else if c then (s.modLog d f).emit n p i [] else s.modLog d f) :=
        ite_reports (.refl _) ((modLog_reports ..).trans (opt ..))
      exact ite_reports (log ..) ((log ..).trans (foldl_reports _ _ (fun s p => (modPort_reports ..).trans (opt ..)) _))

/-- An event changes pages, logs and ports alone. -/
theorem raise_reports (s : State) (page bit : Nat) (detail : Bytes) : OnlyReports s (s.raise page bit detail) :=
  ((emit_reports ..).trans (pumpPort_reports ..)).trans (pumpPort_reports ..)

theorem raise0_reports (s : State) (page bit : Nat) : OnlyReports s (s.raise0 page bit) := raise_reports ..

theorem raiseCap_reports (s : State) (page bit : Nat) (caps : List W32) (take : Bool) :
    OnlyReports s (s.raiseCap page bit caps take) := by
  unfold State.raiseCap
  dsimp only
  split
  · exact (modPage_reports ..).trans (raise_reports ..)
  · exact raise_reports ..

-- the event bit

theorem modPage_page (s : State) (p q : Nat) (f : PageHdr → PageHdr) :
    (s.modPage p f).page q = if q = p then f (s.page p) else s.page q := by
  unfold State.modPage State.page
  by_cases h : q = p
  · subst h; simp
  · simp [h, Tbl.get_modify_ne]

theorem setBit_getLsbD {w : Nat} (v : BitVec w) (i j : Nat) :
    (setBit v i).getLsbD j = (v.getLsbD j || (decide (j < w) && decide (i = j))) := by
  unfold setBit
  rw [BitVec.getLsbD_or, BitVec.getLsbD_ofNat, Nat.testBit_two_pow]

/-- A bit of EVT_RAW that stands keeps standing while `s` becomes `t`. -/
structure EventsStand (s t : State) : Prop where
  keep : ∀ p i, (s.page p).evtRaw.getLsbD i = true → (t.page p).evtRaw.getLsbD i = true

theorem EventsStand.refl (s : State) : EventsStand s s := ⟨fun _ _ h => h⟩
theorem EventsStand.trans {s t u : State} (h : EventsStand s t) (k : EventsStand t u) : EventsStand s u :=
  ⟨fun p i x => k.keep p i (h.keep p i x)⟩

theorem setRaw_stand (s : State) (p bit : Nat) :
    EventsStand s (s.modPage p fun h => { h with evtRaw := setBit h.evtRaw bit }) := by
  refine ⟨fun q i x => ?_⟩
  rw [modPage_page]
  split
  · rename_i h; subst h; simp [setBit_getLsbD, x]
  · exact x

theorem modLog_stand (s : State) (d : Nat) (f : EvLog → EvLog) : EventsStand s (s.modLog d f) := ⟨fun _ _ h => h⟩
theorem modPort_stand (s : State) (p : Nat) (f : TsdPort → TsdPort) : EventsStand s (s.modPort p f) := ⟨fun _ _ h => h⟩

theorem ite_stand {s t u : State} {b : Prop} [Decidable b] (h : EventsStand s t) (k : EventsStand s u) :
    EventsStand s (if b then t else u) := by split <;> assumption

theorem foldl_stand {α : Type} (f : State → α → State) (l : List α) (h : ∀ s a, EventsStand s (f s a)) (s : State) :
    EventsStand s (l.foldl f s) := by
  induction l generalizing s with
  | nil => exact .refl s
  | cons a l ih => exact (h s a).trans (ih _)

/-- What an occurrence adds to the pages once its own bit is set. -/
theorem emit_after (n fuel : Nat) (e : fuel = n + 1)
    (ih : ∀ s page bit detail, EventsStand s (State.emit n s page bit detail)) (s : State) (page bit : Nat) (detail : Bytes) :
    EventsStand (s.modPage page fun h => { h with evtRaw := setBit h.evtRaw bit }) (s.emit fuel page bit detail) := by
  subst e
  have opt (s : State) (b : Prop) [Decidable b] (p i : Nat) : EventsStand s (if b then s.emit n p i [] else s) :=
    ite_stand (ih ..) (.refl _)
  unfold State.emit
  dsimp only
  split
  · exact .refl _
  · have log {s : State} (b c : Prop) [Decidable b] [Decidable c] (f : EvLog → EvLog) (d p i : Nat) :
        EventsStand s (if b then s else if c then (s.modLog d f).emit n p i [] else s.modLog d f) :=
      ite_stand (.refl _) ((modLog_stand ..).trans (opt ..))
    exact ite_stand (log ..) ((log ..).trans (foldl_stand _ _ (fun s p => (modPort_stand ..).trans (opt ..)) _))

theorem emit_stand (fuel : Nat) (s : State) (page bit : Nat) (detail : Bytes) :
    EventsStand s (s.emit fuel page bit detail) := by
  induction fuel generalizing s page bit detail with
  | zero => exact .refl s
  | succ n ih => exact (setRaw_stand ..).trans (emit_after n _ rfl ih ..)

theorem pumpPort_page (s : State) (p q : Nat) : (s.pumpPort p).page q = s.page q := rfl

/-- No event takes a bit of EVT_RAW away. -/
theorem raise_stand (s : State) (page bit : Nat) (detail : Bytes) : EventsStand s (s.raise page bit detail) := by
  refine ⟨fun p i x => ?_⟩
  unfold State.raise
  rw [pumpPort_page, pumpPort_page]
  exact (emit_stand 6 s page bit detail).keep p i x

/-- An event sets its bit. -/
theorem raise_sets (s : State) (page bit : Nat) (detail : Bytes) (h : bit < 32) :
    ((s.raise page bit detail).page page).evtRaw.getLsbD bit = true := by
  unfold State.raise
  rw [pumpPort_page, pumpPort_page]
  refine (emit_after 5 6 rfl (fun s p b d => emit_stand 5 s p b d) s page bit detail).keep page bit ?_
  rw [modPage_page]
  simp [setBit_getLsbD, h]

theorem raise0_sets (s : State) (page bit : Nat) (h : bit < 32) :
    ((s.raise0 page bit).page page).evtRaw.getLsbD bit = true := raise_sets s page bit [] h

-- memory under its code

theorem upsetsIn_clean (s : State) (a n : Nat) (h : s.upsets = []) : s.upsetsIn a n = [] := by
  simp [State.upsetsIn, h]

/-- Without code errors a read changes nothing and meets nothing. -/
theorem readSpan_clean (s : State) (r : Reader) (a n : Nat) (h : s.upsets = []) : s.readSpan r a n = (s, none) := by
  simp [State.readSpan, upsetsIn_clean s a n h]

theorem readSpans_clean (s : State) (r : Reader) (l : List (Nat × Nat)) (h : s.upsets = []) :
    s.readSpans r l = (s, none) := by
  unfold State.readSpans
  induction l with
  | nil => rfl
  | cons x l ih => simpa [readSpan_clean s r x.1 x.2 h] using ih

theorem cleanSpan_clean (s : State) (a n : Nat) (h : s.upsets = []) : s.cleanSpan a n = s := by
  simp [State.cleanSpan, h]

/-- Without code errors, and without an armed injection in its carrel, a write stores its bytes and does nothing more. -/
theorem writeSpan_clean (s : State) (r : Reader) (a : Nat) (bs : Bytes) (h : s.upsets = [])
    (g : isShelf a = true ∨ (s.core (coreAt a)).car.inject.arm = false) :
    s.writeSpan r a bs = ({ s with mem := s.mem.write a bs }, none) := by
  have m : s.mergeSpan r a bs.length = (s, none) := by
    unfold State.mergeSpan
    split
    · rfl
    · exact readSpans_clean s r _ h
  unfold State.writeSpan
  rw [m]
  simp only [cleanSpan_clean s a _ h]
  rcases g with g | g <;> simp_all [State.core]

/-- Without code errors and an armed injection, a clearing leaves zeros and does nothing more. -/
theorem clearSpan_clean (s : State) (a n : Nat) (h : s.upsets = [])
    (g : (isShelf a = true ∧ (s.cluster (shelfAt a)).inject.arm = false)
      ∨ (isShelf a = false ∧ (s.core (coreAt a)).car.inject.arm = false)) :
    s.clearSpan a n = { s with mem := s.mem.clear a n } := by
  unfold State.clearSpan State.rewriteWord
  rw [cleanSpan_clean s a n h]
  rcases g with ⟨i, g⟩ | ⟨i, g⟩ <;> simp_all [State.core, State.cluster, Tbl.erase]

-- packets and commands

theorem sendPacket_ports (s : State) (p : Nat) (x : TxPacket) :
    s.sendPacket p x = { s with ports := (s.sendPacket p x).ports } := by
  unfold State.sendPacket State.pumpPort State.modPort
  generalize TsdPort.pump = f
  rfl

/-- A packet that is sent changes its own port alone. -/
theorem sendPacket_port_ne (s : State) (p q : Nat) (x : TxPacket) (h : q ≠ p) : (s.sendPacket p x).port q = s.port q := by
  unfold State.sendPacket State.pumpPort State.modPort State.port
  rw [Tbl.get_modify_ne _ _ _ _ _ h, Tbl.get_modify_ne _ _ _ _ _ h]

theorem pump_cmds (n : Nat) (t : TsdPort) (now : W64) : (TsdPort.pump n t now).cmds = t.cmds := by
  induction n generalizing t with
  | zero => rfl
  | succ n ih =>
    unfold TsdPort.pump
    split
    · rfl
    · split
      · rfl
      · split
        · rfl
        · split
          · rw [ih]; rfl
          · rfl

theorem pump_state (n : Nat) (t : TsdPort) (now : W64) : (TsdPort.pump n t now).state = t.state := by
  induction n generalizing t with
  | zero => rfl
  | succ n ih =>
    unfold TsdPort.pump
    split
    · rfl
    · split
      · rfl
      · split
        · rfl
        · split
          · rw [ih]; rfl
          · rfl

/-- Sending leaves the commands in progress and the link's state alone. -/
theorem sendPacket_cmds (s : State) (p q : Nat) (x : TxPacket) : ((s.sendPacket p x).port q).cmds = (s.port q).cmds := by
  by_cases h : q = p
  · subst h
    unfold State.sendPacket State.pumpPort State.modPort State.port
    simp only [Tbl.get_modify_self, pump_cmds]
    split
    · unfold TsdPort.closeEvents; split <;> rfl
    · rfl
  · rw [sendPacket_port_ne s p q x h]

theorem sendPacket_state (s : State) (p q : Nat) (x : TxPacket) : ((s.sendPacket p x).port q).state = (s.port q).state := by
  by_cases h : q = p
  · subst h
    unfold State.sendPacket State.pumpPort State.modPort State.port
    simp only [Tbl.get_modify_self, pump_state]
    split
    · unfold TsdPort.closeEvents; split <;> rfl
    · rfl
  · rw [sendPacket_port_ne s p q x h]

/-- A completion changes ports alone. -/
theorem complete_ports (s : State) (p : Nat) (tag : BitVec 32) (r : Reply) :
    s.complete p tag r = { s with ports := (s.complete p tag r).ports } := by
  unfold State.complete
  generalize (s.port p).cmds.find? _ = o
  cases o with
  | none => rfl
  | some c => exact sendPacket_ports (s.modPort p _) p _

/-- A completed tag is free. -/
theorem complete_frees (s : State) (p : Nat) (tag : BitVec 32) (r : Reply) : (s.complete p tag r).inProgress p tag = false := by
  unfold State.complete
  split
  · rename_i h
    unfold State.inProgress
    rw [List.find?_eq_none] at h
    simpa using h
  · unfold State.inProgress
    rw [sendPacket_cmds]
    simp [State.modPort, State.port]

/-- A command that its port takes is in progress while its operation runs. -/
theorem runCommand_accepts (s : State) (p : Nat) (tag : BitVec 32) (code : BitVec 8) (op : State → State × Answer)
    (h : Accepts s p tag) :
    s.runCommand p tag code op
      = (s.modPort p fun t => { t with cmds := t.cmds ++ [⟨tag, code, classOf code, 1, [], .packets⟩] }).operate p tag op := by
  obtain ⟨u, c, i, n⟩ := h
  have n' : ¬ 256 ≤ (s.port p).cmds.length := by omega
  simp [State.runCommand, State.beginCmd, u, c, i, n']

-- memory given back

theorem advanceBind_idle (s : State) (p : Nat) (c : Cmd) (h : ∀ b, c.wait ≠ .bind b) (k : ∀ t, c.wait ≠ .bound t) :
    s.advanceBind p c = s := by
  unfold State.advanceBind
  split
  · rename_i e; exact absurd e (h _)
  · rename_i e; exact absurd e (k _)
  · rfl

theorem foldl_same {α β : Type} (f : β → α → β) (l : List α) (b : β) (h : ∀ a ∈ l, f b a = b) : l.foldl f b = b := by
  induction l with
  | nil => rfl
  | cons a l ih =>
    rw [List.foldl_cons, h a (List.mem_cons_self ..)]
    exact ih fun x hx => h x (List.mem_cons_of_mem _ hx)

/-- A quiet state has nothing to give back. -/
theorem progress_quiet (s : State) (h : Quiet s) : s.progress = s := by
  obtain ⟨due, rel, bind⟩ := h
  have d : s.startDue = s := by
    unfold State.startDue
    have e : (s.clusters.flatMap fun c => (c.2.parts.filter fun e => e.2.due).map fun e => (c.1, e.1)) = [] := by
      rw [List.flatMap_eq_nil_iff]
      intro k hk
      rw [List.map_eq_nil_iff, List.filter_eq_nil_iff]
      intro p hp
      simp [due k hk p hp]
    rw [e]; rfl
  have r : (s.tenants.filter fun e => decide (e.2.state = .releasing)) = [] := by
    rw [List.filter_eq_nil_iff]
    intro t ht
    simpa using rel t ht
  have a (p : Nat) : (s.port p).cmds.foldl (fun (s : State) c => s.advanceBind p c) s = s :=
    foldl_same _ _ _ fun c hc => advanceBind_idle s p c (bind p c hc).1 (bind p c hc).2
  unfold State.progress
  simp only [d, r, List.map_nil, List.foldl_nil, a]

-- the queue

/-- A step with a command at the front is exec of it. -/
theorem step_front (c : Instr) (rest : List Instr) (s : State) :
    step { s with pending := c :: rest } = exec c { s with pending := rest } := rfl

-- requests to shelves, link words, ticks

/-- Offering requests changes the shelves' queues alone (R525). -/
theorem offer_clusters (s : State) (owner : Nat) (unit : ReqUnit) (write : Bool) (a n : Nat) :
    s.offer owner unit write a n = { s with clusters := (s.offer owner unit write a n).clusters } := by
  unfold State.offer
  split <;> rfl

/-- Outside a shelf there is nothing to offer. -/
theorem offer_elsewhere (s : State) (owner : Nat) (unit : ReqUnit) (write : Bool) (a n : Nat) (h : isShelf a = false) :
    s.offer owner unit write a n = s := by simp [State.offer, h]

/-- A refused write leaves a trace in its curator's count alone (R450). -/
theorem fence_curators (s : State) (d : Nat) : s.fence d = { s with curators := (s.fence d).curators } := rfl

/-- A flit that takes a slot leaves the egress queues and the retry buffer alone (R370, R392). -/
theorem useSlot_queues (p : FabPort) (f : Flit) :
    (p.useSlot f).queues = p.queues ∧ (p.useSlot f).retry = p.retry ∧ (p.useSlot f).state = p.state := by
  unfold FabPort.useSlot
  dsimp only
  split <;> exact ⟨rfl, rfl, rfl⟩

/-- No more periods are swallowed than pass (R229). -/
theorem swallowedIn_le (k i n : Nat) (h : k ≤ 64) : swallowedIn k i n ≤ n := by
  unfold swallowedIn
  have h1 : (i + n) * k ≤ i * k + n * 64 := by rw [Nat.add_mul]; exact Nat.add_le_add_left (Nat.mul_le_mul_left n h) _
  omega

/-- The search for a first value ends at one that the condition holds of. -/
theorem bisect_holds (p : Nat → Bool) (fuel lo hi : Nat) (h : p hi = true) : p (bisect p fuel lo hi) = true := by
  induction fuel generalizing lo hi with
  | zero => exact h
  | succ n ih =>
    unfold bisect
    split
    · exact h
    · split
      · exact ih _ _ ‹_›
      · exact ih _ _ h

end Sys2Proof.Machine
end

