-- ==== Sys2Proof/WellFormed.lean ====
section
/-! DEFINITION. Well-formed commands: the bounds that the manual gives a command's carrier (a packet, a flit, a link
word), which the sender of a row keeps. exec gives every command a meaning, well-formed or not. -/

namespace Sys2Proof

/-- R396: a payload holds 0 to 65,536 bytes. -/
def payloadOk (p : Bytes) : Bool := decide (p.length ≤ 65536)

/-- R373: a flit carries 48 bytes of payload. -/
def Flit.ok (f : Flit) : Bool := decide (f.payload.length = 48)

/-- R373, R375: a flit of one of the given types. -/
def Flit.okAs (types : List (BitVec 8)) (f : Flit) : Bool := f.ok && types.contains f.typ

/-- R168: a request comes from cores 0 to 7 of the cluster or from the die-network port; a partition has 32 Ki granules
per bank row set, 512 Ki granules of 128 bytes in 64 MiB. -/
def ShelfReq.ok (r : ShelfReq) : Bool :=
  decide (r.source ≤ 8) && decide (r.part < 8) && decide (r.granule < 524288) && decide (r.first + r.data.length ≤ 128)

/-- R223, R366, R494: a tick observes 32 regions, five cartridges and 16 engines. -/
def TickInputs.ok (t : TickInputs) : Bool :=
  decide (t.temps.length = 32) && decide (t.cartridges.length = 5) && decide (t.swallowed.length = 32)
    && decide (t.conflicts.length = 32) && decide (t.tracks.length = 16)

/-- The check of a command's carrier. -/
def Instr.wellFormed : Instr → Bool
  | .echo _ _ p | .regRead _ _ p | .regWrite _ _ p | .regBlock _ _ p | .run _ _ p | .halt _ _ p
  | .tenantBind _ _ p | .tenantRelease _ _ p | .sessionOpen _ _ p | .promptAppend _ _ p | .sessionCancel _ _ p
  | .sessionClose _ _ p | .shardData _ _ p | .editionCommit _ _ p | .editionSwitch _ _ p
  | .editionRetire _ _ p | .windowOpen _ _ p | .windowClose _ _ p | .fabIdentity _ _ p | .fabRoutes _ _ p
  | .attest _ _ p | .fwActivate _ _ p | .presenceChallenge _ _ p => payloadOk p
  | .command _ h p => decide (h.length.toNat = p.length)
  | .tsdLinkWord _ f => decide (f.length = 16)
  | .wreq _ f => f.okAs [0x20#8]
  | .rreq _ f => f.okAs [0x22#8]
  | .wdata _ f => f.okAs [0x21#8]
  | .rdata _ f => f.okAs [0x23#8]
  | .ack _ f => f.okAs [0x24#8]
  | .nack _ f => f.okAs [0x25#8]
  | .qdata _ f => f.okAs [0x10#8]
  | .hold _ f => f.okAs [0x11#8]
  | .callSlip _ f => f.okAs [0x40#8]
  | .relayHead _ f d => f.okAs [0x30#8] && d.all (Flit.okAs [0x31#8])
  | .resend _ f => f.okAs [0x32#8]
  | .resendFail _ f => f.okAs [0x33#8]
  | .equery _ f => f.okAs [0x41#8]
  | .eanswer _ f => f.okAs [0x42#8]
  | .notice _ f => f.okAs [0x43#8]
  | .noticeAck _ f => f.okAs [0x44#8]
  | .flitForward _ f => f.ok
  | .shelfArbitration _ offers => offers.all ShelfReq.ok
  | .tick t => t.ok
  | .folioLoad _ _ _ _ | .editionBegin _ _ _ | .fwStage _ _ _ -- these may span packets (R403)
  | .bundleIssue _ _ | .mxNop _ _ | .mxLoad _ _ | .shadowLoadDone _ | .mxMul _ _ | .mxStore _ _ | .mxSeta _ _
  | .mxSets _ _ | .mxTrsumR _ _ | .mxTrsumC _ _ | .mxTrmaxR _ _ | .mxTrmaxC _ _ | .vxNop _ _ | .vxAdd _ _
  | .vxSub _ _ | .vxMul _ _ | .vxFma _ _ | .vxMin _ _ | .vxMax _ _ | .vxAbs _ _ | .vxNeg _ _ | .vxAnd _ _
  | .vxOr _ _ | .vxXor _ _ | .vxShl _ _ | .vxShr _ _ | .vxSel _ _ | .vxMov _ _ | .vxBcast _ _ | .vxCmp _ _
  | .vxGather _ _ | .vxCvt _ _ | .vxPack _ _ | .vxUnpack _ _ | .vxExp _ _ | .vxExp2 _ _ | .vxRcp _ _
  | .vxRsqrt _ _ | .vxSigm _ _ | .vxGelu _ _ | .vxSetd _ _ | .vxSets _ _ | .vxSetq _ _ | .vxStq _ _ | .rdNop _ _
  | .rdSum _ _ | .rdMax _ _ | .rdArgmax _ _ | .rdSumsq _ _ | .rdLse _ _ | .xfNop _ _ | .xfGo _ _ | .xfRst _ _
  | .xfFence _ _ | .descriptorComplete _ _ | .ctNop _ _ | .ctLoop _ _ | .ctCall _ _ | .ctRet _ _ | .ctJump _ _
  | .ctDelay _ _ | .ctHalt _ _ | .ctWaitq _ _ | .ctAcqr _ _ | .ctRelr _ _ | .ctStamp _ _ | .ctStep _ _
  | .stampRelease _ _ _ _ | .coreRunEnd _ | .haltComplete _ | .slotEmptyTimeout _ | .slotFullTimeout _
  | .sqWatchdog _ | .holdTimeout _ | .xfTimeout _ _ | .faultedSlotClear _ | .recoveryRun _ | .recoveryRunEnd _ _
  | .scrubRead _ | .clearDone _ | .leaseLapse _ | .powerOnArbitration _ | .curatorWatchdog _ | .curatorBoot _
  | .bootFail _ | .promptTimeout _ | .queueTimeout _ | .stepTimeout _ | .tokenPacketClose _ | .tokenPacketSend _
  | .eventPacketClose _ | .windowCloseDone _ | .drainExpired _ | .windowFree _ | .fabLinkWord _ _ | .fabAckTimeout _
  | .slipMiss _ | .portDown _ | .portUp _ | .fabTrainFail _ | .clockSlip _ | .shardTimeout _ _ | .editionRetired _
  | .laserCartridgeChange _ _ | .cartridgeActive _ | .ringUnlock _ | .calDone _ _ | .tsdAckTimeout _ | .tsdPortUp _
  | .tsdPortDown _ | .tsdTrainFail _ _ | .cmdTimeout _ _ | .loadIdleTimeout _ | .presencePress | .presenceExpired
  | .identityWiped | .mgmtBusRead _ _ | .powerGood _ | .selftestDone _ _ _ | .readingRoomBegin | .serviceBegin
  | .resetN _ | .inputPowerLoss | .trip _ | .tripClear _ | .droop _ | .droopHoldEnd _ | .refHoldover | .refLocked _
  | .ldgHoldover | .d2dRetrain | .tableEccUe _ | .stampArrival _ | .programStart _ | .alignmentDone _ _ _
  | .d2dRetrainEnd _ | .fabLightReceived _ | .tsdLightReceived _ | .fabFlitReject _ _ | .tsdPacketReject _ _
  | .inputPowerApplied _ | .trackLimit _ _ | .junctionNear _ _ | .xfEccUe _ _ | .rotateFwkeys _ _ | .enrollChain _ _
  | .installKey _ _ | .removeKey _ _ | .yield _ _ | .isolate _ _ _ _ | .mapout _ _ _ _ | .calibrate _ _
  | .fabPortEnable _ _ _ _ | .fabPortRetrain _ _ _ | .tsdPortEnable _ _ _ _ | .tsdPortRetrain _ _ _
  | .evtClear _ _ _ _ | .archivalOnly _ _ _ | .refSel _ _ _ | .ldgRole _ _ _ _ | .govCtrl _ _ _ _
  | .shfEccInject _ _ _ _ _ _ | .carEccInject _ _ _ _ _ | .coreQsel _ _ _ _ => true

end Sys2Proof
end

