-- ==== Sys2Proof/Tests/Slice0.lean ====
section
/-! SUPPORT. Tests: an ill-formed command for each check of WellFormed, small runs of one step against worked examples of the
manual, and for every statement of the first slice a state and operands that meet its premises, clause by clause. -/

namespace Sys2Proof.Tests

set_option maxRecDepth 20000
-- one kernel evaluation at a time
set_option Elab.async false

open Sys2Proof Sys2Proof.Machine

-- the carrier's bounds

def flit0 : Flit :=
  { typ := 0x20, vc := 1, mark := false, waited := false, hops := 0, hopidx := 0, rsvd18 := 0, src := 0, lseq := 0, tsf := 0
    route := 0, rsvd30 := 0, payload := List.replicate 48 0 }

def inputs0 : TickInputs :=
  { temps := List.replicate 32 40, cartridges := List.replicate 5 (100, true), vinMv := 40000, iinMa := 20000, pinW := 800
    ipeakMa := 21000, energyMj := 800, inlet := 300, outlet := 350, heartbeatA := true, heartbeatB := true, sealOpen := false
    swallowed := List.replicate 32 0, conflicts := List.replicate 32 0, tracks := List.replicate 16 0 }

theorem test_ill_formed_payload : (Instr.echo 0 0 (List.replicate 65537 0)).wellFormed = false := by decide +kernel
theorem test_ill_formed_command_length :
    (Instr.command 0 ⟨1, 0, 3, 1, 4, 0, 0, 7, 0, 0, 0⟩ [1, 2, 3]).wellFormed = false := by decide +kernel
theorem test_ill_formed_link_word : (Instr.tsdLinkWord 0 (List.replicate 15 0)).wellFormed = false := by decide +kernel
theorem test_ill_formed_flit_type : (Instr.rreq 0 flit0).wellFormed = false := by decide +kernel
theorem test_ill_formed_flit_length :
    (Instr.wreq 0 { flit0 with payload := List.replicate 47 0 }).wellFormed = false := by decide +kernel
theorem test_ill_formed_relay_data :
    (Instr.relayHead 0 { flit0 with typ := 0x30 } [{ flit0 with typ := 0x32 }]).wellFormed = false := by decide +kernel
theorem test_ill_formed_shelf_request : (Instr.shelfArbitration 0 [⟨9, 0, .window, 0, 0, false, 0, [], false⟩]).wellFormed = false := by decide +kernel
theorem test_ill_formed_tick :
    (Instr.tick { inputs0 with temps := [] }).wellFormed = false := by decide +kernel
theorem test_well_formed_flit : (Instr.wreq 0 flit0).wellFormed = true := by decide +kernel

-- states that meet premises

/-- A module in service under die A, both curators running, TP0 and TP1 UP with credits. -/
def up : State :=
  let port : TsdPort := { TsdPort.reset with
    state := .up, peerInit := true, rxAny := true, credits := [(0, 4000), (1, 4000), (2, 4000), (3, 4000)] }
  let cur : Curator := { Curator.reset with run := .running, bootedOnce := true }
  { State.reset with
    power := { Power.reset with railsOn := true, boot := 0xFF }
    gen := { GenPage.reset with service := true }
    ports := [(0, port), (1, port)]
    curators := [(0, cur), (1, cur)]
    charter := { Charter.reset with
      lease := .dieA, granted := true, arbitrating := false, sinceA := some 0, sinceB := some 0, epoch := 1 } }

/-- A core in service. -/
def core0 : Core := { Core.reset with sq := { Sequencer.reset with mode := .service } }

/-- Core 0 is the given one. -/
def withCore (k : Core) : State := { up with cores := [(0, k)] }

/-- A folio without cores, sections or sessions. -/
def folio0 : Folio :=
  { digest := [], kind := 0, archival := false, sessions := false, seed := 0, compiler := 0, stepping := 0xC0, moduleCount := 1
    role := 0, devices := [0], clusters := 0, padded := false, lparts := [], prefill := [1], decode := [1], start := []
    stepEntry := [], serving := none, stamps := [], routes := [], windows := [], hasStep := false, resident := none }

/-- Slot 0 in a state with a folio. -/
def withSlot (st : SlotState) (f : Folio) (s : State) : State :=
  { s with slots := [(0, { Slot.reset with state := st, folio := some f })] }

theorem get_mem {α : Type} (d : α) (t : Tbl α) (k : Nat) : Tbl.get d t k = d ∨ ∃ e ∈ t, e.2 = Tbl.get d t k := by
  induction t with
  | nil => exact .inl rfl
  | cons e t ih =>
    by_cases h : e.1 = k
    · exact .inr ⟨e, List.mem_cons_self .., by simp [Tbl.get, h]⟩
    · have g : Tbl.get d (e :: t) k = Tbl.get d t k := by simp [Tbl.get, h]
      rw [g]
      exact ih.imp_right fun ⟨x, m, hx⟩ => ⟨x, List.mem_cons_of_mem _ m, hx⟩

/-- A state without commands in progress, RELEASING tenants and due clearings is quiet. -/
theorem quiet_of (s : State) (hc : s.clusters.all (fun k => k.2.parts.all fun p => !p.2.due) = true)
    (ht : s.tenants.all (fun t => decide (t.2.state ≠ .releasing)) = true)
    (hp : s.ports.all (fun p => p.2.cmds.all fun c => match c.wait with | .bind _ => false | .bound _ => false | _ => true)
      = true) : Quiet s := by
  refine ⟨fun k hk p hq => ?_, fun t h => ?_, fun p c hc' => ?_⟩
  · have := List.all_eq_true.1 (List.all_eq_true.1 hc k hk) p hq
    simpa using this
  · simpa using List.all_eq_true.1 ht t h
  · have h : (match c.wait with | .bind _ => false | .bound _ => false | _ => true) = true := by
      rcases get_mem TsdPort.reset s.ports p with g | ⟨e, m, g⟩
      · have : c ∈ TsdPort.reset.cmds := by rw [← g]; exact hc'
        exact absurd this (by simp [TsdPort.reset])
      · have : c ∈ e.2.cmds := by rw [g]; exact hc'
        exact List.all_eq_true.1 (List.all_eq_true.1 hp e m) c this
    exact ⟨fun b e => by simp [e] at h, fun b e => by simp [e] at h⟩

theorem quiet_up (k : Core) : Quiet (withCore k) := quiet_of _ rfl rfl rfl

theorem not_loading {x : Shadow} (h : x = .empty) (l : ShadowLoad) : x ≠ .loading l := by
  rw [h]; exact fun e => Shadow.noConfusion e

-- the matrix engine

/-- A tile of zeros of the shape `sh`. -/
def tile0 (sh : BitVec 3) : Tile := { shape := sh, wfmt := 0, tw := 0x3F800000, half0 := [], half1 := [] }

/-- A core with an active tile and two descriptors of pitch 8. -/
def mulCore (sh : BitVec 3) : Core :=
  { core0 with mx := { MatrixUnit.reset with active := some (tile0 sh), adesc := [(0, ⟨0, 0, 8⟩), (1, ⟨0, 0, 8⟩)] } }

theorem witness_MatrixRegistersAreSet :
    ((withCore core0).runs 0 = true ∧ (0x3C0000000000000#58).extractLsb' 0 4 = 0#4)
    ∧ ((withCore core0).runs 0 = true ∧ (0x3C0000000000000#58).extractLsb' 32 22 = 0#22
      ∧ (0x3C0000000000000#58).extractLsb' 54 4 ≠ 0#4)
    ∧ ((withCore core0).runs 0 = true ∧ (0#58).extractLsb' 54 4 = 0#4)
    ∧ ((withCore core0).runs 0 = true ∧ (∀ l, ((withCore core0).core 0).mx.shadow ≠ .loading l)
      ∧ (((withCore core0).core 0).mx.act (mulWord (word58 0x02 0)).adesc).pitch = 0)
    ∧ ((withCore (mulCore 4)).runs 0 = true ∧ (∀ l, ((withCore (mulCore 4)).core 0).mx.shadow ≠ .loading l)
      ∧ (mulWord (word58 0x02 0x200000000080000#58)).shape = 4
      ∧ (((withCore (mulCore 4)).core 0).mx.act (mulWord (word58 0x02 0x200000000080000#58)).adesc2).pitch = 0) :=
  ⟨by decide +kernel, by decide +kernel, by decide +kernel,
    ⟨by decide +kernel, not_loading (by decide +kernel), by decide +kernel⟩,
    by decide +kernel, not_loading (by decide +kernel), by decide +kernel, by decide +kernel⟩

/-- Core 8 of tenant 3, its partition 2 of cluster 1 RESIDENT. -/
def shelfLoad : State :=
  { withCore core0 with
    cores := [(8, { core0 with sq := { core0.sq with tenant := some 3 } })]
    clusters := [(1, { Cluster.reset with parts := [(2, { Part.reset with kind := .resident, owner := some 3 })] })] }
/-- An MX.LOAD from the first byte of that partition. -/
def shelfLoadArgs : BitVec 58 := BitVec.ofNat 58 (2 ^ 46 + 2 ^ 27 * 2 ^ 17)

theorem witness_WeightLoadFillsTheShadowPlane :
    ((withCore core0).runs 0 = true ∧ (∀ l, ((withCore core0).core 0).mx.shadow ≠ .loading l)
      ∧ (withCore core0).matrixIssue 0 (word58 0x01 0) = none)
    ∧ (∃ tile, (withCore core0).upsets = []
      ∧ tileOf 3 4 0x3F800000 ((withCore core0).width 0)
        ((withCore core0).mem.read (loadSource 0 false 0) (tileBytes 4 3 ((withCore core0).width 0))) = some tile)
    ∧ (shelfLoad.runs 8 = true ∧ (∀ l, (shelfLoad.core 8).mx.shadow ≠ .loading l)
      ∧ shelfLoad.matrixIssue 8 (word58 0x01 shelfLoadArgs) = none ∧ shelfLoadArgs.getLsbD 46 = true) := by
  refine ⟨⟨by decide +kernel, not_loading (by decide +kernel), by decide +kernel⟩, ?_
    , by decide +kernel, not_loading (by decide +kernel), by decide +kernel, by decide +kernel⟩
  have h : (tileOf 3 4 0x3F800000 ((withCore core0).width 0)
    ((withCore core0).mem.read (loadSource 0 false 0) (tileBytes 4 3 ((withCore core0).width 0)))).isSome = true := by
    decide +kernel
  exact (Option.isSome_iff_exists.1 h).imp fun t ht => ⟨rfl, ht⟩

theorem witness_MatrixMultiplyWritesItsRows :
    ((withCore (mulCore 3)).runs 0 = true ∧ (withCore (mulCore 3)).upsets = []
      ∧ (withCore (mulCore 3)).matrixIssue 0 (word58 0x02 0x180001FC0000000#58) = none
      ∧ (mulWord (word58 0x02 0x180001FC0000000#58)).shape < 4
      ∧ (mulWord (word58 0x02 0x180001FC0000000#58)).mcount = 127
      ∧ planeAfter ((withCore (mulCore 3)).core 0).mx false = some (tile0 3))
    ∧ ((withCore (mulCore 4)).runs 0 = true ∧ (withCore (mulCore 4)).upsets = []
      ∧ (withCore (mulCore 4)).matrixIssue 0 (word58 0x02 0x200100000040000#58) = none
      ∧ 4 ≤ (mulWord (word58 0x02 0x200100000040000#58)).shape
      ∧ planeAfter ((withCore (mulCore 4)).core 0).mx false = some (tile0 4)) := by
  refine ⟨⟨?_, rfl, ?_, ?_, ?_, ?_⟩, ?_, rfl, ?_, ?_, ?_⟩ <;> decide +kernel

theorem witness_MatrixStoreWritesItsRows :
    (withCore core0).runs 0 = true ∧ (withCore core0).upsets = [] ∧ ((withCore core0).core 0).car.inject.arm = false
      ∧ (withCore core0).matrixIssue 0 (word58 0x03 0xFE0000008000#58) = none := by
  refine ⟨?_, rfl, ?_, ?_⟩ <;> decide +kernel

/-- A core in DIAG. -/
def diag0 : Core := { core0 with sq := { core0.sq with mode := .diag } }

theorem witness_TileAxisWordsWriteTheirResults :
    (withCore diag0).runs 0 = true ∧ (withCore diag0).upsets = [] ∧ ((withCore diag0).core 0).car.inject.arm = false
      ∧ (∀ op ∈ [0x10#6, 0x11#6, 0x12#6, 0x13#6], (withCore diag0).matrixIssue 0 (word58 op 0xFE0000000000#58) = none)
      ∧ ((withCore core0).core 0).sq.mode = .service := by
  refine ⟨?_, rfl, ?_, ?_, ?_⟩ <;> decide +kernel

theorem witness_MatrixFaultIsPrecise :
    (withCore core0).runs 0 = true ∧ (withCore core0).slotOf 0 = none
      ∧ (withCore core0).matrixIssue 0 (word58 0x05 0) = some mxIllegal := by
  refine ⟨?_, ?_, ?_⟩ <;> decide +kernel

-- the vector engine and the reduction unit

/-- A vector word's 56 low bits: DST 1, SRCC, TYPE and the low field given, one element, the other fields 0. -/
def vxArgs (dst srcc typ low : Nat) : BitVec 56 := BitVec.ofNat 56 (dst * 2 ^ 39 + srcc * 2 ^ 27 + typ * 2 ^ 20 + low)

/-- A legal word for each element-wise opcode. -/
def vxWords : List (BitVec 8 × BitVec 56) :=
  [(0x01, vxArgs 1 0 8 0), (0x02, vxArgs 1 0 8 0), (0x03, vxArgs 1 0 8 0), (0x04, vxArgs 1 0 8 0), (0x05, vxArgs 1 0 8 0),
   (0x06, vxArgs 1 0 8 0), (0x07, vxArgs 1 0 8 0), (0x08, vxArgs 1 0 8 0), (0x09, vxArgs 1 0 0xB 0), (0x0A, vxArgs 1 0 0xB 0),
   (0x0B, vxArgs 1 0 0xB 0), (0x0C, vxArgs 1 0 0xB 0), (0x0D, vxArgs 1 0 0xB 0), (0x0E, vxArgs 1 0 8 0), (0x0F, vxArgs 1 0 8 0),
   (0x10, vxArgs 1 0 8 0), (0x11, vxArgs 0 0 8 0x4000), (0x12, vxArgs 1 0 8 0), (0x18, vxArgs 1 8 8 0), (0x19, vxArgs 1 0 8 0),
   (0x1A, vxArgs 1 0 8 0), (0x20, vxArgs 1 0 8 0), (0x21, vxArgs 1 0 8 0), (0x22, vxArgs 1 0 8 0), (0x23, vxArgs 1 0 8 0),
   (0x24, vxArgs 1 0 8 0), (0x25, vxArgs 1 0 8 0)]

theorem witness_VectorWordsRunOverTheirElements :
    (withCore core0).runs 0 = true ∧ (withCore core0).upsets = [] ∧ ((withCore core0).core 0).car.inject.arm = false
      ∧ vxWords.all (fun q => decide ((withCore core0).vectorIssue 0 (word56 q.1 q.2) = none
        ∧ (((withCore core0).vxCtx 0 (vxWord (word56 q.1 q.2))).run (vxWord (word56 q.1 q.2)) none []).fault = none)) = true := by
  refine ⟨?_, rfl, ?_, ?_⟩ <;> decide +kernel

/-- A vector unit whose descriptor 1 lies 64 bytes up. -/
def unit1 : VectorUnit := { VectorUnit.reset with desc := [(1, 64)] }

theorem witness_EnabledElementsTakeTheirResults :
    let v := vxWord (word56 0x01 (vxArgs 1 0 8 0))
    let k := { (withCore core0).vxCtx 0 v with unit := unit1 }
    (1 ≤ v.op ∧ v.op ≤ 0x10 ∧ (k.run v none []).fault = none
      ∧ k.unit.base v.srca + v.n * laneSize v.typ ≤ k.unit.base v.dst
      ∧ (v.usesB = true → k.unit.base v.srcb + v.n * laneSize v.typ ≤ k.unit.base v.dst) ∧ v.usesC = false) ∧ 0 < 8 := by
  decide +kernel

theorem witness_VectorRegistersAreSet :
    ((withCore core0).runs 0 = true ∧ (0xF0000080000000#56).extractLsb' 0 31 = 0#31)
    ∧ ((0xF0000000000000#56).extractLsb' 32 20 = 0#20 ∧ (0xF0000000000000#56).extractLsb' 52 4 ≠ 0#4)
    ∧ ((0#56).extractLsb' 52 4 = 0#4 ∧ (0xF0000100000000#56).extractLsb' 32 20 ≠ 0#20 ∧ (1#56).extractLsb' 0 31 ≠ 0#31)
    ∧ ((withCore core0).upsets = [] ∧ (withCore core0).vectorIssue 0 (word56 0x32 0x40000#56) = none
      ∧ ((withCore core0).core 0).vx.base 0 + 512 ≤ carrelSize)
    ∧ (((withCore core0).core 0).car.inject.arm = false ∧ (withCore core0).vectorIssue 0 (word56 0x33 0xC0000#56) = none
      ∧ ((withCore core0).core 0).vx.base 0 + 512 ≤ carrelSize) := by
  refine ⟨?_, ?_, ?_, ⟨rfl, ?_, ?_⟩, ?_, ?_, ?_⟩ <;> decide +kernel

theorem witness_ReductionWordsWriteTheirResults :
    (withCore core0).runs 0 = true ∧ (withCore core0).upsets = [] ∧ ((withCore core0).core 0).car.inject.arm = false
      ∧ ∀ op ∈ [0x01#6, 0x02#6, 0x03#6, 0x04#6, 0x05#6],
        (withCore core0).reductionIssue 0 (word58 op 0x1000000000#58) = none := by
  refine ⟨?_, rfl, ?_, ?_⟩ <;> decide +kernel

theorem witness_IntegerReductionsAddAndCompare :
    [(7#32, true)] ≠ [] ∧ ([(3#32, false), (7#32, true)])[1]? = some (7#32, true) := by decide +kernel

-- worked examples of the manual

theorem test_fp32_scale_register_0 : (MatrixUnit.reset.scale 0, VectorUnit.reset.scale 0) = (0x3F800000#32, 0x3F800000#32) := by
  decide +kernel


-- the sequencer, stamps, rings and transfers

/-- A core with one address on its call stack. -/
def ctCore : Core := { core0 with sq := { core0.sq with calls := [5] } }

/-- Core 0 in service beside a ring 3 of its cluster that it produces and consumes, with the given present slots. -/
def ringState (k : Core) (present : List Nat) : State :=
  { withCore k with clusters := [(0, { Cluster.reset with rings := [(3, { Ring.reset with
      valid := true, slots := 2, present := present })] })] }

theorem witness_ControlWordsMoveTheSequencer :
    ((withCore ctCore).runs 0 = true
      ∧ ([(0x01#6, 0#58), (0x02#6, 0#58), (0x03#6, 0#58), (0x04#6, 0#58), (0x05#6, 0x3FFFFFC00000000#58), (0x06#6, 0#58)]).all
        (fun q => decide ((withCore ctCore).controlIssue 0 0 (word58 q.1 q.2) = none)) = true)
    ∧ (withCore ctCore).transferIssue 0 (word58 0x03 0) = none
    ∧ ((withCore ctCore).controlIssue 0 0 (word58 0x08 0) = none
      ∧ (let s := withCore { ctCore with queues := [(0, { Endpoint.reset with bound := true, entries := [⟨[], none, false⟩] })] }
         s.controlIssue 0 0 (word58 0x08 0) = none ∧ s.controlWait 0 (word58 0x08 0) = none))
    ∧ (ringState ctCore [0]).controlIssue 0 0 (word58 0x09 0x30000000000000#58) = none := by
  refine ⟨⟨?_, ?_⟩, ?_, ⟨?_, ?_⟩, ?_⟩ <;> decide +kernel

/-- A stamp of ID 1, GROUP 0, PLAN 12. -/
def stamp0 : StampWait := ⟨1, 0, 12, 4, false, false, 0, 0⟩

/-- Core 0 at a stamp, with slot 0 RUNNING cluster 0 and the stamp group 0 of core 0 alone. -/
def stampState (st : StampWait) (arrived : List Nat) : State :=
  let f := { folio0 with clusters := 1, stamps := [⟨0, 12, [0], []⟩] }
  { withCore { core0 with sq := { core0.sq with run := true, stamp := some st } } with
    slots := [(0, { Slot.reset with
      state := .running, folio := some f, prog := { Prog.reset with started := true, groups := [(0, ⟨7, 1, arrived, []⟩)] } })] }

/-- Cores 0 and 1 at a stamp whose group 0 the module of role 1 belongs to as well; what has arrived there is given. -/
def partnerState (st : StampWait) (arrived : List Nat) (remote : List HoldIn) : State :=
  let f := { folio0 with clusters := 1, stamps := [⟨0, 12, [0, 1], [⟨1, 4, 100⟩]⟩] }
  let k : Core := { core0 with sq := { core0.sq with run := true, stamp := some st } }
  { up with
    cores := [(0, k), (1, k)]
    slots := [(0, { Slot.reset with
      state := .running, folio := some f, prog := { Prog.reset with started := true, groups := [(0, ⟨7, 1, arrived, remote⟩)] } })] }

theorem witness_StampsStopTheCoreUntilArrival :
    ((withCore core0).runs 0 = true ∧ (withCore core0).controlIssue 0 0 (word58 0x10 0xC000#58) = none
      ∧ (withCore core0).controlIssue 0 0 (word58 0x11 0xC000#58) = none
      ∧ ((withCore core0).core 0).sq.s < ((0xC000#58).extractLsb' 12 24).toNat)
    ∧ (∃ e, ((stampState stamp0 []).core 0).sq.stamp = some stamp0 ∧ stamp0.arrived = false
      ∧ (stampState stamp0 []).slotOf 0 = some 0 ∧ ((stampState stamp0 []).slot 0).group 0 = some e ∧ e.peers = []
      ∧ (Tbl.get GroupRun.reset ((stampState stamp0 []).slot 0).prog.groups 0).remote = [])
    ∧ (∃ e, let s := partnerState stamp0 [] [⟨1, 5, false⟩]
       (s.core 0).sq.stamp = some stamp0 ∧ s.slotOf 0 = some 0 ∧ (s.slot 0).group 0 = some e
        ∧ (Tbl.get GroupRun.reset (s.slot 0).prog.groups 0).id = stamp0.id
        ∧ ∃ c ∈ e.members, c ≠ 0 ∧ c ∉ (Tbl.get GroupRun.reset (s.slot 0).prog.groups 0).arrived) := by
  refine ⟨⟨?_, ?_, ?_, ?_⟩, ⟨⟨0, 12, [0], []⟩, ?_, ?_, ?_, ?_, ?_, ?_⟩, ⟨0, 12, [0, 1], [⟨1, 4, 100⟩]⟩, ?_⟩ <;> decide +kernel

theorem witness_StampReleaseFreesTheMembers :
    ∃ e, ((stampState { stamp0 with arrived := true } [0]).slot 0).state = .running
      ∧ ((stampState { stamp0 with arrived := true } [0]).slot 0).group 0 = some e ∧ e.members ≠ [] ∧ e.members.Nodup
      ∧ (∀ c ∈ e.members,
        c ∈ (Tbl.get GroupRun.reset ((stampState { stamp0 with arrived := true } [0]).slot 0).prog.groups 0).arrived)
      ∧ e.peers = []
      ∧ (∀ c ∈ e.members, ((stampState { stamp0 with arrived := true } [0]).core c).sq.stamp
          = some { stamp0 with arrived := true }) ∧ stamp0.ends = false
      ∧ (∃ f, ((stampState stamp0 []).slot 0).folio = some f ∧ f.stepEntry = []) ∧ ((stampState stamp0 []).core 0).sq.mode ≠ .faulted
      ∧ (∃ e, let s := partnerState { stamp0 with arrived := true } [0, 1] [⟨1, 5, false⟩]
         let g := Tbl.get GroupRun.reset (s.slot 0).prog.groups 0
         (s.slot 0).state = .running ∧ (s.slot 0).group 0 = some e ∧ e.members.Nodup ∧ (∀ c ∈ e.members, c ∈ g.arrived)
          ∧ (∀ p ∈ e.peers, ∃ h ∈ g.remote, h.role = p.role) ∧ e.peers ≠ [] ∧ 0 < 9 ∧ ∃ h ∈ g.remote, h.role = 1) := by
  refine ⟨⟨0, 12, [0], []⟩, ?_, ?_, ?_, ?_, ?_, ?_, ?_, ?_, ⟨{ folio0 with clusters := 1, stamps := [⟨0, 12, [0], []⟩] }, ?_, ?_⟩, ?_
    , ⟨0, 12, [0, 1], [⟨1, 4, 100⟩]⟩, ?_⟩ <;> decide +kernel

theorem witness_RingReleaseMovesHeadOrTail :
    (ringState core0 [0]).runs 0 = true
      ∧ ((ringState core0 [0]).controlWait 0 (word58 0x0A 0x30000000000000#58)).isNone = true
      ∧ (ringState core0 [0]).controlIssue 0 0 (word58 0x0A 0x30000000000000#58) = none
      ∧ ((ringState core0 []).controlWait 0 (word58 0x0A 0x38000000000000#58)).isNone = true
      ∧ (ringState core0 []).controlIssue 0 0 (word58 0x0A 0x38000000000000#58) = none := by
  refine ⟨?_, ?_, ?_, ?_, ?_⟩ <;> decide +kernel

/-- A move of one byte from carrel offset 0 to 64 of core 0. -/
def moveUnit : TransferUnit := { TransferUnit.reset with descs := [(0, ⟨0, 0, 64, 0⟩)], running := [(0, (0, 64))] }
/-- A move that has finished. -/
def movedUnit : TransferUnit :=
  { moveUnit with out := [{ inst := 0, desc := 0, d := ⟨0, 0, 64, 0⟩, src := 0, dst := 64, offset := 0, word := 0, moved := 1
                            started := true, done := true, toSend := [], ueAt := none }] }

/-- The same between ring 62 of the cluster and the carrel: the ring's operand stands at bit `i` of the descriptor. -/
def movedRing (i : Nat) : TransferUnit :=
  { movedUnit with out := movedUnit.out.map fun o =>
      { o with d := ⟨BitVec.ofNat 64 (2 * 2 ^ i + 62 * 2 ^ 51 + 62 * 2 ^ 45), 0, 64, 0⟩ } }

theorem witness_DescriptorsMoveResetAndLeave :
    ((withCore { core0 with xf := moveUnit }).runs 0 = true
      ∧ (withCore { core0 with xf := moveUnit }).transferIssue 0 (word58 0x01 0) = none ∧ moveUnit.out = []
      ∧ (withCore { core0 with xf := moveUnit }).upsets = []
      ∧ ((withCore { core0 with xf := moveUnit }).core (coreAt 64)).car.inject.arm = false
      ∧ (moveUnit.xfer 0).sk = 0 ∧ (moveUnit.xfer 0).dk = 0 ∧ (moveUnit.xfer 0).trans = false
      ∧ spaceOf (moveUnit.xfer 0).src < 2 ∧ spaceOf (moveUnit.xfer 0).dst < 2
      ∧ (let x := moveUnit.xfer 0
         (∀ r r', r < x.rows → r' < x.rows →
           x.dst + r * x.dp + x.len ≤ x.src + r' * x.sp ∨ x.src + r' * x.sp + x.len ≤ x.dst + r * x.dp)
        ∧ (∀ r r', r < r' → r' < x.rows →
           x.dst + r * x.dp + x.len ≤ x.dst + r' * x.dp ∨ x.dst + r' * x.dp + x.len ≤ x.dst + r * x.dp)))
    ∧ (0x3FC000000000000#58).extractLsb' 0 50 = 0#50
    ∧ (movedUnit.out.findIdx? (fun o => decide (o.desc = 0) && movedUnit.finished o) = some 0
      ∧ (∀ o ∈ movedUnit.out, o.started = true ∧ o.toSend = [] ∧ o.xfer.ringOf = none))
    ∧ (∀ q ∈ [(62, false), (60, true)], (movedRing q.1).out.findIdx? (fun o => decide (o.desc = 0) && (movedRing q.1).finished o) = some 0
        ∧ ∀ o ∈ (movedRing q.1).out, o.xfer.ringOf = some (62, q.2)) := by
  refine ⟨⟨?_, ?_, ?_, ?_, ?_, ?_, ?_, ?_, ?_, ?_, ?_, ?_⟩, ?_, ⟨?_, ?_⟩, ?_⟩
  case refine_11 =>
    intro r r' h h'
    have e : (moveUnit.xfer 0).rows = 1 ∧ (moveUnit.xfer 0).src = 0 ∧ (moveUnit.xfer 0).dst = 64 ∧ (moveUnit.xfer 0).len = 1 := by
      decide +kernel
    obtain rfl : r = 0 := by omega
    obtain rfl : r' = 0 := by omega
    omega
  case refine_12 =>
    intro r r' h h'
    have e : (moveUnit.xfer 0).rows = 1 := by decide +kernel
    omega
  all_goals decide +kernel

-- faults, recovery, the end of a run

/-- A running core whose bundle at the pc waits at CT.ACQR of ring 3, for a put or a take. -/
def waitCore (put : Bool) : Core :=
  { core0 with sq := { core0.sq with
      run := true, istore := [(0, 0x0800000000000000), (1, if put then 0x2438000000000000 else 0x2430000000000000)] } }

theorem witness_TimeoutsFaultTheirCore :
    ((ringState (waitCore false) []).runs 0 = true ∧ (ringState (waitCore false) []).slotOf 0 = none
      ∧ ((ringState (waitCore false) []).ringAwaited 0 false).isSome = true
      ∧ ((ringState (waitCore true) [0]).ringAwaited 0 true).isSome = true
      ∧ ((ringState (waitCore true) [0]).core 0).sq.run = true
      ∧ ((ringState (waitCore true) [0]).core 0).sq.stamp = none
      ∧ ((ringState (waitCore true) [0]).core 0).sq.halted = false
      ∧ ((ringState (waitCore true) [0]).core 0).sq.delay = 0
      ∧ (let k := waitCore true
         let s := ringState { k with sq := { k.sq with delay := 1, planned := false } } [0]
         s.runs 0 = true ∧ (s.core 0).sq.run = true ∧ (s.core 0).sq.planned = false ∧ 0 < (s.core 0).sq.delay))
    ∧ Quiet (ringState (waitCore false) []) ∧ Quiet (ringState (waitCore true) [0])
    ∧ (({ moveUnit with tags := [(63, some ⟨0, 0, 0, true, 0, 0, 0, 0, 0, 64, 0, 0, false⟩)] } : TransferUnit).tag 63).isSome = true
    ∧ (∃ o ∈ (movedUnit.out.map fun o => { o with ueAt := some 0 }), o.desc = 0 ∧ o.ueAt.isSome = true)
    ∧ (withCore core0).matrixIssue 0 (word58 0x03 0) = some mxIllegal := by
  refine ⟨⟨?_, ?_, ?_, ?_, ?_, ?_, ?_, ?_, ?_⟩, quiet_of _ rfl rfl rfl, quiet_of _ rfl rfl rfl, ?_, ?_, ?_⟩ <;> decide +kernel

/-- Core 0 has issued CT.HALT and drained. -/
def haltedState : State :=
  { withCore { core0 with sq := { core0.sq with run := true, halted := true } } with
    slots := [(0, { Slot.reset with state := .running, folio := some folio0, prog := { Prog.reset with haltPending := true } })] }

theorem witness_ProgramsFaultAndRunsEnd :
    (((stampState { stamp0 with arrived := true } []).core 0).sq.stamp = some { stamp0 with arrived := true }
      ∧ (stampState { stamp0 with arrived := true } []).slotOf 0 = some 0
      ∧ ((stampState { stamp0 with arrived := true } []).slot 0).state = .running
      ∧ (stampState { stamp0 with arrived := true } []).editions = [] ∧ Quiet (stampState { stamp0 with arrived := true } [])
      ∧ Tbl.wf Session.reset (stampState { stamp0 with arrived := true } []).sessions = true)
    ∧ ((haltedState.core 0).sq.run = true ∧ (haltedState.core 0).sq.halted = true ∧ (haltedState.core 0).drained = true
      ∧ haltedState.residue 0 = 0)
    ∧ (let s := withCore { core0 with
         sq := { core0.sq with run := true, halted := true }
         queues := [(11, { Endpoint.reset with bound := true, entries := [⟨[], none, false⟩] })] }
       (s.core 0).sq.run = true ∧ (s.core 0).sq.halted = true ∧ (s.core 0).drained = true ∧ s.residue 0 ≠ 0)
    ∧ (haltedState.slot 0).prog.haltPending = true ∧ (haltedState.slot 0).state = .running
    ∧ haltedState.slotStopped 0 = true := by
  refine ⟨⟨?_, ?_, ?_, rfl, quiet_of _ rfl rfl rfl, rfl⟩, ⟨?_, ?_, ?_, ?_⟩, ?_, ?_, ?_, ?_⟩ <;> decide +kernel

/-- The cores of cluster 31 in a mode, with slot 63 FAULTED on that cluster. -/
def faultedState (m : CoreMode) (slots : Tbl Slot) : State :=
  { up with
    cores := (clusterCores 31).map fun c => (c, { core0 with sq := { core0.sq with mode := m, faultedFrom := .service } })
    slots := slots }

def faultedSlot : Tbl Slot :=
  [(63, { Slot.reset with state := .faulted, folio := some { folio0 with clusters := 0x80000000 } })]

theorem witness_FaultedClustersRecover :
    (((faultedState .faulted faultedSlot).slot 63).state = .faulted
      ∧ (faultedState .faulted faultedSlot).slotStopped 63 = true ∧ Quiet (faultedState .faulted faultedSlot)
      ∧ ((faultedState .faulted faultedSlot).slot 63).claims 31 = true
      ∧ ((faultedState .faulted faultedSlot).cluster 31).isolating = false
      ∧ ∀ c ∈ clusterCores 31, ((faultedState .faulted faultedSlot).core c).sq.mode = .faulted
        ∧ ((faultedState .faulted faultedSlot).core c).sq.faultedFrom ≠ .recovery)
    ∧ ((faultedState .recovery []).clusterIn 31 .recovery = true ∧ (faultedState .recovery []).claimant 31 = none
      ∧ (faultedState .recovery []).mayClaim 31 = false ∧ ((faultedState .recovery []).cluster 31).recovering = false)
    ∧ (let s := { faultedState .recovery [] with clusters := [(31, { Cluster.reset with recovering := true })] }
       (s.cluster 31).recovering = true ∧ s.clusterIn 31 .recovery = true ∧ (s.cluster 31).isolating = false)
    ∧ (let s := faultedState .faulted [(63, { Slot.reset with
         state := .faulted, folio := some { folio0 with kind := 3, clusters := 0x80000000 } })]
       (s.slot 63).kind = 3 ∧ (s.slot 63).claims 31 = true ∧ s.slotStopped 63 = true) := by
  refine ⟨⟨?_, ?_, quiet_of _ rfl rfl rfl, ?_, ?_, ?_⟩, ⟨?_, ?_, ?_, ?_⟩, ?_, ?_⟩ <;> decide +kernel

theorem witness_TableErrorsMarkTheirEntry :
    ((({ up with routes := [(2047, ⟨0x600, 0, 0⟩)] } : State).route 2047).valid = true
      ∧ (({ up with routes := [(2047, ⟨0x600, 0, 0⟩)] } : State).route 2047).standing = true)
    ∧ (∀ st ∈ [SessState.prefill, .decode, .opened, .admitted],
        (({ up with sessions := [(4095, { Session.reset with state := st })] } : State).session 4095).state = st)
    ∧ (up.adm.autoFree = false ∧ up.editions = [] ∧ Quiet up)
    ∧ ((stampState stamp0 []).slot 0).state = .running ∧ (stampState stamp0 []).editions = [] ∧ Quiet (stampState stamp0 []) := by
  refine ⟨⟨?_, ?_⟩, ?_, ⟨?_, ?_, quiet_of _ rfl rfl rfl⟩, ?_, ?_, quiet_of _ rfl rfl rfl⟩ <;> decide +kernel

-- shelves and carrels

theorem witness_ShelfCycleServesOncePerBank : State.reset.upsets = [] ∧ State.reset.shelfClears 31 = false := by
  decide +kernel

theorem witness_HashesSpreadARowOverAllBanks :
    (0 : Nat) < 524288 ∧ 524287 < 524288 ∧ 7 < 8 ∧ 8191 < 8192 ∧ 63 < 64
      ∧ bankOf 7 524287 = 63 ^^^ (2 * 63 % 64 + 63 / 32) ^^^ (8 * 63 % 64 + 63 / 8) ^^^ 32 := by decide +kernel

/-- Core 0's carrel is being cleared, for tenant 3 after it. -/
def clearingCore : Core := { core0 with car := { core0.car with clearing := true, nextTenant := some 3 } }
/-- Cluster 31 with partition 7 being cleared. -/
def clearingState : State :=
  { up with clusters := [(31, { Cluster.reset with parts := [(7, { Part.reset with kind := .clearing })] })] }

theorem witness_ScrubbingAndClearingGoOn :
    (up.upsets = [] ∧ (up.core 255).car.scrub = true)
    ∧ ((up.cluster 31).scrub = true ∧ 63 ∉ (up.cluster 31).busy ∧ Tbl.get 0 (up.cluster 31).scrubRow 63 < 65535)
    ∧ ((clearingState.part (31 : ClusterId) (7 : Fin 8)).kind = .clearing ∧ clearingState.upsets = []
      ∧ (clearingState.cluster 31).inject.arm = false ∧ Quiet clearingState)
    ∧ (((withCore clearingCore).core 0).car.clearing = true ∧ (withCore clearingCore).upsets = []
      ∧ ((withCore clearingCore).core 0).car.inject.arm = false ∧ Quiet (withCore clearingCore)) := by
  refine ⟨⟨?_, ?_⟩, ⟨?_, ?_, ?_⟩, ⟨?_, ?_, ?_, quiet_of _ rfl rfl rfl⟩, ⟨?_, ?_, ?_, quiet_up _⟩⟩ <;> decide +kernel

-- flits

/-- Fabric port 0 UP. -/
def fport0 : FabPort := { FabPort.reset with state := .up }
/-- The module in service with the given fabric port 0. -/
def withPort (p : FabPort) : State := { up with fports := [(0, p)] }

/-- Fabric port 0 of an UP port with one unacknowledged flit. -/
def sentPort : FabPort := { fport0 with retry := [flit0], txNext := 1 }

theorem witness_FlitsAreTakenAndAcknowledged :
    ((withPort FabPort.reset).fport (0 : FPort)).state ≠ .up
    ∧ ((withPort fport0).fport (0 : FPort)).state = .up ∧ (4095 : BitVec 12) ≠ ((withPort fport0).fport (0 : FPort)).rxNext
    ∧ ((0 : BitVec 12) = ((withPort fport0).fport (0 : FPort)).rxNext ∧ vcOfType 0x20 ≠ some 3)
    ∧ ([0x494B000000001005#64, 0x0E10000000000000#64].all (fun w => decide (
        crc16 (leBytes 6 w.toNat) = w.extractLsb' 48 16 ∧ w.getLsbD 13 = false)) = true
      ∧ (∀ vc, ((withPort fport0).fport (0 : FPort)).queue vc = []) ∧ (withPort fport0).admitted = [])
    ∧ ((withPort sentPort).fport (0 : FPort)).retry ≠ []
      ∧ ((withPort sentPort).fport (0 : FPort)).replaysRun
          < (((withPort sentPort).tmo (fportPage (0 : FPort)) fabTmoReset).extractLsb' 0 8).toNat := by
  refine ⟨?_, ?_, ?_, ⟨?_, ?_⟩, ⟨?_, fun _ => rfl, ?_⟩, ?_, ?_⟩ <;> decide +kernel

/-- Bytes placed one after another, and zeros up to 48. -/
def payload (l : List (Nat × Nat)) : Bytes :=
  let b := (l.map fun q => leBytes q.1 q.2).flatten
  b ++ List.replicate (48 - b.length) 0

/-- Window 5, generation 7, open for reads and writes of devices 1 to 9 by tenant 4, over one extent of a shelf. -/
def windowState (p : FabPort) : State :=
  { withPort p with windows := [(5, { Window.reset with
      state := .opened, access := 3, tenant := 3, peerTenant := 4, devLo := 1, devHi := 9, extents := [⟨2 ^ 46, 8192⟩]
      gen := some 7 })] }

/-- A request of tenant 4 from device 9 for the last 64 bytes of window 5. -/
def request (typ : BitVec 8) : Flit :=
  { flit0 with typ := typ, src := 9, payload := payload [(4, 5 * 2 ^ 20 + 7), (8, 8128), (1, 4)] }

/-- The same write admitted, with its first 48 bytes. -/
def admitted0 : Admitted :=
  ⟨0, 5, 7, true, 9, 4, 0, 0, 8128, 64, List.replicate 48 1, 0, 0, 0⟩

theorem witness_WindowRequestsAreAdmittedAndLand :
    (Takes (windowState fport0) 0 (request 0x20) 0x20
      ∧ (let a := requestOf 0 { request 0x20 with typ := 0x20 } true
         (windowState fport0).checkRequest a.handle a.gen a.tenant a.src a.woff a.len true = none))
    ∧ (Takes (windowState fport0) 0 (request 0x22) 0x22
      ∧ (let a := requestOf 0 { request 0x22 with typ := 0x22 } false
         (windowState fport0).checkRequest a.handle a.gen a.tenant a.src a.woff a.len false = none)
      ∧ (windowState fport0).upsets = [] ∧ (∀ x ∈ (windowState fport0).admitted, x.port = 0 → x.write = true))
    ∧ (let s := { windowState fport0 with admitted := [admitted0] }
       let flit := { flit0 with typ := 0x21, src := 9 }
       Takes s 0 flit 0x21 ∧ s.upsets = []
        ∧ (s.admitted.filter fun x => decide (x.port = 0) && x.write && decide (x.src = flit.src.toNat)
          && decide (x.core * 64 + x.tag = flit.tsf.toNat % 2 ^ 14)) = [admitted0]
        ∧ extentPieces (s.window admitted0.handle).extents admitted0.woff admitted0.len = [(2 ^ 46 + 8128, admitted0.len)]
        ∧ isShelf (2 ^ 46 + 8128) = true
        ∧ admitted0.len ≤ (admitted0.got ++ flit.payload).length
        ∧ ({ admitted0 with got := [] }.got ++ flit.payload).length < admitted0.len) := by
  unfold Takes
  decide +kernel

/-- A request of 64 bytes to device 9, 48 bytes answered. -/
def asked (write : Bool) : WinTag := ⟨0, 0, 0, write, 5, 7, 0, 9, 8128, 64, 3 * 2 ^ 38, 48, false⟩
/-- Core 3, in service, waits for tag 63. -/
def askingState (write : Bool) : State :=
  { withPort fport0 with cores := [(3, { core0 with xf := { core0.xf with tags := [(63, some (asked write))] } })] }

/-- An answer to core 3's tag 63. -/
def answer (typ : BitVec 8) (l : List (Nat × Nat)) : Flit :=
  { flit0 with typ := typ, src := 9, tsf := 3 * 64 + 63, payload := payload l }

theorem witness_WindowAnswersReachTheirTag :
    (∀ w : Bool,
      let s := askingState w
      let f := answer 0x25 [(4, 0), (4, 5 * 2 ^ 20 + 7), (8, 8128)]
      (s.core 3).xf.tag 63 = some (asked w) ∧ (asked w).dest = f.src.toNat ∧ flitChan f = (3, 63) ∧ s.runs 3 = true
      ∧ s.upsets = [] ∧ (∀ o ∈ (s.core 3).xf.out, o.toSend = []) ∧ (s.core (coreAt (3 * 2 ^ 38 + 48))).car.inject.arm = false
      ∧ Takes s 0 (answer 0x23 []) 0x23 ∧ min 48 (64 - 48) ≤ (answer 0x23 []).payload.length
      ∧ Takes s 0 (answer 0x24 []) 0x24 ∧ fldAt (answer 0x24 []).payload 0 4 ≠ 5 * 2 ^ 20 + 7
      ∧ (let g := answer 0x24 [(4, 5 * 2 ^ 20 + 7), (8, 8128)]
         Takes s 0 g 0x24 ∧ fldAt g.payload 0 4 = 5 * 2 ^ 20 + 7 ∧ fldAt g.payload 4 8 = (64 / 64 - 1) * 2 ^ 34 + 8128)
      ∧ Takes s 0 f 0x25 ∧ fldAt f.payload 4 4 = 5 * 2 ^ 20 + 7 ∧ fldAt f.payload 8 8 = (64 / 64 - 1) * 2 ^ 34 + 8128
      ∧ s.slotOf 3 = none)
    ∧ Quiet (askingState true) ∧ Quiet (askingState false) := by
  refine ⟨?_, quiet_of _ rfl rfl rfl, quiet_of _ rfl rfl rfl⟩
  intro w
  unfold Takes
  cases w <;> decide +kernel

/-- A QDATA flit for endpoint 11 of core 255. -/
def qdata0 : Flit := { flit0 with typ := 0x10, vc := 0, tsf := 3 * 2 ^ 16 + 255 * 2 ^ 8 }
/-- Fabric port 0 with a stream of `n` bytes for that endpoint, `m` bytes of its message still to come. -/
def streamPort (n m : Nat) : FabPort :=
  { fport0 with streams := [⟨0, 255, 11, List.replicate n 7, some 0x80, false, m⟩] }
/-- Core 255 with endpoint 11 bound. -/
def boundState (n m : Nat) : State :=
  { withPort (streamPort n m) with cores := [(255, { core0 with queues := [(11, { Endpoint.reset with bound := true })] })] }
/-- Slot 0 runs with a stamp group 9 that awaits the module of role 1, device 33. -/
def holdState (p : FabPort) : State :=
  { withPort p with slots := [(0, { Slot.reset with
      state := .running, folio := some { folio0 with devices := [5, 33], stamps := [⟨9, 12, [0], [⟨1, 4, 100⟩]⟩] } })] }
/-- The HOLD flit awaited. -/
def hold0 : Flit :=
  { flit0 with typ := 0x11, vc := 0, src := 33, payload := payload [(2, 9), (2, 77), (2, 0), (1, 0), (1, 3), (2, 1)] }
/-- Two ports UP, the module identified. -/
def fabricState : State :=
  { up with fports := [(0, fport0), (63, fport0)], fab := { FabPage.reset with idValid := true, device := 5 } }
/-- A flit on its first of two hops, the second through port 63. -/
def passing : Flit := { flit0 with hops := 2, hopidx := 0, route := 63 }

theorem witness_StreamsHoldsAndRoutesGoOn :
    (∀ n ∈ [(16, 48), (63, 112), (48, 16)], ∃ e, Takes (boundState n.1 n.2) 0 qdata0 0x10
        ∧ ((((((boundState n.1 n.2).fport 0).streams.find? (fun q => decide (q.src = 0) && decide (q.core = 255)
            && decide (q.qep = 11))).getD ⟨0, 255, 11, [], none, false, 0⟩).take qdata0).2 = some e)
        ∧ ((boundState n.1 n.2).queue 255 11).bound = true)
    ∧ (∃ e, Takes (holdState fport0) 0 hold0 0x11
        ∧ (holdState fport0).holdSlot hold0.src.toNat (fldAt hold0.payload 8 2 % 4096) (fldAt hold0.payload 0 2 % 1024) = some 0
        ∧ ((holdState fport0).slot 0).group 9 = some e ∧ fldAt hold0.payload 6 1 / 4 % 2 = 0
        ∧ (∃ p ∈ e.peers, p.role = fldAt hold0.payload 8 2 % 4096)
        ∧ BitVec.ofNat 16 (fldAt hold0.payload 4 2) = (Tbl.get GroupRun.reset ((holdState fport0).slot 0).prog.groups 9).seq
        ∧ (Tbl.get GroupRun.reset ((holdState fport0).slot 0).prog.groups 9).arrived = []
        ∧ (Tbl.get GroupRun.reset ((holdState fport0).slot 0).prog.groups 9).remote = [])
    ∧ ((fabricState.fport 0).state = .up ∧ passing.lseq = (fabricState.fport 0).rxNext
        ∧ vcOfType passing.typ = some passing.vc.toNat ∧ passing.hopidx.toNat + 1 < passing.hops.toNat
        ∧ fabricState.fab.idValid = true
        ∧ (fabricState.fport (passing.route.toNat / 2 ^ (6 * passing.hopidx.toNat) % 64)).state = .up)
    ∧ Takes (withPort fport0) 0 { flit0 with typ := 0x40, vc := 3 } 0x40 ∧ ((withPort fport0).fport 0).nb = none := by
  unfold Takes
  refine ⟨?_, ⟨⟨9, 12, [0], [⟨1, 4, 100⟩]⟩, by decide +kernel⟩, by decide +kernel, by decide +kernel, by decide +kernel⟩
  intro n h
  rcases List.mem_cons.1 h with rfl | h
  · exact ⟨⟨List.replicate 16 7 ++ List.replicate 48 0, some 1, false⟩, by decide +kernel⟩
  rcases List.mem_cons.1 h with rfl | h
  · exact ⟨⟨List.replicate 63 7 ++ [0], some 1, false⟩, by decide +kernel⟩
  · obtain rfl := List.mem_singleton.1 h
    exact ⟨⟨List.replicate 48 7 ++ List.replicate 16 0, some 1, false⟩, by decide +kernel⟩

-- fabric ports and optics

/-- Engine 15 is ACTIVE and port 63 in the given state. -/
def opticState (st : LinkState) : State :=
  { up with engines := [(15, { OptEngine.reset with state := .active })], fports := [(63, { FabPort.reset with state := st })] }

theorem witness_FabricPortsTrainAndGoDown :
    (((opticState .down).fport (63 : FPort)).state = .down ∧ ((opticState .down).fport (63 : FPort)).enable = true
      ∧ ((opticState .down).engine (engineOf (63 : FPort))).state = .active)
    ∧ ((opticState .training).fport (63 : FPort)).state = .training
    ∧ (((opticState .up).fport (63 : FPort)).state = .up ∧ NoProgramUses (opticState .up) ∧ Quiet (opticState .up)) := by
  refine ⟨?_, ?_, ?_, ⟨?_, ?_⟩, quiet_of _ rfl rfl rfl⟩
  · decide +kernel
  · decide +kernel
  · decide +kernel
  · exact fun e h => nomatch h
  · exact fun e h => nomatch h

theorem witness_OpticsRecordTheirEvents :
    (up.cartridge (4 : Fin 5)).present ≠ false
    ∧ ((up.cartridge (4 : Fin 5)).present = true ∧ (up.cartridge (4 : Fin 5)).fault = false)
    ∧ (let s := { up with engines := [(15, { OptEngine.reset with state := .calibrating })] }
       (s.engine (15 : Fin 16)).state = .calibrating ∧ s.booted bootOptics = true)
    ∧ ((up.engine (15 : Fin 16)).track.toNat < 922 ∧ 922 ≤ (1023 : BitVec 10).toNat) := by decide +kernel

-- loan windows

/-- Tenant 3 BOUND with the WORKING partition 2 of cluster 1. -/
def lending : State :=
  { up with
    tenants := [(3, { Tenant.reset with state := .bound })]
    clusters := [(1, { Cluster.reset with parts := [(2, { Part.reset with kind := .working, owner := some 3 })] })] }
/-- WINDOW_OPEN of that tenant, reads and writes, peer 4, devices 1 to 9, the first page of the partition. -/
def open0 : Bytes := payload [(1, 3), (1, 3), (1, 4), (1, 1), (2, 1), (2, 9), (8, 0), (8, 2 ^ 46 + 2 ^ 41 + 2 ^ 27), (4, 1)] |>.take 32
/-- With no window listed, the lowest handle is taken. -/
theorem freeHandle_lending : lending.freeHandle = some 0 := by
  have h : ∀ l : List Nat, l.foldl (fun (b : Option (Nat × Nat)) h =>
      let w := lending.window h
      if w.state ≠ .free then b
      else match b with
        | some (_, t) => if w.freeSince < t then some (h, w.freeSince) else b
        | none => some (h, w.freeSince)) (some (0, 0)) = some (0, 0) := by
    intro l
    induction l with
    | nil => rfl
    | cons a l ih => simpa [lending, up, State.window, Window.reset] using ih
  have r : List.range 4096 = 0 :: List.range' 1 4095 := by rw [List.range_eq_range', List.range'_succ]
  unfold State.freeHandle
  rw [r, List.foldl_cons]
  exact congrArg (Option.map Prod.fst) (h (List.range' 1 4095))

/-- Window 4095, generation 0xFFFFF of tenant 3 in the given state. -/
def lent (st : WinState) (l : List Admitted) : State :=
  { lending with
    windows := [(4095, { Window.reset with state := st, tenant := 3, gen := some 0xFFFFF })], admitted := l
    ledgers := [(0, { DieLedger.reset with now := 16000000 }), (1, { DieLedger.reset with now := 16000000 })] }

theorem witness_WindowsOpenCloseAndBecomeFree :
    ((Accepts lending 1 7 ∧ openMalformed open0 = false ∧ lending.gen.service = true)
      ∧ ((lending.tenant (fldAt open0 0 1)).state = .bound
      ∧ (∀ e ∈ openExtents open0, lending.extentAllowed (fldAt open0 0 1) (fldAt open0 1 1) e = true))
      ∧ (lending.freeHandle = some 0 ∧ (lending.windows.map fun w => w.2.extents.length).sum + fldAt open0 3 1 ≤ 8192))
    ∧ (let b := [0xFF, 0x0F, 3, 0, 0xFF, 0xFF, 0x0F, 0]
       let h := fldAt b 0 2
       let s := lent .opened []
       Accepts s 0 7 ∧ b.length = 8 ∧ h ≤ 4095 ∧ fldAt b 4 4 ≤ 0xFFFFF ∧ zeroAt b 3 1 = true ∧ s.gen.service = true
        ∧ (s.window h).state = .opened ∧ (s.window h).gen.map BitVec.toNat = some (fldAt b 4 4)
        ∧ (s.window h).tenant.toNat = fldAt b 2 1)
    ∧ (((lent .closing []).window (4095 : Handle)).state = .closing ∧ (lent .closing []).inflight (4095 : Handle) = 0)
    ∧ (((lent .closing [{ admitted0 with handle := 4095 }]).window (4095 : Handle)).state = .closing
      ∧ 0 < (lent .closing [{ admitted0 with handle := 4095 }]).inflight (4095 : Handle))
    ∧ (((lent .closed []).window (4095 : Handle)).state = .closed
      ∧ ((lent .closed []).window (4095 : Handle)).closedAt + 16000000 ≤ (lent .closed []).now.toNat)
    ∧ Quiet (lent .closing []) ∧ Quiet (lent .closing [{ admitted0 with handle := 4095 }]) := by
  unfold Accepts
  refine ⟨⟨?_, ?_, freeHandle_lending, ?_⟩, ?_, ?_, ?_, ?_, quiet_of _ rfl rfl rfl, quiet_of _ rfl rfl rfl⟩ <;> decide +kernel

-- weight editions and folios

/-- FOLIO_LOAD into slot 0 for tenant 3 of a signed folio without clusters. -/
def folioPayload : Bytes := leBytes 1852 0x100000000000000010000003A00000028000000390019F0A00000003800000028000000310000000C00000030000010000000002A0000000200000029000000300000002800000002000000270000000A00000026000000040000002500000002000000240000010000000023000000800000002200000010000000210000002000000020000008100000001800000101000000150000040E000000140000040800000013000001060000001200000105000000110000010300000010000000010000000F000000600000000E000000040000000D0000000A0000000C000000060000000B000000020000000A00000012000000090000000D0000000800000009000000070000001C0000000600000014000000050000008000000004000002000000000300000001000000020000000C000000010000002600000000000000000000000000000000000000000000000000000000000101C0000000000FE71DBF57EAD2FA48E00165B3EA7BB10F0CC9D0EBCFE85ABF01933D86428A7EF6B709FF80ABD358A270EC41816B748813D120BAA457DFC3703F56F922D99FD721003D786DBA33393EF467D90FD664A32FCF41AFC5353A4A10AA0755F56EDA04B2B397BE69D705556E2C3506CC1C9B2703747482C2488128CB2F687E7E272490213C43000000000000000520F48CE9C06A67B92700010001504C4F433EDA27F97A3238A5817A4147BD31B9632FEC7E87D21883FFB0F2855D3CD1D047CEE96CD321A9F483DC15570B05E420D607806DD6502854F1BDB8EF7E35E183CF0000000000000000000000000000000000000000000007800000000000000016B3203BA90EF15E4D5AE7A79D18C02736E5F9D781219F535602E56EF68A2C58FF1E04FBE3704EBBE05BCB8BB196BA84D7B754200365C52A18402D9B1D69572DEC00000000000000000000000000000004000000000000074000000000000000153EDA27F97A3238A5817A4147BD31B9632FEC7E87D21883FFB0F2855D3CD1D047CEE96CD321A9F483DC15570B05E420D607806DD6502854F1BDB8EF7E35E183CF00000000000000000000000000000000000000000000074000000000000000143EDA27F97A3238A5817A4147BD31B9632FEC7E87D21883FFB0F2855D3CD1D047CEE96CD321A9F483DC15570B05E420D607806DD6502854F1BDB8EF7E35E183CF00000000000000000000000000000000000000000000074000000000000000133EDA27F97A3238A5817A4147BD31B9632FEC7E87D21883FFB0F2855D3CD1D047CEE96CD321A9F483DC15570B05E420D607806DD6502854F1BDB8EF7E35E183CF00000000000000000000000000000000000000000000074000000000000000123EDA27F97A3238A5817A4147BD31B9632FEC7E87D21883FFB0F2855D3CD1D047CEE96CD321A9F483DC15570B05E420D607806DD6502854F1BDB8EF7E35E183CF00000000000000000000000000000000000000000000074000000000000000113EDA27F97A3238A5817A4147BD31B9632FEC7E87D21883FFB0F2855D3CD1D047CEE96CD321A9F483DC15570B05E420D607806DD6502854F1BDB8EF7E35E183CF000000000000000000000000000000000000000000000740000000000000001020EABB0A0FC7AB37B829C061A4FDE29C3872B1DC8BBD27F6455CBA07FC61F6C0B4E3285400775041BB585A5882124011B6DB7CCA07598A0FB8A52534F49412990000000000000000000000000000000800000000000007000000000000000004B3203BA90EF15E4D5AE7A79D18C02736E5F9D781219F535602E56EF68A2C58FF1E04FBE3704EBBE05BCB8BB196BA84D7B754200365C52A18402D9B1D69572DEC0000000000000000000000000000000400000000000006C000000000000000035AB6C0038CE9CEC2D53834A08CBBF7B6AD53C31337437A5AEF07FDAE31A9C1FCF659D2EF9A2289E1CCE94F4ED7E801F5F38AF84C19E745D4D5FF428D213D4E1800000000000000000000000000000134000000000000058000000000FFFF0002226DF1FC5F723EBBD8839EAC074EB958091C35DDA7183FF0B09EF29331A0723E5523B5E969A4C59C4FFAFF07B5FD444252BD4B9E7F70EE0393F89509C62F4F4F00000000000000000000000000000020000000000000054000000000FFFF00010000000000000000000000000000000000000000000000000000000000000000000000000000000000000000000000000000000000000000000000000000000000000000000000000000000000000000000000000000000000000000000000000000000000000000000000000000000000000000000000000000000000000000000000000000000000000000000000000000000000000000000000000000000000000000000000000000000000000000000000000000000000000000000000000000000000000000000000000000000000000000000000000000000000000000000000000000000B00000000000008200000000000000000000101004F4C4642000000000000000000000000000000000000000100000300

/-- EDITION_BEGIN of entry 0 of slot 0 for tenant 3, with a signed manifest of one shard. -/
def beginPayload : Bytes := leBytes 448 0xF5C806979D241E0EFCEC81A8BA18A4FD6B5EA13B67BC2429087D3BEAB9A3A5D99E2D502D16CB37032D1453AE0F6800D86CF4FDF2122954A652D293312E5E0D1422013D786DBA33393EF467D90FD664A32FCF41AFC5353A4A10AA0755F56EDA04B2B397BE69D705556E2C3506CC1C9B2703747482C2488128CB2F687E7E272490213C430000000000000000E0F48CE9C06A67B92700010001504C4F432DA1A34057593B06EEF23E06D5128EB549597DAD9676541363E94A7ED72F827795210F17785A4224748AC9EC132300298AACE3BEB4864A7001EF59373D91232D0000000000000000000000000000100000000000000000000000000000000000000000000000000000000000000000000000000000000000000000000000000000000000000000000000000000000000000000000000000000000000000000000000000000000000000000000000000000000000000000000000000000000000000000000000100000000001000000010000000000001234000001004D4E444500000000000000000000000000000000000000000000000000000000000000000000000000000000000000000000018000000000000000000000000000030000

/-- The module with one key in each key set, which tenant 3 may use. -/
def keyed : State :=
  { up with
    sec := { SecPage.reset with folioKeys := [(0, some ⟨p521Gx, p521Gy⟩)], pubKeys := [(0, some ⟨p521Gx, p521Gy⟩)] }
    tenants := [(3, { Tenant.reset with state := .bound, folioKeys := 1, publisherKeys := 1 })] }

/-- The contents that the folio's sections of the model's own form have: none. -/
def view0 : FolioView := ⟨[], [], [], [], [], [], [], []⟩

/-- A folio with one resident region of one page, in partition 3 of cluster 0. -/
def residentFolio : Folio :=
  { folio0 with
    lparts := [⟨true, 0, 1, some (0, 3)⟩]
    resident := some ⟨payload [(1, 1), (3, 0), (2, 1), (10, 0), (1, 0), (1, 0xFF), (2, 0), (4, 1)] |>.take 24⟩ }
/-- Tenant 3's slot 0 with that folio, and edition entry 0. -/
def accessionState (e : Edition) : State :=
  { keyed with
    slots := [(0, { Slot.reset with state := .loaded, tenant := 3, folio := some residentFolio })], editions := [(0, e)] }

theorem folio_accepted : keyed.loadRefused folioPayload = none := by decide +kernel
theorem folio_whole : (readLoad folioPayload (some view0)).digestFault = none := by decide +kernel
theorem folio_planned :
    ∃ f v, match ((keyed.beginLoad 0 7 folioPayload).claimLoad folioPayload).judgeLoad folioPayload (some view0) with
      | .ok r => r = (f, v)
      | .error _ => False := by
  have h : (match ((keyed.beginLoad 0 7 folioPayload).claimLoad folioPayload).judgeLoad folioPayload (some view0) with
      | .ok _ => true
      | .error _ => false) = true := by decide +kernel
  split at h
  · rename_i r _; exact ⟨r.1, r.2, rfl⟩
  · exact absurd h (by simp)
theorem manifest_accepted : (accessionState Edition.reset).editionRefused 0 beginPayload = none := by decide +kernel

/-- Slot 0 of tenant 3 is LOADING. -/
def loadingState : State :=
  { up with slots := [(0, { Slot.reset with state := .loading, tenant := 3, load := some (1, 7) })] }

theorem witness_FoliosAreLoadedOrGivenUp :
    (Accepts keyed 0 7 ∧ (keyed.slot (fldAt folioPayload 0 1)).state = .empty ∧ keyed.loadRefused folioPayload = none
      ∧ (readLoad folioPayload (some view0)).digestFault = none
      ∧ fldAt folioPayload 0 1 = 0 ∧ fldAt folioPayload 1 1 = 3
      ∧ ∃ f v, match ((keyed.beginLoad 0 7 folioPayload).claimLoad folioPayload).judgeLoad folioPayload (some view0) with
        | .ok r => r = (f, v)
        | .error _ => False)
    ∧ (loadingState.slot (0 : SlotId)).state = .loading ∧ (loadingState.slot (0 : SlotId)).load = some (1, 7)
    ∧ loadingState.editions = [] ∧ Quiet loadingState := by
  refine ⟨⟨?_, ?_, folio_accepted, folio_whole, ?_, ?_, folio_planned⟩, ?_, ?_, ?_, quiet_of _ rfl rfl rfl⟩
  · unfold Accepts; decide +kernel
  all_goals decide +kernel

/-- A shard of the edition: one page. -/
def shard0 (st : ShardState) (got : Bytes) : Shard := ⟨0, 0, 0, 4096, [], st, 0, 0, true, got⟩
/-- An edition of slot 0 with that shard. -/
def edition0 (st : EdState) (x : Shard) : Edition :=
  { Edition.reset with state := st, tenant := 3, digest := List.replicate 64 9, shards := [x], parts := [(0, 3)] }
/-- SHARD_DATA of the first 64 bytes. -/
def shardData0 : Bytes := (payload [(4, 3 * 2 ^ 16), (4, 0), (4, 0), (4, 64)]).take 32 ++ List.replicate 64 1

theorem witness_EditionCommandsMoveTheirEntry :
    (∀ e ∈ [Edition.reset, edition0 .receiving (shard0 .wanted []), edition0 .verified (shard0 .verified []),
        edition0 .committed (shard0 .verified []), edition0 .draining (shard0 .verified [])],
      Accepts (accessionState e) 0 7 ∧ (accessionState e).gen.service = true ∧ (accessionState e).holds 0 = true)
    ∧ (∀ b ∈ [beginPayload, shardData0, payload [(4, 3 * 2 ^ 16)] |>.take 8, payload [(3, 3 * 2 ^ 16)] |>.take 3],
      ((accessionState Edition.reset).slot (fldAt b 0 1)).ownedBy (fldAt b 2 1) = true ∧ fldAt b 0 1 = 0 ∧ fldAt b 1 1 = 0)
    ∧ (accessionState Edition.reset).editionRefused 0 beginPayload = none
    ∧ (let s := accessionState (edition0 .receiving (shard0 .wanted []))
       let x := shard0 .wanted []
       let b := shardData0
       (s.edition 0).state = .receiving ∧ (s.edition 0).slot = 0 ∧ (s.edition 0).relayOut = false
        ∧ (s.edition 0).shard (fldAt b 4 4) = some x ∧ x.state = .wanted ∧ s.shardPart 0 x = some (0, 3) ∧ s.upsets = []
        ∧ fldAt b 3 1 ≤ 1 ∧ zeroAt b 16 16 = true ∧ fldAt b 8 4 = 0 ∧ 64 ≤ fldAt b 12 4 ∧ fldAt b 12 4 ≤ 65472
        ∧ fldAt b 12 4 % 64 = 0 ∧ b.length = 32 + fldAt b 12 4 ∧ fldAt b 12 4 < x.len ∧ s.openAttempts (s.shardDie 0 x) < 8)
    ∧ (let b := (payload [(4, 3 * 2 ^ 16)]).take 8
       let s := accessionState (edition0 .verified (shard0 .verified []))
       b.length = 8 ∧ zeroAt b 3 1 = true ∧ fldAt b 4 2 = 0 ∧ zeroAt b 6 2 = true
        ∧ (s.slot 0).folio = some residentFolio ∧ residentFolio.moduleCount = 1 ∧ (s.slot 0).isHead = true)
    ∧ (let s := accessionState (edition0 .draining (shard0 .verified []))
       (s.edition 0).state = .draining ∧ (s.edition 0).named = [] ∧ (s.edition 0).slot = 0)
    ∧ (let s := accessionState (edition0 .committed (shard0 .verified []))
       (s.slot 0).sideMissing 0 = false ∧ s.retireRefused 0 0 = none ∧ (s.edition 0).named = [] ∧ (s.edition 0).state ≠ .free ∧ (s.edition 0).state ≠ .retiring)
    ∧ (∀ e, (accessionState e).clusters = []) ∧ Quiet (accessionState Edition.reset) := by
  refine ⟨?_, ?_, manifest_accepted, ?_, ?_, ?_, ?_, fun _ => rfl, quiet_of _ rfl rfl rfl⟩
  · unfold Accepts; decide +kernel
  all_goals decide +kernel

/-- The flits of one relayed segment of 64 bytes at `offset`, in sequence from LSEQ 0. -/
def relayFlits (offset : Nat) : Flit × List Flit :=
  ({ flit0 with typ := 0x30, vc := 2, payload := payload [(16, leNat (List.replicate 16 9)), (4, 0), (4, offset)] },
   [{ flit0 with typ := 0x31, vc := 2, lseq := 1 }, { flit0 with typ := 0x31, vc := 2, lseq := 2 }])
/-- The edition's upstream and next neighbours are at port 0. -/
def relayState (st : EdState) (x : Shard) (out : Bool) : State :=
  { accessionState { edition0 st x with fromUp := !out, relayOut := out } with fports := [(0, fport0)] }
/-- A VC2 message about the edition's shard 0. -/
def aboutShard (typ : BitVec 8) : Flit :=
  { flit0 with typ := typ, vc := 2, payload := payload [(16, leNat (List.replicate 16 9)), (4, 0)] }

theorem witness_RelayServesTheShards :
    (let x := shard0 .arriving (List.replicate 4032 1 |>.take 64)
     let s := relayState .receiving x false
     let f := (relayFlits 64).1
     let n := 64 * (fldAt f.payload 24 1 % 32 + 1)
     s.inSequence 0 (f :: (relayFlits 64).2) = true ∧ (((relayFlits 64).2.flatMap Flit.payload).take n).length = n
      ∧ s.upsets = []
      ∧ (s.editionBy (f.payload.take 16) fun e => e.fromUp && decide (e.upPort = 0)
        && decide (e.state = .receiving)) = some 0
      ∧ (s.edition 0).relayOut = false
      ∧ (s.edition 0).shard (fldAt f.payload 16 4) = some x ∧ x.upstream = true
      ∧ fldAt f.payload 20 4 = x.got.length ∧ x.got ≠ [] ∧ x.got.length + n < x.len ∧ s.shardPart 0 x = some (0, 3))
    ∧ (∀ st ∈ [ShardState.wanted, .arriving, .verified],
       let s := relayState .receiving (shard0 st []) true
       Takes s 0 (aboutShard 0x32) 0x32
        ∧ (s.editionBy ((aboutShard 0x32).payload.take 16) fun e =>
          e.relayOut && decide (e.nextPort = 0) && decide (e.state ≠ .retiring)) = some 0
        ∧ (s.edition 0).shard (fldAt (aboutShard 0x32).payload 16 4) = some (shard0 st [])
        ∧ s.shardPart 0 (shard0 st []) = some (0, 3) ∧ s.upsets = [])
    ∧ ((relayState .receiving (shard0 .wanted []) false).editionBy ((aboutShard 0x32).payload.take 16) fun e =>
        e.relayOut && decide (e.nextPort = 0) && decide (e.state ≠ .retiring)) = none
    ∧ (let s := relayState .receiving { shard0 .wanted [] with attempts := 2 } false
       Takes s 0 (aboutShard 0x33) 0x33
        ∧ (s.editionBy ((aboutShard 0x33).payload.take 16) fun e =>
          e.fromUp && decide (e.upPort = 0) && decide (e.state = .receiving)) = some 0
        ∧ (s.edition 0).shard (fldAt (aboutShard 0x33).payload 16 4) = some { shard0 .wanted [] with attempts := 2 })
    ∧ (let x := { shard0 .arriving [] with attempts := 3 }
       ∀ st ∈ [EdState.receiving, .failed], ((relayState st x false).edition (0 : EdIdx)).shard 0 = some x) := by
  unfold Takes
  refine ⟨?_, ?_, ?_, ?_, ?_⟩ <;> decide +kernel

/-- Entry 0 awaits answers of the modules of roles 1 and 2. -/
def talkState (stage : Nat) : State :=
  { accessionState { edition0 .verified (shard0 .verified []) with
      talk := some ⟨stage, [(1, 33, 0x0101), (2, 34, 0x0102)], [], [], false⟩ } with
    fports := [(0, fport0)], fab := { FabPage.reset with idValid := true, device := 5 } }
/-- A VC3 message that names stage 1 (or a STATUS of 1), entry 0, SEQ 0x0101, folio and edition. -/
def message (typ : BitVec 8) (edition : Bytes) : Flit :=
  { flit0 with typ := typ, vc := 3, hops := 1, hopidx := 0
               payload := payload [(1, 1), (1, 0), (2, 0x0101), (8, 0), (8, leNat (edition.take 8))] }

theorem witness_EditionMessagesAreTaken :
    (∀ typ ∈ [0x41#8, 0x42#8, 0x43#8, 0x44#8], Takes (talkState 0) 0 (message typ (List.replicate 64 9)) typ)
    ∧ ((talkState 0).fab.idValid = true
      ∧ ((talkState 0).fport (flitRet { message 0x41 [] with typ := 0x41 } 0 / 2 ^ (6 * (1 - 1)) % 64)).state = .up)
    ∧ (let f := message 0x43 (List.replicate 64 9)
       let s := { talkState 0 with slots := [(0, { Slot.reset with
         state := .running, folio := some { residentFolio with digest := List.replicate 64 0 } })] }
       fldAt f.payload 1 1 ≤ 15 ∧ (s.vc3Slot f.payload).isSome = true ∧ fldAt f.payload 0 1 = 1
        ∧ (s.edition 0).state = .verified ∧ (s.edition 0).digest.take 8 = (f.payload.drop 12).take 8)
    ∧ (let f := message 0x42 []
       let w := [(1, 33, 0x0101), (2, 34, 0x0102)]
       ((talkState 0).edition 0).talk = some ⟨0, w, [], [], false⟩ ∧ ((talkState 1).edition 0).talk = some ⟨1, w, [], [], false⟩
        ∧ w.find? (fun x => decide (x.2.2 = fldAt f.payload 2 2)) = some (1, 33, 0x0101)
        ∧ w.erase (1, 33, 0x0101) ≠ [] ∧ fldAt f.payload 0 1 = 1)
    ∧ (let s := accessionState (edition0 .retiring (shard0 .verified []))
       (s.edition (0 : EdIdx)).state = .retiring
        ∧ (∀ kp ∈ (s.edition (0 : EdIdx)).parts, (s.part kp.1 kp.2).due = false ∧ (s.part kp.1 kp.2).kind ≠ .clearing))
    ∧ Quiet (accessionState (edition0 .retiring (shard0 .verified []))) := by
  unfold Takes
  refine ⟨?_, ?_, ?_, ?_, ?_, quiet_of _ rfl rfl rfl⟩ <;> decide +kernel

-- tenants and programs

/-- TENANT_BIND of tenant 3: cluster 31, its partition 7 RESIDENT, its partition 0 WORKING. -/
def bind0 : Bytes :=
  payload [(4, 3), (4, 2 ^ 31), (4, 2), (4, 16), (4, 1024), (4, 50), (8, 1), (8, 1), (2, 2 ^ 14 + 31 * 2 ^ 9 + 7 * 2 ^ 6)]
    |>.take 42 |>.append (leBytes 2 (2 ^ 15 + 31 * 2 ^ 9))

theorem witness_TenantsAreBoundAndReleased :
    (Accepts up 0 7 ∧ up.bindCheck 0 bind0 = none ∧ up.bindMustWait (BitVec.ofNat 32 (fldAt bind0 4 4)) (bindParts bind0) = false
      ∧ (bindParts bind0).length = 2 ∧ (∀ e ∈ up.slots, e.2.state ≠ .loading)
      ∧ (∀ e ∈ bindParts bind0, (up.part e.1 e.2.1).owner = none ∧ (up.part e.1 e.2.1).kind = .free
        ∧ (up.part e.1 e.2.1).due = false))
    ∧ (Accepts lending 0 7 ∧ lending.gen.service = true ∧ lending.holds 0 = true
      ∧ (lending.tenant (fldAt [3] 0 1)).state = .bound ∧ lending.slotsOfTenant (fldAt [3] 0 1) .running = []
      ∧ lending.slotsOfTenant (fldAt [3] 0 1) .loading = [])
    ∧ Quiet up ∧ Quiet lending := by
  unfold Accepts
  refine ⟨⟨?_, ?_, ?_, ?_, ?_, ?_⟩, ?_, quiet_of _ rfl rfl rfl, quiet_of _ rfl rfl rfl⟩ <;> decide +kernel

/-- Slot 63 holds a folio of cluster 31 in the given state. -/
def programState (st : SlotState) : State :=
  { up with slots := [(63, { Slot.reset with state := st, folio := some { folio0 with clusters := 2 ^ 31 } })] }

theorem witness_ProgramsRunStartAndHalt :
    (let b := leBytes 8 63 ++ leBytes 8 0
     let s := programState .loaded
     Accepts s 1 7 ∧ b.length = 16 ∧ fldAt b 0 1 = 63 ∧ zeroAt b 1 7 = true ∧ (s.slot 63).state = .loaded
      ∧ (s.slot 63).folio = some { folio0 with clusters := 2 ^ 31 } ∧ folio0.moduleCount ≤ 1 ∧ folio0.resident = none
      ∧ fldAt b 8 8 = 0 ∧ 248 ∈ (s.slot 63).cores ∧ 247 ∉ (s.slot 63).cores)
    ∧ (let s := programState .running
       (s.slot (63 : SlotId)).state = .running ∧ (s.slot (63 : SlotId)).folio = some { folio0 with clusters := 2 ^ 31 }
        ∧ (s.slot (63 : SlotId)).prog.started = false ∧ (s.slot (63 : SlotId)).prog.haltPending = false
        ∧ (s.slot (63 : SlotId)).prog.startLedger = 0
        ∧ ((s.slot (63 : SlotId)).isDeployment && (s.slot (63 : SlotId)).isHead) = false
        ∧ (s.slot (63 : SlotId)).cores[7]? = some 255)
    ∧ (let b := [63]
       let s := programState .running
       Accepts s 1 7 ∧ b.length = 1 ∧ fldAt b 0 1 < 64 ∧ (s.slot 63).state = .running ∧ (s.slot 63).isDeployment = false) := by
  unfold Accepts
  refine ⟨?_, ?_, ?_⟩ <;> decide +kernel

-- sessions

/-- A deployment of tenant 3 in slot 2, its prompt store in partition 5 of cluster 4. -/
def deployment : Slot :=
  { Slot.reset with
    state := .running, tenant := 3, pool := 1024, dkv := 1024, units := 100
    folio := some { folio0 with
      kind := 1, archival := true, sessions := true, lparts := [⟨false, 0, 0, some (4, 5)⟩]
      serving := some ⟨1000, 0, 4096, [], [⟨10, 100, 5, 5, 8⟩, ⟨10, 100, 5, 5, 8⟩]⟩ } }
/-- A session of that deployment on port 0, its handle's generation 0xFFFFF. -/
def session0 : Session :=
  { Session.reset with
    state := .opened, gen := 0xFFFFF, tenant := 3, slot := 2, promptTokens := 8, promptReceived := 4, maxNew := 8
    stops := [] }
/-- Descriptor 4095 holds the given session, 1 s after reset. -/
def sessionState (x : Session) : State :=
  { up with
    slots := [(2, deployment)], sessions := [(4095, x)]
    tenants := [(3, { Tenant.reset with state := .bound, sessions := 2, kvMib := 100, share := 50 })]
    ledgers := [(0, { DieLedger.reset with now := 160000000000 }), (1, { DieLedger.reset with now := 160000000000 })] }
/-- SESSION_OPEN for it: 2,048 prompt tokens, greedy. -/
def sessionOpen0 : Bytes :=
  payload [(1, 3), (1, 2), (1, 0), (1, 0), (1, 0), (1, 0xFF), (2, 0), (4, 2048), (4, 8), (16, 0), (4, 0), (4, 0x3F800000), (4, 0)
    , (4, 0x3F800000)] ++ List.replicate 16 0
/-- The handle of descriptor 4095. -/
def handle0 : Bytes := leBytes 4 0xFFFFFFFF ++ [3]

theorem witness_SessionCommandsMoveTheirSession :
    (Accepts (sessionState session0) 0 7 ∧ (sessionState session0).gen.service = true
      ∧ (sessionState session0).adm.autoFree = false ∧ (sessionState session0).editions = [])
    ∧ (let s := sessionState session0
       let b := sessionOpen0
       sessionOpenBad b = false ∧ sessionOpenOver b (s.slot 2).serving = false ∧ (s.tenant 3).state = .bound
        ∧ (s.slot 2).state = .running ∧ (s.slot 2).tenant = 3 ∧ (s.slot 2).isHead = true ∧ (s.slot 2).isDeployment = true
        ∧ fldAt b 5 1 = 0xFF ∧ s.gen.archivalOnly = false ∧ fldAt b 3 1 % 2 = 0 ∧ s.freeDescriptor = some 0
        ∧ s.promptUnits 2 ((fldAt b 8 4 + 1023) / 1024) = some 0 ∧ (s.tenant 3).share ≠ 0
        ∧ s.descriptorUse 3 < (s.tenant 3).sessions.toNat ∧ s.power.shedNow = false ∧ fldAt b 0 1 = 3 ∧ fldAt b 1 1 = 2)
    ∧ (let s := sessionState session0
       let b := handle0 ++ [0, 0, 0] ++ leBytes 8 3 ++ leBytes 4 999 ++ leBytes 4 0 ++ leBytes 4 1
       handleIndex b = 4095 ∧ b.length = 16 + 4 * fldAt b 8 4 ∧ fldAt b 8 4 = 3 ∧ zeroAt b 5 3 = true ∧ zeroAt b 12 4 = true
        ∧ (∀ k, k < 3 → zeroAt b (19 + 4 * k) 1 = true ∧ fldAt b (16 + 4 * k) 3 < (s.slot 2).serving.vocab)
        ∧ s.handleFault 0 b = none ∧ session0.promptReceived + 3 < session0.promptTokens
        ∧ (∃ a, s.promptAddr session0 4 = some a ∧ isShelf a = true) ∧ s.upsets = []
        ∧ (∀ e ∈ s.sessions, e.2.endReason ≠ endRefused))
    ∧ (∀ st ∈ [SessState.opened, .admitted, .prefill, .decode, .closed],
        (sessionState { session0 with state := st }).handleFault 0 handle0 = none
          ∧ ((sessionState { session0 with state := st }).session (handleIndex handle0)).state = st)
    ∧ handle0.length = 5 ∧ (∀ st, (sessionState { session0 with state := st }).clusters = []) ∧ Quiet (sessionState session0) := by
  unfold Accepts
  refine ⟨?_, ?_, ⟨?_, ?_, ?_, ?_, ?_, ?_, ?_, ?_, ⟨2 ^ 46 + 4 * 2 ^ 41 + 5 * 2 ^ 26 + 16, ?_⟩, ?_, ?_⟩, ?_, ?_, fun _ => rfl
    , quiet_of _ rfl rfl rfl⟩ <;> decide +kernel

/-- The session with an overdue prompt, queue and step, and an open and a closed packet. -/
def session1 : Session :=
  { session0 with
    queued := true, refuseReason := 2, openPkt := some ⟨0, [⟨5, [], 0⟩], true, false⟩, closedPkts := [⟨0, [⟨5, [], 0⟩], true, false⟩] }

theorem witness_SessionsAreAdmittedAndTimeOut :
    (let s := sessionState { session0 with promptReceived := 8 }
     let x := s.session 4095
     (s.refusal x (s.evaluation x) = none ∧ s.queueing x (s.evaluation x) = none)
      ∧ (let t := { s with slots := [(2, { deployment with pool := 0 })] }
         t.refusal x (t.evaluation x) = some refuseMemory)
      ∧ (let t := { s with sessions := [(0, { session0 with state := .decode, pages := 1024 }), (4095, x)] }
         t.refusal x (t.evaluation x) = none ∧ t.queueing x (t.evaluation x) = some refuseMemory))
    ∧ (let s := sessionState session1
       let x := s.session (4095 : SessIdx)
       s.adm.autoFree = false ∧ s.editions = [] ∧ x.state = .opened ∧ x.promptReceived < x.promptTokens
        ∧ x.ledgerOpen.toNat + x.lat.promptMs.toNat * 16000000 ≤ s.now.toNat ∧ x.queued = true
        ∧ x.queuedAt.toNat + x.lat.queueMs.toNat * 16000000 ≤ s.now.toNat ∧ x.refuseReason ≠ 0
        ∧ s.passed (if x.ledgerCommit = 0 then x.ledgerAdmit else x.ledgerCommit) (x.lat.stepUs.toNat * 16000) = true
        ∧ x.openPkt = some ⟨0, [⟨5, [], 0⟩], true, false⟩ ∧ (0 : W64).toNat + 800000 ≤ s.now.toNat
        ∧ x.closedPkts = [⟨0, [⟨5, [], 0⟩], true, false⟩] ∧ s.tokenReady (4095 : SessIdx) = true)
    ∧ (∀ st ∈ [SessState.admitted, .prefill, .decode],
        ((sessionState { session1 with state := st }).session (4095 : SessIdx)).state = st)
    ∧ Quiet (sessionState session1) := by
  refine ⟨?_, ?_, ?_, quiet_of _ rfl rfl rfl⟩ <;> decide +kernel

-- the Tsudan port and its commands

/-- A link frame with its CRC: TYP, FLAGS, ACKSEQ and four credits. -/
def frame (typ flags ack : Nat) (credits : Nat) : Bytes :=
  let b := payload [(1, typ), (1, flags), (2, ack), (2, credits), (2, credits), (2, credits), (2, credits)] |>.take 14
  b ++ leBytes 2 (crc16 b).toNat
/-- Tsudan port 1 is the given one. -/
def withTsd (x : TsdPort) : State := { up with ports := [(1, x)] }
/-- A port in a state, as training leaves it. -/
def tsd0 (st : LinkState) : TsdPort := { TsdPort.reset with state := st }
/-- A packet of class 0 sent and not acknowledged. -/
def packet0 : TxPacket := ⟨3, 0, 3, 0, 7, 0, 0, []⟩
/-- A command in progress that waits for nothing more than its packets. -/
def cmd0 : Cmd := ⟨7, 0x29, 2, 1, [], .packets⟩

theorem witness_TsudanPortTrainsAndReplays :
    (((withTsd (tsd0 .down)).port (1 : TPort)).state = .down ∧ ((withTsd (tsd0 .down)).port (1 : TPort)).enable = true
      ∧ (withTsd (tsd0 .down)).booted bootReadingRoom = true)
    ∧ crc16 ((List.replicate 16 (0 : BitVec 8)).take 14) ≠ BitVec.ofNat 16 (leAt (List.replicate 16 (0 : BitVec 8)) 14 2)
    ∧ (∀ f ∈ [frame 0x7F 4 0 1024, frame 0x7F 4 0 1025, frame 0x7F 1 7 0, frame 0x7F 2 7 0],
        crc16 (f.take 14) = BitVec.ofNat 16 (leAt f 14 2) ∧ leAt f 0 1 = 0x7F)
    ∧ (((withTsd (tsd0 .training)).port (1 : TPort)).state = .training ∧ (tsd0 .training).peerInit = false
      ∧ leAt (frame 0x7F 4 0 1025) 1 1 / 4 % 2 = 1 ∧ leAt (frame 0x7F 4 0 1025) 1 1 / 8 % 2 = 0
      ∧ (frameCredit (frame 0x7F 4 0 1024) 3).toNat < 1025 ∧ (∀ c, c < 4 → 1025 ≤ (frameCredit (frame 0x7F 4 0 1025) c).toNat))
    ∧ (let x := { tsd0 .training with cmds := [cmd0] }
       crc16 ((frame 0x7F 12 0 1025).take 14) = BitVec.ofNat 16 (leAt (frame 0x7F 12 0 1025) 14 2)
        ∧ leAt (frame 0x7F 12 0 1025) 1 1 / 4 % 2 = 1 ∧ leAt (frame 0x7F 12 0 1025) 1 1 / 8 % 2 = 1
        ∧ (∀ e ∈ (withTsd x).slots, e.2.state ≠ .loading) ∧ ((withTsd x).port (1 : TPort)).cmds = [cmd0]
        ∧ cmd0.wait = .packets ∧ cmd0.cls = classOf cmd0.code
        ∧ (∀ c ∈ x.cmds, c.wait = .packets → ∀ d ∈ x.cmds, d.tag = c.tag → d = c))
    ∧ ((withTsd { tsd0 .training with peerInit := true }).port (1 : TPort)).peerInit = true
    ∧ (let x := { tsd0 .up with retry := [packet0] }
       ((withTsd x).port (1 : TPort)).state = .up ∧ x.retry ≠ [] ∧ x.replayedFrom ≠ x.retry.head?.map (fun q => q.lseq - 1)
        ∧ (let y := { x with replayedFrom := some 6 }
           y.replayedFrom = y.retry.head?.map (fun q => q.lseq - 1))
        ∧ leAt (frame 0x7F 1 7 0) 1 1 / 4 % 2 = 0 ∧ x.txQueue = [] ∧ x.evtQueue.length < 64
        ∧ x.replaysRun < (withTsd x).retryLimit (1 : TPort)
        ∧ (withTsd { x with replaysRun := 255 }).retryLimit (1 : TPort) ≤ 255
        ∧ leAt (frame 0x7F 1 7 0) 1 1 % 2 = 1 ∧ leAt (frame 0x7F 1 7 0) 1 1 / 2 % 2 = 0
        ∧ leAt (frame 0x7F 2 7 0) 1 1 % 2 = 0 ∧ leAt (frame 0x7F 2 7 0) 1 1 / 2 % 2 = 1
        ∧ leAt (frame 0x7F 2 7 0) 1 1 / 4 % 2 = 0) := by
  refine ⟨?_, ?_, ?_, ?_, ?_, ?_, ?_⟩ <;> decide +kernel

/-- The header of a whole ECHO of four bytes. -/
def header0 : TsdHeader := ⟨1, 0, 3, 1, 4, 0, 0, 7, 0, 0, 0⟩

theorem witness_CommandsAreTakenAndEnd :
    (Accepts up 0 header0.tag ∧ commandRow 0 header0 [1, 2, 3, 4] = some (.echo 0 7 [1, 2, 3, 4]) ∧ header0.lseq = (up.port 0).rxNext
      ∧ header0.typ = 1 ∧ isFirst header0 = true ∧ isLast header0 = true ∧ headerRefusal header0 = none)
    ∧ headerRefusal { header0 with code := 0xFF } = some stUnknown
    ∧ (1 : BitVec 16) ≠ (up.port 0).rxNext
    ∧ (let s := withTsd { tsd0 .up with cmds := [cmd0] }
       (s.port (1 : TPort)).cmds.find? (fun c => decide (c.tag = 7)) = some cmd0 ∧ cmd0.cls = classOf cmd0.code
        ∧ cmd0.wait = .packets ∧ ∀ e ∈ s.slots, e.2.state ≠ .loading)
    ∧ (let s := withTsd { tsd0 .up with evtQueue := List.replicate 65 ⟨0, 0, false, 0, []⟩ }
       (s.port (1 : TPort)).state = .up ∧ (s.port (1 : TPort)).events = true ∧ (s.port (1 : TPort)).evtQueue ≠ []
        ∧ (s.port (1 : TPort)).headOf 3 = none) := by
  unfold Accepts
  refine ⟨?_, ?_, ?_, ?_, ?_⟩ <;> decide +kernel

theorem witness_RegisterCommandsAnswer :
    Accepts up 1 7
    ∧ (let b := leBytes 4 256 ++ (List.replicate 256 (leBytes 4 0x10000000)).flatten
       fldAt b 0 4 = 256 ∧ b.length = 4 + 4 * fldAt b 0 4 ∧ up.readFault 1 0x10000000 = none
        ∧ (List.range 256).all (fun i => decide (fldAt b (4 + 4 * i) 4 = 0x10000000)) = true)
    ∧ (let b := leBytes 4 1 ++ leBytes 4 0x10000000
       fldAt b 0 4 = 1 ∧ Page.ofNumber (fldAt b 4 4 / 4096) = some .gen ∧ (up.page genPage).latch = [])
    ∧ (let b := leBytes 4 0 ++ leBytes 4 0x10000000 ++ leBytes 4 1024 ++ leBytes 4 0
       fldAt b 0 1 = 0 ∧ zeroAt b 1 3 = true ∧ zeroAt b 12 4 = true ∧ fldAt b 8 4 = 1024 ∧ fldAt b 4 4 % 4 = 0
        ∧ fldAt b 4 4 % 4096 + 4 * fldAt b 8 4 ≤ 4096 ∧ b.length = 16
        ∧ (List.range 1024).all (fun i => decide (up.readFault 1 (0x10000000 + 4 * i) = none)) = true)
    ∧ (up.fused (clusterOf (255 : CoreId)) = false ∧ up.regBusy 1 (.core (255 : CoreId)) = false
      ∧ (31 : W32).toNat < 32 ∧ (leBytes 4 0 ++ leBytes 4 0).length ≤ 65536)
    ∧ (up.readFault 1 0x10000000 = none ∧ up.readFault 1 0x10000001 = some stMalformed
      ∧ ([0x10000000, 0x10000001] : List Nat)[1]? = some 0x10000001)
    ∧ (∀ c : BitVec 8, c = 3 ∨ c = 4 →
      WritesPass 1 7 0 [(corePage 255 * 4096 + 0x014, 31), (corePage 255 * 4096 + 0x014, 0)] (up.begun 1 7 c)
        ∧ (((up.begun 1 7 c).entrySet (corePage 255 * 4096 + 0x014) 31).writeFault 1 7 1 (corePage 255 * 4096 + 0x014) 32).isSome = true
        ∧ corePage 255 * 4096 / 2 ^ 28 ≠ 1 ∧ entryYields (corePage 255 * 4096 + 0x014) 31 = false
        ∧ ((up.begun 1 7 c).entryCluster (corePage 255 * 4096 + 0x014) 31).isNone = true)
    ∧ (∀ q ∈ [chtPage, shfPage 31], WritesPass 0 7 0 [(q * 4096 + 0x008, 1)] (up.begun 0 7 3)
        ∧ (writeEach 0 7 [(q * 4096 + 0x008, 1)] (up.begun 0 7 3)).inProgress 0 7 = true)
    ∧ entryYields (chtPage * 4096 + 0x008) 1 = true
    ∧ ((up.begun 0 7 3).entryCluster (shfPage 31 * 4096 + 0x008) 1 = some 31
      ∧ (writeEach 0 7 [(shfPage 31 * 4096 + 0x008, 1)] (up.begun 0 7 3)).isolated 31 = false)
    ∧ (Page.ofNumber Page.gen.number = some .gen ∧ Page.gen.pairs.contains 0x110 = true ∧ Page.gen.pairs.contains 0x114 = false
      ∧ Tbl.get none (up.page Page.gen.number).latch 0x110 = none
      ∧ (Tbl.get none ((up.readAddr (Page.gen.number * 4096 + 0x110)).1.page Page.gen.number).latch 0x114).isSome = true) := by
  unfold Accepts
  refine ⟨?_, ?_, ?_, ?_, ?_, ?_, ?_, ?_, ?_, ?_, ?_⟩
  case refine_7 =>
    intro c h
    rcases h with rfl | rfl <;> refine ⟨⟨?_, ?_, trivial⟩, ?_, ?_, ?_, ?_⟩ <;> decide +kernel
  case refine_8 =>
    intro q h
    rcases List.mem_cons.1 h with rfl | h
    · exact ⟨⟨by decide +kernel, trivial⟩, by decide +kernel⟩
    · obtain rfl := List.mem_singleton.1 h
      exact ⟨⟨by decide +kernel, trivial⟩, by decide +kernel⟩
  all_goals decide +kernel

-- the module's commands, keys and registers

/-- A signed key set of one key, version 1. -/
def keySetRecord : Bytes := leBytes 312 0xB4789AEE27E53FD19FD189A01FFC6F7177F44F921CF1E258DC5C0395D20F1F697C5CE2434BD85D8C6FBE9F1A34965CD39A2D1F8158613BF226D6CFBBB949470122003D786DBA33393EF467D90FD664A32FCF41AFC5353A4A10AA0755F56EDA04B2B397BE69D705556E2C3506CC1C9B2703747482C2488128CB2F687E7E272490213C43000000000000000098F48CE9C06A67B92700010001504C4F43000000005066D19F7694BE8840C272A286703C356107AD3F01B950C54026F45E9972EE972C663E2717BDAF1768449B574944F598D91B7D2CB45F8A5C04C03B9A786A2939180166BDE5C2317E7EF99B426A85C1B34833DEA8FFA227C11DFE2859E7EF775E4BA1BA3D4D6B60AF28F821B53F053981649C42B4952366CB3E9ECDE90404B7068E85C6000000000000000001000000015445534B

/-- A signed chain of one byte. -/
def chainRecord : Bytes := leBytes 177 0x3B4F5F2613EDECF21F9FCD077BB14A3D9210E18F20A73E4AEFA58FF0ABE3B81F84C89C25DDFF391DCE5CCB3C2D9D73CA73D7FCE7F7D0A1EC693807BA10E84BFD21003D786DBA33393EF467D90FD664A32FCF41AFC5353A4A10AA0755F56EDA04B2B397BE69D705556E2C3506CC1C9B2703747482C2488128CB2F687E7E272490213C43000000000000000011F48CE9C06A67B92700010001504C4F435A0000000000000000000000014E484341

/-- FW_STAGE of die B's microcode: a signed image without a body. -/
def stagePayload : Bytes := leBytes 296 0x394B7856BB1C25F4C7E4CD7FD5B867F942570B3B544A3B0158326DCF2633F523E18E6A2CB5A570154EE43D7A2FAD6026B53699704A5C359FAFAB3A889675990A22013D786DBA33393EF467D90FD664A32FCF41AFC5353A4A10AA0755F56EDA04B2B397BE69D705556E2C3506CC1C9B2703747482C2488128CB2F687E7E272490213C43000000000000000080F48CE9C06A67B92700010001504C4F4300000000000000000000000000000000000000000000000000000000000000003EDA27F97A3238A5817A4147BD31B9632FEC7E87D21883FFB0F2855D3CD1D047CEE96CD321A9F483DC15570B05E420D607806DD6502854F1BDB8EF7E35E183CF000000000000000000000000000000000000000000000002000100014D4957460000000000000101

/-- The module with the firmware-signing key and one inactive image. -/
def securedState : State :=
  { up with
    sec := { SecPage.reset with fwKeys := some ⟨p521Gx, p521Gy⟩ :: List.replicate 3 none, identity := true }
    fwCur := [(1, { FwBanks.shipped with other := some FwImage.shipped })]
    fwOpt := [(1, { FwBanks.shipped with other := some FwImage.shipped })] }

theorem image_signed :
    colophonFault securedState.sec.fwSlots none ((stagePayload.drop 8).take 128) (stagePayload.drop 136) = none := by decide +kernel

theorem witness_ModuleCommandsTakeEffect :
    (Accepts securedState 0 7 ∧ securedState.holds 0 = true ∧ (∀ e ∈ securedState.slots, e.2.state = .empty))
    ∧ (∀ b ∈ [[0xFF, 0x0F, 0], [0, 0, 1]], b.length = 3 ∧ fldAt b 0 2 ≤ 4095 ∧ fldAt b 2 1 ≤ 1)
    ∧ (∀ b ∈ [leBytes 4 1 ++ leBytes 2 2047 ++ [0, 0] ++ leBytes 4 (1 + 512 + 1024) ++ leBytes 8 0,
              leBytes 4 1 ++ leBytes 2 0 ++ [1, 0] ++ leBytes 4 1024 ++ leBytes 8 0],
        fldAt b 0 4 = 1 ∧ b.length = 20 ∧ securedState.routeRefused 0 0 ((b.drop 4).take 16) = none)
    ∧ (let b := leBytes 4 256 ++ (List.range 256).flatMap fun i => leBytes 2 (2047 - i) ++ leBytes 2 1 ++ leBytes 4 1024 ++ leBytes 8 0
       fldAt b 0 4 = 256 ∧ b.length = 4 + 16 * 256
        ∧ (List.range 256).all (fun i => decide (securedState.routeRefused 0 i ((b.drop (4 + 16 * i)).take 16) = none)) = true)
    ∧ (securedState.sec.presence = .none
      ∧ { securedState with fuses := { securedState.fuses with sealBroken := true } }.fuses.sealBroken = true)
    ∧ (securedState.sec.identity = true ∧ securedState.dieBusy 0 (1 - 0) = false)
    ∧ (securedState.stageRefused 0 stagePayload true = none ∧ stagePayload.length = 8 + 128 + fldAt ((stagePayload.drop 8).take 128) 24 8 + 160
      ∧ fldAt ((stagePayload.drop 8).take 128) 24 8 = 0
      ∧ (securedState.banks 1 1).floor ≤ (fwImage ((stagePayload.drop 8).take 128)).svn
      ∧ sha512 [] = (((stagePayload.drop 8).take 128).drop 32).take 64)
    ∧ colophonFault securedState.sec.fwSlots none ((stagePayload.drop 8).take 128) (stagePayload.drop 136) = none
    ∧ ((securedState.banks 1 0).other = some FwImage.shipped ∧ (securedState.banks 1 1).other = some FwImage.shipped
      ∧ (∀ e ∈ securedState.slots, e.2.state ≠ .loading) ∧ securedState.holds 1 = false ∧ securedState.dieBusy 0 1 = false
      ∧ FwImage.shipped.peerMin ≤ (securedState.banks (1 - 1) 0).active.svn
      ∧ (securedState.banks (1 - 1) 0).active.svn ≤ FwImage.shipped.peerMax)
    ∧ Quiet securedState := by
  unfold Accepts
  refine ⟨?_, ?_, ?_, ?_, ?_, ?_, ?_, image_signed, ?_, quiet_of _ rfl rfl rfl⟩ <;> decide +kernel

/-- A record in the staging buffer, presence shown for an operation. -/
def stagedState (b : Bytes) (op : BitVec 3) : State :=
  { securedState with sec := { securedState.sec with stage := Memory.write [] 0 b, presence := .shown, operation := op } }

theorem witness_KeyOperationsChangeTheStore :
    (Accepts (stagedState keySetRecord 1) 0 7 ∧ (stagedState keySetRecord 1).holds 0 = true)
    ∧ (Accepts (stagedState chainRecord 2) 0 7 ∧ (stagedState chainRecord 2).holds 0 = true)
    ∧ (let x := (stagedState keySetRecord 1).sec
       x.staged 0 4 = [0x4B, 0x53, 0x45, 0x54] ∧ leAt (x.staged 4 4) 0 4 = x.fwVersion + 1 ∧ leAt (x.staged 8 1) 0 1 = 1
        ∧ zeroAt (x.staged 9 7) 0 7 = true ∧ onCurve (x.keyAt 16).x (x.keyAt 16).y = true
        ∧ zeroAt (x.staged 148 4) 0 4 = true ∧ x.presence = .shown ∧ x.operation = 1 ∧ x.fwVersion < 32
        ∧ colophonFault x.fwSlots none (x.staged 0 152) (x.staged 152 160) = none)
    ∧ (let x := (stagedState chainRecord 2).sec
       x.staged 0 4 = [0x41, 0x43, 0x48, 0x4E] ∧ leAt (x.staged 4 4) 0 4 = 1 ∧ zeroAt (x.staged 8 8) 0 8 = true
        ∧ x.presence = .shown ∧ x.operation = 2 ∧ colophonFault x.fwSlots none (x.staged 0 17) (x.staged 17 160) = none)
    ∧ (let x := (stagedState (keySetRecord.drop 16) 0).sec
       onCurve (x.keyAt 0).x (x.keyAt 0).y = true ∧ (x.setKey none).folioKeys ++ (x.setKey none).pubKeys = []) := by
  unfold Accepts
  refine ⟨?_, ?_, ?_, ?_, ?_⟩ <;> decide +kernel

theorem witness_ServiceRegistersTakeEffect :
    Accepts up 0 7
    ∧ (up.regBusy 0 (.shf (31 : ClusterId)) = false ∧ (∀ e ∈ up.slots, e.2.claims (31 : ClusterId) = false) ∧ up.holds 0 = true
      ∧ up.fused (31 : ClusterId) = false ∧ up.isolated (31 : ClusterId) = false ∧ up.canIsolate (31 : ClusterId) = false
      ∧ (up.cluster (31 : ClusterId)).mapout = false)
    ∧ (let s := { up with cores := (List.range 8).map fun i => (248 + i, core0) }
       s.canIsolate (31 : ClusterId) = true ∧ s.isolated (31 : ClusterId) = false)
    ∧ (faultedState .isolated []).isolated (31 : ClusterId) = true
    ∧ ((programState .running).isolated (31 : ClusterId) = false
      ∧ (programState .running).firstSlot (fun x => decide (x.state = .running) && x.claims 31) = some 63
      ∧ ((programState .running).slot 63).state = .running ∧ ((programState .running).slot 63).claims 31 = true
      ∧ (∀ e ∈ (programState .running).slots, e.2.state = .loading ∨ e.2.state = .loaded → e.2.claims (31 : ClusterId) = false))
    ∧ ((programState .running).editions = [] ∧ Quiet (programState .running))
    ∧ (({ up with clusters := [(31, { Cluster.reset with mapout := true })] } : State).cluster (31 : ClusterId)).mapout = true
    ∧ (injectBit 136 136 = true ∧ injectBit 255 136 = true ∧ injectBit 137 136 = false
      ∧ (up.part (31 : ClusterId) (7 : BitVec 3).toNat).kind = .free)
    ∧ (up.fused (clusterOf (255 : CoreId)) = false ∧ up.regBusy 0 (.car (255 : CoreId)) = false ∧ injectBit 71 71 = true
      ∧ (up.core (255 : CoreId)).sq.tenant = none ∧ up.regBusy 0 (.core (255 : CoreId)) = false
      ∧ (qepClass (11 : BitVec 5).toNat).isSome = true ∧ (qepClass (31 : BitVec 5).toNat).isSome = false) := by
  unfold Accepts
  refine ⟨?_, ?_, ?_, ?_, ?_, ⟨rfl, quiet_of _ rfl rfl rfl⟩, ?_, ?_, ?_⟩ <;> decide +kernel

theorem witness_PortControlsTakeEffect :
    (let s := opticState .up
     Accepts s 0 7 ∧ s.regBusy 0 (.fport (63 : FPort)) = false ∧ (s.fport (63 : FPort)).enable = true
      ∧ s.regBusy 0 (.tsd (1 : TPort)) = false ∧ (s.port (1 : TPort)).enable = true ∧ (s.port (1 : TPort)).state = .up)
    ∧ (Quiet (opticState .up) ∧ NoProgramUses (opticState .up))
    ∧ (∀ st ∈ [LinkState.training, .disabled, .down], ((opticState st).fport (63 : FPort)).state = st)
    ∧ (let s := { opticState .up with oeSel := 15 }
       s.holds 0 = true ∧ s.engineUser s.oeSel.toNat = none ∧ (s.engine s.oeSel.toNat).state = .active
        ∧ (s.fport 63).state ≠ .disabled ∧ (63 : Nat) ∈ enginePorts s.oeSel.toNat) := by
  unfold Accepts
  refine ⟨?_, ⟨quiet_of _ rfl rfl rfl, fun _ h => absurd h (List.not_mem_nil), fun _ h => absurd h (List.not_mem_nil)⟩, ?_, ?_⟩ <;> decide +kernel

/-- Port 5's partner sent its latest slip at ledger 5,000, 1,600 units away. -/
def slipState : State :=
  { up with fports := [(5, { fport0 with delay := 1600, slip := some ⟨5000, 0, 0, 0, 0, 0, 0⟩ })] }

/-- The deployment of slot 2 with one variant, which GOV_SEL names. -/
def balancedState : State :=
  { sessionState session0 with
    adm := { AdmPage.reset with gsel := 2 }
    slots := [(2, { deployment with folio := deployment.folio.map fun f => { f with prefill := [1], decode := [1] } })] }

theorem witness_ModuleRegistersTakeEffect :
    (Accepts up 0 7 ∧ up.holds 0 = true ∧ (∀ e ∈ up.slots, e.2.state = .empty)
      ∧ Page.ofNumber (0x10000 : BitVec 20).toNat = some .gen ∧ Page.die .gen = none ∧ up.regBusy 0 .gen = false
      ∧ (1 : BitVec 32) &&& ~~~(BitVec.ofNat 32 Page.gen.events) = 0)
    ∧ (up.ledger.role = 0 ∧ up.clock.refSel = 0 ∧ up.ledger.state = .free)
    ∧ (let s := { up with ledger := { ModLedger.reset with role := 2, state := .root } }
       s.holds 0 = true ∧ s.ledger.role = 2 ∧ s.ledger.state = .root ∧ (1 : BitVec 2) ≠ 2)
    ∧ (Accepts slipState 0 7 ∧ slipState.holds 0 = true ∧ (slipState.fport 5).state = .up
      ∧ (slipState.fport 5).slip = some ⟨5000, 0, 0, 0, 0, 0, 0⟩
      ∧ (∀ m, m < 64 → m ≠ 5 → (slipState.fport m).state ≠ .up) ∧ 5000 + (slipState.fport 5).delay.toNat < 2 ^ 64)
    ∧ (up.slot up.adm.gsel.toNat).isDeployment = false
    ∧ (let s := balancedState
       (s.slot s.adm.gsel.toNat).isDeployment = true ∧ (s.slot s.adm.gsel.toNat).isHead = true
        ∧ (0 : BitVec 4).toNat < (s.slot s.adm.gsel.toNat).variants ∧ s.eligible s.adm.gsel.toNat 0 = true)
    ∧ (up.live (1 - 0) = true ∧ (up.port 0).cmds = []) := by
  unfold Accepts
  refine ⟨?_, ?_, ?_, ?_, ?_, ?_, ?_⟩ <;> decide +kernel

-- the queue, the charter, the clocks, the supply

theorem witness_IdleStepCountsOneCycle :
    State.reset.pending = [] ∧ State.reset.ledgersRun = false ∧ up.pending = [] ∧ up.ledgersRun = true
      ∧ DieLedger.reset.acc = 0 ∧ DieLedger.reset.slew = 0 := by decide +kernel

theorem witness_EveryStepKeepsMemoryCanonical : State.reset.Canonical ∧ step State.reset = .next State.reset := by
  exact ⟨rfl, rfl⟩

theorem witness_EveryStepKeepsIdentityAndQueue :
    exec .inputPowerLoss State.reset
      = .next { State.reset with power := { Power.reset with inputOn := false, risen := false } } := rfl

/-- The holder's curator has been silent for 100 ticks, the other's for `n`. -/
def silentState (n : Option Nat) : State := { up with charter := { up.charter with sinceA := some 100, sinceB := n } }
/-- Power-on arbitration, die B preferred, after `n` ticks. -/
def arbitratingState (a b : Option Nat) (n : Nat) : State :=
  { up with charter := { Charter.reset with prefB := true, sinceA := a, sinceB := b, sinceGood := n } }

theorem witness_LeaseLapsesAndIsGranted :
    (∀ q ∈ [(none, false), (some 0, true)],
      (silentState q.1).charter.lease.die = some 0 ∧ (silentState q.1).charter.arbitrating = false
        ∧ (silentState q.1).live 0 = false ∧ (silentState q.1).live (1 - 0) = q.2)
    ∧ ((arbitratingState none (some 0) 0).charter.arbitrating = true ∧ ((arbitratingState none (some 0) 0).since 1).isSome = true)
    ∧ (((arbitratingState (some 0) none 100).since 1).isSome = false ∧ 100 ≤ (arbitratingState (some 0) none 100).charter.sinceGood
      ∧ ((arbitratingState (some 0) none 100).since (0 : Die)).isSome = true) := by
  decide +kernel

/-- Die B's curator starts, its boot the end of an activation, after `n` failures. -/
def startingState (n : Nat) (fellBack : Bool) (other : Option FwImage) : State :=
  { up with
    curators := [(1, { Curator.reset with activation := some (0, 7), fresh := true, fellBack := fellBack })]
    fwCur := [(1, { FwBanks.shipped with bootFails := n, other := other })] }

theorem witness_CuratorsRestartAndBoot :
    (up.curatorUp (0 : Die) = true ∧ (∀ e ∈ up.slots, e.2.state ≠ .loading) ∧ up.holds (0 : Die) = true ∧ up.holds (1 : Die) = false)
    ∧ (∀ q ∈ [(0, false, none), (1, false, some FwImage.shipped), (1, true, some FwImage.shipped), (1, false, none)],
      let s := startingState q.1 q.2.1 q.2.2
      (s.curator (1 : Die)).run = .starting ∧ s.aligned = true ∧ (s.banks (1 : Die) 0).bootFails = q.1
        ∧ (s.curator (1 : Die)).fellBack = q.2.1 ∧ (s.banks (1 : Die) 0).other = q.2.2)
    ∧ Quiet up := by
  refine ⟨?_, ?_, quiet_of _ rfl rfl rfl⟩ <;> decide +kernel

theorem witness_TicksTakeTheirInputs :
    State.reset.ledgersRun = false ∧ up.ledgersRun = true ∧ up.fused 31 = false
      ∧ up.ledger.lastTick * tickUnits ≤ up.now.toNat ∧ up.now.toNat + 2 * tickUnits < 2 ^ 64 := by decide +kernel

theorem witness_ClockEventsTakeEffect :
    (up.aligned = true ∧ up.clock.holdover = false ∧ up.clock.refLock = false)
    ∧ (let s := { up with ledger := { ModLedger.reset with state := .locked, missed := 3 } }
       s.ledger.state = .locked ∧ 3 ≤ s.ledger.missed)
    ∧ (up.power.railsOn = true ∧ up.fused (31 : ClusterId) = false ∧ 110 ≤ 110)
    ∧ (let s := { State.reset with power := { Power.reset with railsOn := true } }
       s.power.railsOn = true ∧ s.aligned = false)
    ∧ (∀ n ∈ [(80 : Nat), 160], let s := { State.reset with
         power := { Power.reset with railsOn := true }
         ledgers := [(0, { DieLedger.reset with now := 120 }), (1, { DieLedger.reset with now := BitVec.ofNat 64 n })] }
       s.power.railsOn = true ∧ s.aligned = false
        ∧ (0 ≤ ((s.dieLedger s.leadDie).now - (s.dieLedger (1 - s.leadDie)).now).toInt ↔ n = 80))
    ∧ (let s := { programState .running with slots := [(63, { Slot.reset with
         state := .running, folio := some { folio0 with clusters := 2 ^ 31 + 1 } })] }
       (s.slot 63).state = .running ∧ (s.slot 63).spansDies = true)
    ∧ ({ up with gen := { up.gen with d2dDown := true } }).gen.d2dDown = true := by decide +kernel

theorem witness_PowerComesAndGoes :
    (35000 < 35001 ∧ 48000 ≤ 48000)
    ∧ (State.reset.power.inputOn = true ∧ State.reset.power.risen = true ∧ State.reset.power.railsOn = false
      ∧ State.reset.power.tripped = none)
    ∧ (up.power.inputOn = true ∧ up.power.tripped = none)
    ∧ 100 ≤ ({ Power.reset with kPowerTicks := 100 }).kPowerTicks
    ∧ (∀ q ∈ [(TripCause.coolant, true), (.overpower, true), (.coolant, false)],
        let s := { State.reset with power := { Power.reset with tripped := some q.1, released := q.2 } }
        s.power.tripped = some q.1 ∧ s.power.released = q.2)
    ∧ (TripCause.hot .coolant = true ∧ TripCause.hot .overpower = false ∧ 600 ≤ 600 ∧ 600 < 601) := by decide +kernel

/-- Every core of cluster 31 is in DIAG, die A's self-test done, self-test of die B to come. -/
def diagState (boot : BitVec 8) : State :=
  { up with
    cores := (List.range 8).map fun i => (248 + i, { core0 with sq := { core0.sq with mode := .diag } })
    charter := { up.charter with granted := true }
    gen := { GenPage.reset with selftestA := true }, ports := []
    power := { up.power with boot := boot } }

theorem witness_BringUpReachesService :
    ((diagState 7).charter.granted = true ∧ (diagState 7).curatorUp (1 : Die) = true ∧ (diagState 7).gen.selftestB = false
      ∧ (diagState 7).gen.selftestA = true ∧ (diagState 7).clusterIn 31 .diag = true)
    ∧ ((diagState 0x1F).booted bootCleared = true ∧ (diagState 0x1F).booted bootReadingRoom = false
      ∧ ((diagState 0x1F).port (1 : TPort)).enable = true ∧ ((diagState 0x1F).port (1 : TPort)).state = .down)
    ∧ (let d := { DieClock.reset with d2dOk := true, netOk := true }
       let s := { diagState 0x7F with dieClocks := [(0, d), (1, d)] }
       s.booted bootReadingRoom = true ∧ s.gen.service = false ∧ s.serviceReady = true
        ∧ s.fused (clusterOf (255 : CoreId)) = false) := by decide +kernel

theorem witness_PresenceAndBusEvents :
    (up.power.railsOn = true)
    ∧ (let s := { up with sec := { SecPage.reset with presence := .opened, operation := 3 }
                          fuses := { Fuses.shipped with sealBroken := true } }
       s.sec.presence ≠ .none ∧ s.sec.windowEnd.toNat ≤ s.now.toNat ∧ s.sec.operation = 3 ∧ s.fuses.sealBroken = true)
    ∧ (Page.ofNumber ((0x10000000 : BitVec 32).toNat / 4096) = some .gen ∧ (0x10000000 : BitVec 32).toNat % 4 = 0
      ∧ (0x10000FC0 : BitVec 32).toNat % 4096 + 4 * (16 : BitVec 8).toNat ≤ 4096 ∧ up.busPage .gen = true ∧ up.busLatch = [])
    ∧ (State.reset.busPage .gen = false ∧ (0x10000001 : BitVec 32).toNat % 4 ≠ 0) := by decide +kernel

/-- Core 0 runs, its sequencer changed. -/
def runningCore (f : Sequencer → Sequencer) : State := withCore { core0 with sq := f { core0.sq with run := true } }

theorem witness_BundlesIssueOnePerCycle :
    (∀ f ∈ [id, fun q : Sequencer => { q with halted := true }, fun q => { q with delay := 1 },
        fun q => { q with pc := 4094, istore := [(4094, 0x0800000000000000#64), (4095, 0x1000000000000000#64)] }],
      (runningCore f).runs 0 = true ∧ ((runningCore f).core 0).sq.run = true
        ∧ ((runningCore f).cluster (clusterOf 0)).recovering = false ∧ ((runningCore f).core 0).xf.out = []
        ∧ (∀ k ∈ (runningCore f).clusters, 0 ∉ k.2.delayed ∧ 0 ∉ k.2.behind)
        ∧ ((runningCore f).core 0).sq.fetchFault ((runningCore f).core 0).sq.pc = none)
    ∧ (let s := stampState stamp0 []
       s.runs 0 = true ∧ (s.core 0).sq.run = true ∧ (s.core 0).sq.stamp = some stamp0 ∧ stamp0.arrived = false
        ∧ ((s.core 0).sq.s + 1) % 2 ^ 24 < stamp0.plan)
    ∧ (let s := stampState { stamp0 with plan := 1 } []
       s.runs 0 = true ∧ (s.core 0).sq.run = true ∧ (s.core 0).sq.stamp = some { stamp0 with plan := 1 }
        ∧ 1 ≤ ((s.core 0).sq.s + 1) % 2 ^ 24 ∧ s.slotOf 0 = some 0
        ∧ (Tbl.get GroupRun.reset (s.slot 0).prog.groups stamp0.group).remote = [])
    ∧ (∀ planned : Bool, let s := runningCore fun q => { q with delay := 1, planned := planned }
       (s.core 0).sq.stamp = none ∧ (s.core 0).sq.halted = false ∧ 0 < (s.core 0).sq.delay
        ∧ (s.core 0).sq.planned = planned ∧ (s.core 0).sq.idle + 1 < s.watchdogLimit 0)
    ∧ headerSlots (Tbl.get 0 ((runningCore id).core 0).sq.istore 0) = []
    ∧ headerSlots 0x0800000000000000#64 = [59] ∧ fld (0x1000000000000000#64) 63 58 = 0x04 ∧ (0x1000000000000000#64).toNat % 2 ^ 43 = 0 := by
  decide +kernel

-- the manual's worked examples

/-- The state after an outcome. -/
def after (o : Host.Outcome State Fault Refusal) : State := match o with | .next t => t | _ => State.reset

-- R11, decoding GEN_IDENT
theorem test_gen_ident :
    ({ up with fuses := { Fuses.shipped with grade := .b, fusedA := 10, fusedB := 12 } }).genIdent = 0xC02AC800 := by
  decide +kernel

-- R46, widening
theorem test_widening :
    widen 0 0x79 = 0x0B9 ∧ widen 0 0x01 = 0x030 ∧ widen 1 0x60 = 0x0C0 ∧ widen 1 0xFC = 0x1F8 ∧ widen 3 1 = 0x060
      ∧ widen 4 5 = 0x084 ∧ widen 5 0x9C = 0x164 := by decide +kernel

-- R54 to R56, 300.0 and 500.0 to FP8
theorem test_fp32_to_fp8 :
    FloatFmt.e4m3.rne (fp32 0x43960000) = 0x79 ∧ (FloatFmt.e4m3.convert .rtz false (fp32 0x43960000)).enc = 0x79
      ∧ (FloatFmt.e4m3.convert (.sr 4 10) false (fp32 0x43960000)).enc = 0x7A
      ∧ (FloatFmt.e4m3.convert (.sr 4 9) false (fp32 0x43960000)).enc = 0x79
      ∧ FloatFmt.e4m3.convert .rne true (fp32 0x43FA0000) = ⟨0x7E, true⟩
      ∧ FloatFmt.e4m3.convert .rne false (fp32 0x43FA0000) = ⟨0x7F, true⟩
      ∧ FloatFmt.e4m3.convert .rtz false (fp32 0x43FA0000) = ⟨0x7E, false⟩
      ∧ FloatFmt.e5m2.convert .rne false (fp32 0x43FA0000) = ⟨0x60, false⟩ := by decide +kernel

-- R58, one MXFP4 block of 5.2, -0.7, 0.9, 12.5
theorem test_mxfp4_block :
    packBlock 4 (([0x40A66666, 0xBF333333, 0x3F666666, 0x41480000] ++ List.replicate 28 0).map fun w => (fp32 w, .rne))
      = (0x80, [5, 9, 1, 7] ++ List.replicate 28 0) := by decide +kernel

-- R76, R77, R84: a grade-B column map
theorem test_column_map :
    let s := { up with fuses := { Fuses.shipped with columns := [(0, 0x7FFFFFFFFFFFFFFFFFFFDFFFFFFFFFFF#128)] } }
    s.width 0 = 126 ∧ tileBytes 0 0 126 = 16128 ∧ tileBytes 4 0 126 = 8568
      ∧ s.regValue (.mxe (0 : CoreId)) 0x104 = 0xFFFFDFFF ∧ s.regValue (.mxe (0 : CoreId)) 0x110 = 0x27E := by decide +kernel

-- R162, forming a call number: core 2 of cluster 5 on die B at 0x12340
theorem test_call_number : carrelBase 170 + 0x12340 = 0x2A8000012340 := by decide +kernel

-- R169, the banks of granule 0x8001
theorem test_hash_example : (List.range 8).map (fun h => bankOf h 0x8001) = [1, 1, 9, 9, 1, 1, 9, 0] := by decide +kernel

-- R238, one correction: θ = 40 and a delay of 1,600 units
theorem test_ledger_sample :
    ({ up with fports := [(17, { fport0 with
        slip := some ⟨8000050000, 8000000000, 8000001640, 8000051560, 0, 0, 0⟩, sentTx := [8000000000] })] }).sample 17
      = some (40, 1600) := by decide +kernel

-- R382, the link latencies of a route across the tier: 201.5 ns and 58.8 ns
theorem test_link_latency : linkLat .a 3224 = 347 ∧ linkLat .a 941 = 105 := by decide +kernel

-- R379, the route entry of that route as FOLIO_LOAD patches it into slot 3
theorem test_route_entry :
    ({ readLoad [] none with slot := 3, devices := [5, 53, 118] }).routeEntry ⟨7, [(48, 1), (18, 2)], 728⟩
      = ⟨0x00EC1B82, 0x12, 0x2D8⟩ := by decide +kernel

-- R424, page addresses and PAGE_ID
theorem test_page_numbers :
    shfPage 12 * 4096 = 0x2010C000 ∧ corePage 170 * 4096 = 0x3102A000
      ∧ up.regValue (.shf (12 : ClusterId)) 0 = 0x0A000C00 ∧ up.regValue (.core (170 : CoreId)) 0 = 0x0400AA00 := by
  decide +kernel

-- R149, R151, a late partner at a stamp: the hold of core 3 is 110 cycles with cause RING_STALL, that of core 4 is 0
theorem test_late_partner :
    let wait (s cause : Nat) : Core := { core0 with sq := { core0.sq with
      run := true, s := 2110, stamp := some ⟨1, 5, 2000, s, false, true, cause, s⟩ } }
    let s := { up with
      cores := [(3, wait 2000 0), (4, wait 2110 5)]
      slots := [(0, { Slot.reset with
        state := .running, folio := some { folio0 with clusters := 1, stamps := [⟨5, 12, [3, 4], []⟩] }
        prog := { Prog.reset with started := true, groups := [(5, ⟨0, 1, [3, 4], []⟩)] } })] }
    let t := after (exec (.stampRelease 0 5 none 0) s)
    (t.core 3).sq.hold = 110 ∧ (t.core 3).sq.holdCause = 5 ∧ (t.core 4).sq.hold = 0 ∧ (t.core 3).sq.s = 0
      ∧ (t.core 4).sq.s = 0 ∧ (t.core 3).sq.stamp = none := by decide +kernel

-- R298, R299, admitting session A next to a full batch: charge 1,386 MiB, step 190,806 cycles
theorem test_admission_arithmetic :
    let m : StepModel := ⟨11600, 20400, 3870, 36, 48⟩
    m.step 41 (325120 + 8048) = 190806 ∧ (8048 + 63) / 64 = 126 ∧ (126 * 64 * 180224 + 1048575) / 1048576 = 1386 := by
  decide +kernel

-- R423, R424, R509, R510, power telemetry over the bus (log 126: the example spells the address 0x100D0100)
theorem test_bus_telemetry :
    let s := { up with power := { up.power with vin := 40120, iin := 36150, pin := 1450, ipeak := 41900 } }
    (after (exec (.mgmtBusRead 0x1000D100 4) s)).busData.map (fun b => b.take 16)
      = some [0xB8, 0x9C, 0, 0, 0x36, 0x8D, 0, 0, 0xAA, 5, 0, 0, 0xAC, 0xA3, 0, 0] := by decide +kernel

-- FIPS 180-4, the digest of "abc" (R14)
theorem test_sha512_abc : (sha512 [0x61, 0x62, 0x63]).take 8 = [0xDD, 0xAF, 0x35, 0xA1, 0x93, 0x61, 0x7A, 0xBA] := by
  decide +kernel

-- R126, R130: a bundle of CT.JUMP continues at its target
theorem test_bundle_of_jump :
    let s := runningCore fun q => { q with istore := [(0, 0x0800000000000000#64), (1, 0x1000000000000000#64 + (96 <<< 43))] }
    ((after (exec (.bundleIssue 0 ⟨0, 0, 0, 0, 0⟩) s)).core 0).sq.pc = 96 := by decide +kernel

-- R497, above the absolute maximum rating
theorem test_input_voltage : exec (.inputPowerApplied 48001) State.reset = .fault .absoluteMaximum := rfl

-- decodeTableWord: no row of the table has bits
theorem test_no_table_word : decodeTableWord 64 0xFFFFFFFFFFFFFFFF = none ∧ State.reset.withFetchWord 64 0 = State.reset := ⟨rfl, rfl⟩

end Sys2Proof.Tests
end

/-! PROOFS. Who writes the fuses and the queue: the SEAL loop and the identity wipe blow a fuse each, a step takes the
front command, and nothing else touches them. One lemma per operation of the model, in the model's order, says that the
operation keeps both; the rows follow from them. -/

namespace Sys2Proof.Machine

open Sys2Proof

/-- What nearly every operation of the model leaves alone: the fused facts and the queue of waiting commands. -/
def State.kept (s : State) : Fuses × List Instr := (s.fuses, s.pending)

-- how states are built

/-- A record update of other fields. -/
@[simp] theorem kept_mk (a : State) (mem upsets cores clusters pages logs ports regions dieClocks clock ledgers ledger
    windows admitted remote win tenants slots sessions adm fab fports routes cartridges engines oeSel editions acc
    accDie charter curators fwCur fwOpt sec gen power busData busLatch freeCtr) :
    (State.mk a.fuses mem upsets cores clusters pages logs ports regions dieClocks clock ledgers ledger windows admitted
      remote win tenants slots sessions adm fab fports routes cartridges engines oeSel editions acc accDie charter
      curators fwCur fwOpt sec gen power busData busLatch freeCtr a.pending).kept = a.kept := by
  simp only [State.kept]

@[simp] theorem ite_kept {p : Prop} [Decidable p] (s t : State) :
    (if p then s else t).kept = if p then s.kept else t.kept := apply_ite ..

@[simp] theorem ite_fst_kept {α : Type} {p : Prop} [Decidable p] (x y : State × α) :
    (if p then x else y).1.kept = if p then x.1.kept else y.1.kept := apply_ite (fun x : State × α => x.1.kept) ..

theorem kept_of_ite {p : Prop} [Decidable p] {s t u : State} (h : t.kept = s.kept) (k : u.kept = s.kept) :
    (if p then t else u).kept = s.kept := by split <;> assumption

theorem kept_of_fst_ite {α : Type} {p : Prop} [Decidable p] {s : State} {x y : State × α} (h : x.1.kept = s.kept)
    (k : y.1.kept = s.kept) : (if p then x else y).1.kept = s.kept := by split <;> assumption

/-- The state of an answer that a match has taken apart. -/
theorem kept_of_fst_eq {α : Type} {x : State × α} {s t : State} {a : α} (e : x = (t, a)) (k : x.1.kept = s.kept) :
    t.kept = s.kept := by
  rw [e] at k
  exact k

/-- A fold whose accumulator holds a state. -/
theorem foldl_kept_of {α β : Type} (g : β → State) (f : β → α → β) (l : List α) (x : β)
    (h : ∀ x a, (g (f x a)).kept = (g x).kept) : (g (l.foldl f x)).kept = (g x).kept := by
  induction l generalizing x with
  | nil => rfl
  | cons a l ih => exact (ih _).trans (h x a)

@[simp] theorem foldl_kept {α : Type} (f : State → α → State) (l : List α) (s : State)
    (h : ∀ s a, (f s a).kept = s.kept) : (l.foldl f s).kept = s.kept := foldl_kept_of id f l s h

theorem OnlyReports.kept {s t : State} (h : OnlyReports s t) : t.kept = s.kept := by
  rw [h, kept_mk]

-- entries of the tables

@[simp] theorem modCore_kept (s : State) (c : Nat) (f : Core → Core) : (s.modCore c f).kept = s.kept := by
  simp [State.kept]

@[simp] theorem modMx_kept (s : State) (c : Nat) (f : MatrixUnit → MatrixUnit) : (s.modMx c f).kept = s.kept := by
  simp [State.kept]

@[simp] theorem modVx_kept (s : State) (c : Nat) (f : VectorUnit → VectorUnit) : (s.modVx c f).kept = s.kept := by
  simp [State.kept]

@[simp] theorem modRd_kept (s : State) (c : Nat) (f : ReductionUnit → ReductionUnit) :
    (s.modRd c f).kept = s.kept := by
  simp [State.kept]

@[simp] theorem modSq_kept (s : State) (c : Nat) (f : Sequencer → Sequencer) : (s.modSq c f).kept = s.kept := by
  simp [State.kept]

@[simp] theorem modXf_kept (s : State) (c : Nat) (f : TransferUnit → TransferUnit) : (s.modXf c f).kept = s.kept := by
  simp [State.kept]

@[simp] theorem modCar_kept (s : State) (c : Nat) (f : CarrelUnit → CarrelUnit) : (s.modCar c f).kept = s.kept := by
  simp [State.kept]

@[simp] theorem modQueue_kept (s : State) (c q : Nat) (f : Endpoint → Endpoint) :
    (s.modQueue c q f).kept = s.kept := by
  simp [State.kept]

@[simp] theorem modCluster_kept (s : State) (c : Nat) (f : Cluster → Cluster) : (s.modCluster c f).kept = s.kept := by
  simp [State.kept]

@[simp] theorem modRing_kept (s : State) (c r : Nat) (f : Ring → Ring) : (s.modRing c r f).kept = s.kept := by
  simp [State.kept]

@[simp] theorem modPart_kept (s : State) (c p : Nat) (f : Part → Part) : (s.modPart c p f).kept = s.kept := by
  simp [State.kept]

@[simp] theorem modPage_kept (s : State) (p : Nat) (f : PageHdr → PageHdr) : (s.modPage p f).kept = s.kept := by
  simp [State.kept]

@[simp] theorem modLog_kept (s : State) (d : Nat) (f : EvLog → EvLog) : (s.modLog d f).kept = s.kept := by
  simp [State.kept]

@[simp] theorem modPort_kept (s : State) (p : Nat) (f : TsdPort → TsdPort) : (s.modPort p f).kept = s.kept := by
  simp [State.kept]

@[simp] theorem modRegion_kept (s : State) (r : Nat) (f : Region → Region) : (s.modRegion r f).kept = s.kept := by
  simp [State.kept]

@[simp] theorem modDieClock_kept (s : State) (d : Nat) (f : DieClock → DieClock) :
    (s.modDieClock d f).kept = s.kept := by
  simp [State.kept]

@[simp] theorem modDieLedger_kept (s : State) (d : Nat) (f : DieLedger → DieLedger) :
    (s.modDieLedger d f).kept = s.kept := by
  simp [State.kept]

@[simp] theorem modWindow_kept (s : State) (h : Nat) (f : Window → Window) : (s.modWindow h f).kept = s.kept := by
  simp [State.kept]

@[simp] theorem modRemoteWin_kept (s : State) (h : Nat) (f : RemoteWin → RemoteWin) :
    (s.modRemoteWin h f).kept = s.kept := by
  simp [State.kept]

@[simp] theorem modTenant_kept (s : State) (t : Nat) (f : Tenant → Tenant) : (s.modTenant t f).kept = s.kept := by
  simp [State.kept]

@[simp] theorem modSlot_kept (s : State) (i : Nat) (f : Slot → Slot) : (s.modSlot i f).kept = s.kept := by
  simp [State.kept]

@[simp] theorem modProg_kept (s : State) (i : Nat) (f : Prog → Prog) : (s.modProg i f).kept = s.kept := by
  simp [State.kept]

@[simp] theorem modSession_kept (s : State) (i : Nat) (f : Session → Session) : (s.modSession i f).kept = s.kept := by
  simp [State.kept]

@[simp] theorem modFport_kept (s : State) (p : Nat) (f : FabPort → FabPort) : (s.modFport p f).kept = s.kept := by
  simp [State.kept]

@[simp] theorem setRoute_kept (s : State) (r : Nat) (v : RouteEntry) : (s.setRoute r v).kept = s.kept := by
  simp [State.kept]

@[simp] theorem modCartridge_kept (s : State) (n : Nat) (f : Cartridge → Cartridge) :
    (s.modCartridge n f).kept = s.kept := by
  simp [State.kept]

@[simp] theorem modEngine_kept (s : State) (n : Nat) (f : OptEngine → OptEngine) :
    (s.modEngine n f).kept = s.kept := by
  simp [State.kept]

@[simp] theorem modEdition_kept (s : State) (i : Nat) (f : Edition → Edition) : (s.modEdition i f).kept = s.kept := by
  simp [State.kept]

@[simp] theorem modAccDie_kept (s : State) (d : Nat) (f : AccDie → AccDie) : (s.modAccDie d f).kept = s.kept := by
  simp [State.kept]

@[simp] theorem modCurator_kept (s : State) (d : Nat) (f : Curator → Curator) : (s.modCurator d f).kept = s.kept := by
  simp [State.kept]

@[simp] theorem modBanks_kept (s : State) (d target : Nat) (f : FwBanks → FwBanks) :
    (s.modBanks d target f).kept = s.kept := by
  simp [State.kept]

@[simp] theorem draw_kept (s : State) : s.draw.2.kept = s.kept := by simp [State.kept]

-- events, packets and commands

@[simp] theorem pumpPort_kept (s : State) (p : Nat) : (s.pumpPort p).kept = s.kept := by simp [State.pumpPort]

@[simp] theorem sendPacket_kept (s : State) (p : Nat) (q : TxPacket) : (s.sendPacket p q).kept = s.kept := by
  simp [State.sendPacket]

@[simp] theorem emit_kept (fuel : Nat) (s : State) (page bit : Nat) (detail : Bytes) :
    (s.emit fuel page bit detail).kept = s.kept := (emit_reports ..).kept

@[simp] theorem raise_kept (s : State) (page bit : Nat) (detail : Bytes) :
    (s.raise page bit detail).kept = s.kept := by
  simp [State.raise]

@[simp] theorem raise0_kept (s : State) (page bit : Nat) : (s.raise0 page bit).kept = s.kept := by simp [State.raise0]

@[simp] theorem raiseCap_kept (s : State) (page bit : Nat) (caps : List W32) (take : Bool) :
    (s.raiseCap page bit caps take).kept = s.kept := by
  simp [State.raiseCap]

@[simp] theorem capture_kept (s : State) (page bit : Nat) (caps : List W32) :
    (s.capture page bit caps).kept = s.kept := by
  simp [State.capture]

@[simp] theorem countTmo_kept (s : State) (page : Nat) : (s.countTmo page).kept = s.kept := by simp [State.countTmo]

@[simp] theorem complete_kept (s : State) (p : Nat) (tag : BitVec 32) (r : Reply) :
    (s.complete p tag r).kept = s.kept := by
  unfold State.complete
  split <;> simp

@[simp] theorem endWait_kept (s : State) (w : CmdWait) : (s.endWait w).kept = s.kept := by
  unfold State.endWait
  split <;> simp

@[simp] theorem completeWhere_kept (s : State) (sel : CmdWait → Bool) (r : Reply) :
    (s.completeWhere sel r).kept = s.kept := by
  simp [State.completeWhere]

@[simp] theorem completeAll_kept (s : State) (p : Nat) (r : Reply) : (s.completeAll p r).kept = s.kept := by
  simp [State.completeAll]

@[simp] theorem beginCmd_kept (s : State) (p : Nat) (tag : BitVec 32) (code : BitVec 8) (cls : Nat) :
    (s.beginCmd p tag code cls).1.kept = s.kept := by
  simp [State.beginCmd]

@[simp] theorem setWait_kept (s : State) (p : Nat) (tag : BitVec 32) (w : CmdWait) :
    (s.setWait p tag w).kept = s.kept := by
  simp [State.setWait]

@[simp] theorem operate_kept (s : State) (p : Nat) (tag : BitVec 32) (op : State → State × Answer)
    (h : ∀ s, (op s).1.kept = s.kept) : (s.operate p tag op).kept = s.kept := by
  unfold State.operate
  split
  · next t r e => simp [kept_of_fst_eq e (h s)]
  · next t w e => simp [kept_of_fst_eq e (h s)]

@[simp] theorem runCommand_kept (s : State) (p : Nat) (tag : BitVec 32) (code : BitVec 8)
    (op : State → State × Answer) (h : ∀ s, (op s).1.kept = s.kept) :
    (s.runCommand p tag code op).kept = s.kept := by
  unfold State.runCommand
  split
  · rfl
  · split
    · next t e => exact kept_of_fst_eq e (beginCmd_kept ..)
    · next t e => exact (operate_kept _ _ _ _ h).trans (kept_of_fst_eq e (beginCmd_kept ..))

@[simp] theorem refuse_kept (r : Reply) (s : State) : (refuse r s).1.kept = s.kept := rfl

-- the ledgers of the dies

@[simp] theorem idleCycle_kept (s : State) : (idleCycle s).kept = s.kept := by simp [idleCycle]

-- carrels and shelves under their code

@[simp] theorem rewriteWord_kept (s : State) (w : Nat) : (s.rewriteWord w).kept = s.kept := by
  simp [State.rewriteWord]

@[simp] theorem writeBack_kept (s : State) (r : Reader) (w : Nat) : (s.writeBack r w).kept = s.kept := by
  simp [State.writeBack]

@[simp] theorem eccCe_kept (s : State) (r : Reader) (w bit : Nat) : (s.eccCe r w bit).kept = s.kept := by
  unfold State.eccCe
  dsimp only
  split <;> simp

@[simp] theorem eccUe_kept (s : State) (r : Reader) (w : Nat) : (s.eccUe r w).kept = s.kept := by simp [State.eccUe]

@[simp] theorem readSpan_kept (s : State) (r : Reader) (a n : Nat) : (s.readSpan r a n).1.kept = s.kept := by
  unfold State.readSpan
  exact foldl_kept_of Prod.fst _ _ _ fun p e => by split <;> simp

@[simp] theorem readSpans_kept (s : State) (r : Reader) (spans : List (Nat × Nat)) :
    (s.readSpans r spans).1.kept = s.kept := by
  unfold State.readSpans
  exact foldl_kept_of Prod.fst _ _ _ fun p x => by split <;> simp

@[simp] theorem offer_kept (s : State) (owner : Nat) (unit : ReqUnit) (write : Bool) (a n : Nat) :
    (s.offer owner unit write a n).kept = s.kept := by
  simp [State.offer]

@[simp] theorem offers_kept (s : State) (owner : Nat) (unit : ReqUnit) (write : Bool) (spans : List (Nat × Nat)) :
    (s.offers owner unit write spans).kept = s.kept := by
  simp [State.offers]

@[simp] theorem mergeSpan_kept (s : State) (r : Reader) (a n : Nat) : (s.mergeSpan r a n).1.kept = s.kept := by
  simp [State.mergeSpan]

@[simp] theorem cleanSpan_kept (s : State) (a n : Nat) : (s.cleanSpan a n).kept = s.kept := by
  unfold State.cleanSpan
  exact foldl_kept _ _ _ fun s e => rfl

@[simp] theorem writeSpan_kept (s : State) (r : Reader) (a : Nat) (bs : Bytes) :
    (s.writeSpan r a bs).1.kept = s.kept := by
  unfold State.writeSpan
  split
  · next t w e => exact kept_of_fst_eq e (mergeSpan_kept ..)
  · next t e => simp [kept_of_fst_eq e (mergeSpan_kept ..)]

@[simp] theorem clearSpan_kept (s : State) (a n : Nat) : (s.clearSpan a n).kept = s.kept := by simp [State.clearSpan]

-- sending on the fabric

@[simp] theorem freeFlit_kept (s : State) (i vc : Nat) : (s.freeFlit i vc).kept = s.kept := by simp [State.freeFlit]

@[simp] theorem holdCredits_kept (s : State) (i n : Nat) : (s.holdCredits i n).kept = s.kept := by
  simp [State.holdCredits]

@[simp] theorem delayOwn_kept (s : State) (fs : List Flit) : (s.delayOwn fs).kept = s.kept := by simp [State.delayOwn]
@[simp] theorem pumpFport_kept (s : State) (n : Nat) : (s.pumpFport n).kept = s.kept := by simp [State.pumpFport]

@[simp] theorem markWaited_kept (s : State) (f : Flit) : (s.markWaited f).1.kept = s.kept := by
  simp [State.markWaited]

@[simp] theorem queueFlit_kept (s : State) (n ingress : Nat) (f : Flit) :
    (s.queueFlit n ingress f).kept = s.kept := by
  simp [State.queueFlit]

@[simp] theorem dropFlit_kept (s : State) : s.dropFlit.kept = s.kept := by simp [State.dropFlit]

@[simp] theorem sendOver_kept (s : State) (r : RouteEntry) (typ vc tsf : Nat) (payload : Bytes) :
    (s.sendOver r typ vc tsf payload).kept = s.kept := by
  simp [State.sendOver]

@[simp] theorem sendLocalFrom_kept (s : State) (n ingress typ vc : Nat) (payload : Bytes) :
    (s.sendLocalFrom n ingress typ vc payload).kept = s.kept := by
  simp [State.sendLocalFrom]

@[simp] theorem sendLocal_kept (s : State) (n typ vc : Nat) (payload : Bytes) :
    (s.sendLocal n typ vc payload).kept = s.kept := by
  simp [State.sendLocal]

@[simp] theorem answerFlit_kept (s : State) (ret hops typ vc tsf : Nat) (payload : Bytes) :
    (s.answerFlit ret hops typ vc tsf payload).kept = s.kept := by
  simp [State.answerFlit]

@[simp] theorem unforwarded_kept (s : State) (n : Nat) (f : Flit) (ret h : Nat) :
    (s.unforwarded n f ret h).kept = s.kept := by
  simp [State.unforwarded]

-- sessions and their token packets

@[simp] theorem autoFree_kept (s : State) (i : Nat) : (s.autoFree i).kept = s.kept := by simp [State.autoFree]
@[simp] theorem autoFreeAll_kept (s : State) : s.autoFreeAll.kept = s.kept := by simp [State.autoFreeAll]
@[simp] theorem unqueue_kept (s : State) (i : Nat) : (s.unqueue i).kept = s.kept := by simp [State.unqueue]

@[simp] theorem closeSession_kept (s : State) (i reason : Nat) : (s.closeSession i reason).kept = s.kept := by
  simp [State.closeSession]

@[simp] theorem endRow_kept (s : State) (i reason detail : Nat) (stamp : W64) :
    (s.endRow i reason detail stamp).kept = s.kept := by
  simp [State.endRow]

@[simp] theorem sendToken_kept (s : State) (i : Nat) : (s.sendToken i).kept = s.kept := by
  unfold State.sendToken
  dsimp only
  split <;> simp

@[simp] theorem flushTokens_kept (s : State) (i : Nat) : (s.flushTokens i).kept = s.kept := by
  simp [State.flushTokens]

@[simp] theorem faultSessions_kept (s : State) (slot : Nat) : (s.faultSessions slot).kept = s.kept := by
  simp [State.faultSessions]

-- what is given back

@[simp] theorem beginClose_kept (s : State) (h : Nat) : (s.beginClose h).kept = s.kept := by simp [State.beginClose]

@[simp] theorem beginCloses_kept (s : State) (sel : Window → Bool) : (s.beginCloses sel).kept = s.kept := by
  simp [State.beginCloses]

@[simp] theorem unloadRings_kept (s : State) (c : Nat) : (s.unloadRings c).kept = s.kept := by
  simp [State.unloadRings]

@[simp] theorem clearCore_kept (s : State) (c : Nat) : (s.clearCore c).kept = s.kept := by simp [State.clearCore]

@[simp] theorem startCarrelClear_kept (s : State) (c : Nat) (next : Option (BitVec 8)) (waitFor : Option Nat) :
    (s.startCarrelClear c next waitFor).kept = s.kept := by
  simp [State.startCarrelClear]

@[simp] theorem markClear_kept (s : State) (k p : Nat) (next : PartKind) (owner : Option (BitVec 8))
    (waitFor : Option Nat) : (s.markClear k p next owner waitFor).kept = s.kept := by
  simp [State.markClear]

@[simp] theorem startDue_kept (s : State) : s.startDue.kept = s.kept := by simp [State.startDue]

@[simp] theorem sendVc3_kept (s : State) (slot device typ : Nat) (payload : Bytes) :
    (s.sendVc3 slot device typ payload).1.kept = s.kept := by
  unfold State.sendVc3
  split <;> simp

@[simp] theorem askAll_kept (s : State) (index typ kind : Nat) (devices : List Nat) :
    (s.askAll index typ kind devices).1.kept = s.kept := by
  unfold State.askAll
  exact foldl_kept_of Prod.fst _ _ _ fun a d => by dsimp only; split <;> simp

@[simp] theorem retireEdition_kept (s : State) (index : Nat) : (s.retireEdition index).kept = s.kept := by
  simp [State.retireEdition]

@[simp] theorem drainCheck_kept (s : State) (slot : Nat) : (s.drainCheck slot).kept = s.kept := by
  simp [State.drainCheck]

@[simp] theorem dropRoutes_kept (s : State) (slot : Nat) : (s.dropRoutes slot).kept = s.kept := by
  simp [State.dropRoutes]

@[simp] theorem wipeCarrel_kept (s : State) (c : Nat) (waitFor : Option Nat) :
    (s.wipeCarrel c waitFor).kept = s.kept := by
  simp [State.wipeCarrel]

@[simp] theorem emptySlot_kept (s : State) (slot : Nat) : (s.emptySlot slot).kept = s.kept := by
  simp [State.emptySlot]

@[simp] theorem freeEndpoint_kept (s : State) (n c q : Nat) : (s.freeEndpoint n c q).kept = s.kept := by
  simp [State.freeEndpoint]

@[simp] theorem freeCore_kept (s : State) (c : Nat) : (s.freeCore c).kept = s.kept := by simp [State.freeCore]
@[simp] theorem freeRings_kept (s : State) (k : Nat) : (s.freeRings k).kept = s.kept := by simp [State.freeRings]
@[simp] theorem undoLoad_kept (s : State) (slot : Nat) : (s.undoLoad slot).kept = s.kept := by simp [State.undoLoad]

@[simp] theorem failLoad_kept (s : State) (slot : Nat) (r : Reply) : (s.failLoad slot r).kept = s.kept := by
  unfold State.failLoad
  split <;> simp

@[simp] theorem dropRemote_kept (s : State) (t : Nat) : (s.dropRemote t).kept = s.kept := by simp [State.dropRemote]

@[simp] theorem advanceRelease_kept (s : State) (t : Nat) : (s.advanceRelease t).kept = s.kept := by
  unfold State.advanceRelease
  dsimp only
  split
  · rfl
  · split
    · simp
    · split
      · simp
      · split <;> simp

@[simp] theorem bindPart_kept (s : State) (t : Nat) (named : List (Nat × Nat × PartKind)) (k p : Nat) :
    (s.bindPart t named k p).kept = s.kept := by
  unfold State.bindPart
  split <;> simp

@[simp] theorem bindCluster_kept (s : State) (t : Nat) (mask : BitVec 32) (k : Nat) :
    (s.bindCluster t mask k).kept = s.kept := by
  simp [State.bindCluster]

@[simp] theorem bindGrant_kept (s : State) (b : Bytes) : (s.bindGrant b).kept = s.kept := by simp [State.bindGrant]
@[simp] theorem bound_kept (s : State) (t : Nat) : (s.bound t).kept = s.kept := by simp [State.bound]

@[simp] theorem bindOp_kept (port : Nat) (b : Bytes) (s : State) : (bindOp port b s).1.kept = s.kept := by
  unfold bindOp
  split <;> simp

@[simp] theorem advanceBind_kept (s : State) (port : Nat) (c : Cmd) : (s.advanceBind port c).kept = s.kept := by
  unfold State.advanceBind
  split <;> simp

@[simp] theorem progress_kept (s : State) : s.progress.kept = s.kept := by simp [State.progress]

@[simp] theorem sessionEnded_kept (s : State) (slot : Nat) : (s.sessionEnded slot).kept = s.kept := by
  simp [State.sessionEnded]

-- faults of cores, programs and ports

@[simp] theorem raiseMode_kept (s : State) (c : Nat) : (s.raiseMode c).kept = s.kept := by simp [State.raiseMode]

@[simp] theorem setMode_kept (s : State) (c : Nat) (m : CoreMode) : (s.setMode c m).kept = s.kept := by
  simp [State.setMode]

@[simp] theorem programStop_kept (s : State) (origin reason c : Nat) :
    (s.programStop origin reason c).kept = s.kept := by
  simp [State.programStop]

@[simp] theorem sendAborts_kept (s : State) (slot : Nat) : (s.sendAborts slot).kept = s.kept := by
  unfold State.sendAborts
  split <;> simp

@[simp] theorem programFault_kept (s : State) (slot reason : Nat) (origin : Option Nat) :
    (s.programFault slot reason origin).kept = s.kept := by
  simp [State.programFault]

@[simp] theorem memoryFault_kept (s : State) (a : Nat) : (s.memoryFault a).kept = s.kept := by
  simp [State.memoryFault]

@[simp] theorem coreStop_kept (s : State) (c unit cause offset : Nat) (word : W64)
    (unitPage : Option (Nat × List W32)) : (s.coreStop c unit cause offset word unitPage).kept = s.kept := by
  unfold State.coreStop
  split <;> simp

@[simp] theorem programOf_kept (s : State) (c reason : Nat) (origin : Option Nat) :
    (s.programOf c reason origin).kept = s.kept := by
  unfold State.programOf
  split <;> simp

@[simp] theorem coreFault_kept (s : State) (c unit cause offset : Nat) (word : W64)
    (unitPage : Option (Nat × List W32)) : (s.coreFault c unit cause offset word unitPage).kept = s.kept := by
  simp [State.coreFault]

@[simp] theorem matrixFault_kept (s : State) (c cause : Nat) (word : W64) (place : WordAt) :
    (s.matrixFault c cause word place).kept = s.kept := by
  simp [State.matrixFault]

@[simp] theorem vectorFault_kept (s : State) (c cause pos : Nat) (word : W64) (place : WordAt) :
    (s.vectorFault c cause pos word place).kept = s.kept := by
  simp [State.vectorFault]

@[simp] theorem reductionFault_kept (s : State) (c cause : Nat) (word : W64) (place : WordAt) :
    (s.reductionFault c cause word place).kept = s.kept := by
  simp [State.reductionFault]

@[simp] theorem transferFault_kept (s : State) (c cause desc offset status reason hg woff : Nat) :
    (s.transferFault c cause desc offset status reason hg woff).kept = s.kept := by
  simp [State.transferFault]

@[simp] theorem sequencerFault_kept (s : State) (c cause offset : Nat) (word : W64) :
    (s.sequencerFault c cause offset word).kept = s.kept := by
  simp [State.sequencerFault]

@[simp] theorem settle_kept (s : State) (c : Nat) : (s.settle c).kept = s.kept := by simp [State.settle]

@[simp] theorem requestStop_kept (s : State) (c tag cause status reason : Nat) (t : WinTag) :
    (s.requestStop c tag cause status reason t).kept = s.kept := by
  simp [State.requestStop]

@[simp] theorem requestFault_kept (s : State) (c tag cause status reason : Nat) (t : WinTag) :
    (s.requestFault c tag cause status reason t).kept = s.kept := by
  simp [State.requestFault]

@[simp] theorem dropOne_kept (s : State) (n ingress : Nat) (f : Flit) : (s.dropOne n ingress f).kept = s.kept := by
  simp [State.dropOne]

@[simp] theorem dropHeld_kept (s : State) (n : Nat) : (s.dropHeld n).kept = s.kept := by simp [State.dropHeld]
@[simp] theorem stopRelays_kept (s : State) (n : Nat) : (s.stopRelays n).kept = s.kept := by simp [State.stopRelays]

@[simp] theorem partnerLost_kept (s : State) (n : Nat) : (s.partnerLost n).kept = s.kept := by
  simp [State.partnerLost]

@[simp] theorem portFalls_kept (s : State) (n : Nat) (st : LinkState) (cause : Nat) :
    (s.portFalls n st cause).kept = s.kept := by
  simp [State.portFalls]

-- matrix, vector and reduction words

@[simp] theorem issueFault_kept (s : State) (c : Nat) (w : W64) (off : WordAt) (f : IssueFault) :
    (s.issueFault c w off f).kept = s.kept := by
  unfold State.issueFault
  split <;> simp

@[simp] theorem wrote_kept (s : State) (spans : List (Nat × Nat)) : (s.wrote spans).kept = s.kept := by
  unfold State.wrote
  split <;> simp

@[simp] theorem runLoad_kept (s : State) (c : Nat) (w : W64) (off : WordAt) : (s.runLoad c w off).kept = s.kept := by
  simp [State.runLoad]

@[simp] theorem runMul_kept (s : State) (c : Nat) (w : W64) (off : WordAt) : (s.runMul c w off).kept = s.kept := by
  unfold State.runMul
  dsimp only
  split
  · next t a e => simp [kept_of_fst_eq e (readSpans_kept ..)]
  · next t e => simp [kept_of_fst_eq e (readSpans_kept ..)]

@[simp] theorem runStore_kept (s : State) (c : Nat) (w : W64) (off : WordAt) :
    (s.runStore c w off).kept = s.kept := by
  unfold State.runStore
  dsimp only
  split
  · next t a e => simp [kept_of_fst_eq e (readSpans_kept ..)]
  · next t e => simp [kept_of_fst_eq e (readSpans_kept ..)]

@[simp] theorem runSeta_kept (s : State) (c : Nat) (w : W64) : (s.runSeta c w).kept = s.kept := by
  simp [State.runSeta]

@[simp] theorem runMxSets_kept (s : State) (c : Nat) (w : W64) : (s.runMxSets c w).kept = s.kept := by
  simp [State.runMxSets]

@[simp] theorem runTileAxis_kept (s : State) (c : Nat) (columns maximum : Bool) (w : W64) (off : WordAt) :
    (s.runTileAxis c columns maximum w off).kept = s.kept := by
  unfold State.runTileAxis
  dsimp only
  split
  · next t a e => simp [kept_of_fst_eq e (writeSpan_kept ..)]
  · next t e => exact kept_of_fst_eq e (writeSpan_kept ..)

@[simp] theorem matrixRun_kept (s : State) (c : Nat) (w : W64) (off : WordAt) :
    (s.matrixRun c w off).kept = s.kept := by
  unfold State.matrixRun
  split <;> simp

@[simp] theorem shadowDone_kept (s : State) (c : Nat) : (s.shadowDone c).kept = s.kept := by
  unfold State.shadowDone
  split
  · dsimp only
    split
    · next t a e => simp [kept_of_fst_eq e (readSpan_kept ..)]
    · next t e => split <;> simp [kept_of_fst_eq e (readSpan_kept ..)]
  · rfl

@[simp] theorem vectorEcc_kept (s : State) (c : Nat) (k : VxCtx) (v : VxWord) :
    (s.vectorEcc c k v).1.kept = s.kept := by
  unfold State.vectorEcc
  split
  · rfl
  · refine foldl_kept_of Prod.fst _ _ _ fun a p => ?_
    split
    · rfl
    · split
      · next t w e => exact kept_of_fst_eq e (readSpans_kept ..)
      · next t e => exact kept_of_fst_eq e (readSpans_kept ..)

@[simp] theorem runVector_kept (s : State) (c : Nat) (w : W64) (off : WordAt) :
    (s.runVector c w off).kept = s.kept := by
  unfold State.runVector
  dsimp only
  split <;> simp

@[simp] theorem runSetd_kept (s : State) (c : Nat) (w : W64) : (s.runSetd c w).kept = s.kept := by
  simp [State.runSetd]

@[simp] theorem runVxSets_kept (s : State) (c : Nat) (w : W64) : (s.runVxSets c w).kept = s.kept := by
  simp [State.runVxSets]

@[simp] theorem vectorRun_kept (s : State) (c : Nat) (w : W64) (off : WordAt) :
    (s.vectorRun c w off).kept = s.kept := by
  unfold State.vectorRun
  split <;> simp

@[simp] theorem reductionRun_kept (s : State) (c : Nat) (w : W64) (off : WordAt) :
    (s.reductionRun c w off).kept = s.kept := by
  unfold State.reductionRun
  dsimp only
  split
  · rfl
  · split
    · next t a e => simp [kept_of_fst_eq e (readSpan_kept ..)]
    · next t e =>
      have k := kept_of_fst_eq e (readSpan_kept ..)
      split
      · next u a e => simp [kept_of_fst_eq e (writeSpan_kept ..), k]
      · next u e => exact (kept_of_fst_eq e (writeSpan_kept ..)).trans k

@[simp] theorem runAlone_kept (s : State) (c : Nat) (w : W64) (check : Option IssueFault)
    (run : WordAt → State → State) (h : ∀ w s, (run w s).kept = s.kept) :
    (s.runAlone c w check run).kept = s.kept := by
  unfold State.runAlone
  refine kept_of_ite rfl ?_
  split
  · exact issueFault_kept ..
  · exact h ..

@[simp] theorem matrixAlone_kept (s : State) (c : Nat) (w : W64) (run : WordAt → State → State)
    (h : ∀ w s, (run w s).kept = s.kept) : (s.matrixAlone c w run).kept = s.kept := by
  simp [State.matrixAlone, h]

@[simp] theorem vectorAlone_kept (s : State) (c : Nat) (w : W64) (run : WordAt → State → State)
    (h : ∀ w s, (run w s).kept = s.kept) : (s.vectorAlone c w run).kept = s.kept := by
  simp [State.vectorAlone, h]

@[simp] theorem reductionAlone_kept (s : State) (c : Nat) (w : W64) : (s.reductionAlone c w).kept = s.kept := by
  simp [State.reductionAlone]

-- queue endpoints and rings

@[simp] theorem drainFq_kept (s : State) (c q fuel : Nat) : (s.drainFq c q fuel).kept = s.kept := by
  induction fuel generalizing s with
  | zero => rfl
  | succ fuel ih => simp [State.drainFq, ih]

@[simp] theorem drainPort_kept (s : State) (n : Nat) : (s.drainPort n).kept = s.kept := by simp [State.drainPort]

@[simp] theorem canPush_kept (s : State) (c q : Nat) : (s.canPush c q).1.kept = s.kept := by
  unfold State.canPush
  dsimp only
  split
  · rfl
  · split
    · split <;> simp
    · rfl

@[simp] theorem push_kept (s : State) (c q : Nat) (x : QEntry) : (s.push c q x).kept = s.kept := by simp [State.push]
@[simp] theorem pop_kept (s : State) (c q : Nat) : (s.pop c q).kept = s.kept := by simp [State.pop]

@[simp] theorem qstall_kept (s : State) (c q cause n : Nat) : (s.qstall c q cause n).kept = s.kept := by
  simp [State.qstall]

@[simp] theorem settleWait_kept (s : State) (c q : Nat) (mark : Bool) : (s.settleWait c q mark).kept = s.kept := by
  simp [State.settleWait]

@[simp] theorem latchSlot_kept (s : State) (slot k i : Nat) : (s.latchSlot slot k i).kept = s.kept := by
  simp [State.latchSlot]

@[simp] theorem ringPut_kept (s : State) (k ring : Nat) : (s.ringPut k ring).kept = s.kept := by
  unfold State.ringPut
  dsimp only
  split
  · split <;> simp
  · simp

@[simp] theorem ringTake_kept (s : State) (k ring : Nat) : (s.ringTake k ring).kept = s.kept := by
  simp [State.ringTake]

@[simp] theorem ringStall_kept (s : State) (c ring n : Nat) : (s.ringStall c ring n).kept = s.kept := by
  simp [State.ringStall]

-- the transfer engine

@[simp] theorem readPieces_kept (s : State) (c : Nat) (ps : List (Nat × Nat)) :
    (s.readPieces c ps).1.kept = s.kept := by
  unfold State.readPieces
  split
  · next t w e => exact kept_of_fst_eq e (readSpans_kept ..)
  · next t e => simp [kept_of_fst_eq e (readSpans_kept ..)]

@[simp] theorem writeLocal_kept (s : State) (c a : Nat) (bs : Bytes) : (s.writeLocal c a bs).1.kept = s.kept := by
  unfold State.writeLocal
  split
  · next t w e => exact kept_of_fst_eq e (writeSpan_kept ..)
  · next t e => simp [kept_of_fst_eq e (writeSpan_kept ..)]

@[simp] theorem writePieces_kept (s : State) (c : Nat) (ps : List (Nat × Nat)) (bs : Bytes) :
    (s.writePieces c ps bs).1.kept = s.kept := by
  unfold State.writePieces
  exact foldl_kept_of (fun x : (State × Option Nat) × Bytes => x.1.1) _ _ _ fun a p => by split <;> simp

@[simp] theorem copyRow_kept (s : State) (c src dst len : Nat) : (s.copyRow c src dst len).1.kept = s.kept := by
  unfold State.copyRow
  split
  · next t w b e => exact kept_of_fst_eq e (readPieces_kept ..)
  · next t b e => simp [kept_of_fst_eq e (readPieces_kept ..)]

@[simp] theorem copyRows_kept (s : State) (c : Nat) (x : Xfer) : (s.copyRows c x).1.kept = s.kept := by
  unfold State.copyRows
  exact foldl_kept_of Prod.fst _ _ _ fun a r => by split <;> simp

@[simp] theorem copyTrans_kept (s : State) (c : Nat) (x : Xfer) : (s.copyTrans c x).1.kept = s.kept := by
  unfold State.copyTrans
  split
  · next t w b e => exact kept_of_fst_eq e (readPieces_kept ..)
  · next t b e =>
    refine (foldl_kept_of Prod.fst _ _ _ fun a j => ?_).trans (kept_of_fst_eq e (readPieces_kept ..))
    split <;> simp

@[simp] theorem sendData_kept (s : State) (r : RouteEntry) (typ chan : Nat) (bs : Bytes) :
    (s.sendData r typ chan bs).kept = s.kept := by
  simp [State.sendData]

@[simp] theorem checkHop_kept (s : State) (c tag : Nat) (r : RouteEntry) (t : WinTag) :
    (s.checkHop c tag r t).kept = s.kept := by
  simp [State.checkHop]

@[simp] theorem sendRequest_kept (s : State) (c i tag : Nat) (o : Outst) (q : Nat × Nat × Nat) :
    (s.sendRequest c i tag o q).kept = s.kept := by
  unfold State.sendRequest
  dsimp only
  split
  · split
    · next t a b e => simp [kept_of_fst_eq e (readPieces_kept ..)]
    · next t b e => simp [kept_of_fst_eq e (readPieces_kept ..)]
  · simp

@[simp] theorem sendRequests_kept (s : State) (c fuel : Nat) : (s.sendRequests c fuel).kept = s.kept := by
  induction fuel generalizing s with
  | zero => rfl
  | succ fuel ih =>
    unfold State.sendRequests
    dsimp only
    split
    · split
      · split <;> simp [ih]
      · rfl
    · rfl

@[simp] theorem startOut_kept (s : State) (c i : Nat) (o : Outst) : (s.startOut c i o).kept = s.kept := by
  unfold State.startOut
  dsimp only
  split
  · simp
  · split
    · simp
    · split
      · simp only [modXf_kept]
        split
        · next t a b e => exact kept_of_fst_eq e (readPieces_kept ..)
        · next t b e => simp [kept_of_fst_eq e (readPieces_kept ..)]
      · split
        · simp only [modXf_kept]
          split
          · next t a b e => exact kept_of_fst_eq e (readPieces_kept ..)
          · next t b e => simp [kept_of_fst_eq e (readPieces_kept ..)]
        · simp

@[simp] theorem startActive_kept (s : State) (c : Nat) : (s.startActive c).kept = s.kept := by
  unfold State.startActive
  simp only [sendRequests_kept]
  exact foldl_kept _ _ _ fun s i => by split <;> simp

@[simp] theorem runGo_kept (s : State) (c : Nat) (w : W64) (off : Nat) : (s.runGo c w off).kept = s.kept := by
  simp [State.runGo]

@[simp] theorem runRst_kept (s : State) (c : Nat) (w : W64) : (s.runRst c w).kept = s.kept := by simp [State.runRst]

@[simp] theorem transferRun_kept (s : State) (c : Nat) (w : W64) (off : Nat) :
    (s.transferRun c w off).kept = s.kept := by
  unfold State.transferRun
  split <;> simp

@[simp] theorem queueMove_kept (s : State) (c i : Nat) (o : Outst) : (s.queueMove c i o).1.kept = s.kept := by
  unfold State.queueMove
  dsimp only
  split
  · split
    · next t e => exact kept_of_fst_eq e (canPush_kept ..)
    · next t e =>
      have k := kept_of_fst_eq e (canPush_kept ..)
      split
      · simp [k]
      · split
        · next u a b e => simp [kept_of_fst_eq e (readPieces_kept ..), k]
        · next u b e => simp [kept_of_fst_eq e (readPieces_kept ..), k]
  · split
    · rfl
    · split
      · simp
      · split
        · next t a e => simp [kept_of_fst_eq e (writePieces_kept ..)]
        · next t e => simp [kept_of_fst_eq e (writePieces_kept ..)]

@[simp] theorem queueCycle_kept (s : State) (c : Nat) : (s.queueCycle c).1.kept = s.kept := by
  unfold State.queueCycle
  dsimp only
  refine foldl_kept_of Prod.fst _ _ _ fun a i => ?_
  split
  · rfl
  · split
    · rfl
    · split
      · rfl
      · split
        · next t q e => exact kept_of_fst_eq e (queueMove_kept ..)
        · next t e => exact kept_of_fst_eq e (queueMove_kept ..)

@[simp] theorem completeDesc_kept (s : State) (c desc : Nat) : (s.completeDesc c desc).kept = s.kept := by
  unfold State.completeDesc
  dsimp only
  split
  · rfl
  · split
    · rfl
    · simp only [startActive_kept]
      split <;> simp

@[simp] theorem transferAlone_kept (s : State) (c : Nat) (w : W64) (run : WordAt → State → State)
    (h : ∀ w s, (run w s).kept = s.kept) : (s.transferAlone c w run).kept = s.kept := by
  simp [State.transferAlone, h]

-- the sequencer

@[simp] theorem returnCredits_kept (s : State) (c : Nat) (w : W64) : (s.returnCredits c w).kept = s.kept := by
  simp [State.returnCredits]

@[simp] theorem sendHolds_kept (s : State) (slot c : Nat) (e : StampEntry) (r : GroupRun) (st : StampWait) :
    (s.sendHolds slot c e r st).kept = s.kept := by
  simp [State.sendHolds]

@[simp] theorem arrive_kept (s : State) (c : Nat) : (s.arrive c).kept = s.kept := by
  unfold State.arrive
  split
  · dsimp only
    split
    · rfl
    · split
      · simp
      · split <;> simp
  · rfl

@[simp] theorem reachPlan_kept (s : State) (c : Nat) : (s.reachPlan c).kept = s.kept := by
  unfold State.reachPlan
  split <;> simp

@[simp] theorem runStamp_kept (s : State) (c : Nat) (ends : Bool) (w : W64) :
    (s.runStamp c ends w).kept = s.kept := by
  simp [State.runStamp]

@[simp] theorem runRelr_kept (s : State) (c : Nat) (w : W64) : (s.runRelr c w).kept = s.kept := by
  simp [State.runRelr]

@[simp] theorem controlRun_kept (s : State) (c : Nat) (w : W64) : (s.controlRun c w).kept = s.kept := by
  unfold State.controlRun
  split <;> simp

@[simp] theorem countWaits_kept (s : State) (c : Nat) (w : UnitWaits) : (s.countWaits c w).kept = s.kept := by
  simp [State.countWaits]

@[simp] theorem passCycle_kept (s : State) (c : Nat) : (s.passCycle c).kept = s.kept := by simp [State.passCycle]

@[simp] theorem watchdogFault_kept (s : State) (c : Nat) : (s.watchdogFault c).kept = s.kept := by
  simp [State.watchdogFault]

@[simp] theorem heldCycle_kept (s : State) (c : Nat) : (s.heldCycle c).kept = s.kept := by simp [State.heldCycle]

@[simp] theorem bundleWaits_kept (s : State) (c : Nat) (ws : List (Nat × W64)) (n : Nat) :
    (s.bundleWaits c ws n).1.kept = s.kept := by
  unfold State.bundleWaits
  simp only [ite_kept, modSq_kept, ite_self]
  rw [foldl_kept _ _ _ fun s e => ringStall_kept ..]
  split
  · simp only [qstall_kept]
    split <;> simp
  · split <;> simp

@[simp] theorem ringFault_kept (s : State) (c : Nat) (put : Bool) (w : W64) :
    (s.ringFault c put w).kept = s.kept := by
  simp [State.ringFault]

@[simp] theorem slotRun_kept (s : State) (c p len b : Nat) (w : W64) (o : WordAt) :
    (s.slotRun c p len b w o).kept = s.kept := by
  unfold State.slotRun
  split <;> simp

@[simp] theorem issueBundle_kept (s : State) (c p len : Nat) (ws : List (Nat × W64)) :
    (s.issueBundle c p len ws).kept = s.kept := by
  unfold State.issueBundle
  dsimp only
  generalize e : List.foldl _ _ ws = r
  have k : r.1.kept = s.kept := by
    rw [← e]
    refine (foldl_kept_of Prod.fst _ _ _ fun a x => ?_).trans (by split <;> simp)
    split
    · rfl
    · split <;> simp
  split <;> simp [k]

@[simp] theorem countBlocked_kept (s : State) (c : Nat) (blocked : List Nat) :
    (s.countBlocked c blocked).kept = s.kept := by
  simp [State.countBlocked]

@[simp] theorem countShelfWaits_kept (s : State) (c : Nat) : (s.countShelfWaits c).kept = s.kept := by
  simp [State.countShelfWaits]

@[simp] theorem offerBundle_kept (s : State) (c : Nat) (w : UnitWaits) : (s.offerBundle c w).kept = s.kept := by
  unfold State.offerBundle
  dsimp only
  split
  · simp
  · simp
  · split
    · simp
    · split
      · next t e => simpa using kept_of_fst_eq e (bundleWaits_kept ..)
      · next t e => simpa using kept_of_fst_eq e (bundleWaits_kept ..)

@[simp] theorem bundleCycle_kept (s : State) (c : Nat) (w : UnitWaits) : (s.bundleCycle c w).kept = s.kept := by
  simp [State.bundleCycle]

@[simp] theorem endRun_kept (s : State) (c : Nat) : (s.endRun c).kept = s.kept := by simp [State.endRun]

@[simp] theorem controlAlone_kept (s : State) (c : Nat) (w : W64) (run : WordAt → State → State)
    (h : ∀ w s, (run w s).kept = s.kept) : (s.controlAlone c w run).kept = s.kept := by
  simp [State.controlAlone, h]

-- isolation, clearing and recovery of clusters

@[simp] theorem redigest_kept (s : State) : s.redigest.kept = s.kept := by simp [State.redigest]

@[simp] theorem dropIsolation_kept (s : State) (k : Nat) : (s.dropIsolation k).kept = s.kept := by
  simp [State.dropIsolation]

@[simp] theorem isolateCluster_kept (s : State) (k : Nat) : (s.isolateCluster k).kept = s.kept := by
  simp [State.isolateCluster]

@[simp] theorem startIsolation_kept (s : State) (k : Nat) : (s.startIsolation k).kept = s.kept := by
  simp [State.startIsolation]

@[simp] theorem finishIsolations_kept (s : State) : s.finishIsolations.kept = s.kept := by
  simp [State.finishIsolations]

@[simp] theorem clearFaulted_kept (s : State) (kind k : Nat) : (s.clearFaulted kind k).kept = s.kept := by
  simp [State.clearFaulted]

@[simp] theorem clearFaultedSlot_kept (s : State) (slot : Nat) : (s.clearFaultedSlot slot).kept = s.kept := by
  simp [State.clearFaultedSlot]

@[simp] theorem endHalt_kept (s : State) (slot : Nat) : (s.endHalt slot).kept = s.kept := by simp [State.endHalt]

@[simp] theorem haltCores_kept (s : State) (slot : Nat) : (s.haltCores slot).kept = s.kept := by
  simp [State.haltCores]

@[simp] theorem startRecovery_kept (s : State) (k : Nat) : (s.startRecovery k).kept = s.kept := by
  simp [State.startRecovery]

@[simp] theorem recoveryPass_kept (s : State) (k : Nat) : (s.recoveryPass k).kept = s.kept := by
  simp [State.recoveryPass]

@[simp] theorem endRecovery_kept (s : State) (k : Nat) (passed : Bool) : (s.endRecovery k passed).kept = s.kept := by
  simp [State.endRecovery]

-- flits that arrive

@[simp] theorem forwardFlit_kept (s : State) (n : Nat) (f : Flit) : (s.forwardFlit n f).kept = s.kept := by
  simp [State.forwardFlit]

@[simp] theorem rejectFlit_kept (s : State) (n : Nat) : (s.rejectFlit n).kept = s.kept := by simp [State.rejectFlit]
@[simp] theorem acceptFlit_kept (s : State) (n : Nat) : (s.acceptFlit n).kept = s.kept := by simp [State.acceptFlit]
@[simp] theorem badFlit_kept (s : State) (n vc : Nat) : (s.badFlit n vc).kept = s.kept := by simp [State.badFlit]

@[simp] theorem receive_kept (s : State) (n : Nat) (f : Flit) (act : State → State)
    (h : ∀ s, (act s).kept = s.kept) : (s.receive n f act).kept = s.kept := by
  simp [State.receive, h]

@[simp] theorem nackRequest_kept (s : State) (a : Admitted) (hops status reason done : Nat) :
    (s.nackRequest a hops status reason done).kept = s.kept := by
  simp [State.nackRequest]

@[simp] theorem countRefused_kept (s : State) (status : Nat) (write : Bool) :
    (s.countRefused status write).kept = s.kept := by
  simp [State.countRefused]

@[simp] theorem answered_kept (s : State) (a : Admitted) : (s.answered a).kept = s.kept := by simp [State.answered]

@[simp] theorem serveFlit_kept (s : State) (a : Admitted) (hops : Nat) : (s.serveFlit a hops).kept = s.kept := by
  unfold State.serveFlit
  dsimp only
  split
  · next t w e => simp [kept_of_fst_eq e (readSpans_kept ..)]
  · next t e => simp [kept_of_fst_eq e (readSpans_kept ..)]

@[simp] theorem serveReads_kept (s : State) (n fuel : Nat) : (s.serveReads n fuel).kept = s.kept := by
  induction fuel generalizing s with
  | zero => rfl
  | succ fuel ih =>
    unfold State.serveReads
    split
    · rfl
    · split <;> simp [ih]

@[simp] theorem checkHeader_kept (s : State) (n : Nat) (f : Flit) (write : Bool) :
    (s.checkHeader n f write).kept = s.kept := by
  unfold State.checkHeader
  dsimp only
  split <;> simp

@[simp] theorem landWrite_kept (s : State) (a : Admitted) : (s.landWrite a).kept = s.kept := by
  unfold State.landWrite
  dsimp only
  generalize e : List.foldl _ _ _ = r
  have k : r.1.1.kept = s.kept := by
    rw [← e]
    refine (foldl_kept_of (fun x : (State × Option Nat) × Bytes => x.1.1) _ _ _ fun x p => ?_).trans rfl
    split <;> simp
  split
  · next t w h => simp [kept_of_fst_eq h k]
  · next t h => simp [kept_of_fst_eq h k]

@[simp] theorem takeWriteData_kept (s : State) (n : Nat) (f : Flit) : (s.takeWriteData n f).kept = s.kept := by
  unfold State.takeWriteData
  dsimp only
  split <;> simp

@[simp] theorem expireDrain_kept (s : State) (h : Nat) : (s.expireDrain h).kept = s.kept := by
  simp [State.expireDrain]

@[simp] theorem endClose_kept (s : State) (h : Nat) : (s.endClose h).kept = s.kept := by simp [State.endClose]

@[simp] theorem lateResponse_kept (s : State) (c : Nat) : (s.lateResponse c).kept = s.kept := by
  simp [State.lateResponse]

@[simp] theorem markRequest_kept (s : State) (c tag : Nat) (t : WinTag) (mark : Bool) :
    (s.markRequest c tag t mark).1.kept = s.kept := by
  simp [State.markRequest]

@[simp] theorem endRequest_kept (s : State) (c tag : Nat) : (s.endRequest c tag).kept = s.kept := by
  simp [State.endRequest]

@[simp] theorem takeReadData_kept (s : State) (f : Flit) : (s.takeReadData f).kept = s.kept := by
  unfold State.takeReadData
  dsimp only
  split
  · split
    · simp
    · split
      · next u a e =>
        have k : u.kept = s.kept := kept_of_fst_eq e (by simp)
        simp [k]
      · next u e =>
        have k : u.kept = s.kept := kept_of_fst_eq e (by simp)
        simp [k]
  · simp

@[simp] theorem takeAck_kept (s : State) (f : Flit) : (s.takeAck f).kept = s.kept := by
  unfold State.takeAck
  dsimp only
  split <;> simp

@[simp] theorem takeNack_kept (s : State) (f : Flit) : (s.takeNack f).kept = s.kept := by
  unfold State.takeNack
  dsimp only
  split <;> simp

@[simp] theorem takeQueueData_kept (s : State) (n : Nat) (f : Flit) : (s.takeQueueData n f).kept = s.kept := by
  unfold State.takeQueueData
  dsimp only
  split <;> simp

@[simp] theorem holdMismatch_kept (s : State) (slot group : Nat) : (s.holdMismatch slot group).kept = s.kept := by
  simp [State.holdMismatch]

@[simp] theorem takeHold_kept (s : State) (f : Flit) : (s.takeHold f).kept = s.kept := by
  unfold State.takeHold
  dsimp only
  split <;> simp

-- the fabric link and the optics

@[simp] theorem replayFab_kept (s : State) (n : Nat) : (s.replayFab n).kept = s.kept := by simp [State.replayFab]

@[simp] theorem linkWord_kept (s : State) (n : Nat) (w : BitVec 64) : (s.linkWord n w).kept = s.kept := by
  simp [State.linkWord]

@[simp] theorem takeSlip_kept (s : State) (n : Nat) (f : Flit) : (s.takeSlip n f).kept = s.kept := by
  unfold State.takeSlip
  dsimp only
  split <;> simp

@[simp] theorem setTrack_kept (s : State) (e : Nat) (track : BitVec 10) : (s.setTrack e track).kept = s.kept := by
  simp [State.setTrack]

@[simp] theorem startCalibration_kept (s : State) (e : Nat) : (s.startCalibration e).kept = s.kept := by
  simp [State.startCalibration]

@[simp] theorem engineDown_kept (s : State) (e cause : Nat) : (s.engineDown e cause).kept = s.kept := by
  simp [State.engineDown]

@[simp] theorem setBoot_kept (s : State) (bit : Nat) : (s.setBoot bit).kept = s.kept := by simp [State.setBoot]

@[simp] theorem optics_kept (s : State) : s.optics.kept = s.kept := by
  unfold State.optics
  dsimp only
  generalize e : List.foldl _ s [0, 1] = u
  have k : u.kept = s.kept := by
    rw [← e]
    refine foldl_kept _ _ _ fun s d => ?_
    split
    · rfl
    · split <;> simp
  split
  · rfl
  · split <;> simp [k]

@[simp] theorem balance_kept (s : State) : s.balance.kept = s.kept := by simp [State.balance]

@[simp] theorem changeCartridge_kept (s : State) (n : Nat) (f : Cartridge → Cartridge) :
    (s.changeCartridge n f).kept = s.kept := by
  simp [State.changeCartridge]

@[simp] theorem endCalibration_kept (s : State) (e : Nat) (ok : Bool) : (s.endCalibration e ok).kept = s.kept := by
  simp [State.endCalibration]

-- ticks

@[simp] theorem ledgerTick_kept (s : State) : s.ledgerTick.kept = s.kept := by simp [State.ledgerTick]
@[simp] theorem dropSlew_kept (s : State) : s.dropSlew.kept = s.kept := by simp [State.dropSlew]
@[simp] theorem compareDies_kept (s : State) : s.compareDies.kept = s.kept := by simp [State.compareDies]
@[simp] theorem alignDies_kept (s : State) : s.alignDies.kept = s.kept := by simp [State.alignDies]
@[simp] theorem setLdg_kept (s : State) (st : LdgState) : (s.setLdg st).kept = s.kept := by simp [State.setLdg]

@[simp] theorem treeTick_kept (s : State) : s.treeTick.kept = s.kept := by
  unfold State.treeTick
  dsimp only
  split <;> simp

@[simp] theorem delaySamples_kept (s : State) : s.delaySamples.kept = s.kept := by
  unfold State.delaySamples
  refine foldl_kept _ _ _ fun s n => ?_
  split
  · rfl
  · split <;> simp

@[simp] theorem stepLedgers_kept (s : State) (n : Int) : (s.stepLedgers n).kept = s.kept := by
  simp [State.stepLedgers]

@[simp] theorem rootForward_kept (s : State) : s.rootForward.kept = s.kept := by
  unfold State.rootForward
  split <;> simp

@[simp] theorem slewLedgers_kept (s : State) (n : Int) : (s.slewLedgers n).kept = s.kept := by
  simp [State.slewLedgers]

@[simp] theorem followSample_kept (s : State) (theta : Int) : (s.followSample theta).kept = s.kept := by
  simp [State.followSample]

@[simp] theorem parentSample_kept (s : State) : s.parentSample.kept = s.kept := by
  unfold State.parentSample
  split
  case h_3 => rfl
  all_goals split <;> simp

@[simp] theorem sendSlips_kept (s : State) : s.sendSlips.kept = s.kept := by simp [State.sendSlips]

@[simp] theorem regionTick_kept (s : State) (r temp droop : Nat) : (s.regionTick r temp droop).kept = s.kept := by
  simp [State.regionTick]

@[simp] theorem shelfTick_kept (s : State) (k others : Nat) : (s.shelfTick k others).kept = s.kept := by
  simp [State.shelfTick]

@[simp] theorem powerTick_kept (s : State) (t : TickInputs) : (s.powerTick t).kept = s.kept := by
  simp [State.powerTick]

@[simp] theorem cartridgeTick_kept (s : State) (l : List (Nat × Bool)) : (s.cartridgeTick l).kept = s.kept := by
  simp [State.cartridgeTick]

@[simp] theorem occupancyTick_kept (s : State) : s.occupancyTick.kept = s.kept := by simp [State.occupancyTick]

-- the lease

@[simp] theorem beat_kept (s : State) (d : Nat) : (s.beat d).kept = s.kept := by simp [State.beat]

@[simp] theorem dropChartered_kept (s : State) (d : Nat) : (s.dropChartered d).kept = s.kept := by
  simp [State.dropChartered]

@[simp] theorem heldEvents_kept (s : State) : s.heldEvents.kept = s.kept := by simp [State.heldEvents]

@[simp] theorem beginSelftest_kept (s : State) (d : Nat) : (s.beginSelftest d).kept = s.kept := by
  simp [State.beginSelftest]

@[simp] theorem beginSelftests_kept (s : State) : s.beginSelftests.kept = s.kept := by simp [State.beginSelftests]

@[simp] theorem setLease_kept (s : State) (l : Lease) (cause : Nat) : (s.setLease l cause).kept = s.kept := by
  unfold State.setLease
  dsimp only
  simp only [ite_kept, raise0_kept, raise_kept, beginSelftests_kept, heldEvents_kept, ite_self]
  split
  all_goals
    simp only [modCurator_kept, ite_kept, dropSlew_kept, ite_self, kept_mk]
    split <;> simp

@[simp] theorem applyYield_kept (s : State) (d : Nat) : (s.applyYield d).kept = s.kept := by
  unfold State.applyYield
  split <;> simp

@[simp] theorem lapse_kept (s : State) (cause : Nat) (other : Bool) : (s.lapse cause other).kept = s.kept := by
  unfold State.lapse
  split
  · rfl
  · rw [setLease_kept]
    split <;> simp

@[simp] theorem heartbeat_kept (s : State) (d : Nat) (sent : Bool) : (s.heartbeat d sent).kept = s.kept := by
  unfold State.heartbeat
  dsimp only
  split <;> simp

@[simp] theorem leaseTick_kept (s : State) (a b : Bool) : (s.leaseTick a b).kept = s.kept := by
  unfold State.leaseTick
  dsimp only
  split
  · simp
  · split <;> simp

@[simp] theorem arbitrate_kept (s : State) (first : Nat) : (s.arbitrate first).kept = s.kept := by
  simp [State.arbitrate]

-- boots and restarts of the curators

@[simp] theorem restartLoads_kept (s : State) (d : Nat) : (s.restartLoads d).kept = s.kept := by
  simp [State.restartLoads]

@[simp] theorem restartCurator_kept (s : State) (d cause : Nat) : (s.restartCurator d cause).kept = s.kept := by
  simp [State.restartCurator]

@[simp] theorem endActivation_kept (s : State) (d : Nat) (r : Reply) : (s.endActivation d r).kept = s.kept := by
  unfold State.endActivation
  split <;> simp

@[simp] theorem provenBank_kept (s : State) (d target : Nat) : (s.provenBank d target).kept = s.kept := by
  simp [State.provenBank]

@[simp] theorem fallBack_kept (s : State) (d : Nat) (image : FwImage) : (s.fallBack d image).kept = s.kept := by
  simp [State.fallBack]

-- admission and the session commands

@[simp] theorem countRefusal_kept (s : State) (reason : Nat) : (s.countRefusal reason).kept = s.kept := by
  simp [State.countRefusal]

@[simp] theorem refuseSession_kept (s : State) (i reason : Nat) : (s.refuseSession i reason).kept = s.kept := by
  simp [State.refuseSession]

@[simp] theorem closeRefused_kept (s : State) (i : Nat) : (s.closeRefused i).kept = s.kept := by
  simp [State.closeRefused]

@[simp] theorem predict_kept (s : State) (num den : Nat) : (s.predict num den).1.kept = s.kept := by
  simp [State.predict]

@[simp] theorem admitSession_kept (s : State) (i : Nat) (e : Evaluation) : (s.admitSession i e).kept = s.kept := by
  simp [State.admitSession]

@[simp] theorem enqueue_kept (s : State) (i : Nat) : (s.enqueue i).kept = s.kept := by simp [State.enqueue]

@[simp] theorem evaluate_kept (s : State) (i : Nat) : (s.evaluate i).kept = s.kept := by
  unfold State.evaluate
  dsimp only
  split
  · simp
  · split <;> simp

@[simp] theorem startAdmission_kept (s : State) (i : Nat) : (s.startAdmission i).kept = s.kept := by
  simp [State.startAdmission]

@[simp] theorem serveQueue_kept (s : State) (slot n : Nat) : (s.serveQueue slot n).1.kept = s.kept := by
  induction n generalizing s with
  | zero => rfl
  | succ n ih =>
    unfold State.serveQueue
    split
    · rfl
    · simp [ih]

@[simp] theorem serveTenant_kept (s : State) (t n : Nat) (done : List Nat) :
    (s.serveTenant t n done).1.kept = s.kept := by
  unfold State.serveTenant
  exact foldl_kept_of Prod.fst _ _ _ fun a i => by dsimp only; split <;> simp

@[simp] theorem serveRounds_kept (fuel : Nat) (s : State) (left : Nat) (done : List Nat) :
    (s.serveRounds fuel left done).kept = s.kept := by
  induction fuel generalizing s left done with
  | zero => rfl
  | succ fuel ih =>
    unfold State.serveRounds
    dsimp only
    generalize e : List.foldl _ _ _ = r
    have k : r.1.kept = s.kept := by
      rw [← e]
      refine foldl_kept_of Prod.fst _ _ _ fun a t => ?_
      dsimp only
      split <;> simp
    exact kept_of_ite k (by simp [ih, k])

@[simp] theorem serveAll_kept (s : State) : s.serveAll.1.kept = s.kept := by
  unfold State.serveAll
  exact foldl_kept_of Prod.fst _ _ _ fun a i => by simp

@[simp] theorem admissionTick_kept (s : State) : s.admissionTick.kept = s.kept := by simp [State.admissionTick]

@[simp] theorem openSession_kept (s : State) (i port pstore units : Nat) (b : Bytes) :
    (s.openSession i port pstore units b).kept = s.kept := by
  simp [State.openSession]

@[simp] theorem sessionOpenOp_kept (port : Nat) (b : Bytes) (s : State) :
    (sessionOpenOp port b s).1.kept = s.kept := by
  unfold sessionOpenOp
  dsimp only
  iterate 4 refine kept_of_fst_ite rfl ?_
  split
  · simp
  · split
    · rfl
    · simp

@[simp] theorem promptAppendOp_kept (port : Nat) (b : Bytes) (s : State) :
    (promptAppendOp port b s).1.kept = s.kept := by
  unfold promptAppendOp
  dsimp only
  iterate 2 refine kept_of_fst_ite rfl ?_
  split
  · rfl
  · iterate 2 refine kept_of_fst_ite rfl ?_
    simp only [ite_kept, startAdmission_kept, modSession_kept, ite_self]
    split <;> simp

@[simp] theorem sessionCancelOp_kept (port : Nat) (b : Bytes) (s : State) :
    (sessionCancelOp port b s).1.kept = s.kept := by
  unfold sessionCancelOp
  iterate 2 refine kept_of_fst_ite rfl ?_
  split
  · rfl
  · simp

@[simp] theorem sessionCloseOp_kept (port : Nat) (b : Bytes) (s : State) :
    (sessionCloseOp port b s).1.kept = s.kept := by
  unfold sessionCloseOp
  iterate 2 refine kept_of_fst_ite rfl ?_
  split
  · rfl
  · simp

@[simp] theorem settleRefused_kept (s : State) : s.settleRefused.kept = s.kept := by simp [State.settleRefused]

-- alignment of the dies

@[simp] theorem alignFail_kept (s : State) (d crossing : Nat) : (s.alignFail d crossing).kept = s.kept := by
  simp [State.alignFail]

@[simp] theorem alignDie_kept (s : State) (clusterOk : BitVec 32) (net d2d : Bool) (d : Nat) :
    (s.alignDie clusterOk net d2d d).kept = s.kept := by
  simp [State.alignDie]

-- bundles and stamps

@[simp] theorem afterBundle_kept (s : State) (c : Nat) (f : Sequencer → Sequencer) :
    (s.afterBundle c f).kept = s.kept := by
  simp [State.afterBundle]

@[simp] theorem waitCycles_kept (s : State) (c n : Nat) : (s.waitCycles c n).kept = s.kept := by
  simp [State.waitCycles]

@[simp] theorem ringTimeout_kept (s : State) (c : Nat) (put : Bool) : (s.ringTimeout c put).kept = s.kept := by
  unfold State.ringTimeout
  split <;> simp

-- loading a folio

@[simp] theorem writeCore_kept (s : State) (f : Folio) (v : FolioView) (r : List Reloc) (trap c : Nat) :
    (s.writeCore f v r trap c).kept = s.kept := by
  simp [State.writeCore]

@[simp] theorem bindEnd_kept (s : State) (c q : Nat) (e : QueueEntry) (peerCore peerQep : Nat) :
    (s.bindEnd c q e peerCore peerQep).kept = s.kept := by
  simp [State.bindEnd]

@[simp] theorem writeQueue_kept (s : State) (e : QueueEntry) : (s.writeQueue e).kept = s.kept := by
  simp [State.writeQueue]

@[simp] theorem writeRing_kept (s : State) (f : Folio) (r : List Reloc) (e : RingEntry) :
    (s.writeRing f r e).kept = s.kept := by
  simp [State.writeRing]

@[simp] theorem writePatch_kept (s : State) (q : LoadReq) (w : PatchWindow) : (s.writePatch q w).kept = s.kept := by
  simp [State.writePatch]

@[simp] theorem setHash_kept (s : State) (l : LogPart) : (s.setHash l).kept = s.kept := by
  unfold State.setHash
  split <;> simp

@[simp] theorem writeConstant_kept (s : State) (f : Folio) (c : ConstImage) :
    (s.writeConstant f c).kept = s.kept := by
  unfold State.writeConstant
  split <;> simp

@[simp] theorem settleCarrel_kept (s : State) (c : Nat) : (s.settleCarrel c).kept = s.kept := by
  simp [State.settleCarrel]

@[simp] theorem clearRings_kept (s : State) (k : Nat) : (s.clearRings k).kept = s.kept := by simp [State.clearRings]

@[simp] theorem writeFolio_kept (s : State) (q : LoadReq) (f : Folio) (v : FolioView) :
    (s.writeFolio q f v).kept = s.kept := by
  simp [State.writeFolio]

@[simp] theorem stampMismatch_kept (s : State) (reason entry want have_ : Nat) :
    (s.stampMismatch reason entry want have_).kept = s.kept := by
  simp [State.stampMismatch]

@[simp] theorem loadFailed_kept (s : State) (slot : Nat) (e : LoadFail) : (s.loadFailed slot e).1.kept = s.kept := by
  unfold State.loadFailed
  split <;> simp

@[simp] theorem beginLoad_kept (s : State) (port : Nat) (tag : BitVec 32) (b : Bytes) :
    (s.beginLoad port tag b).kept = s.kept := by
  simp [State.beginLoad]

@[simp] theorem noteCheck_kept (s : State) (slot stage : Nat) (r : Except LoadFail Folio) :
    (s.noteCheck slot stage r).kept = s.kept := by
  simp [State.noteCheck]

@[simp] theorem claimLoad_kept (s : State) (b : Bytes) : (s.claimLoad b).kept = s.kept := by
  unfold State.claimLoad
  dsimp only
  split <;> simp

@[simp] theorem endLoad_kept (s : State) (b : Bytes) (view : Option FolioView) :
    (s.endLoad b view).1.kept = s.kept := by
  unfold State.endLoad
  dsimp only
  split <;> simp

@[simp] theorem folioLoadOp_kept (port : Nat) (tag : BitVec 32) (b : Bytes) (view : Option FolioView) (s : State) :
    (folioLoadOp port tag b view s).1.kept = s.kept := by
  unfold folioLoadOp
  split <;> simp

-- shards of an edition

@[simp] theorem editionBeginOp_kept (port : Nat) (b : Bytes) (s : State) :
    (editionBeginOp port b s).1.kept = s.kept := by
  unfold editionBeginOp
  split
  · rfl
  · exact (modEdition_kept ..).trans (foldl_kept _ _ _ fun s e => modPart_kept ..)

@[simp] theorem modShard_kept (s : State) (index n : Nat) (f : Shard → Shard) :
    (s.modShard index n f).kept = s.kept := by
  simp [State.modShard]

@[simp] theorem sendSegments_kept (s : State) (port : Nat) (digest : Bytes) (shard offset : Nat) (resend : Bool)
    (data : Bytes) (from_ held : Nat) :
    (s.sendSegments port digest shard offset resend data from_ held).kept = s.kept := by
  simp [State.sendSegments]

@[simp] theorem forwardStream_kept (s : State) (index : Nat) (x : Shard) (offset : Nat) (data : Bytes)
    (from_ held : Nat) : (s.forwardStream index x offset data from_ held).kept = s.kept := by
  simp [State.forwardStream]

@[simp] theorem discardBytes_kept (s : State) (d n : Nat) : (s.discardBytes d n).kept = s.kept := by
  simp [State.discardBytes]

@[simp] theorem answerResend_kept (s : State) (index port shard : Nat) :
    (s.answerResend index port shard).kept = s.kept := by
  unfold State.answerResend
  dsimp only
  split
  · simp
  · split
    · simp
    · split
      · rfl
      · split
        · next t w b e => simp [kept_of_fst_eq e (readSpans_kept ..)]
        · next t b e => simp [kept_of_fst_eq e (readSpans_kept ..)]
    · simp

@[simp] theorem answerHeld_kept (s : State) (index shard : Nat) : (s.answerHeld index shard).kept = s.kept := by
  simp [State.answerHeld]

@[simp] theorem requestAgain_kept (s : State) (index shard cause attempt : Nat) :
    (s.requestAgain index shard cause attempt).kept = s.kept := by
  simp [State.requestAgain]

@[simp] theorem countAttempt_kept (s : State) (d cause : Nat) : (s.countAttempt d cause).kept = s.kept := by
  simp [State.countAttempt]

@[simp] theorem failAttempt_kept (s : State) (index shard cause : Nat) :
    (s.failAttempt index shard cause).kept = s.kept := by
  unfold State.failAttempt
  split <;> simp

@[simp] theorem beginAttempt_kept (s : State) (index shard : Nat) (up : Bool) :
    (s.beginAttempt index shard up).kept = s.kept := by
  simp [State.beginAttempt]

@[simp] theorem endAttempt_kept (s : State) (index : Nat) (x : Shard) : (s.endAttempt index x).1.kept = s.kept := by
  simp [State.endAttempt]

@[simp] theorem landBytes_kept (s : State) (index : Nat) (x : Shard) (data : Bytes) :
    (s.landBytes index x data).1.kept = s.kept := by
  unfold State.landBytes
  dsimp only
  generalize e : State.modShard _ index x.num _ = u
  have k : u.kept = s.kept := by
    rw [← e, modShard_kept, modAccDie_kept]
    split <;> simp
  split
  · split <;> simp [k]
  · exact k

@[simp] theorem takeData_kept (s : State) (index shard offset : Nat) (data : Bytes) (up : Bool) :
    (s.takeData index shard offset data up).1.kept = s.kept := by
  unfold State.takeData
  dsimp only
  split
  · rfl
  · refine kept_of_fst_ite ?wrong <| kept_of_fst_ite ?other <| kept_of_fst_ite rfl <|
      kept_of_fst_ite ?first <| kept_of_fst_ite ?next ?order
    case first =>
      split
      · simp
      · refine kept_of_fst_ite (by simp) ?_
        split <;> simp
    all_goals simp

@[simp] theorem shardDataOp_kept (port : Nat) (b : Bytes) (s : State) : (shardDataOp port b s).1.kept = s.kept := by
  unfold shardDataOp
  extract_lets slot index shard offset n e x bad live data r u st
  iterate 4 refine kept_of_fst_ite rfl ?_
  have k : u.kept = s.kept := by
    clear_value x
    cases x <;> simp [u, r]
  split <;> simp [k]

@[simp] theorem takeSegment_kept (s : State) (n : Nat) (head data : Bytes) :
    (s.takeSegment n head data).kept = s.kept := by
  unfold State.takeSegment
  extract_lets resend shard offset live
  split
  · simp
  · split
    · simp
    · extract_lets u r
      have k : r.1.kept = s.kept := kept_of_fst_ite (by simp [u]) (by simp [u])
      split <;> simp [k]

-- commit, switch and retirement of an edition

@[simp] theorem endTalk_kept (s : State) (index : Nat) (r : Reply) : (s.endTalk index r).kept = s.kept := by
  simp [State.endTalk]

@[simp] theorem commitEdition_kept (s : State) (index : Nat) : (s.commitEdition index).kept = s.kept := by
  simp [State.commitEdition]

@[simp] theorem switchEdition_kept (s : State) (index : Nat) : (s.switchEdition index).kept = s.kept := by
  simp [State.switchEdition]

@[simp] theorem endRetire_kept (s : State) (index : Nat) : (s.endRetire index).kept = s.kept := by
  unfold State.endRetire
  dsimp only
  split
  · rfl
  · split <;> simp

@[simp] theorem decideCommit_kept (s : State) (index : Nat) (t : EdTalk) :
    (s.decideCommit index t).kept = s.kept := by
  unfold State.decideCommit
  split
  · simp
  · dsimp only
    split <;> simp

@[simp] theorem noticeRefused_kept (s : State) (t : EdTalk) : (s.noticeRefused t).1.kept = s.kept := by
  simp [State.noticeRefused]

@[simp] theorem decideNotices_kept (s : State) (index : Nat) (t : EdTalk) :
    (s.decideNotices index t).kept = s.kept := by
  unfold State.decideNotices
  split <;> simp

@[simp] theorem takeAnswer_kept (s : State) (index seq : Nat) (stageOk : Nat → Bool) (value : Nat)
    (differs : Bool) : (s.takeAnswer index seq stageOk value differs).kept = s.kept := by
  unfold State.takeAnswer
  split
  · rfl
  · split
    · rfl
    · simp

@[simp] theorem editionCommitOp_kept (port : Nat) (b : Bytes) (s : State) :
    (editionCommitOp port b s).1.kept = s.kept := by
  unfold editionCommitOp
  dsimp only
  iterate 5 refine kept_of_fst_ite rfl ?_
  refine kept_of_fst_ite (by simp) ?_
  split <;> simp

@[simp] theorem editionSwitchOp_kept (port : Nat) (b : Bytes) (s : State) :
    (editionSwitchOp port b s).1.kept = s.kept := by
  unfold editionSwitchOp
  split <;> simp

@[simp] theorem editionRetireOp_kept (port : Nat) (b : Bytes) (s : State) :
    (editionRetireOp port b s).1.kept = s.kept := by
  unfold editionRetireOp
  dsimp only
  split
  · rfl
  · split <;> simp

@[simp] theorem receiveAll_kept (s : State) (n : Nat) (flits : List Flit) : (s.receiveAll n flits).kept = s.kept := by
  simp [State.receiveAll]

@[simp] theorem answerVc3_kept (s : State) (n : Nat) (f : Flit) (typ : Nat) (manifest : Bytes) (state : Nat) :
    (s.answerVc3 n f typ manifest state).kept = s.kept := by
  simp [State.answerVc3]

@[simp] theorem takeNotice_kept (s : State) (index kind : Nat) (manifest : Bytes) :
    (s.takeNotice index kind manifest).1.kept = s.kept := by
  unfold State.takeNotice
  dsimp only
  split
  · rfl
  · split <;> simp

-- identity and routes

@[simp] theorem fabIdentityOp_kept (port : Nat) (b : Bytes) (s : State) :
    (fabIdentityOp port b s).1.kept = s.kept := by
  unfold fabIdentityOp
  iterate 2 refine kept_of_fst_ite rfl ?_
  split
  · rfl
  · simp

@[simp] theorem fabRoutesOp_kept (port : Nat) (b : Bytes) (s : State) : (fabRoutesOp port b s).1.kept = s.kept := by
  unfold fabRoutesOp
  split <;> simp

-- the step commit

@[simp] theorem takeRecord_kept (s : State) (k ring at_ : Nat) : (s.takeRecord k ring at_).1.kept = s.kept := by
  unfold State.takeRecord
  split
  · rfl
  · dsimp only
    split
    · next t w e => simp [kept_of_fst_eq e (readSpans_kept ..)]
    · next t e => simp [kept_of_fst_eq e (readSpans_kept ..)]

@[simp] theorem putRecord_kept (s : State) (k : Nat) (b : Bytes) : (s.putRecord k b).1.kept = s.kept := by
  simp [State.putRecord]

@[simp] theorem commitRow_kept (s : State) (ends : List Nat) (stamp : W64) (e : RowRef × ResultRow) :
    (s.commitRow ends stamp e).kept = s.kept := by
  unfold State.commitRow
  dsimp only
  split
  · simp
  · split
    · simp
    · split <;> simp

@[simp] theorem govern_kept (s : State) (slot : Nat) : (s.govern slot).kept = s.kept := by simp [State.govern]

@[simp] theorem enterPrefill_kept (s : State) (slot : Nat) : (s.enterPrefill slot).kept = s.kept := by
  unfold State.enterPrefill
  dsimp only
  rw [modSlot_kept]
  refine foldl_kept _ _ _ fun s i => kept_of_ite ?_ rfl
  split <;> simp

@[simp] theorem draftTrees_kept (fuel : Nat) (s : State) (k step : Nat) (acc : Bytes) :
    (s.draftTrees fuel k step acc).1.kept = s.kept := by
  induction fuel generalizing s acc with
  | zero => rfl
  | succ fuel ih =>
    unfold State.draftTrees
    split
    · next t b e => simp [ih, kept_of_fst_eq e (takeRecord_kept ..)]
    · next t e => exact kept_of_fst_eq e (takeRecord_kept ..)

@[simp] theorem dropTrees_kept (s : State) (slot : Nat) : (s.dropTrees slot).kept = s.kept := by
  simp [State.dropTrees]

@[simp] theorem takeDraft_kept (s : State) (slot step d : Nat) : (s.takeDraft slot step d).kept = s.kept := by
  simp [State.takeDraft]

@[simp] theorem putDraft_kept (s : State) (slot step : Nat) (stamp : W64) (d : Nat) :
    (s.putDraft slot step stamp d).kept = s.kept := by
  unfold State.putDraft
  dsimp only
  split
  · next t e => simpa using kept_of_fst_eq e (putRecord_kept ..)
  · next t e => simpa using kept_of_fst_eq e (putRecord_kept ..)

@[simp] theorem putBatch_kept (s : State) (slot step : Nat) (stamp : W64) :
    (s.putBatch slot step stamp).kept = s.kept := by
  unfold State.putBatch
  dsimp only
  split
  · next t e => simpa using kept_of_fst_eq e (putRecord_kept ..)
  · next t e => simpa using kept_of_fst_eq e (putRecord_kept ..)

@[simp] theorem stepCommit_kept (s : State) (slot : Nat) : (s.stepCommit slot).kept = s.kept := by
  unfold State.stepCommit
  dsimp only
  split
  · next t e => simp [kept_of_fst_eq e (takeRecord_kept ..)]
  · next t b e => split <;> simp [kept_of_fst_eq e (takeRecord_kept ..)]

@[simp] theorem endStep_kept (s : State) (slot c : Nat) : (s.endStep slot c).kept = s.kept := by
  unfold State.endStep
  dsimp only
  split
  · rfl
  · split <;> simp

@[simp] theorem releaseStamp_kept (s : State) (slot group : Nat) (late : Option (Nat × Nat)) :
    (s.releaseStamp slot group late).kept = s.kept := by
  unfold State.releaseStamp
  dsimp only
  split <;> simp

-- running, halting and releasing

@[simp] theorem dropStreams_kept (s : State) (cores : List Nat) : (s.dropStreams cores).kept = s.kept := by
  simp [State.dropStreams]

@[simp] theorem enterRun_kept (s : State) (slot : Nat) (start : W64) : (s.enterRun slot start).kept = s.kept := by
  simp [State.enterRun]

@[simp] theorem runOp_kept (b : Bytes) (s : State) : (runOp b s).1.kept = s.kept := by simp [runOp]

@[simp] theorem startCores_kept (s : State) (slot : Nat) : (s.startCores slot).kept = s.kept := by
  simp [State.startCores]

@[simp] theorem haltOp_kept (b : Bytes) (s : State) : (haltOp b s).1.kept = s.kept := by
  unfold haltOp
  dsimp only
  iterate 2 refine kept_of_fst_ite rfl ?_
  split
  · rfl
  · refine kept_of_fst_ite rfl (kept_of_ite ?_ ?_) <;> simp

@[simp] theorem releaseSession_kept (s : State) (i : Nat) : (s.releaseSession i).kept = s.kept := by
  simp [State.releaseSession]

@[simp] theorem beginRelease_kept (s : State) (t : Nat) : (s.beginRelease t).kept = s.kept := by
  simp [State.beginRelease]

@[simp] theorem releaseOp_kept (port : Nat) (b : Bytes) (s : State) : (releaseOp port b s).1.kept = s.kept := by
  unfold releaseOp
  dsimp only
  iterate 4 (split; · rfl)
  split <;> simp

-- keys, firmware and presence

@[simp] theorem attestOp_kept (port : Nat) (b : Bytes) (s : State) : (attestOp port b s).1.kept = s.kept := by
  simp [attestOp]

@[simp] theorem beginStage_kept (s : State) (b : Bytes) : (s.beginStage b).kept = s.kept := by simp [State.beginStage]

@[simp] theorem endStage_kept (s : State) (b : Bytes) : (s.endStage b).1.kept = s.kept := by
  unfold State.endStage
  dsimp only
  split
  · rfl
  · split <;> simp

@[simp] theorem fwStageOp_kept (port : Nat) (b : Bytes) (s : State) : (fwStageOp port b s).1.kept = s.kept := by
  unfold fwStageOp
  split <;> simp

@[simp] theorem swapBanks_kept (s : State) (d target : Nat) (image : FwImage) :
    (s.swapBanks d target image).kept = s.kept := by
  simp [State.swapBanks]

@[simp] theorem fwActivateOp_kept (port : Nat) (tag : BitVec 32) (b : Bytes) (s : State) :
    (fwActivateOp port tag b s).1.kept = s.kept := by
  unfold fwActivateOp
  dsimp only
  iterate 2 (split; · rfl)
  split <;> simp

@[simp] theorem presenceOp_kept (port : Nat) (b : Bytes) (s : State) : (presenceOp port b s).1.kept = s.kept := by
  unfold presenceOp
  dsimp only
  iterate 4 (split; · rfl)
  exact kept_mk s ..

@[simp] theorem closePresence_kept (s : State) : s.closePresence.kept = s.kept := by simp [State.closePresence]

@[simp] theorem usePresence_kept (s : State) (op : Nat) : (s.usePresence op).kept = s.kept := by
  simp [State.usePresence]

@[simp] theorem recordFault_kept (s : State) (op len : Nat) : (s.recordFault op len).1.kept = s.kept := by
  simp [State.recordFault]

@[simp] theorem rotateKeys_kept (s : State) : s.rotateKeys.1.kept = s.kept := by
  unfold State.rotateKeys
  dsimp only
  split
  · rfl
  · split
    · next t r e => exact kept_of_fst_eq e (recordFault_kept ..)
    · next t e => simp [kept_of_fst_eq e (recordFault_kept ..)]

@[simp] theorem enrollChain_kept (s : State) : s.enrollChain.1.kept = s.kept := by
  unfold State.enrollChain
  dsimp only
  split
  · rfl
  · split
    · next t r e => exact kept_of_fst_eq e (recordFault_kept ..)
    · next t e => simp [kept_of_fst_eq e (recordFault_kept ..)]

@[simp] theorem installKey_kept (s : State) : s.installKey.1.kept = s.kept := by simp [State.installKey]
@[simp] theorem removeKey_kept (s : State) : s.removeKey.1.kept = s.kept := by simp [State.removeKey]

@[simp] theorem secOperation_kept (s : State) (op : Nat) : (s.secOperation op).1.kept = s.kept := by
  unfold State.secOperation
  split <;> simp

-- power and bring-up

@[simp] theorem packageLoss_kept (s : State) : s.packageLoss.kept = s.kept := by simp [State.packageLoss]
@[simp] theorem inputLoss_kept (s : State) : s.inputLoss.kept = s.kept := by simp [State.inputLoss]

@[simp] theorem judgeCluster_kept (s : State) (clusterPass : BitVec 16) (rduPass : BitVec 128) (k : Nat) :
    (s.judgeCluster clusterPass rduPass k).kept = s.kept := by
  simp [State.judgeCluster]

@[simp] theorem beginClearing_kept (s : State) : s.beginClearing.kept = s.kept := by simp [State.beginClearing]

-- shelf cycles, scrubbing and clearing

@[simp] theorem serveRequest_kept (s : State) (k : Nat) (r : ShelfReq) : (s.serveRequest k r).kept = s.kept := by
  unfold State.serveRequest
  dsimp only
  split
  · rfl
  · split
    · split
      · next t w e => simp [kept_of_fst_eq e (writeSpan_kept ..)]
      · next t e => exact kept_of_fst_eq e (writeSpan_kept ..)
    · split
      · next t w e => simp [kept_of_fst_eq e (readSpan_kept ..)]
      · next t e => simp [kept_of_fst_eq e (readSpan_kept ..)]

@[simp] theorem clearBank_kept (s : State) (k b : Nat) : (s.clearBank k b).kept = s.kept := by
  unfold State.clearBank
  split <;> simp

@[simp] theorem clearUnused_kept (s : State) (k : Nat) (used : List Nat) :
    (s.clearUnused k used).1.kept = s.kept := by
  simp [State.clearUnused]

@[simp] theorem scrubUnused_kept (s : State) (k : Nat) (used : List Nat) : (s.scrubUnused k used).kept = s.kept := by
  simp [State.scrubUnused]

@[simp] theorem shelfCycle_kept (s : State) (k : Nat) (offers : List ShelfReq) :
    (s.shelfCycle k offers).kept = s.kept := by
  simp [State.shelfCycle]

@[simp] theorem scrubSpan_kept (s : State) (a n : Nat) : (s.scrubSpan a n).kept = s.kept := by
  unfold State.scrubSpan
  exact foldl_kept _ _ _ fun s e => by split <;> simp

@[simp] theorem scrubBank_kept (s : State) (k b : Nat) : (s.scrubBank k b).kept = s.kept := by simp [State.scrubBank]

@[simp] theorem scrubCarrel_kept (s : State) (c : Nat) : (s.scrubCarrel c).kept = s.kept := by
  simp [State.scrubCarrel]

@[simp] theorem endPartClear_kept (s : State) (k p : Nat) : (s.endPartClear k p).kept = s.kept := by
  simp [State.endPartClear]

@[simp] theorem endCarrelClear_kept (s : State) (c : Nat) : (s.endCarrelClear c).kept = s.kept := by
  simp [State.endCarrelClear]

-- register reads

@[simp] theorem clearRc_kept (s : State) (p : Page) (off : Nat) : (s.clearRc p off).kept = s.kept := by
  unfold State.clearRc
  refine kept_of_ite (modPage_kept ..) ?_
  split <;> simp

@[simp] theorem regRead_kept (s : State) (p : Page) (off : Nat) : (s.regRead p off).1.kept = s.kept := by
  unfold State.regRead
  refine kept_of_fst_ite (modPage_kept ..) ?_
  split <;> simp

@[simp] theorem readAddr_kept (s : State) (addr : Nat) : (s.readAddr addr).1.kept = s.kept := by
  unfold State.readAddr
  split <;> simp

@[simp] theorem readAll_kept (s : State) (port : Nat) (addrs : List Nat) :
    (s.readAll port addrs).1.kept = s.kept := by
  unfold State.readAll
  split
  · rfl
  · exact foldl_kept_of Prod.fst _ _ _ fun a x => readAddr_kept ..

-- the fall of a Tsudan port

@[simp] theorem tsdFalls_kept (s : State) (p : Nat) (st : LinkState) (cause : Nat) :
    (s.tsdFalls p st cause).kept = s.kept := by
  simp [State.tsdFalls]

-- register writes

@[simp] theorem setCtrl_kept (s : State) (p : Page) (v : Nat) : (s.setCtrl p v).kept = s.kept := by
  unfold State.setCtrl
  split <;> simp

@[simp] theorem setHeader_kept (s : State) (p : Page) (off v : Nat) : (s.setHeader p off v).kept = s.kept := by
  simp [State.setHeader]

@[simp] theorem setWin_kept (s : State) (off v : Nat) : (s.setWin off v).kept = s.kept := by simp [State.setWin]
@[simp] theorem setAdm_kept (s : State) (off v : Nat) : (s.setAdm off v).kept = s.kept := by simp [State.setAdm]
@[simp] theorem setSec_kept (s : State) (off v : Nat) : (s.setSec off v).kept = s.kept := by simp [State.setSec]

@[simp] theorem regSet_kept (s : State) (p : Page) (off v : Nat) : (s.regSet p off v).kept = s.kept := by
  unfold State.regSet
  refine kept_of_ite (setHeader_kept ..) ?_
  split <;> simp

@[simp] theorem entrySet_kept (s : State) (addr v : Nat) : (s.entrySet addr v).kept = s.kept := by
  unfold State.entrySet
  split <;> simp

@[simp] theorem roleChanged_kept (s : State) (old : BitVec 2) : (s.roleChanged old).kept = s.kept := by
  simp [State.roleChanged]

@[simp] theorem tsdControl_kept (s : State) (p v : Nat) : (s.tsdControl p v).kept = s.kept := by
  simp [State.tsdControl]

@[simp] theorem fabControl_kept (s : State) (n v : Nat) : (s.fabControl n v).kept = s.kept := by
  simp [State.fabControl]

@[simp] theorem calibrate_kept (s : State) (e : Nat) : (s.calibrate e).kept = s.kept := by simp [State.calibrate]

@[simp] theorem isolate_kept (s : State) (k : Nat) : (s.isolate k).kept = s.kept := by
  unfold State.isolate
  refine kept_of_ite rfl ?_
  split <;> simp

@[simp] theorem entryAct_kept (port : Nat) (tag : BitVec 32) (s : State) (addr v : Nat) :
    (s.entryAct port tag addr v).kept = s.kept := by
  unfold State.entryAct
  split <;> simp

@[simp] theorem fence_kept (s : State) (d : Nat) : (s.fence d).kept = s.kept := by simp [State.fence]

@[simp] theorem writeAll_kept (port : Nat) (tag : BitVec 32) (l : List (Nat × Nat)) (s : State) :
    (writeAll port tag l s).1.kept = s.kept := by
  unfold writeAll
  split <;> simp

@[simp] theorem writeOne_kept (s : State) (port : Nat) (tag : BitVec 32) (page off v : Nat) :
    (s.writeOne port tag page off v).kept = s.kept := by
  simp [State.writeOne]

-- register commands and the management bus

@[simp] theorem echoOp_kept (b : Bytes) (s : State) : (echoOp b s).1.kept = s.kept := by simp [echoOp]

@[simp] theorem regReadOp_kept (port : Nat) (b : Bytes) (s : State) : (regReadOp port b s).1.kept = s.kept := by
  simp [regReadOp]

@[simp] theorem regWriteOp_kept (port : Nat) (tag : BitVec 32) (b : Bytes) (s : State) :
    (regWriteOp port tag b s).1.kept = s.kept := by
  simp [regWriteOp]

@[simp] theorem regBlockOp_kept (port : Nat) (tag : BitVec 32) (b : Bytes) (s : State) :
    (regBlockOp port tag b s).1.kept = s.kept := by
  simp [regBlockOp]

@[simp] theorem busRead_kept (s : State) (p : Page) (addr : Nat) : (s.busRead p addr).1.kept = s.kept := by
  unfold State.busRead
  split <;> simp

@[simp] theorem busTransfer_kept (s : State) (p : Page) (addr count : Nat) :
    (s.busTransfer p addr count).kept = s.kept := by
  unfold State.busTransfer
  simp only [kept_mk]
  exact foldl_kept_of Prod.fst _ _ _ fun a i => busRead_kept ..

-- timeouts of sessions

@[simp] theorem queueReason_kept (s : State) (x : Session) : (s.queueReason x).1.kept = s.kept := by
  simp [State.queueReason]

-- loan windows

@[simp] theorem raiseFloor_kept (s : State) (next : BitVec 20) : (s.raiseFloor next).kept = s.kept := by
  simp [State.raiseFloor]

@[simp] theorem openWindow_kept (s : State) (h : Nat) (b : Bytes) : (s.openWindow h b).1.kept = s.kept := by
  simp [State.openWindow]

@[simp] theorem windowOpenOp_kept (b : Bytes) (s : State) : (windowOpenOp b s).1.kept = s.kept := by
  unfold windowOpenOp
  iterate 4 refine kept_of_fst_ite rfl ?_
  dsimp only
  split
  · simp
  · rfl

@[simp] theorem windowCloseOp_kept (b : Bytes) (s : State) : (windowCloseOp b s).1.kept = s.kept := by
  simp [windowCloseOp]

-- the Tsudan link

@[simp] theorem replayTsd_kept (s : State) (p : Nat) : (s.replayTsd p).kept = s.kept := by simp [State.replayTsd]

@[simp] theorem endCommand_kept (s : State) (p : Nat) (tag : BitVec 32) (r : Reply) :
    (s.endCommand p tag r).kept = s.kept := by
  unfold State.endCommand
  split
  · rfl
  · split <;> simp

@[simp] theorem resync_kept (s : State) (p : Nat) : (s.resync p).kept = s.kept := by simp [State.resync]

@[simp] theorem takeInit_kept (s : State) (p : Nat) (f : Bytes) : (s.takeInit p f).kept = s.kept := by
  simp [State.takeInit]

@[simp] theorem tsdWord_kept (s : State) (p : Nat) (f : Bytes) : (s.tsdWord p f).kept = s.kept := by
  unfold State.tsdWord
  dsimp only
  rw [pumpPort_kept]
  exact kept_of_ite ((replayTsd_kept ..).trans (modPort_kept ..)) (modPort_kept ..)

@[simp] theorem operationOf_kept (port : Nat) (tag : BitVec 32) (code : BitVec 8) (b : Bytes) (s : State) :
    (operationOf port tag code b s).1.kept = s.kept := by
  fun_cases operationOf port tag code b <;> simp

@[simp] theorem feedLoad_kept (s : State) (p : Nat) (tag : BitVec 32) (b : Bytes) (last : Bool) :
    (s.feedLoad p tag b last).kept = s.kept := by
  unfold State.feedLoad
  extract_lets slot begun r u
  have k : r.1.kept = s.kept := by
    refine kept_of_fst_ite rfl (kept_of_fst_ite ?_ rfl)
    split <;> simp
  split
  · simp [k]
  · refine kept_of_ite (by simp [k]) (kept_of_ite ?_ k)
    split <;> simp [u, k]

@[simp] theorem feedStage_kept (s : State) (p : Nat) (tag : BitVec 32) (before b : Bytes) (last : Bool) :
    (s.feedStage p tag before b last).kept = s.kept := by
  unfold State.feedStage
  dsimp only
  split <;> simp

@[simp] theorem feed_kept (s : State) (p : Nat) (tag : BitVec 32) (code : BitVec 8) (before b : Bytes)
    (last : Bool) : (s.feed p tag code before b last).kept = s.kept := by
  simp [State.feed]

@[simp] theorem afterCommand_kept (s : State) (code : BitVec 8) : (s.afterCommand code).kept = s.kept := by
  simp [State.afterCommand]

@[simp] theorem grow_kept (s : State) (p : Nat) (h : TsdHeader) (before payload : Bytes) :
    (s.grow p h before payload).kept = s.kept := by
  simp [State.grow]

@[simp] theorem firstPacket_kept (s : State) (p : Nat) (h : TsdHeader) (payload : Bytes) :
    (s.firstPacket p h payload).kept = s.kept := by
  unfold State.firstPacket
  dsimp only
  split
  · simp
  · split
    · simp
    · split
      · simp
      · split
        · next t e => exact kept_of_fst_eq e (beginCmd_kept ..)
        · next t e => simpa using kept_of_fst_eq e (beginCmd_kept ..)

@[simp] theorem laterPacket_kept (s : State) (p : Nat) (h : TsdHeader) (payload : Bytes) :
    (s.laterPacket p h payload).kept = s.kept := by
  unfold State.laterPacket
  split <;> simp

@[simp] theorem takePacket_kept (s : State) (p : Nat) (h : TsdHeader) (payload : Bytes) :
    (s.takePacket p h payload).kept = s.kept := by
  simp [State.takePacket]

@[simp] theorem timeoutReply_kept (s : State) (c : Cmd) : (s.timeoutReply c).1.kept = s.kept := by
  unfold State.timeoutReply
  split
  · split <;> simp
  · rfl

@[simp] theorem commandTimeout_kept (s : State) (p : Nat) (tag : BitVec 32) :
    (s.commandTimeout p tag).kept = s.kept := by
  unfold State.commandTimeout
  split
  · rfl
  · split <;> simp

-- the fuses that a row may blow

/-- The fused identity is the same, no blown fuse is whole again, and the queue is as before. -/
structure Keeps (s t : State) : Prop where
  identity : SameIdentity s t
  fuses : FusesStayBlown s t
  queue : t.pending = s.pending

theorem Keeps.trans {s t u : State} (h : Keeps s t) (k : Keeps t u) : Keeps s u where
  identity := by
    have i := h.identity
    have j := k.identity
    simp_all [SameIdentity]
  fuses := ⟨k.fuses.1 ∘ h.fuses.1, k.fuses.2 ∘ h.fuses.2⟩
  queue := k.queue.trans h.queue

theorem Keeps.of_kept {s t : State} (h : t.kept = s.kept) : Keeps s t := by
  obtain ⟨hf, hq⟩ := Prod.mk.inj h
  exact ⟨by simp [SameIdentity, hf], by simp [FusesStayBlown, hf], hq⟩

/-- The seal's fuse is blown where the loop is found open (R467). -/
theorem senseSeal_keeps (s : State) (isOpen : Bool) : Keeps s (s.senseSeal isOpen) := by
  unfold State.senseSeal
  dsimp only
  split
  · refine Keeps.trans ?_ (.of_kept (raise0_kept ..))
    exact ⟨by simp [SameIdentity], by simp [FusesStayBlown], rfl⟩
  · exact .of_kept (by simp)

/-- Of a tick's evaluations the sample of the seal alone may blow a fuse. -/
theorem clockTick_keeps (s : State) (t : TickInputs) : Keeps s (s.clockTick t) := by
  unfold State.clockTick
  extract_lets clocks regions shelves supply tracks
  have before : (shelves.powerTick t).kept = s.kept := by simp [shelves, regions, clocks]
  have blown := (Keeps.of_kept before).trans (senseSeal_keeps _ t.sealOpen)
  exact blown.trans (.of_kept (by simp [tracks, supply]))

-- the rows

/-- Where the outcome is a next state, that state keeps the identity, the blown fuses and the queue. -/
def KeepsNext (s : State) (o : Host.Outcome State Fault Refusal) : Prop := ∀ t, o = .next t → Keeps s t

theorem Keeps.next {s t : State} (h : Keeps s t) : KeepsNext s (.next t) := by
  rintro _ ⟨⟩
  exact h

theorem KeepsNext.of_kept {s t : State} (h : t.kept = s.kept) : KeepsNext s (.next t) := (Keeps.of_kept h).next

theorem execTick_keeps (inputs : TickInputs) (s : State) : KeepsNext s (execTick inputs s) := by
  refine Keeps.next ?_
  split
  · exact (clockTick_keeps s inputs).trans (.of_kept (by simp))
  · exact .of_kept rfl

theorem execPowerGood_keeps (sense : PowerSense) (s : State) : KeepsNext s (execPowerGood sense s) := by
  refine Keeps.next ?_
  split
  · exact .of_kept rfl
  · exact (Keeps.of_kept (by simp)).trans (senseSeal_keeps ..)

/-- The wipe blows the fuse of the identity (R469). -/
theorem execIdentityWiped_keeps (s : State) : KeepsNext s (execIdentityWiped s) := by
  refine Keeps.next ?_
  split
  · exact .of_kept rfl
  · refine Keeps.trans ?_ (.of_kept (raise0_kept ..))
    exact ⟨by simp [SameIdentity], by simp [FusesStayBlown], rfl⟩

theorem execInputPowerApplied_keeps (vinMv : Nat) (s : State) : KeepsNext s (execInputPowerApplied vinMv s) := by
  unfold execInputPowerApplied
  split
  · rintro _ ⟨⟩
  · exact .of_kept (by simp)

theorem execReadingRoomBegin_keeps (s : State) : KeepsNext s (execReadingRoomBegin s) := by
  refine .of_kept (kept_of_ite rfl ?_)
  dsimp only
  generalize e : List.foldl _ _ [0, 1] = t
  have k : t.kept = s.kept := by
    rw [← e, foldl_kept _ _ _ fun s p => modPort_kept .., kept_mk, setBoot_kept]
  exact (optics_kept _).trans (kept_of_ite ((raise0_kept ..).trans k) k)

theorem execBootFail_keeps (die : Die) (s : State) : KeepsNext s (execBootFail die s) := by
  refine .of_kept (kept_of_ite rfl (kept_of_ite (modBanks_kept ..) ?_))
  split <;> simp

theorem execResend_keeps (port : FPort) (flit : Flit) (s : State) : KeepsNext s (execResend port flit s) := by
  refine .of_kept (receive_kept _ _ _ _ fun s => ?_)
  split <;> simp

theorem execResendFail_keeps (port : FPort) (flit : Flit) (s : State) : KeepsNext s (execResendFail port flit s) := by
  refine .of_kept (receive_kept _ _ _ _ fun s => ?_)
  split
  · split <;> simp
  · rfl

theorem execShardTimeout_keeps (index : EdIdx) (shard : Option Nat) (s : State) :
    KeepsNext s (execShardTimeout index shard s) := by
  refine .of_kept ?_
  split
  · split <;> simp
  · simp

theorem execFabFlitReject_keeps (port : FPort) (reason : RejectReason) (s : State) :
    KeepsNext s (execFabFlitReject port reason s) := by
  refine .of_kept (kept_of_ite rfl ?_)
  split <;> simp

/-- No row changes the fused identity, mends a blown fuse or touches the queue: the ticks, power-good and the identity
wipe are the rows that may blow a fuse, and every row named apart here branches on what it finds; each of the others
answers a composition of operations that keep both. -/
theorem exec_keeps (c : Instr) (s : State) : KeepsNext s (exec c s) := by
  cases c with
  | tick inputs => exact execTick_keeps inputs s
  | powerGood sense => exact execPowerGood_keeps sense s
  | identityWiped => exact execIdentityWiped_keeps s
  | inputPowerApplied vinMv => exact execInputPowerApplied_keeps vinMv s
  | readingRoomBegin => exact execReadingRoomBegin_keeps s
  | bootFail die => exact execBootFail_keeps die s
  | resend port flit => exact execResend_keeps port flit s
  | resendFail port flit => exact execResendFail_keeps port flit s
  | shardTimeout index shard => exact execShardTimeout_keeps index shard s
  | fabFlitReject port reason => exact execFabFlitReject_keeps port reason s
  | tripClear _ | holdTimeout _ | xfTimeout _ _ | xfEccUe _ _ | scrubRead _ | clearDone _ | tableEccUe _
  | tokenPacketClose _ | mgmtBusRead _ _ | leaseLapse _ =>
    refine .of_kept ?_
    split <;> simp
  | _ => exact .of_kept (by simp)

/-- Settles O5: a step with a command waiting is exec on the state with the queue's rest, whose fuses are the same; an
idle step moves the ledgers alone. -/
theorem everyStepKeepsIdentityAndQueue : Obligations.EveryStepKeepsIdentityAndQueue := by
  unfold Obligations.EveryStepKeepsIdentityAndQueue
  refine ⟨fun s t h => ?_, fun c s t h => (exec_keeps c s t h).queue⟩
  unfold step at h
  split at h
  · obtain ⟨identity, fuses, -⟩ := (KeepsNext.of_kept (idleCycle_kept s)) t h
    exact ⟨identity, fuses⟩
  · obtain ⟨identity, fuses, -⟩ := exec_keeps _ _ t h
    exact ⟨identity, fuses⟩

end Sys2Proof.Machine

/-! PROOFS. A REG_WRITE of one entry (R411): an entry that passes its checks is stored and does what it starts, and the
command completes with OK; its COMPLETION packet waits on the port or is in its retry buffer. -/

namespace Sys2Proof.Machine

open Sys2Proof

-- a packet that is queued stays queued or sent

/-- The port holds a packet: it waits to be sent, or waits for its acknowledgement (R399). -/
def TsdPort.Holds (t : TsdPort) (q : TxPacket) : Prop :=
  q ∈ t.txQueue ∨ ∃ x ∈ t.retry, { x with lseq := q.lseq, ledger := q.ledger } = q

theorem queued_iff_holds (s : State) (p : Nat) (q : TxPacket) : Queued s p q ↔ (s.port p).Holds q := Iff.rfl

theorem sendOne_holds (t : TsdPort) (c : Nat) (x q : TxPacket) (now : W64) (h : t.Holds q) :
    (t.sendOne c x now).Holds q := by
  obtain hq | ⟨y, hy, e⟩ := h
  · by_cases hx : q = x
    · exact .inr ⟨_, List.mem_append_right _ (List.mem_singleton_self _), by rw [hx]⟩
    · exact .inl ((List.mem_erase_of_ne hx).mpr hq)
  · exact .inr ⟨y, List.mem_append_left _ hy, e⟩

theorem pump_holds (n : Nat) (t : TsdPort) (q : TxPacket) (now : W64) (h : t.Holds q) : (TsdPort.pump n t now).Holds q := by
  induction n generalizing t with
  | zero => exact h
  | succ n ih =>
    unfold TsdPort.pump
    split
    · exact h
    · split
      · exact h
      · split
        · exact h
        · split
          · exact ih _ (sendOne_holds _ _ _ _ _ h)
          · exact h

theorem closeEvents_holds (t : TsdPort) (q : TxPacket) (h : t.Holds q) : t.closeEvents.Holds q := by
  unfold TsdPort.closeEvents
  split
  · exact h.imp_left (List.mem_append_left _)
  · exact h

theorem sendPacket_queued (s : State) (p : Nat) (q : TxPacket) : Queued (s.sendPacket p q) p q := by
  have h : TsdPort.Holds { s.port p with txQueue := (s.port p).txQueue ++ [q] } q :=
    .inl (List.mem_append_right _ (List.mem_singleton_self _))
  rw [queued_iff_holds]
  unfold State.sendPacket State.pumpPort State.modPort State.port
  simp only [Tbl.get_modify_self]
  refine pump_holds _ _ _ _ ?_
  split
  · exact closeEvents_holds _ _ h
  · exact h

-- the command in progress

/-- The commands in progress are the same on both ports. -/
structure SameCmds (s t : State) : Prop where
  cmds : ∀ p, (t.port p).cmds = (s.port p).cmds

theorem SameCmds.refl (s : State) : SameCmds s s := ⟨fun _ => rfl⟩

theorem SameCmds.trans {s t u : State} (h : SameCmds s t) (k : SameCmds t u) : SameCmds s u :=
  ⟨fun p => (k.cmds p).trans (h.cmds p)⟩

theorem ite_cmds {s t u : State} {b : Prop} [Decidable b] (h : SameCmds s t) (k : SameCmds s u) :
    SameCmds s (if b then t else u) := by split <;> assumption

theorem foldl_cmds {α : Type} (f : State → α → State) (l : List α) (h : ∀ s a, SameCmds s (f s a)) (s : State) :
    SameCmds s (l.foldl f s) := by
  induction l generalizing s with
  | nil => exact .refl s
  | cons a l ih => exact (h s a).trans (ih _)

theorem modPage_cmds (s : State) (p : Nat) (f : PageHdr → PageHdr) : SameCmds s (s.modPage p f) := ⟨fun _ => rfl⟩
theorem modLog_cmds (s : State) (d : Nat) (f : EvLog → EvLog) : SameCmds s (s.modLog d f) := ⟨fun _ => rfl⟩

theorem modPort_cmds (s : State) (p : Nat) (f : TsdPort → TsdPort) (h : ∀ t, (f t).cmds = t.cmds) :
    SameCmds s (s.modPort p f) := by
  refine ⟨fun q => ?_⟩
  unfold State.modPort State.port
  by_cases e : q = p
  · subst e
    simp only [Tbl.get_modify_self, h]
  · simp only [Tbl.get_modify_ne _ _ _ _ _ e]

theorem closeEvents_cmds (t : TsdPort) : t.closeEvents.cmds = t.cmds := by
  unfold TsdPort.closeEvents
  split <;> rfl

theorem enqueue_cmds (t : TsdPort) (r : EvRec) : (t.enqueue r).cmds = t.cmds := by
  unfold TsdPort.enqueue
  split
  · rfl
  · split <;> rfl

theorem pumpPort_cmds (s : State) (p : Nat) : SameCmds s (s.pumpPort p) := by
  refine modPort_cmds s p _ fun t => ?_
  dsimp only
  rw [pump_cmds]
  split
  · exact closeEvents_cmds t
  · rfl

theorem emit_cmds (fuel : Nat) (s : State) (page bit : Nat) (detail : Bytes) :
    SameCmds s (s.emit fuel page bit detail) := by
  induction fuel generalizing s page bit detail with
  | zero => exact .refl s
  | succ n ih =>
    have follow (s : State) (b : Prop) [Decidable b] (p i : Nat) : SameCmds s (if b then s.emit n p i [] else s) :=
      ite_cmds (ih ..) (.refl s)
    have log {s : State} (b c : Prop) [Decidable b] [Decidable c] (f : EvLog → EvLog) (d p i : Nat) :
        SameCmds s (if b then s else if c then (s.modLog d f).emit n p i [] else s.modLog d f) :=
      ite_cmds (.refl s) ((modLog_cmds ..).trans (follow ..))
    have port (s : State) (p : Nat) (r : EvRec) : SameCmds s (s.modPort p fun t => t.enqueue r) :=
      modPort_cmds s p _ (enqueue_cmds · r)
    unfold State.emit
    refine (modPage_cmds s page fun h => { h with evtRaw := setBit h.evtRaw bit }).trans ?_
    dsimp only
    split
    · exact .refl _
    · exact ite_cmds (log ..) ((log ..).trans (foldl_cmds _ _ (fun s p => (port ..).trans (follow ..)) _))

/-- An event leaves the commands in progress alone. -/
theorem raise_cmds (s : State) (page bit : Nat) (detail : Bytes) : SameCmds s (s.raise page bit detail) :=
  ((emit_cmds ..).trans (pumpPort_cmds ..)).trans (pumpPort_cmds ..)

theorem begun_port_self (s : State) (p : Nat) (tag : BitVec 32) (code : BitVec 8) :
    (s.begun p tag code).port p
      = { s.port p with cmds := (s.port p).cmds ++ [⟨tag, code, classOf code, 1, [], .packets⟩] } := by
  simp [State.begun, State.modPort, State.port]

theorem begun_inProgress (s : State) (p : Nat) (tag : BitVec 32) (code : BitVec 8) :
    (s.begun p tag code).inProgress p tag = true := by
  simp [State.inProgress, begun_port_self]

/-- Under a free tag the command that begins is the one of its tag. -/
theorem begun_find (s : State) (p : Nat) (tag : BitVec 32) (code : BitVec 8) (free : s.inProgress p tag = false) :
    ((s.begun p tag code).port p).cmds.find? (fun c => c.tag = tag) = some ⟨tag, code, classOf code, 1, [], .packets⟩ := by
  have none : (s.port p).cmds.find? (fun c => c.tag = tag) = none := by
    simpa [State.inProgress] using free
  simp [begun_port_self, List.find?_append, none]

/-- A command that has begun under a free tag completes once its operation has left it in progress. -/
theorem begun_completes {s u : State} {p : Nat} {tag : BitVec 32} {code : BitVec 8} (r : Reply)
    (free : s.inProgress p tag = false) (same : SameCmds (s.begun p tag code) u) :
    Completed (u.complete p tag r) p tag code r := by
  refine ⟨complete_frees u p tag r, ?_⟩
  unfold State.complete
  rw [same.cmds p, begun_find s p tag code free]
  exact sendPacket_queued ..

-- an entry that passes its checks

theorem entry_page (page off : Nat) (h : off < 4096) : (page * 4096 + off) / 4096 = page := by omega
theorem entry_offset (page off : Nat) (h : off < 4096) : (page * 4096 + off) % 4096 = off := by omega

/-- One entry passes the checks of R411 in order. -/
structure EntryPasses (s : State) (port : Nat) (tag : BitVec 32) (page off v : Nat) (g : Page) : Prop where
  page : Page.ofNumber page = some g
  inPage : off < 4096
  aligned : off % 4 = 0
  exists_ : ∀ c, g.coreOf = some c → s.fused (clusterOf c) = false
  bits : ∃ m, g.writeMask off = some m ∧ (BitVec.ofNat 32 v : W32) &&& ~~~(BitVec.ofNat 32 m) = 0
  range : s.rangeBad g off v = false
  permitted : s.forbidden port g off v = false
  reachable : s.regBusy port g = false
  state : s.stateFault port tag 0 g off v = none

theorem EntryPasses.writeFault {s : State} {port : Nat} {tag : BitVec 32} {page off v : Nat} {g : Page}
    (h : EntryPasses s port tag page off v g) : s.writeFault port tag 0 (page * 4096 + off) v = none := by
  have reg : s.regPage (page * 4096 + off) = .ok g := by
    unfold State.regPage
    rw [entry_page page off h.inPage, h.page]
    have a : (page * 4096 + off) % 4 = 0 := by have := h.aligned; omega
    simp only [a, ne_eq, not_true_eq_false, if_false]
    split
    · next c e => simp [h.exists_ c e]
    · rfl
  obtain ⟨m, mask, clean⟩ := h.bits
  unfold State.writeFault
  rw [reg]
  simp [entry_offset page off h.inPage, mask, clean, h.range, h.permitted, h.reachable, h.state]

theorem EntryPasses.entrySet {s : State} {port : Nat} {tag : BitVec 32} {page off v : Nat} {g : Page}
    (h : EntryPasses s port tag page off v g) (t : State) : t.entrySet (page * 4096 + off) v = t.regSet g off v := by
  obtain ⟨m, mask, -⟩ := h.bits
  unfold State.entrySet
  rw [entry_page page off h.inPage, h.page, entry_offset page off h.inPage]
  simp [mask]

/-- CTRL of a shelf's page alone isolates a cluster (R489). -/
theorem EntryPasses.isolates_nothing {s : State} {port : Nat} {tag : BitVec 32} {page off v : Nat} {g : Page}
    (h : EntryPasses s port tag page off v g) (other : ∀ k, g = .shf k → off ≠ 0x008) :
    s.entryCluster (page * 4096 + off) v = none := by
  unfold State.entryCluster
  rw [entry_page page off h.inPage, h.page, entry_offset page off h.inPage]
  split
  · next k e => simp [other k (Option.some.inj e)]
  · rfl

/-- CTRL of the charter's page alone yields (R449). -/
theorem entryYields_eq_false (page off v : Nat) (h : off < 4096) (other : page ≠ chtPage ∨ off ≠ 0x008) :
    entryYields (page * 4096 + off) v = false := by
  have ne : page * 4096 + off ≠ chtPage * 4096 + 0x008 := by omega
  simp [entryYields, ne]

/-- The entry is written and the operation is done, where it neither isolates a cluster nor yields the charter. -/
theorem writeAll_passes {s : State} {p : Nat} {tag : BitVec 32} {page off v : Nat} {g : Page}
    (h : EntryPasses s p tag page off v g) (still : s.entryCluster (page * 4096 + off) v = none)
    (keeps : entryYields (page * 4096 + off) v = false) :
    writeAll p tag [(page * 4096 + off, v)] s
      = (State.entryAct p tag s (page * 4096 + off) v, .done (Reply.ok [])) := by
  simp [writeAll, State.firstFault, List.zipIdx, h.writeFault, still, keeps]

/-- The entry is written and the command waits for the charter to pass (R449). -/
theorem writeAll_yields {s : State} {p : Nat} {tag : BitVec 32} {page off v : Nat} {g : Page}
    (h : EntryPasses s p tag page off v g) (yields : entryYields (page * 4096 + off) v = true) :
    writeAll p tag [(page * 4096 + off, v)] s = (State.entryAct p tag s (page * 4096 + off) v, .waits .yield) := by
  simp [writeAll, State.firstFault, List.zipIdx, h.writeFault, yields]

/-- The state in which a REG_WRITE does its work. -/
def State.writing (s : State) (p : Nat) (tag : BitVec 32) : State := s.begun p tag 0x03

theorem writeOne_operates {s : State} {p : Nat} {tag : BitVec 32} (a : Accepts s p tag) (page off v : Nat) :
    s.writeOne p tag page off v = (s.writing p tag).operate p tag (writeAll p tag [(page * 4096 + off, v)]) :=
  runCommand_accepts s p tag 0x03 _ a

/-- A whole REG_WRITE of one entry that passes, by what the entry makes of the state: ports apart, that is the state
after the command has completed with OK. -/
theorem writeOne_completes {s u : State} {p : Nat} {tag : BitVec 32} {page off v : Nat} {g : Page} (a : Accepts s p tag)
    (h : EntryPasses (s.writing p tag) p tag page off v g)
    (still : (s.writing p tag).entryCluster (page * 4096 + off) v = none)
    (keeps : entryYields (page * 4096 + off) v = false)
    (act : State.entryAct p tag (s.writing p tag) (page * 4096 + off) v = u) (same : SameCmds (s.writing p tag) u) :
    ∃ l, s.writeOne p tag page off v = { u with ports := l }
      ∧ Completed { u with ports := l } p tag 0x03 (Reply.ok []) := by
  have ⟨_, _, free, _⟩ := a
  have frame := complete_ports u p tag (Reply.ok [])
  refine ⟨(u.complete p tag (Reply.ok [])).ports, ?_, ?_⟩
  · rw [writeOne_operates a, State.operate, writeAll_passes h still keeps, act]
    exact frame
  · rw [← frame]
    exact begun_completes _ free same

end Sys2Proof.Machine

/-! PROOFS. The module's registers (R30, R221, R235, R236, R239, R305, R306, R427, R449): which checks their entries pass and
what each entry makes of the state. -/

namespace Sys2Proof.Machine

open Sys2Proof

-- pages and their numbers (R423, R424)

theorem modulePages_number (i : Nat) (g : Page) (h : modulePages[i]? = some g) : g.number = modPageNo i := by
  have every : ∀ k : Fin 14, (modulePages[k.val]?).map Page.number = some (modPageNo k) := by decide
  obtain ⟨lt, -⟩ := List.getElem?_eq_some_iff.mp h
  have one := every ⟨i, lt⟩
  rw [h] at one
  exact Option.some.inj one

theorem diePage_number (d i : Nat) (g : Page) (h : diePage d i = some g) : g.number = diePageNo d i := by
  unfold diePage at h
  iterate 7
    split at h
    · cases h
      simp only [Page.number, dieClkPage, dieLdgPage, dieAccPage, dieChtPage, dieSecPage, evlPage, tsdPage]
      congr 1
      exact .symm ‹_›
  split at h
  · cases h
    simp only [Page.number, fportPage, diePageNo]
    omega
  split at h
  · cases h
    simp only [Page.number, shfPage, diePageNo]
    omega
  split at h
  · have block : i / 256 - 16 < 6 := by omega
    interval_cases e : i / 256 - 16 <;>
    · cases h
      simp only [Page.number, corePage, mxePage, vecPage, rduPage, xfePage, carPage, unitPage, diePageNo]
      omega
  · cases h

/-- The page that a page number names has that number. -/
theorem Page.ofNumber_number (n : Nat) (g : Page) (h : Page.ofNumber n = some g) : g.number = n := by
  unfold Page.ofNumber at h
  split at h
  · rw [modulePages_number _ g h, modPageNo]
    omega
  · split at h
    · rw [diePage_number _ _ g h, diePageNo]
      omega
    · cases h

/-- An EVT_CLEAR of events that the page defines passes its checks. -/
theorem evtClear_passes {s : State} {p : Nat} {tag : BitVec 32} {n : Nat} {bits : BitVec 32} {g : Page}
    (page : Page.ofNumber n = some g) (defined : bits &&& ~~~(BitVec.ofNat 32 g.events) = 0)
    (fitted : ∀ c, g.coreOf = some c → s.fused (clusterOf c) = false) (holder : g.die = none → s.holds p = true)
    (reach : s.regBusy p g = false) : EntryPasses s p tag n 0x01C bits.toNat g where
  page := page
  inPage := by decide
  aligned := by decide
  exists_ := fitted
  bits := ⟨g.events, rfl, by rwa [BitVec.ofNat_toNat, BitVec.setWidth_eq]⟩
  range := by cases g <;> rfl
  permitted := by
    have region : (decide (g.die = none) && !s.holds p) = false := by
      by_cases h : g.die = none <;> simp [h, holder]
    unfold State.forbidden
    rw [region]
    cases g <;> rfl
  reachable := reach
  state := by cases g <;> rfl

/-- EVT_CLEAR takes the named bits from the page's EVT_RAW and starts nothing. -/
theorem evtClear_acts {s : State} {p : Nat} {tag : BitVec 32} {n : Nat} {bits : BitVec 32} {g : Page}
    (h : EntryPasses s p tag n 0x01C bits.toNat g) :
    State.entryAct p tag s (n * 4096 + 0x01C) bits.toNat
      = s.modPage n fun x => { x with evtRaw := x.evtRaw &&& ~~~bits } := by
  have set : s.entrySet (n * 4096 + 0x01C) bits.toNat = s.modPage n fun x => { x with evtRaw := x.evtRaw &&& ~~~bits } := by
    rw [h.entrySet]
    simp [State.regSet, State.setHeader, Page.ofNumber_number n g h.page]
  unfold State.entryAct
  rw [set, entry_page n _ h.inPage, h.page, entry_offset n _ h.inPage]
  cases g <;> rfl

-- the module's own registers

theorem firstSlot_none (s : State) (p : Slot → Bool) (h : ∀ e ∈ s.slots, p e.2 = false) : s.firstSlot p = none := by
  have none : s.slots.find? (fun e => p e.2) = none := by
    simpa using h
  simp [State.firstSlot, none]

/-- A slot that is EMPTY or holds a folio with archival variants does not bar ARCHIVAL_ONLY (R30). -/
theorem archivalOnly_passes {s : State} {p : Nat} {tag : BitVec 32} {on : Bool} (holder : s.holds p = true)
    (archival : on = true → ∀ e ∈ s.slots, e.2.state = .empty ∨ ∃ f, e.2.folio = some f ∧ f.archival = true) :
    EntryPasses s p tag genPage 0x008 on.toNat .gen where
  page := rfl
  inPage := by decide
  aligned := rfl
  exists_ := nofun
  bits := ⟨1, rfl, by cases on <;> rfl⟩
  range := rfl
  permitted := by simp [State.forbidden, holder]
  reachable := rfl
  state := by
    cases on with
    | false => rfl
    | true =>
      have free : s.firstSlot (fun x => !decide (x.state = .empty) && s.noArchival x) = none := by
        refine firstSlot_none _ _ fun e he => ?_
        obtain h | ⟨f, folio, h⟩ := archival rfl e he
        · simp [h]
        · simp [State.noArchival, folio, h]
      simp [State.stateFault, free]

theorem archivalOnly_acts {s : State} {p : Nat} {tag : BitVec 32} {on : Bool}
    (h : EntryPasses s p tag genPage 0x008 on.toNat .gen) :
    State.entryAct p tag s (genPage * 4096 + 0x008) on.toNat = { s with gen := { s.gen with archivalOnly := on } } := by
  unfold State.entryAct
  rw [h.entrySet]
  cases on <;> rfl

theorem refSel_passes {s : State} {p : Nat} {tag : BitVec 32} {sel : BitVec 2} (holder : s.holds p = true)
    (known : sel ≠ 3) (other : ¬(sel = 2 ∧ s.ledger.role = 2)) (idle : ∀ e ∈ s.slots, e.2.state ≠ .running) :
    EntryPasses s p tag clkPage 0x008 sel.toNat .clk where
  page := rfl
  inPage := by decide
  aligned := rfl
  exists_ := nofun
  bits := by
    have mask : ∀ w : BitVec 2, (BitVec.ofNat 32 w.toNat : W32) &&& ~~~(BitVec.ofNat 32 3) = 0 := by decide
    exact ⟨3, rfl, mask sel⟩
  range := by
    have h3 : sel.toNat ≠ 3 := fun e => known (BitVec.eq_of_toNat_eq e)
    have h2 : ¬(sel.toNat = 2 ∧ s.ledger.role = 2) := fun e => other ⟨BitVec.eq_of_toNat_eq e.1, e.2⟩
    simpa [State.rangeBad, Page.timeouts, h3] using h2
  permitted := by simp [State.forbidden, holder]
  reachable := rfl
  state := by
    have free : s.firstSlot (fun x => decide (x.state = .running)) = none :=
      firstSlot_none _ _ fun e he => by simp [idle e he]
    simp [State.stateFault, free]

theorem refSel_acts {s : State} {p : Nat} {tag : BitVec 32} {sel : BitVec 2}
    (h : EntryPasses s p tag clkPage 0x008 sel.toNat .clk) :
    State.entryAct p tag s (clkPage * 4096 + 0x008) sel.toNat
      = { s with clock := if sel = s.clock.refSel then s.clock
                          else { s.clock with refSel := sel, refLock := decide (sel = 0), refOffset := 0, holdover := false } } := by
  have small : sel.toNat % 4 = sel.toNat := Nat.mod_eq_of_lt sel.isLt
  have zero : sel.toNat = 0 ↔ sel = 0 := ⟨fun e => BitVec.eq_of_toNat_eq e, fun e => by simp [e]⟩
  have set : s.setCtrl .clk sel.toNat
      = { s with clock := if sel = s.clock.refSel then s.clock
                          else { s.clock with refSel := sel, refLock := decide (sel = 0), refOffset := 0, holdover := false } } := by
    unfold State.setCtrl
    by_cases same : sel = s.clock.refSel
    · simp [same, Nat.mod_eq_of_lt s.clock.refSel.isLt]
    · have ne : s.clock.refSel.toNat ≠ sel.toNat := fun e => same (BitVec.eq_of_toNat_eq e.symm)
      simp [small, ne, same, zero]
  unfold State.entryAct
  rw [h.entrySet]
  exact set

/-- The value that GOV_CTRL takes: FIXED in bit 31, VARIANT in bits 30 to 27 (R310). -/
def govWord (fixed : Bool) (v : BitVec 4) : Nat := fixed.toNat * 2 ^ 31 + v.toNat * 2 ^ 27

theorem govWord_fixed (fixed : Bool) (v : BitVec 4) : govWord fixed v / 2147483648 = fixed.toNat := by
  have := v.isLt
  unfold govWord
  cases fixed <;> simp only [Bool.toNat_false, Bool.toNat_true] <;> omega

theorem govWord_variant (fixed : Bool) (v : BitVec 4) : govWord fixed v / 134217728 % 16 = v.toNat := by
  have := v.isLt
  unfold govWord
  cases fixed <;> simp only [Bool.toNat_false, Bool.toNat_true] <;> omega

theorem govCtrl_passes {s : State} {p : Nat} {tag : BitVec 32} {fixed : Bool} {v : BitVec 4} (holder : s.holds p = true)
    (serves : (s.slot s.adm.gsel.toNat).isDeployment = true → (s.slot s.adm.gsel.toNat).isHead = true
      ∧ v.toNat < (s.slot s.adm.gsel.toNat).variants ∧ (fixed = true → s.eligible s.adm.gsel.toNat v.toNat = true)) :
    EntryPasses s p tag govPage 0x104 (govWord fixed v) .gov where
  page := rfl
  inPage := by decide
  aligned := rfl
  exists_ := nofun
  bits := by
    have mask : ∀ (b : Bool) (w : BitVec 4), (BitVec.ofNat 32 (govWord b w) : W32) &&& ~~~(BitVec.ofNat 32 0xF8000000) = 0 := by
      decide
    exact ⟨0xF8000000, rfl, mask fixed v⟩
  range := by
    have fits : (s.slot s.adm.gsel.toNat).isDeployment = true → v.toNat < (s.slot s.adm.gsel.toNat).variants :=
      fun d => (serves d).2.1
    simpa [State.rangeBad, govWord_variant] using fits
  permitted := by
    have head : (s.slot s.adm.gsel.toNat).isDeployment = true → (s.slot s.adm.gsel.toNat).isHead = true :=
      fun d => (serves d).1
    simpa [State.forbidden, holder] using head
  reachable := rfl
  state := by
    have able : fixed = true → (s.slot s.adm.gsel.toNat).isDeployment = true →
        s.eligible s.adm.gsel.toNat v.toNat = true := fun f d => (serves d).2.2 f
    cases fixed <;> simp_all [State.stateFault, govWord_variant, govWord_fixed]

theorem modSlot_slot (s : State) (i j : Nat) (f : Slot → Slot) :
    (s.modSlot i f).slot j = if j = i then f (s.slot i) else s.slot j := by
  unfold State.modSlot State.slot
  by_cases h : j = i
  · subst h; simp
  · simp [h, Tbl.get_modify_ne]

/-- A slot whose governor has taken GOV_CTRL: AUTO after FIXED starts with both run counters at 0 (R305). -/
def Slot.steered (fixed : Bool) (v : BitVec 4) (x : Slot) : Slot :=
  { x with gov := { x.gov with
      fixed := fixed, variant := v
      upRun := if x.gov.fixed = true ∧ fixed = false then 0 else x.gov.upRun
      downRun := if x.gov.fixed = true ∧ fixed = false then 0 else x.gov.downRun } }

theorem govCtrl_acts {s : State} {p : Nat} {tag : BitVec 32} {fixed : Bool} {v : BitVec 4}
    (h : EntryPasses s p tag govPage 0x104 (govWord fixed v) .gov) :
    State.entryAct p tag s (govPage * 4096 + 0x104) (govWord fixed v)
      = s.modSlot s.adm.gsel.toNat (Slot.steered fixed v) := by
  have variant : BitVec.ofNat 4 (govWord fixed v / 134217728) = v := by
    apply BitVec.eq_of_toNat_eq
    rw [BitVec.toNat_ofNat]
    exact govWord_variant fixed v
  have set (g : Governor) : g.set 0x104 (govWord fixed v) = { g with
      fixed := fixed, variant := v
      upRun := if g.fixed = true ∧ fixed = false then 0 else g.upRun
      downRun := if g.fixed = true ∧ fixed = false then 0 else g.downRun } := by
    cases fixed <;> cases e : g.fixed <;> simp [Governor.set, govWord_fixed, variant, e]
  unfold State.entryAct
  rw [h.entrySet]
  show s.modSlot s.adm.gsel.toNat (fun x => { x with gov := x.gov.set 0x104 (govWord fixed v) }) = _
  simp only [set]
  rfl

theorem yield_passes {s : State} {p : Nat} {tag : BitVec 32} (holder : s.holds p = true) (other : s.live (1 - p) = true)
    (free : ∀ c ∈ (s.port p).cmds, c.tag ≠ tag →
      needsCharter c.code = false ∧ c.wait ≠ .yield ∧ ∀ l, c.wait ≠ .isolate l) :
    EntryPasses s p tag chtPage 0x008 1 .cht where
  page := rfl
  inPage := by decide
  aligned := rfl
  exists_ := nofun
  bits := ⟨1, rfl, rfl⟩
  range := rfl
  permitted := by simp [State.forbidden, holder]
  reachable := rfl
  state := by
    show s.yieldFault p tag 0 = none
    unfold State.yieldFault
    rw [other]
    refine (if_neg (by decide)).trans (if_neg fun bars => ?_)
    obtain ⟨c, hc, bar⟩ := List.any_eq_true.mp bars
    obtain ⟨foreign, bar⟩ := Bool.and_eq_true_iff.mp bar
    obtain ⟨code, yields, isolates⟩ := free c hc (of_decide_eq_true foreign)
    cases w : c.wait <;> simp_all

/-- A yield stands until it is applied (R449). -/
theorem yield_acts {s : State} {p : Nat} {tag : BitVec 32} (h : EntryPasses s p tag chtPage 0x008 1 .cht) :
    State.entryAct p tag s (chtPage * 4096 + 0x008) 1
      = { s with charter := { s.charter with yieldPending := some (p, tag) } } := by
  unfold State.entryAct
  rw [h.entrySet]
  rfl

-- both ledgers

theorem modDieLedger_dieLedger (s : State) (p q : Nat) (f : DieLedger → DieLedger) :
    (s.modDieLedger p f).dieLedger q = if q = p then f (s.dieLedger p) else s.dieLedger q := by
  unfold State.modDieLedger State.dieLedger
  by_cases h : q = p
  · subst h; simp
  · simp [h, Tbl.get_modify_ne]

/-- The same change of both dies' ledgers. -/
theorem modBoth_dieLedger (s : State) (f : DieLedger → DieLedger) (d : Nat) :
    ((s.modDieLedger 0 f).modDieLedger 1 f).dieLedger d = if d < 2 then f (s.dieLedger d) else s.dieLedger d := by
  simp only [modDieLedger_dieLedger]
  match d with
  | 0 => rfl
  | 1 => rfl
  | n + 2 => simp

theorem leadDie_lt (s : State) : s.leadDie < 2 := by
  unfold State.leadDie
  split <;> decide

theorem dropSlew_dieLedger (s : State) (d : Nat) :
    s.dropSlew.dieLedger d = if d < 2 then { s.dieLedger d with slew := 0, cyc := 0 } else s.dieLedger d :=
  modBoth_dieLedger s (fun l => { l with slew := 0, cyc := 0 }) d

theorem stepLedgers_dieLedger (s : State) (n : Int) (d : Nat) :
    (s.stepLedgers n).dieLedger d
      = if d < 2 then { s.dieLedger d with now := (s.dieLedger d).now + BitVec.ofInt 64 n } else s.dieLedger d :=
  modBoth_dieLedger s (fun l => { l with now := l.now + BitVec.ofInt 64 n }) d

-- the latest slips of the up neighbours (R239)

/-- Where one key's offer is greater than all others, a search that keeps the greatest offer ends with it. -/
theorem foldl_keeps_greatest {f : Option (Nat × Nat) → Nat → Option (Nat × Nat)} {l : List Nat} {n : Nat} {v : Nat × Nat}
    (mem : n ∈ l) (takes : ∀ b, (∀ x ∈ b, x.1 < v.1) → f b n = some v)
    (below : ∀ m ∈ l, m ≠ n → ∀ b : Option (Nat × Nat), (∀ x ∈ b, x.1 < v.1) → ∀ x ∈ f b m, x.1 < v.1)
    (stays : ∀ m ∈ l, f (some v) m = some v) : l.foldl f none = some v := by
  obtain ⟨before, after, rfl, first⟩ := List.eq_append_cons_of_mem mem
  have low : ∀ x ∈ before.foldl f none, x.1 < v.1 := by
    refine List.foldlRecOn (motive := fun b : Option (Nat × Nat) => ∀ x ∈ b, x.1 < v.1) before f nofun
      fun b hb m hm => below m (List.mem_append_left _ hm) (fun e => first (e ▸ hm)) b hb
  rw [List.foldl_append, List.foldl_cons, takes _ low]
  exact List.foldlRecOn (motive := fun b => b = some v) after f rfl
    fun b hb m hm => by rw [hb, stays m (List.mem_append_right _ (List.mem_cons_of_mem _ hm))]

theorem latestTx_none (s : State) (h : ∀ n, n < 64 → (s.fport n).state ≠ .up) : s.latestTx = none := by
  unfold State.latestTx
  refine List.foldlRecOn (motive := fun b => b = none) _ _ rfl fun b hb n hn => ?_
  split
  · next up _ => exact absurd up (h n (List.mem_range.mp hn))
  · exact hb

theorem latestTx_greatest (s : State) (n : Nat) (x : SlipRec) (hn : n < 64) (up : (s.fport n).state = .up)
    (slip : (s.fport n).slip = some x)
    (greatest : ∀ m y, m < 64 → m ≠ n → (s.fport m).state = .up → (s.fport m).slip = some y → y.tx.toNat < x.tx.toNat) :
    s.latestTx = some (x.tx.toNat, (s.fport n).delay.toNat) := by
  unfold State.latestTx
  refine foldl_keeps_greatest (n := n) (List.mem_range.mpr hn) ?_ ?_ ?_
  · intro b hb
    cases b with
    | none => simp [up, slip]
    | some b => simp [up, slip, hb b rfl]
  · intro m hm other b hb
    split
    · next y upm slipm =>
      have less := greatest m y (List.mem_range.mp hm) other upm slipm
      split
      · split
        · simpa using less
        · exact hb
      · simpa using less
    · exact hb
  · intro m hm
    split
    · next y upm slipm =>
      have le : ¬ x.tx.toNat < y.tx.toNat := by
        by_cases own : m = n
        · subst own
          rw [slip] at slipm
          cases slipm
          exact lt_irrefl _
        · exact (greatest m y (List.mem_range.mp hm) own upm slipm).not_gt
      exact if_neg le
    · rfl

-- LDG_CTRL (R235, R236, R239)

theorem rootForward_frame (s : State) : s.rootForward = { s with
    ledgers := s.rootForward.ledgers, ledger := { s.ledger with steps := s.rootForward.ledger.steps } } := by
  unfold State.rootForward
  split
  · dsimp only
    split <;> rfl
  · rfl

/-- A module that enters ROOT steps its ledger forward to what the latest slips say, never back (R239). -/
theorem rootForward_now (s : State) (tx delay : Nat) (latest : s.latestTx = some (tx, delay)) (small : tx + delay < 2 ^ 64) :
    (s.rootForward.dieLedger s.leadDie).now.toNat = max (s.dieLedger s.leadDie).now.toNat (tx + delay) := by
  unfold State.rootForward
  rw [latest]
  dsimp only
  split
  · next ahead =>
    rw [stepLedgers_dieLedger, if_pos (leadDie_lt s)]
    dsimp only
    rw [BitVec.ofInt_natCast, BitVec.toNat_add, BitVec.toNat_ofNat]
    omega
  · omega

/-- LDG_CTRL as written (R438). -/
def State.withRole (s : State) (role : BitVec 2) (parent : BitVec 6) : State :=
  { s with ledger := { s.ledger with role := role, parentPort := parent } }

/-- The timing tree of a module that has entered ROOT (R235, R239). -/
def State.atRoot (s : State) : State :=
  { s.rootForward with ledger := { s.rootForward.ledger with
      parent := none, dist := 0, rootId := s.srcId, state := .root, goodRun := 0, missed := 0 } }

/-- The timing tree of a ROOT that has left it: HOLDOVER without a slew (R236). -/
def State.leftRoot (s : State) : State :=
  { s.dropSlew with ledger := { s.ledger with dist := 15, state := .holdover, goodRun := 0, missed := 0 } }

/-- What a change of ROLE makes of the timing tree, reports apart: ROOT entered, left, or neither. -/
def State.roleTaken (s : State) (old : BitVec 2) : State :=
  if s.ledger.role = 2 then if s.ledger.state = .root then s else s.atRoot
  else if old = 2 ∧ s.ledger.state = .root then s.leftRoot else s

theorem setLdg_root (s : State) (away : s.ledger.state ≠ .root) :
    s.setLdg .root = ({ s with ledger := { s.ledger with state := .root, goodRun := 0, missed := 0 } }).raise ldgPage 0
      [BitVec.ofNat 8 LdgState.root.code] := if_neg away

theorem setLdg_holdover (s : State) (away : s.ledger.state ≠ .holdover) :
    s.setLdg .holdover = ({ s.dropSlew with ledger := { s.ledger with state := .holdover, goodRun := 0, missed := 0 } }).raise
      ldgPage 0 [BitVec.ofNat 8 LdgState.holdover.code] := if_neg away

/-- What ROLE starts is reported as a change of the ledger state, where there is one (R236, R438). -/
theorem roleChanged_raises (s : State) (old : BitVec 2) :
    s.roleChanged old = s.roleTaken old ∨ ∃ st, s.roleChanged old = (s.roleTaken old).raise ldgPage 0 st := by
  unfold State.roleChanged State.roleTaken
  by_cases role : s.ledger.role = 2
  · by_cases root : s.ledger.state = .root
    · exact .inl (by rw [if_pos role, if_pos role, if_pos root, if_pos root])
    · have frame := rootForward_frame s
      have away : s.rootForward.ledger.state ≠ .root := by rw [frame]; exact root
      have src : s.rootForward.srcId = s.srcId := by rw [frame]; rfl
      refine .inr ⟨[BitVec.ofNat 8 LdgState.root.code], ?_⟩
      rw [if_pos role, if_pos role, if_neg root, if_neg root]
      simp only [src]
      exact setLdg_root _ away
  · by_cases leaves : old = 2 ∧ s.ledger.state = .root
    · have away : s.ledger.state ≠ .holdover := by rw [leaves.2]; decide
      refine .inr ⟨[BitVec.ofNat 8 LdgState.holdover.code], ?_⟩
      rw [if_neg role, if_neg role, if_pos leaves, if_pos leaves]
      exact setLdg_holdover _ away
    · exact .inl (by rw [if_neg role, if_neg role, if_neg leaves, if_neg leaves])

theorem roleChanged_reports (s : State) (old : BitVec 2) : OnlyReports (s.roleTaken old) (s.roleChanged old) := by
  obtain h | ⟨st, h⟩ := roleChanged_raises s old <;> rw [h]
  · exact .refl _
  · exact raise_reports ..

theorem roleTaken_frame (s : State) (old : BitVec 2) :
    s.roleTaken old = { s with ledgers := (s.roleTaken old).ledgers, ledger := (s.roleTaken old).ledger } := by
  have root : s.atRoot = { s with ledgers := s.atRoot.ledgers, ledger := s.atRoot.ledger } := by
    unfold State.atRoot
    rw [rootForward_frame s]
  unfold State.roleTaken
  split
  · split
    · rfl
    · exact root
  · split <;> rfl

theorem roleChanged_cmds (s : State) (old : BitVec 2) : SameCmds s (s.roleChanged old) := by
  have taken : SameCmds s (s.roleTaken old) := by
    rw [roleTaken_frame]
    exact ⟨fun _ => rfl⟩
  obtain h | ⟨st, h⟩ := roleChanged_raises s old <;> rw [h]
  · exact taken
  · exact taken.trans (raise_cmds ..)

theorem withRole_cmds (s : State) (role : BitVec 2) (parent : BitVec 6) : SameCmds s (s.withRole role parent) :=
  ⟨fun _ => rfl⟩

-- what LDG_CTRL makes of the timing tree, by ROLE before and after

theorem roleTaken_enters (s : State) (old : BitVec 2) (role : s.ledger.role = 2) (away : s.ledger.state ≠ .root) :
    s.roleTaken old = s.atRoot := by
  rw [State.roleTaken, if_pos role, if_neg away]

theorem roleTaken_leaves (s : State) (role : s.ledger.role ≠ 2) (root : s.ledger.state = .root) :
    s.roleTaken 2 = s.leftRoot := by
  rw [State.roleTaken, if_neg role, if_pos ⟨rfl, root⟩]

theorem roleTaken_stays (s : State) (old : BitVec 2) (not_entered : s.ledger.role = 2 → s.ledger.state = .root)
    (not_left : s.ledger.role = 2 ∨ ¬(old = 2 ∧ s.ledger.state = .root)) : s.roleTaken old = s := by
  unfold State.roleTaken
  by_cases role : s.ledger.role = 2
  · rw [if_pos role, if_pos (not_entered role)]
  · rw [if_neg role, if_neg (not_left.resolve_left role)]

theorem atRoot_ledger (s : State) : s.atRoot.ledger = { s.ledger with
    parent := none, dist := 0, rootId := s.srcId, state := .root, goodRun := 0, missed := 0
    steps := s.rootForward.ledger.steps } := by
  unfold State.atRoot
  rw [rootForward_frame s]

/-- Without a slip of an up neighbour a module that enters ROOT keeps its ledgers (R239). -/
theorem atRoot_ledgers (s : State) (quiet : ∀ n, n < 64 → (s.fport n).state ≠ .up) : s.atRoot.ledgers = s.ledgers := by
  unfold State.atRoot State.rootForward
  rw [latestTx_none s quiet]

theorem OnlyReports.ledger {s t : State} (h : OnlyReports s t) : t.ledger = s.ledger := by rw [h]
theorem OnlyReports.ledgers {s t : State} (h : OnlyReports s t) : t.ledgers = s.ledgers := by rw [h]

theorem OnlyReports.dieLedger {s t : State} (h : OnlyReports s t) (d : Nat) : t.dieLedger d = s.dieLedger d := by
  rw [h]
  rfl

theorem ldgRole_passes {s : State} {p : Nat} {tag : BitVec 32} {role : BitVec 2} {parent : BitVec 6}
    (holder : s.holds p = true) (known : role ≠ 3) (other : ¬(role = 2 ∧ s.clock.refSel = 2)) :
    EntryPasses s p tag ldgPage 0x008 (role.toNat + 4 * parent.toNat) .ldg where
  page := rfl
  inPage := by decide
  aligned := rfl
  exists_ := nofun
  bits := by
    have mask : ∀ (r : BitVec 2) (q : BitVec 6),
        (BitVec.ofNat 32 (r.toNat + 4 * q.toNat) : W32) &&& ~~~(BitVec.ofNat 32 0xFF) = 0 := by decide
    exact ⟨0xFF, rfl, mask role parent⟩
  range := by
    have low : (role.toNat + 4 * parent.toNat) % 4 = role.toNat := by have := role.isLt; omega
    have h3 : role.toNat ≠ 3 := fun e => known (BitVec.eq_of_toNat_eq e)
    have h2 : ¬(role.toNat = 2 ∧ s.clock.refSel = 2) := fun e => other ⟨BitVec.eq_of_toNat_eq e.1, e.2⟩
    simpa [State.rangeBad, Page.timeouts, low, h3] using h2
  permitted := by simp [State.forbidden, holder]
  reachable := rfl
  state := rfl

theorem ldgRole_acts {s : State} {p : Nat} {tag : BitVec 32} {role : BitVec 2} {parent : BitVec 6}
    (h : EntryPasses s p tag ldgPage 0x008 (role.toNat + 4 * parent.toNat) .ldg) :
    State.entryAct p tag s (ldgPage * 4096 + 0x008) (role.toNat + 4 * parent.toNat)
      = (s.withRole role parent).roleChanged s.ledger.role := by
  have low : BitVec.ofNat 2 (role.toNat + 4 * parent.toNat) = role := by
    apply BitVec.eq_of_toNat_eq
    rw [BitVec.toNat_ofNat]
    have := role.isLt
    omega
  have high : BitVec.ofNat 6 ((role.toNat + 4 * parent.toNat) / 4) = parent := by
    apply BitVec.eq_of_toNat_eq
    rw [BitVec.toNat_ofNat]
    have := role.isLt
    have := parent.isLt
    omega
  have set : s.setCtrl .ldg (role.toNat + 4 * parent.toNat) = s.withRole role parent := by
    simp only [State.setCtrl, low, high, State.withRole]
  unfold State.entryAct
  rw [h.entrySet]
  show (s.setCtrl .ldg (role.toNat + 4 * parent.toNat)).roleChanged s.ledger.role = _
  rw [set]


section LdgCtrl

/-! The timing tree and the ledgers after LDG_CTRL has taken `role` and `parent` in state `s`. -/

variable (s : State) (role : BitVec 2) (parent : BitVec 6)

/-- What LDG_CTRL makes of a state, reports apart. -/
def State.ldgCtrl : State := (s.withRole role parent).roleTaken s.ledger.role

variable {role parent}

theorem ldgCtrl_enters (enters : role = 2) (away : s.ledger.state ≠ .root) :
    s.ldgCtrl role parent = (s.withRole role parent).atRoot :=
  roleTaken_enters (s.withRole role parent) _ enters away

theorem ldgCtrl_leaves (follows : role ≠ 2) (was : s.ledger.role = 2) (root : s.ledger.state = .root) :
    s.ldgCtrl role parent = (s.withRole role parent).leftRoot := by
  unfold State.ldgCtrl
  rw [was]
  exact roleTaken_leaves (s.withRole role parent) follows root

theorem ldgCtrl_stays (not_entered : role = 2 → s.ledger.state = .root)
    (not_left : role = 2 ∨ ¬(s.ledger.role = 2 ∧ s.ledger.state = .root)) :
    s.ldgCtrl role parent = s.withRole role parent :=
  roleTaken_stays (s.withRole role parent) _ not_entered not_left

variable (role parent) in
theorem ldgCtrl_fields :
    (s.ldgCtrl role parent).ledger.role = role ∧ (s.ldgCtrl role parent).ledger.parentPort = parent
      ∧ (s.ldgCtrl role parent).ledger.state = (if role = 2 then .root
          else if s.ledger.role = 2 ∧ s.ledger.state = .root then .holdover else s.ledger.state) := by
  by_cases enters : role = 2
  · by_cases root : s.ledger.state = .root
    · rw [ldgCtrl_stays s (fun _ => root) (.inl enters), if_pos enters]
      exact ⟨rfl, rfl, root⟩
    · rw [ldgCtrl_enters s enters root, atRoot_ledger, if_pos enters]
      exact ⟨rfl, rfl, rfl⟩
  · by_cases leaves : s.ledger.role = 2 ∧ s.ledger.state = .root
    · rw [ldgCtrl_leaves s enters leaves.1 leaves.2, if_neg enters, if_pos leaves]
      exact ⟨rfl, rfl, rfl⟩
    · rw [ldgCtrl_stays s (fun r => absurd r enters) (.inr leaves), if_neg enters, if_neg leaves]
      exact ⟨rfl, rfl, rfl⟩

theorem ldgCtrl_ledgers_kept
    (still : role ≠ 2 ∨ s.ledger.state = .root ∨ ∀ n, n < 64 → (s.fport n).state ≠ .up)
    (stays : role = 2 ∨ ¬(s.ledger.role = 2 ∧ s.ledger.state = .root)) :
    (s.ldgCtrl role parent).ledgers = s.ledgers := by
  by_cases enters : role = 2 ∧ s.ledger.state ≠ .root
  · obtain follows | root | quiet := still
    · exact absurd enters.1 follows
    · exact absurd root enters.2
    · rw [ldgCtrl_enters s enters.1 enters.2]
      exact atRoot_ledgers (s.withRole role parent) quiet
  · rw [ldgCtrl_stays s (fun r => not_not.mp fun n => enters ⟨r, n⟩) stays]
    rfl

theorem leftRoot_dieLedger (d : Nat) :
    s.leftRoot.dieLedger d = if d < 2 then { s.dieLedger d with slew := 0, cyc := 0 } else s.dieLedger d :=
  dropSlew_dieLedger s d

/-- Where no slip moves them, the ledgers keep their values: leaving ROOT ends a slew alone. -/
theorem ldgCtrl_now_kept (still : role ≠ 2 ∨ s.ledger.state = .root ∨ ∀ n, n < 64 → (s.fport n).state ≠ .up) (d : Nat) :
    ((s.ldgCtrl role parent).dieLedger d).now = (s.dieLedger d).now := by
  by_cases leaves : role ≠ 2 ∧ s.ledger.role = 2 ∧ s.ledger.state = .root
  · obtain ⟨follows, was, root⟩ := leaves
    rw [ldgCtrl_leaves s follows was root, leftRoot_dieLedger]
    split <;> rfl
  · have stays : role = 2 ∨ ¬(s.ledger.role = 2 ∧ s.ledger.state = .root) := by tauto
    unfold State.dieLedger
    rw [ldgCtrl_ledgers_kept s still stays]

/-- The greatest TX of the latest slips moves the ledger of a module that enters ROOT (R239). -/
theorem ldgCtrl_forward (enters : role = 2) (away : s.ledger.state ≠ .root) {n : Nat} {x : SlipRec} (hn : n < 64)
    (up : (s.fport n).state = .up) (slip : (s.fport n).slip = some x)
    (greatest : ∀ m y, m < 64 → m ≠ n → (s.fport m).state = .up → (s.fport m).slip = some y → y.tx.toNat < x.tx.toNat)
    (small : x.tx.toNat + (s.fport n).delay.toNat < 2 ^ 64) :
    ((s.ldgCtrl role parent).dieLedger s.leadDie).now.toNat
      = max (s.dieLedger s.leadDie).now.toNat (x.tx.toNat + (s.fport n).delay.toNat) := by
  rw [ldgCtrl_enters s enters away]
  exact rootForward_now (s.withRole role parent) _ _ (latestTx_greatest (s.withRole role parent) n x hn up slip greatest) small

theorem ldgCtrl_frame : s.ldgCtrl role parent = { s with
    ledger := (s.ldgCtrl role parent).ledger, ledgers := (s.ldgCtrl role parent).ledgers } :=
  roleTaken_frame (s.withRole role parent) s.ledger.role

/-- A state that is what LDG_CTRL leaves but for reports is what the state before was but for the ledgers and reports. -/
theorem ldgCtrl_reports {t : State} (h : OnlyReports (s.ldgCtrl role parent) t) :
    OnlyReports { s with ledger := t.ledger, ledgers := t.ledgers } t := by
  rw [h.ledger, h.ledgers, ← ldgCtrl_frame s]
  exact h

end LdgCtrl

/-- Settles O52: each register's entry passes its checks, what it stores and starts is said by its lemma, and the command
completes with OK, the yield apart, which waits. -/
theorem moduleRegistersTakeEffect : Obligations.ModuleRegistersTakeEffect := by
  unfold Obligations.ModuleRegistersTakeEffect
  intro p tag s accepts
  refine ⟨fun n bits g page defined fitted holder reach => ?_, fun holder => ⟨fun on archival => ?_,
    fun sel known other idle => ?_, fun role parent known other => ?_, fun fixed v serves => ?_, fun other free => ?_⟩⟩
  · have passes : EntryPasses (s.writing p tag) p tag n.toNat 0x01C bits.toNat g :=
      evtClear_passes page defined fitted holder reach
    obtain ⟨l, ends, done⟩ := writeOne_completes accepts passes (passes.isolates_nothing fun _ _ => by decide)
      (entryYields_eq_false _ _ _ (by decide) (.inr (by decide))) (evtClear_acts passes) (modPage_cmds ..)
    have pages (m : Nat) := modPage_page (s.writing p tag) n.toNat m fun x => { x with evtRaw := x.evtRaw &&& ~~~bits }
    exact ⟨_, congrArg Host.Outcome.next ends, rfl, (pages n.toNat).trans (if_pos rfl),
      fun m ne => (pages m).trans (if_neg ne), done⟩
  · have passes : EntryPasses (s.writing p tag) p tag genPage 0x008 on.toNat .gen := archivalOnly_passes holder archival
    obtain ⟨l, ends, done⟩ := writeOne_completes accepts passes (passes.isolates_nothing nofun)
      (entryYields_eq_false _ _ _ (by decide) (.inl (by decide))) (archivalOnly_acts passes) ⟨fun _ => rfl⟩
    exact ⟨_, congrArg Host.Outcome.next ends, rfl, rfl, done⟩
  · have passes : EntryPasses (s.writing p tag) p tag clkPage 0x008 sel.toNat .clk := refSel_passes holder known other idle
    obtain ⟨l, ends, done⟩ := writeOne_completes accepts passes (passes.isolates_nothing nofun)
      (entryYields_eq_false _ _ _ (by decide) (.inl (by decide))) (refSel_acts passes) ⟨fun _ => rfl⟩
    refine ⟨_, congrArg Host.Outcome.next ends, rfl, ?_, fun same => if_pos same, fun ne => if_neg ne, done⟩
    show (if sel = s.clock.refSel then s.clock else _).refSel = sel
    split
    · exact .symm ‹_›
    · rfl
  · have passes : EntryPasses (s.writing p tag) p tag ldgPage 0x008 (role.toNat + 4 * parent.toNat) .ldg :=
      ldgRole_passes holder known other
    obtain ⟨l, ends, done⟩ := writeOne_completes accepts passes (passes.isolates_nothing nofun)
      (entryYields_eq_false _ _ _ (by decide) (.inl (by decide))) (ldgRole_acts passes)
      ((withRole_cmds ..).trans (roleChanged_cmds ..))
    obtain ⟨t, is⟩ : ∃ t, t = { ((s.writing p tag).withRole role parent).roleChanged s.ledger.role with ports := l } :=
      ⟨_, rfl⟩
    have frame : OnlyReports ((s.writing p tag).ldgCtrl role parent) t := by
      rw [is]
      exact (roleChanged_reports ..).trans rfl
    have apart := ldgCtrl_reports (s.writing p tag) frame
    have fields := ldgCtrl_fields (s.writing p tag) role parent
    refine ⟨t, congrArg Host.Outcome.next (ends.trans is.symm), apart, fun still => ⟨fun d => ?_, fun stays => ?_⟩,
      fun follows was root => ?_, fun enters away => ?_, fun enters away n x hn up slip greatest small => ?_, ?_, ?_, ?_, ?_⟩
    · rw [frame.dieLedger]
      exact ldgCtrl_now_kept (s.writing p tag) still d
    · rw [frame.ledgers]
      exact ldgCtrl_ledgers_kept (s.writing p tag) still stays
    · rw [frame.ledger, ldgCtrl_leaves (s.writing p tag) follows was root]
      refine ⟨rfl, fun d hd => ?_⟩
      rw [frame.dieLedger, ldgCtrl_leaves (s.writing p tag) follows was root, leftRoot_dieLedger, if_pos hd]
    · rw [frame.ledger, ldgCtrl_enters (s.writing p tag) enters away, atRoot_ledger]
      exact ⟨rfl, rfl, rfl⟩
    · rw [frame.dieLedger]
      exact ldgCtrl_forward (s.writing p tag) enters away hn up slip greatest small
    · rw [frame.ledger, fields.1]
    · rw [frame.ledger, fields.2.1]
    · rw [frame.ledger, fields.2.2]
      rfl
    · rw [is]
      exact done
  · have passes : EntryPasses (s.writing p tag) p tag govPage 0x104 (govWord fixed v) .gov := govCtrl_passes holder serves
    obtain ⟨l, ends, done⟩ := writeOne_completes accepts passes (passes.isolates_nothing nofun)
      (entryYields_eq_false _ _ _ (by decide) (.inl (by decide))) (govCtrl_acts passes) ⟨fun _ => rfl⟩
    have slots (j : Nat) := modSlot_slot (s.writing p tag) s.adm.gsel.toNat j (Slot.steered fixed v)
    exact ⟨_, congrArg Host.Outcome.next ends, rfl, (slots _).trans (if_pos rfl),
      fun j ne => (slots j).trans (if_neg ne), done⟩
  · have passes : EntryPasses (s.writing p tag) p tag chtPage 0x008 1 .cht := yield_passes holder other ?_
    · have all := writeAll_yields passes (by decide)
      rw [yield_acts passes] at all
      have ends : s.writeOne p tag chtPage 0x008 1 = State.setWait { s.writing p tag with
          charter := { s.charter with yieldPending := some (p.val, tag) } } p tag .yield := by
        rw [writeOne_operates accepts, State.operate, all]
        exact if_pos (begun_inProgress s p tag 0x03)
      refine ⟨_, congrArg Host.Outcome.next ends, rfl, rfl, ⟨tag, 0x03, classOf 0x03, 1, [], .yield⟩, ?_, rfl, rfl⟩
      simp [State.setWait, State.modPort, State.port, State.writing, State.begun]
    · intro c hc foreign
      rw [State.writing, begun_port_self] at hc
      obtain hc | hc := List.mem_append.mp hc
      · exact free c hc
      · rw [List.mem_singleton.mp hc] at foreign
        exact absurd rfl foreign

end Sys2Proof.Machine

/-! PROOFS. What a tick samples and what the module does after it: the supply, the regions and the counts of the lease are
written by their own evaluation alone. One lemma per operation, in the model's order, says that the operation leaves the
readings of a tick as they are. -/

namespace Sys2Proof.Machine

open Sys2Proof

/-- What a tick's evaluations take (R29 to R31, R230, R233, R446) and the bytes of memory. -/
structure Readings where
  mem : Memory
  regions : Tbl Region
  dieClocks : Tbl DieClock
  /-- the supply's record but for the bring-up bits -/
  supply : Power
  lastTick : Nat
  sinceA : Option Nat
  sinceB : Option Nat
  /-- whether a die's curator takes commands -/
  up : Nat → Bool

def State.readings (s : State) : Readings :=
  ⟨s.mem, s.regions, s.dieClocks, { s.power with boot := 0 }, s.ledger.lastTick, s.charter.sinceA, s.charter.sinceB,
    s.curatorUp⟩

-- how states are built

/-- A record update that writes none of a tick's readings. -/
@[simp] theorem readings_mk (a : State) (fuses upsets cores clusters pages logs ports clock ledgers ledger windows admitted
    remote win tenants slots sessions adm fab fports routes cartridges engines oeSel editions acc accDie charter fwCur fwOpt
    sec gen power busData busLatch freeCtr pending) (tick : ledger.lastTick = a.ledger.lastTick)
    (beatA : charter.sinceA = a.charter.sinceA) (beatB : charter.sinceB = a.charter.sinceB)
    (supply : { power with boot := 0 } = { a.power with boot := 0 }) :
    (State.mk fuses a.mem upsets cores clusters pages logs ports a.regions a.dieClocks clock ledgers ledger windows
      admitted remote win tenants slots sessions adm fab fports routes cartridges engines oeSel editions acc accDie
      charter a.curators fwCur fwOpt sec gen power busData busLatch freeCtr pending).readings = a.readings := by
  simp only [State.readings, tick, beatA, beatB, supply]
  rfl

@[simp] theorem ite_readings {p : Prop} [Decidable p] (s t : State) :
    (if p then s else t).readings = if p then s.readings else t.readings := apply_ite ..

@[simp] theorem ite_fst_readings {α : Type} {p : Prop} [Decidable p] (x y : State × α) :
    (if p then x else y).1.readings = if p then x.1.readings else y.1.readings :=
  apply_ite (fun x : State × α => x.1.readings) ..

theorem readings_of_ite {p : Prop} [Decidable p] {s t u : State} (h : t.readings = s.readings)
    (k : u.readings = s.readings) : (if p then t else u).readings = s.readings := by split <;> assumption

/-- The state of an answer that a match has taken apart. -/
theorem readings_of_fst_eq {α : Type} {x : State × α} {s t : State} {a : α} (e : x = (t, a))
    (k : x.1.readings = s.readings) : t.readings = s.readings := by
  rw [e] at k
  exact k

/-- A fold whose accumulator holds a state. -/
theorem foldl_readings_of {α β : Type} (g : β → State) (f : β → α → β) (l : List α) (x : β)
    (h : ∀ x a, (g (f x a)).readings = (g x).readings) : (g (l.foldl f x)).readings = (g x).readings := by
  induction l generalizing x with
  | nil => rfl
  | cons a l ih => exact (ih _).trans (h x a)

@[simp] theorem foldl_readings {α : Type} (f : State → α → State) (l : List α) (s : State)
    (h : ∀ s a, (f s a).readings = s.readings) : (l.foldl f s).readings = s.readings := foldl_readings_of id f l s h

theorem OnlyReports.readings {s t : State} (h : OnlyReports s t) : t.readings = s.readings := by
  rw [h]
  rfl

-- entries of the tables: `(rfl)`, so that they rewrite the side goal of `foldl_readings` too

@[simp] theorem modCore_readings (s : State) (c : Nat) (f : Core → Core) : (s.modCore c f).readings = s.readings := (rfl)
@[simp] theorem modSq_readings (s : State) (c : Nat) (f : Sequencer → Sequencer) : (s.modSq c f).readings = s.readings := (rfl)
@[simp] theorem modXf_readings (s : State) (c : Nat) (f : TransferUnit → TransferUnit) : (s.modXf c f).readings = s.readings :=
  (rfl)
@[simp] theorem modCar_readings (s : State) (c : Nat) (f : CarrelUnit → CarrelUnit) : (s.modCar c f).readings = s.readings :=
  (rfl)
@[simp] theorem modQueue_readings (s : State) (c q : Nat) (f : Endpoint → Endpoint) : (s.modQueue c q f).readings = s.readings :=
  (rfl)
@[simp] theorem modCluster_readings (s : State) (c : Nat) (f : Cluster → Cluster) : (s.modCluster c f).readings = s.readings :=
  (rfl)
@[simp] theorem modRing_readings (s : State) (c r : Nat) (f : Ring → Ring) : (s.modRing c r f).readings = s.readings := (rfl)
@[simp] theorem modPart_readings (s : State) (c p : Nat) (f : Part → Part) : (s.modPart c p f).readings = s.readings := (rfl)
@[simp] theorem modPage_readings (s : State) (p : Nat) (f : PageHdr → PageHdr) : (s.modPage p f).readings = s.readings := (rfl)
@[simp] theorem modLog_readings (s : State) (d : Nat) (f : EvLog → EvLog) : (s.modLog d f).readings = s.readings := (rfl)
@[simp] theorem modPort_readings (s : State) (p : Nat) (f : TsdPort → TsdPort) : (s.modPort p f).readings = s.readings := (rfl)
@[simp] theorem modDieLedger_readings (s : State) (d : Nat) (f : DieLedger → DieLedger) : (s.modDieLedger d f).readings = s.readings :=
  (rfl)
@[simp] theorem modWindow_readings (s : State) (h : Nat) (f : Window → Window) : (s.modWindow h f).readings = s.readings := (rfl)
@[simp] theorem modRemoteWin_readings (s : State) (h : Nat) (f : RemoteWin → RemoteWin) : (s.modRemoteWin h f).readings = s.readings :=
  (rfl)
@[simp] theorem modTenant_readings (s : State) (t : Nat) (f : Tenant → Tenant) : (s.modTenant t f).readings = s.readings := (rfl)
@[simp] theorem modSlot_readings (s : State) (i : Nat) (f : Slot → Slot) : (s.modSlot i f).readings = s.readings := (rfl)
@[simp] theorem modSession_readings (s : State) (i : Nat) (f : Session → Session) : (s.modSession i f).readings = s.readings :=
  (rfl)
@[simp] theorem modFport_readings (s : State) (p : Nat) (f : FabPort → FabPort) : (s.modFport p f).readings = s.readings := (rfl)
@[simp] theorem setRoute_readings (s : State) (r : Nat) (v : RouteEntry) : (s.setRoute r v).readings = s.readings := (rfl)
@[simp] theorem modCartridge_readings (s : State) (n : Nat) (f : Cartridge → Cartridge) : (s.modCartridge n f).readings = s.readings :=
  (rfl)
@[simp] theorem modEngine_readings (s : State) (n : Nat) (f : OptEngine → OptEngine) : (s.modEngine n f).readings = s.readings :=
  (rfl)
@[simp] theorem modEdition_readings (s : State) (i : Nat) (f : Edition → Edition) : (s.modEdition i f).readings = s.readings :=
  (rfl)

@[simp] theorem draw_readings (s : State) : s.draw.2.readings = s.readings := (rfl)

/-- A curator's own record, where it runs on as before. -/
@[simp] theorem modCurator_readings (s : State) (d : Nat) (f : Curator → Curator) (h : ∀ x, (f x).run = x.run) :
    (s.modCurator d f).readings = s.readings := by
  have up : (s.modCurator d f).curatorUp = s.curatorUp := by
    funext e
    unfold State.curatorUp State.modCurator State.curator
    by_cases same : e = d
    · subst same
      simp only [Tbl.get_modify_self, h]
    · simp only [Tbl.get_modify_ne _ _ _ _ _ same]
  simp only [State.readings, up]
  rfl

@[simp] theorem pumpPort_readings (s : State) (p : Nat) : (s.pumpPort p).readings = s.readings := by simp [State.pumpPort]

@[simp] theorem sendPacket_readings (s : State) (p : Nat) (q : TxPacket) : (s.sendPacket p q).readings = s.readings := by
  simp [State.sendPacket]

@[simp] theorem emit_readings (fuel : Nat) (s : State) (page bit : Nat) (detail : Bytes) :
    (s.emit fuel page bit detail).readings = s.readings := (emit_reports ..).readings

@[simp] theorem raise_readings (s : State) (page bit : Nat) (detail : Bytes) :
    (s.raise page bit detail).readings = s.readings := by
  simp [State.raise]

@[simp] theorem raise0_readings (s : State) (page bit : Nat) : (s.raise0 page bit).readings = s.readings := by simp [State.raise0]

@[simp] theorem raiseCap_readings (s : State) (page bit : Nat) (caps : List W32) (take : Bool) :
    (s.raiseCap page bit caps take).readings = s.readings := by
  simp [State.raiseCap]

@[simp] theorem capture_readings (s : State) (page bit : Nat) (caps : List W32) :
    (s.capture page bit caps).readings = s.readings := by
  simp [State.capture]

@[simp] theorem complete_readings (s : State) (p : Nat) (tag : BitVec 32) (r : Reply) :
    (s.complete p tag r).readings = s.readings := by
  unfold State.complete
  split <;> simp

@[simp] theorem endWait_readings (s : State) (w : CmdWait) : (s.endWait w).readings = s.readings := by
  unfold State.endWait
  split <;> simp

@[simp] theorem completeWhere_readings (s : State) (sel : CmdWait → Bool) (r : Reply) :
    (s.completeWhere sel r).readings = s.readings := by
  simp [State.completeWhere]

@[simp] theorem setWait_readings (s : State) (p : Nat) (tag : BitVec 32) (w : CmdWait) :
    (s.setWait p tag w).readings = s.readings := by
  simp [State.setWait]

@[simp] theorem operate_readings (s : State) (p : Nat) (tag : BitVec 32) (op : State → State × Answer)
    (h : ∀ s, (op s).1.readings = s.readings) : (s.operate p tag op).readings = s.readings := by
  unfold State.operate
  split
  · next t r e => simp [readings_of_fst_eq e (h s)]
  · next t w e => simp [readings_of_fst_eq e (h s)]

@[simp] theorem freeFlit_readings (s : State) (i vc : Nat) : (s.freeFlit i vc).readings = s.readings := by simp [State.freeFlit]

@[simp] theorem delayOwn_readings (s : State) (fs : List Flit) : (s.delayOwn fs).readings = s.readings := by simp [State.delayOwn]

@[simp] theorem pumpFport_readings (s : State) (n : Nat) : (s.pumpFport n).readings = s.readings := by simp [State.pumpFport]

@[simp] theorem markWaited_readings (s : State) (f : Flit) : (s.markWaited f).1.readings = s.readings := by
  simp [State.markWaited]

@[simp] theorem queueFlit_readings (s : State) (n ingress : Nat) (f : Flit) :
    (s.queueFlit n ingress f).readings = s.readings := by
  simp [State.queueFlit]

@[simp] theorem dropFlit_readings (s : State) : s.dropFlit.readings = s.readings := by simp [State.dropFlit]

@[simp] theorem sendOver_readings (s : State) (r : RouteEntry) (typ vc tsf : Nat) (payload : Bytes) :
    (s.sendOver r typ vc tsf payload).readings = s.readings := by
  simp [State.sendOver]

@[simp] theorem sendLocalFrom_readings (s : State) (n ingress typ vc : Nat) (payload : Bytes) :
    (s.sendLocalFrom n ingress typ vc payload).readings = s.readings := by
  simp [State.sendLocalFrom]

@[simp] theorem sendLocal_readings (s : State) (n typ vc : Nat) (payload : Bytes) :
    (s.sendLocal n typ vc payload).readings = s.readings := by
  simp [State.sendLocal]

@[simp] theorem answerFlit_readings (s : State) (ret hops typ vc tsf : Nat) (payload : Bytes) :
    (s.answerFlit ret hops typ vc tsf payload).readings = s.readings := by
  simp [State.answerFlit]

@[simp] theorem unforwarded_readings (s : State) (n : Nat) (f : Flit) (ret h : Nat) :
    (s.unforwarded n f ret h).readings = s.readings := by
  simp [State.unforwarded]

@[simp] theorem autoFree_readings (s : State) (i : Nat) : (s.autoFree i).readings = s.readings := by simp [State.autoFree]

@[simp] theorem unqueue_readings (s : State) (i : Nat) : (s.unqueue i).readings = s.readings := by simp [State.unqueue]

@[simp] theorem closeSession_readings (s : State) (i reason : Nat) : (s.closeSession i reason).readings = s.readings := by
  simp [State.closeSession]

@[simp] theorem endRow_readings (s : State) (i reason detail : Nat) (stamp : W64) :
    (s.endRow i reason detail stamp).readings = s.readings := by
  simp [State.endRow]

@[simp] theorem faultSessions_readings (s : State) (slot : Nat) : (s.faultSessions slot).readings = s.readings := by
  simp [State.faultSessions]

@[simp] theorem beginClose_readings (s : State) (h : Nat) : (s.beginClose h).readings = s.readings := by simp [State.beginClose]

@[simp] theorem beginCloses_readings (s : State) (sel : Window → Bool) : (s.beginCloses sel).readings = s.readings := by
  simp [State.beginCloses]

@[simp] theorem unloadRings_readings (s : State) (c : Nat) : (s.unloadRings c).readings = s.readings := by
  simp [State.unloadRings]

@[simp] theorem clearCore_readings (s : State) (c : Nat) : (s.clearCore c).readings = s.readings := by simp [State.clearCore]

@[simp] theorem startCarrelClear_readings (s : State) (c : Nat) (next : Option (BitVec 8)) (waitFor : Option Nat) :
    (s.startCarrelClear c next waitFor).readings = s.readings := by
  simp [State.startCarrelClear]

@[simp] theorem markClear_readings (s : State) (k p : Nat) (next : PartKind) (owner : Option (BitVec 8))
    (waitFor : Option Nat) : (s.markClear k p next owner waitFor).readings = s.readings := by
  simp [State.markClear]

@[simp] theorem startDue_readings (s : State) : s.startDue.readings = s.readings := by simp [State.startDue]

@[simp] theorem sendVc3_readings (s : State) (slot device typ : Nat) (payload : Bytes) :
    (s.sendVc3 slot device typ payload).1.readings = s.readings := by
  unfold State.sendVc3
  split <;> simp

@[simp] theorem askAll_readings (s : State) (index typ kind : Nat) (devices : List Nat) :
    (s.askAll index typ kind devices).1.readings = s.readings := by
  unfold State.askAll
  exact foldl_readings_of Prod.fst _ _ _ fun a d => by dsimp only; split <;> simp

@[simp] theorem retireEdition_readings (s : State) (index : Nat) : (s.retireEdition index).readings = s.readings := by
  simp [State.retireEdition]

@[simp] theorem drainCheck_readings (s : State) (slot : Nat) : (s.drainCheck slot).readings = s.readings := by
  simp [State.drainCheck]

@[simp] theorem dropRoutes_readings (s : State) (slot : Nat) : (s.dropRoutes slot).readings = s.readings := by
  simp [State.dropRoutes]

@[simp] theorem wipeCarrel_readings (s : State) (c : Nat) (waitFor : Option Nat) :
    (s.wipeCarrel c waitFor).readings = s.readings := by
  simp [State.wipeCarrel]

@[simp] theorem emptySlot_readings (s : State) (slot : Nat) : (s.emptySlot slot).readings = s.readings := by
  simp [State.emptySlot]

@[simp] theorem freeEndpoint_readings (s : State) (n c q : Nat) : (s.freeEndpoint n c q).readings = s.readings := by
  simp [State.freeEndpoint]

@[simp] theorem freeCore_readings (s : State) (c : Nat) : (s.freeCore c).readings = s.readings := by simp [State.freeCore]

@[simp] theorem freeRings_readings (s : State) (k : Nat) : (s.freeRings k).readings = s.readings := by simp [State.freeRings]

@[simp] theorem undoLoad_readings (s : State) (slot : Nat) : (s.undoLoad slot).readings = s.readings := by simp [State.undoLoad]

@[simp] theorem failLoad_readings (s : State) (slot : Nat) (r : Reply) : (s.failLoad slot r).readings = s.readings := by
  unfold State.failLoad
  split <;> simp

@[simp] theorem dropRemote_readings (s : State) (t : Nat) : (s.dropRemote t).readings = s.readings := by simp [State.dropRemote]

@[simp] theorem advanceRelease_readings (s : State) (t : Nat) : (s.advanceRelease t).readings = s.readings := by
  unfold State.advanceRelease
  dsimp only
  split
  · rfl
  · split
    · simp
    · split
      · simp
      · split <;> simp

@[simp] theorem bindPart_readings (s : State) (t : Nat) (named : List (Nat × Nat × PartKind)) (k p : Nat) :
    (s.bindPart t named k p).readings = s.readings := by
  unfold State.bindPart
  split <;> simp

@[simp] theorem bindCluster_readings (s : State) (t : Nat) (mask : BitVec 32) (k : Nat) :
    (s.bindCluster t mask k).readings = s.readings := by
  simp [State.bindCluster]

@[simp] theorem bindGrant_readings (s : State) (b : Bytes) : (s.bindGrant b).readings = s.readings := by simp [State.bindGrant]

@[simp] theorem bound_readings (s : State) (t : Nat) : (s.bound t).readings = s.readings := by simp [State.bound]

@[simp] theorem bindOp_readings (port : Nat) (b : Bytes) (s : State) : (bindOp port b s).1.readings = s.readings := by
  unfold bindOp
  split <;> simp

@[simp] theorem advanceBind_readings (s : State) (port : Nat) (c : Cmd) : (s.advanceBind port c).readings = s.readings := by
  unfold State.advanceBind
  split <;> simp

@[simp] theorem progress_readings (s : State) : s.progress.readings = s.readings := by simp [State.progress]

@[simp] theorem sessionEnded_readings (s : State) (slot : Nat) : (s.sessionEnded slot).readings = s.readings := by
  simp [State.sessionEnded]

@[simp] theorem raiseMode_readings (s : State) (c : Nat) : (s.raiseMode c).readings = s.readings := by simp [State.raiseMode]

@[simp] theorem setMode_readings (s : State) (c : Nat) (m : CoreMode) : (s.setMode c m).readings = s.readings := by
  simp [State.setMode]

@[simp] theorem programStop_readings (s : State) (origin reason c : Nat) :
    (s.programStop origin reason c).readings = s.readings := by
  simp [State.programStop]

@[simp] theorem sendAborts_readings (s : State) (slot : Nat) : (s.sendAborts slot).readings = s.readings := by
  unfold State.sendAborts
  split <;> simp

@[simp] theorem programFault_readings (s : State) (slot reason : Nat) (origin : Option Nat) :
    (s.programFault slot reason origin).readings = s.readings := by
  simp [State.programFault]

@[simp] theorem coreStop_readings (s : State) (c unit cause offset : Nat) (word : W64)
    (unitPage : Option (Nat × List W32)) : (s.coreStop c unit cause offset word unitPage).readings = s.readings := by
  unfold State.coreStop
  split <;> simp

@[simp] theorem programOf_readings (s : State) (c reason : Nat) (origin : Option Nat) :
    (s.programOf c reason origin).readings = s.readings := by
  unfold State.programOf
  split <;> simp

@[simp] theorem settle_readings (s : State) (c : Nat) : (s.settle c).readings = s.readings := by simp [State.settle]

@[simp] theorem requestStop_readings (s : State) (c tag cause status reason : Nat) (t : WinTag) :
    (s.requestStop c tag cause status reason t).readings = s.readings := by
  simp [State.requestStop]

@[simp] theorem dropOne_readings (s : State) (n ingress : Nat) (f : Flit) : (s.dropOne n ingress f).readings = s.readings := by
  simp [State.dropOne]

@[simp] theorem dropHeld_readings (s : State) (n : Nat) : (s.dropHeld n).readings = s.readings := by simp [State.dropHeld]

@[simp] theorem stopRelays_readings (s : State) (n : Nat) : (s.stopRelays n).readings = s.readings := by simp [State.stopRelays]

@[simp] theorem partnerLost_readings (s : State) (n : Nat) : (s.partnerLost n).readings = s.readings := by
  simp [State.partnerLost]

@[simp] theorem portFalls_readings (s : State) (n : Nat) (st : LinkState) (cause : Nat) :
    (s.portFalls n st cause).readings = s.readings := by
  simp [State.portFalls]

@[simp] theorem redigest_readings (s : State) : s.redigest.readings = s.readings := by simp [State.redigest]

@[simp] theorem dropIsolation_readings (s : State) (k : Nat) : (s.dropIsolation k).readings = s.readings := by
  simp [State.dropIsolation]

@[simp] theorem isolateCluster_readings (s : State) (k : Nat) : (s.isolateCluster k).readings = s.readings := by
  simp [State.isolateCluster]

@[simp] theorem finishIsolations_readings (s : State) : s.finishIsolations.readings = s.readings := by
  simp [State.finishIsolations]

@[simp] theorem setTrack_readings (s : State) (e : Nat) (track : BitVec 10) : (s.setTrack e track).readings = s.readings := by
  simp [State.setTrack]

@[simp] theorem startCalibration_readings (s : State) (e : Nat) : (s.startCalibration e).readings = s.readings := by
  simp [State.startCalibration]

@[simp] theorem engineDown_readings (s : State) (e cause : Nat) : (s.engineDown e cause).readings = s.readings := by
  simp [State.engineDown]

@[simp] theorem setBoot_readings (s : State) (bit : Nat) : (s.setBoot bit).readings = s.readings := by simp [State.setBoot]

@[simp] theorem optics_readings (s : State) : s.optics.readings = s.readings := by
  unfold State.optics
  dsimp only
  generalize e : List.foldl _ s [0, 1] = u
  have k : u.readings = s.readings := by
    rw [← e]
    refine foldl_readings _ _ _ fun s d => ?_
    split
    · rfl
    · split <;> simp
  split
  · rfl
  · split <;> simp [k]

@[simp] theorem balance_readings (s : State) : s.balance.readings = s.readings := by simp [State.balance]

@[simp] theorem changeCartridge_readings (s : State) (n : Nat) (f : Cartridge → Cartridge) :
    (s.changeCartridge n f).readings = s.readings := by
  simp [State.changeCartridge]

@[simp] theorem dropSlew_readings (s : State) : s.dropSlew.readings = s.readings := by simp [State.dropSlew]

@[simp] theorem compareDies_readings (s : State) : s.compareDies.readings = s.readings := by simp [State.compareDies]

@[simp] theorem setLdg_readings (s : State) (st : LdgState) : (s.setLdg st).readings = s.readings := by simp [State.setLdg]

@[simp] theorem treeTick_readings (s : State) : s.treeTick.readings = s.readings := by
  unfold State.treeTick
  dsimp only
  split <;> simp

@[simp] theorem delaySamples_readings (s : State) : s.delaySamples.readings = s.readings := by
  unfold State.delaySamples
  refine foldl_readings _ _ _ fun s n => ?_
  split
  · rfl
  · split <;> simp

@[simp] theorem stepLedgers_readings (s : State) (n : Int) : (s.stepLedgers n).readings = s.readings := by
  simp [State.stepLedgers]

@[simp] theorem slewLedgers_readings (s : State) (n : Int) : (s.slewLedgers n).readings = s.readings := by
  simp [State.slewLedgers]

@[simp] theorem followSample_readings (s : State) (theta : Int) : (s.followSample theta).readings = s.readings := by
  simp [State.followSample]

@[simp] theorem parentSample_readings (s : State) : s.parentSample.readings = s.readings := by
  unfold State.parentSample
  split
  case h_3 => rfl
  all_goals split <;> simp

@[simp] theorem sendSlips_readings (s : State) : s.sendSlips.readings = s.readings := by simp [State.sendSlips]

@[simp] theorem shelfTick_readings (s : State) (k others : Nat) : (s.shelfTick k others).readings = s.readings := by
  simp [State.shelfTick]

@[simp] theorem cartridgeTick_readings (s : State) (l : List (Nat × Bool)) : (s.cartridgeTick l).readings = s.readings := by
  simp [State.cartridgeTick]

@[simp] theorem occupancyTick_readings (s : State) : s.occupancyTick.readings = s.readings := by simp [State.occupancyTick]

@[simp] theorem dropChartered_readings (s : State) (d : Nat) : (s.dropChartered d).readings = s.readings := by
  simp [State.dropChartered]

@[simp] theorem heldEvents_readings (s : State) : s.heldEvents.readings = s.readings := by simp [State.heldEvents]

@[simp] theorem beginSelftest_readings (s : State) (d : Nat) : (s.beginSelftest d).readings = s.readings := by
  simp [State.beginSelftest]

@[simp] theorem beginSelftests_readings (s : State) : s.beginSelftests.readings = s.readings := by simp [State.beginSelftests]

@[simp] theorem setLease_readings (s : State) (l : Lease) (cause : Nat) : (s.setLease l cause).readings = s.readings := by
  unfold State.setLease
  extract_lets dropped first old epoch now new changed slewless told begun raised
  have h1 : dropped.readings = s.readings := by
    unfold dropped
    split <;> simp
  have h2 : changed.readings = dropped.readings :=
    readings_mk dropped (tick := rfl) (beatA := rfl) (beatB := rfl) (supply := rfl) ..
  have h3 : slewless.readings = changed.readings := by simp [slewless]
  have h4 : told.readings = slewless.readings := by
    unfold told
    split <;> simp
  have h5 : begun.readings = told.readings := by simp [begun]
  simp [raised, h1, h2, h3, h4, h5]

@[simp] theorem applyYield_readings (s : State) (d : Nat) : (s.applyYield d).readings = s.readings := by
  unfold State.applyYield
  split <;> simp

@[simp] theorem countRefusal_readings (s : State) (reason : Nat) : (s.countRefusal reason).readings = s.readings := by
  simp [State.countRefusal]

@[simp] theorem refuseSession_readings (s : State) (i reason : Nat) : (s.refuseSession i reason).readings = s.readings := by
  simp [State.refuseSession]

@[simp] theorem closeRefused_readings (s : State) (i : Nat) : (s.closeRefused i).readings = s.readings := by
  simp [State.closeRefused]

@[simp] theorem predict_readings (s : State) (num den : Nat) : (s.predict num den).1.readings = s.readings := by
  simp [State.predict]

@[simp] theorem admitSession_readings (s : State) (i : Nat) (e : Evaluation) : (s.admitSession i e).readings = s.readings := by
  simp [State.admitSession]

@[simp] theorem enqueue_readings (s : State) (i : Nat) : (s.enqueue i).readings = s.readings := by simp [State.enqueue]

@[simp] theorem evaluate_readings (s : State) (i : Nat) : (s.evaluate i).readings = s.readings := by
  unfold State.evaluate
  dsimp only
  split
  · simp
  · split <;> simp

@[simp] theorem serveQueue_readings (s : State) (slot n : Nat) : (s.serveQueue slot n).1.readings = s.readings := by
  induction n generalizing s with
  | zero => rfl
  | succ n ih =>
    unfold State.serveQueue
    split
    · rfl
    · simp [ih]

@[simp] theorem serveTenant_readings (s : State) (t n : Nat) (done : List Nat) :
    (s.serveTenant t n done).1.readings = s.readings := by
  unfold State.serveTenant
  exact foldl_readings_of Prod.fst _ _ _ fun a i => by dsimp only; split <;> simp

@[simp] theorem serveRounds_readings (fuel : Nat) (s : State) (left : Nat) (done : List Nat) :
    (s.serveRounds fuel left done).readings = s.readings := by
  induction fuel generalizing s left done with
  | zero => rfl
  | succ fuel ih =>
    unfold State.serveRounds
    dsimp only
    generalize e : List.foldl _ _ _ = r
    have k : r.1.readings = s.readings := by
      rw [← e]
      refine foldl_readings_of Prod.fst _ _ _ fun a t => ?_
      dsimp only
      split <;> simp
    exact readings_of_ite k (by simp [ih, k])

@[simp] theorem serveAll_readings (s : State) : s.serveAll.1.readings = s.readings := by
  unfold State.serveAll
  exact foldl_readings_of Prod.fst _ _ _ fun a i => by simp

@[simp] theorem admissionTick_readings (s : State) : s.admissionTick.readings = s.readings := by simp [State.admissionTick]

end Sys2Proof.Machine

/-! PROOFS. The leading die's ledger passes the next multiple of 1 ms in a tick's cycles: bounds of what a cycle adds (R233). -/

namespace Sys2Proof.Machine

open Sys2Proof

/-- A slew moves a ledger by at most one unit per cycle (R233). -/
theorem slewBy_step (n : Int) (a b : Nat) (le : a ≤ b) :
    -((b - a : Nat) : Int) ≤ slewBy n b - slewBy n a ∧ slewBy n b - slewBy n a ≤ ((b - a : Nat) : Int) := by
  have share : (slewShare n).natAbs ≤ tickCycles := by
    unfold slewShare tickCycles
    omega
  have low : (slewShare n).natAbs * a / tickCycles ≤ (slewShare n).natAbs * b / tickCycles :=
    Nat.div_le_div_right (Nat.mul_le_mul_left _ le)
  have high : (slewShare n).natAbs * b / tickCycles ≤ (slewShare n).natAbs * a / tickCycles + (b - a) := by
    have split : (slewShare n).natAbs * b = (slewShare n).natAbs * a + (slewShare n).natAbs * (b - a) := by
      rw [← Nat.mul_add, Nat.add_sub_cancel' le]
    calc (slewShare n).natAbs * b / tickCycles
        ≤ ((slewShare n).natAbs * a + tickCycles * (b - a)) / tickCycles :=
          Nat.div_le_div_right (split ▸ Nat.add_le_add_left (Nat.mul_le_mul_right _ share) _)
      _ = (slewShare n).natAbs * a / tickCycles + (b - a) := Nat.add_mul_div_left _ _ (by decide)
  unfold slewBy
  dsimp only
  split <;> omega

/-- The carries of the rate accumulator move a ledger by at most one unit per cycle (R233). -/
theorem carries_bounds (acc rate : W32) (m : Nat) :
    -(m : Int) ≤ (acc.toInt + rate.toInt * m + 2147483648) / 4294967296
      ∧ (acc.toInt + rate.toInt * m + 2147483648) / 4294967296 ≤ m := by
  have a1 := acc.le_toInt
  have a2 := acc.toInt_lt
  have r1 : -2147483648 * (m : Int) ≤ rate.toInt * m := Int.mul_le_mul_of_nonneg_right rate.le_toInt (Int.natCast_nonneg m)
  have r2 : rate.toInt * m ≤ 2147483648 * (m : Int) :=
    Int.mul_le_mul_of_nonneg_right (le_of_lt rate.toInt_lt) (Int.natCast_nonneg m)
  omega

/-- Each cycle adds at least 6 units and at most 10 (R233). -/
theorem advance_bounds (l : DieLedger) (rate : W32) (m : Nat) :
    (6 * m : Int) ≤ l.advance rate m ∧ l.advance rate m ≤ 10 * m := by
  have carries := carries_bounds l.acc rate m
  have slew := slewBy_step l.slew (min l.cyc tickCycles) (min (l.cyc + m) tickCycles) (by omega)
  have span : min (l.cyc + m) tickCycles - min l.cyc tickCycles ≤ m := by omega
  unfold DieLedger.advance
  omega

theorem bisect_le (p : Nat → Bool) (fuel lo hi : Nat) : bisect p fuel lo hi ≤ hi := by
  induction fuel generalizing lo hi with
  | zero => exact le_refl hi
  | succ n ih =>
    unfold bisect
    split
    · exact le_refl hi
    · split
      · exact (ih _ _).trans (by omega)
      · exact ih _ _

/-- The cycles to a gap take the ledger over it, and not further than the gap and 10 units for each 6 of it. -/
theorem cyclesTo_reaches (l : DieLedger) (rate : W32) (gap : Nat) :
    (gap : Int) ≤ l.advance rate (l.cyclesTo rate gap) ∧ l.cyclesTo rate gap ≤ gap / 6 + 1 := by
  have top : decide ((gap : Int) ≤ l.advance rate (gap / 6 + 1)) = true := by
    have := (advance_bounds l rate (gap / 6 + 1)).1
    rw [decide_eq_true_eq]
    omega
  exact ⟨of_decide_eq_true (bisect_holds (fun m => decide ((gap : Int) ≤ l.advance rate m)) 64 0 _ top), bisect_le _ 64 0 _⟩

/-- What a ledger's value is after an advance that does not pass its width. -/
theorem toNat_add_ofInt (v : W64) (n : Int) (pos : 0 ≤ n) (small : v.toNat + n < 2 ^ 64) :
    ((v + BitVec.ofInt 64 n).toNat : Int) = v.toNat + n := by
  rw [BitVec.toNat_add, BitVec.toNat_ofInt]
  omega

/-- The cycles that a tick takes bring a ledger to the next multiple of 1 ms, and not 2 ms further (R233). -/
theorem tick_reached (l : DieLedger) (rate : W32) (last m : Nat)
    (cycles : m = if (last + 1) * tickUnits ≤ l.now.toNat then 0
      else l.cyclesTo rate ((l.now.toNat / tickUnits + 1) * tickUnits - l.now.toNat))
    (due : last * tickUnits ≤ l.now.toNat) (room : l.now.toNat + 2 * tickUnits < 2 ^ 64) :
    (last + 1) * tickUnits ≤ (l.now + BitVec.ofInt 64 (l.advance rate m)).toNat := by
  obtain ⟨low, high⟩ := advance_bounds l rate m
  have sum := toNat_add_ofInt l.now (l.advance rate m)
  have down := Nat.div_mul_le_self l.now.toNat tickUnits
  have up := Nat.lt_div_mul_add (a := l.now.toNat) (b := tickUnits) (by decide)
  have passed := Nat.mul_le_mul_right tickUnits ((Nat.le_div_iff_mul_le (by decide)).mpr due)
  have long : 30 ≤ tickUnits := by decide
  generalize tickUnits = u at *
  simp only [Nat.add_one_mul] at *
  split at cycles
  · have := sum (by omega) (by omega)
    omega
  · obtain ⟨far, few⟩ := cyclesTo_reaches l rate (l.now.toNat / u * u + u - l.now.toNat)
    rw [← cycles] at far few
    have := sum (by omega) (by omega)
    omega

/-- The number of the last tick advances (R233). -/
theorem ledgerTick_lastTick (s : State) (due : s.ledger.lastTick * tickUnits ≤ s.now.toNat)
    (room : s.now.toNat + 2 * tickUnits < 2 ^ 64) : s.ledger.lastTick < s.ledgerTick.ledger.lastTick := by
  unfold State.ledgerTick
  extract_lets l gap m t
  have both := modBoth_dieLedger s (fun l => (l.after s.ledger.rate m).endTick) s.leadDie
  rw [if_pos (leadDie_lt s)] at both
  have now : (t.dieLedger t.leadDie).now = l.now + BitVec.ofInt 64 (l.advance s.ledger.rate m) :=
    congrArg DieLedger.now both
  show s.ledger.lastTick < (t.dieLedger t.leadDie).now.toNat / tickUnits
  rw [now, Nat.lt_iff_add_one_le, Nat.le_div_iff_mul_le (by decide)]
  exact tick_reached l s.ledger.rate s.ledger.lastTick m rfl due room

end Sys2Proof.Machine

/-! PROOFS. What each evaluation of a tick writes of the readings (R29, R31, R230, R233, R446, R467, R522), and the tick as
their composition. -/

namespace Sys2Proof.Machine

open Sys2Proof

-- the ledgers (R233)

def Readings.withTick (x : Readings) (n : Nat) : Readings := { x with lastTick := n }

/-- The ledgers' own evaluation writes none of the other readings. -/
theorem ledgerTick_readings (s : State) :
    s.ledgerTick.readings = s.readings.withTick s.ledgerTick.ledger.lastTick := by
  have advanced (t : State) (n : Nat) (h : t.readings = s.readings) :
      ({ t with ledger := { t.ledger with lastTick := n } } : State).readings = s.readings.withTick n := by
    rw [← h]
    rfl
  exact advanced _ _ ((modDieLedger_readings ..).trans (modDieLedger_readings ..))

theorem fuses_of_kept {s t : State} (h : t.kept = s.kept) : t.fuses = s.fuses := congrArg Prod.fst h

theorem fused_of_kept {s t : State} (h : t.kept = s.kept) (k : Nat) : t.fused k = s.fused k := by
  unfold State.fused
  rw [fuses_of_kept h]

-- the regions (R31, R230)

/-- `y` is a region after a tick in which it read `temp`, `x` before it (R31, R230). -/
def Region.Sampled (thr temp : Nat) (x y : Region) : Prop :=
  y.temp = temp ∧ y.kThermal = levelStep x.kThermal (decide (thr < temp)) (decide (temp + 3 < thr))

/-- What a tick makes of the regions: `t` is the state after the first `n` of them. -/
structure SampledRegions (temps : Nat → Nat) (n : Nat) (s t : State) : Prop where
  kept : t.kept = s.kept
  others : t.readings = { s.readings with regions := t.regions }
  above : ∀ r, n ≤ r → t.region r = s.region r
  below : ∀ r, r < n → s.fused r = false →
    (s.region r).Sampled (s.dieClock (r / 16)).tThr.toNat (temps r) (t.region r)

/-- Of the readings, an intact region's tick writes that region's entry alone. -/
theorem regionTick_intact {s : State} {r : Nat} (h : s.fused r = false) (temp droop : Nat) :
    ∃ f : Region → Region, (∀ x : Region, x.Sampled (s.dieClock (r / 16)).tThr.toNat temp (f x))
      ∧ (s.regionTick r temp droop).readings = (s.modRegion r f).readings := by
  unfold State.regionTick
  rw [if_neg (by simp [h])]
  extract_lets thr n k swallowed now was told counted
  have cores : counted.readings = told.readings := by
    refine readings_of_ite rfl (foldl_readings _ _ _ fun s c => ?_)
    rw [modSq_readings, modCore_readings]
  refine ⟨_, ?_, Eq.trans (by simp) cores⟩
  exact fun x => ⟨rfl, rfl⟩

theorem regionTick_fused {s : State} {r : Nat} (h : s.fused r = true) (temp droop : Nat) :
    s.regionTick r temp droop = s := if_pos h

theorem SampledRegions.refl (temps : Nat → Nat) (s : State) : SampledRegions temps 0 s s :=
  ⟨rfl, rfl, fun _ _ => rfl, fun r h => absurd h (Nat.not_lt_zero r)⟩

/-- The next region's samples. -/
theorem SampledRegions.regionTick {temps : Nat → Nat} {n : Nat} {s t : State} (h : SampledRegions temps n s t) (droop : Nat) :
    SampledRegions temps (n + 1) s (t.regionTick n (temps n) droop) := by
  obtain ⟨kept, others, above, below⟩ := h
  cases fused : t.fused n with
  | true =>
    rw [regionTick_fused fused]
    refine ⟨kept, others, fun r le => above r (Nat.le_of_succ_le le), fun r lt intact => ?_⟩
    have ne : r ≠ n := by
      rintro rfl
      rw [← fused_of_kept kept, fused] at intact
      cases intact
    exact below r (by omega) intact
  | false =>
    obtain ⟨f, sampled, readings⟩ := regionTick_intact fused (temps n) droop
    have regions : (t.regionTick n (temps n) droop).regions = (t.modRegion n f).regions := congrArg Readings.regions readings
    have at_ne (r : Nat) (ne : r ≠ n) : (t.regionTick n (temps n) droop).region r = t.region r := by
      unfold State.region
      rw [regions]
      exact Tbl.get_modify_ne _ _ _ _ _ ne
    refine ⟨(regionTick_kept ..).trans kept, ?_, fun r le => (at_ne r (by omega)).trans (above r (by omega)),
      fun r lt intact => ?_⟩
    · rw [readings, regions]
      exact congrArg (fun x : Readings => { x with regions := (t.modRegion n f).regions }) others
    · by_cases last : r = n
      · subst last
        have entry : (t.regionTick r (temps r) droop).region r = f (t.region r) := by
          unfold State.region
          rw [regions]
          exact Tbl.get_modify_self ..
        have clock : t.dieClock (r / 16) = s.dieClock (r / 16) :=
          congrArg (Tbl.get DieClock.reset · (r / 16)) (congrArg Readings.dieClocks others)
        rw [entry, ← above r (le_refl r), ← clock]
        exact sampled (t.region r)
      · rw [at_ne r last]
        exact below r (by omega) intact

theorem sampledRegions (temps swallowed : Nat → Nat) (s : State) (n : Nat) : SampledRegions temps n s
    ((List.range n).foldl (fun (s : State) r => s.regionTick r (temps r) (swallowed r)) s) := by
  induction n with
  | zero => exact .refl temps s
  | succ n ih =>
    rw [List.range_succ, List.foldl_append]
    exact ih.regionTick (swallowed n)

-- the supply (R29, R467, R522)

/-- `q` is the supply's record after a tick with the inputs `t`, `p` before it (R29, R522). -/
structure Power.Sampled (t : TickInputs) (p q : Power) : Prop where
  vin : q.vin = BitVec.ofNat 16 t.vinMv
  iin : q.iin = BitVec.ofNat 16 t.iinMa
  pin : q.pin = BitVec.ofNat 16 t.pinW
  energy : q.energy = p.energy + BitVec.ofNat 64 t.energyMj
  sinceGood : q.sinceGood = p.sinceGood + 1
  policy : q.shedNow = p.shed

def Readings.withSupply (x : Readings) (p : Power) : Readings := { x with supply := { p with boot := 0 } }

theorem powerTick_readings (t : TickInputs) (s : State) :
    ∃ p, s.readings.supply.Sampled t p ∧ (s.powerTick t).readings = s.readings.withSupply p := by
  unfold State.powerTick
  extract_lets old input k hit level hot p averaged supply clock taken told limited warm
  have written : taken.readings = s.readings.withSupply supply := rfl
  refine ⟨supply, ⟨rfl, rfl, rfl, rfl, rfl, rfl⟩, Eq.trans ?_ written⟩
  simp [warm, limited, told]

def Readings.withSeal (x : Readings) (o : Bool) : Readings := { x with supply := { x.supply with sealOpen := o } }

theorem senseSeal_readings (s : State) (o : Bool) : (s.senseSeal o).readings = s.readings.withSeal o := by
  unfold State.senseSeal
  dsimp only
  split
  · rw [raise0_readings]
    rfl
  · rfl

theorem raise0_fuses (s : State) (page bit : Nat) : (s.raise0 page bit).fuses = s.fuses :=
  fuses_of_kept (raise0_kept s page bit)

/-- An open SEAL loop leaves SEAL_BROKEN blown (R467). -/
theorem senseSeal_broken (s : State) : (s.senseSeal true).fuses.sealBroken = true := by
  unfold State.senseSeal
  dsimp only
  split
  · rw [raise0_fuses]
  · next h => simpa using h

-- heartbeats (R446)

/-- The count of ticks since the last heartbeat of a die's curator, after a tick. -/
def Readings.counted (x : Readings) (d : Nat) (sent : Bool) : Option Nat :=
  if sent && x.up d then some 0 else (if d = 0 then x.sinceA else x.sinceB).map (· + 1)

def Readings.withBeat (x : Readings) (d : Nat) (v : Option Nat) : Readings :=
  if d = 0 then { x with sinceA := v } else { x with sinceB := v }

theorem beat_readings (s : State) (d : Nat) : (s.beat d).readings = s.readings.withBeat d (some 0) := by
  unfold State.beat Readings.withBeat
  split <;> rfl

theorem heartbeat_readings (s : State) (d : Nat) (sent : Bool) :
    (s.heartbeat d sent).readings = s.readings.withBeat d (s.readings.counted d sent) := by
  unfold State.heartbeat
  extract_lets beats v c taken
  have counts : taken.readings = s.readings.withBeat d (s.readings.counted d sent) := by
    have count : s.readings.counted d sent = if beats then some 0 else v := rfl
    rw [count]
    unfold taken
    split
    · exact beat_readings s d
    · unfold Readings.withBeat
      split <;> rfl
  split
  · split
    · exact counts
    · have forgot := modCurator_readings taken d (fun x => { x with believes := none }) fun _ => rfl
      exact (raise_readings ..).trans (forgot.trans counts)
  · exact counts

/-- The lease's own evaluation writes no reading (R446). -/
theorem leaseTick_readings (s : State) (a b : Bool) :
    (s.leaseTick a b).readings = ((s.heartbeat 0 a).heartbeat 1 b).readings := by
  unfold State.leaseTick
  extract_lets beaten c counted sa sb
  have same : counted.readings = beaten.readings := rfl
  rw [← same]
  split
  · rfl
  · split
    · split
      · exact applyYield_readings ..
      · rfl
    · simp only [ite_readings, setLease_readings, ite_self]

-- the tick

/-- What a tick's evaluations before the lease make of the readings: `u` is the state after the regions. -/
theorem clockTick_readings (i : TickInputs) (s : State) :
    ∃ u p, SampledRegions (fun r => (i.temps[r]?).getD 0) 32 s.ledgerTick u ∧ u.readings.supply.Sampled i p
      ∧ (s.clockTick i).readings = (u.readings.withSupply p).withSeal i.sealOpen := by
  unfold State.clockTick
  extract_lets ledgers regions shelves samples tracks
  have shelf : shelves.readings = regions.readings := foldl_readings _ _ _ fun s k => shelfTick_readings ..
  obtain ⟨p, sampled, supply⟩ := powerTick_readings i shelves
  rw [shelf] at sampled supply
  refine ⟨regions, p, sampledRegions _ _ ledgers 32, sampled, ?_⟩
  have cartridges : samples.readings = (regions.readings.withSupply p).withSeal i.sealOpen := by
    rw [← supply, ← senseSeal_readings]
    exact cartridgeTick_readings ..
  have track : tracks.readings = samples.readings := foldl_readings _ _ _ fun s e => setTrack_readings ..
  simp [track, cartridges]

theorem clockTick_broken (i : TickInputs) (s : State) (h : i.sealOpen = true) :
    (s.clockTick i).fuses.sealBroken = true := by
  unfold State.clockTick
  extract_lets ledgers regions shelves samples tracks
  have after : tracks.occupancyTick.delaySamples.treeTick.parentSample.compareDies.sendSlips.kept = tracks.kept := by simp
  have track : tracks.kept = samples.kept := foldl_kept _ _ _ fun s e => setTrack_kept ..
  have cartridges : samples.kept = ((shelves.powerTick i).senseSeal i.sealOpen).kept := cartridgeTick_kept ..
  have fuses := fuses_of_kept (after.trans (track.trans cartridges))
  rw [fuses, h]
  exact senseSeal_broken _

-- a whole tick

/-- The state that a tick makes once the ledgers run (R233). -/
def State.tick (s : State) (i : TickInputs) : State :=
  (((s.clockTick i).leaseTick i.heartbeatA i.heartbeatB).admissionTick).progress

theorem exec_tick (i : TickInputs) (s : State) : exec (.tick i) s = .next (if s.ledgersRun then s.tick i else s) := rfl

/-- The readings after a tick; `u` is the state after the regions, `p` the supply's record. -/
theorem tick_readings (i : TickInputs) (s : State) :
    ∃ u p, SampledRegions (fun r => (i.temps[r]?).getD 0) 32 s.ledgerTick u ∧ s.readings.supply.Sampled i p
      ∧ (s.tick i).readings =
        ((((({ s.readings with regions := u.regions } : Readings).withTick s.ledgerTick.ledger.lastTick).withSupply p).withSeal
          i.sealOpen).withBeat 0 (s.readings.counted 0 i.heartbeatA)).withBeat 1 (s.readings.counted 1 i.heartbeatB) := by
  obtain ⟨u, p, regions, supply, clock⟩ := clockTick_readings i s
  have ledgers : u.readings = ({ s.readings with regions := u.regions } : Readings).withTick s.ledgerTick.ledger.lastTick := by
    rw [regions.others, ledgerTick_readings]
    rfl
  rw [ledgers] at supply clock
  refine ⟨u, p, regions, supply, ?_⟩
  unfold State.tick
  rw [progress_readings, admissionTick_readings, leaseTick_readings, heartbeat_readings, heartbeat_readings, clock]
  rfl

theorem tick_broken (i : TickInputs) (s : State) (h : i.sealOpen = true) : (s.tick i).fuses.sealBroken = true := by
  have fuses : (s.tick i).fuses = (s.clockTick i).fuses :=
    fuses_of_kept ((progress_kept _).trans ((admissionTick_kept _).trans (leaseTick_kept ..)))
  rw [fuses]
  exact clockTick_broken i s h

/-- The regions' samples read against the state before the ledgers' evaluation. -/
theorem SampledRegions.of_ledgerTick {temps : Nat → Nat} {n : Nat} {s u : State}
    (h : SampledRegions temps n s.ledgerTick u) {r : Nat} (lt : r < n) (intact : s.fused r = false) :
    (s.region r).Sampled (s.dieClock (r / 16)).tThr.toNat (temps r) (u.region r) := by
  have entry : s.ledgerTick.region r = s.region r :=
    congrArg (fun x : Readings => Tbl.get Region.reset x.regions r) (ledgerTick_readings s)
  have clock : s.ledgerTick.dieClock (r / 16) = s.dieClock (r / 16) :=
    congrArg (fun x : Readings => Tbl.get DieClock.reset x.dieClocks (r / 16)) (ledgerTick_readings s)
  rw [← entry, ← clock]
  exact h.below r lt ((fused_of_kept (ledgerTick_kept s) r).trans intact)

/-- Settles O55: the readings of a tick (`Readings`) are written by the evaluation of the ledgers, the regions, the supply
and the heartbeats, each once, and every other evaluation keeps them. -/
theorem ticksTakeTheirInputs : Obligations.TicksTakeTheirInputs := by
  unfold Obligations.TicksTakeTheirInputs
  intro i s
  rw [exec_tick]
  refine ⟨fun idle => by rw [idle]; rfl, fun run => ⟨s.tick i, by rw [run]; rfl, ?_⟩⟩
  obtain ⟨u, p, regions, supply, readings⟩ := tick_readings i s
  have broken := tick_broken i s
  have lastTick := ledgerTick_lastTick s
  generalize s.tick i = t at readings broken ⊢
  have power : ({ t.power with boot := 0 } : Power) = { p with boot := 0, sealOpen := i.sealOpen } :=
    congrArg Readings.supply readings
  refine ⟨congrArg Readings.mem readings, ⟨(congrArg Power.vin power).trans supply.vin,
    (congrArg Power.iin power).trans supply.iin, (congrArg Power.pin power).trans supply.pin, (congrArg Power.energy power).trans supply.energy,
    (congrArg Power.sinceGood power).trans supply.sinceGood⟩, fun r lt intact => ?_, congrArg Readings.sinceA readings,
    congrArg Readings.sinceB readings, (congrArg Power.shedNow power).trans supply.policy, congrArg Power.sealOpen power,
    broken, fun due room => ?_⟩
  · have entry : t.region r = u.region r := congrArg (fun x : Readings => Tbl.get Region.reset x.regions r) readings
    rw [entry]
    exact regions.of_ledgerTick lt intact
  · have last : t.ledger.lastTick = s.ledgerTick.ledger.lastTick := congrArg Readings.lastTick readings
    rw [last]
    exact lastTick due room

end Sys2Proof.Machine

/-! PROOFS. MX.MUL row by row (R51, R70, R72, R86): streaming row j of a word writes that row of the tile registers it names
and no other, so that the rows of a word follow from one row each; the engine's planes, descriptors and scales stay. -/

namespace Sys2Proof.Machine

open Sys2Proof

-- the rows of the tile registers

theorem MatrixUnit.setRow_row (m : MatrixUnit) (t i : Nat) {r q : Nat} (v : List W32) (hr : r < 128) (hq : q < 128) :
    (m.setRow t r v).row i q = if i = t ∧ q = r then v else m.row i q := by
  unfold MatrixUnit.row MatrixUnit.setRow
  rw [Tbl.get_put]
  exact if_congr (by omega) rfl rfl

/-- The parity of a row is no part of what it holds. -/
theorem MatrixUnit.mulInto_row (m : MatrixUnit) (f : MulWord) (t i : Nat) {r q : Nat} (v : List W32) (hr : r < 128)
    (hq : q < 128) : (m.mulInto f t r v).row i q = if i = t ∧ q = r then v else m.row i q := by
  rw [← m.setRow_row t i v hr hq]
  unfold MatrixUnit.mulInto
  split <;> rfl

/-- Row `r` of every tile register, by the register's number. -/
def MatrixUnit.rowsAt (m : MatrixUnit) (r : Nat) (i : Nat) : List W32 := m.row i r

theorem MatrixUnit.mulInto_rowsAt (m : MatrixUnit) (f : MulWord) (t : Nat) {r : Nat} (v : List W32) (hr : r < 128) :
    (m.mulInto f t r v).rowsAt r = Function.update (m.rowsAt r) t v := by
  funext i
  rw [Function.update_apply]
  exact (m.mulInto_row f t i v hr hr).trans (by simp [MatrixUnit.rowsAt])

theorem MatrixUnit.mulInto_row_ne (m : MatrixUnit) (f : MulWord) (t i : Nat) {r q : Nat} (v : List W32) (hr : r < 128)
    (hq : q < 128) (ne : q ≠ r) : (m.mulInto f t r v).row i q = m.row i q := by
  simp [m.mulInto_row f t i v hr hq, ne]

/-- `n` is `m` but for its tile registers and their parity: planes, scales, descriptors and counters are the same. -/
def RowsOnly (m n : MatrixUnit) : Prop := n = { m with tiles := n.tiles, badRows := n.badRows }

theorem RowsOnly.refl (m : MatrixUnit) : RowsOnly m m := rfl

theorem RowsOnly.trans {m n p : MatrixUnit} (h : RowsOnly m n) (k : RowsOnly n p) : RowsOnly m p := by
  unfold RowsOnly at *
  rw [k, h]

theorem RowsOnly.scale {m n : MatrixUnit} (h : RowsOnly m n) : n.scale = m.scale := by rw [h]; rfl
theorem RowsOnly.act {m n : MatrixUnit} (h : RowsOnly m n) : n.act = m.act := by rw [h]; rfl

theorem mulInto_rowsOnly (m : MatrixUnit) (f : MulWord) (t r : Nat) (v : List W32) : RowsOnly m (m.mulInto f t r v) := by
  unfold MatrixUnit.mulInto
  split <;> rfl

-- one row of a word

/-- The elements that a shape's halves take of a source row (R70). -/
def MulWord.depth (f : MulWord) : Nat := if f.shape = 4 ∨ f.shape = 2 then 64 else if f.shape = 3 then 32 else 128

/-- What row `j` of a MUL makes of the rows `old` that the tile registers hold where it lands, with the scale `ta` and the
descriptors `desc`: half 0 goes to TDST and, of a paired shape, half 1 goes to TDST2 after it (R51, R72, R86). -/
def streamedRows (mem : Memory) (base : Nat) (f : MulWord) (t : Tile) (ta : W32) (desc : Nat → ActDesc) (j : Nat)
    (old : Nat → List W32) : Nat → List W32 :=
  let read (d : Nat) := actRow mem base (desc d) f.afmt f.depth (f.arow0 + j)
  let first := Function.update old f.tdst
    (mulRow f.afmt t f.depth t.half0 ta f.acc (read f.adesc) (old f.tdst))
  if f.shape = 4 ∨ f.shape = 5 then
    Function.update first f.tdst2
      (mulRow f.afmt t f.depth t.half1 ta f.acc (read (if f.shape = 4 then f.adesc2 else f.adesc)) (first f.tdst2))
  else first

section MulRows

variable (mem : Memory) (base : Nat) (f : MulWord) (t : Tile) (m : MatrixUnit)

/-- The engine once half 0 of row `j` has gone to TDST. -/
def streamFirst (j : Nat) : MatrixUnit :=
  m.mulInto f f.tdst (f.mrow0 + j) (mulRow f.afmt t f.depth t.half0 (m.scale f.tscale) f.acc
    (actRow mem base (m.act f.adesc) f.afmt f.depth (f.arow0 + j)) (m.row f.tdst (f.mrow0 + j)))

theorem mulStream_single (j : Nat) (single : ¬ (f.shape = 4 ∨ f.shape = 5)) :
    mulStream mem base f t m j = streamFirst mem base f t m j := by
  simp [mulStream, streamFirst, MulWord.depth, single]

theorem mulStream_paired (j : Nat) (paired : f.shape = 4 ∨ f.shape = 5) :
    mulStream mem base f t m j =
      (streamFirst mem base f t m j).mulInto f f.tdst2 (f.mrow0 + j)
        (mulRow f.afmt t f.depth t.half1 (m.scale f.tscale) f.acc
          (actRow mem base (m.act (if f.shape = 4 then f.adesc2 else f.adesc)) f.afmt f.depth (f.arow0 + j))
          ((streamFirst mem base f t m j).row f.tdst2 (f.mrow0 + j))) := by
  rcases paired with h | h <;> simp [mulStream, streamFirst, MulWord.depth, h, (mulInto_rowsOnly ..).act]

theorem mulStream_rowsOnly (j : Nat) : RowsOnly m (mulStream mem base f t m j) := by
  by_cases paired : f.shape = 4 ∨ f.shape = 5
  · rw [mulStream_paired mem base f t m j paired]
    exact (mulInto_rowsOnly ..).trans (mulInto_rowsOnly ..)
  · rw [mulStream_single mem base f t m j paired]
    exact mulInto_rowsOnly ..

theorem mulStream_rowsAt {j : Nat} (hj : f.mrow0 + j < 128) :
    (mulStream mem base f t m j).rowsAt (f.mrow0 + j)
      = streamedRows mem base f t (m.scale f.tscale) m.act j (m.rowsAt (f.mrow0 + j)) := by
  have first := m.mulInto_rowsAt f f.tdst (mulRow f.afmt t f.depth t.half0 (m.scale f.tscale) f.acc
    (actRow mem base (m.act f.adesc) f.afmt f.depth (f.arow0 + j)) (m.row f.tdst (f.mrow0 + j))) hj
  unfold streamedRows
  by_cases paired : f.shape = 4 ∨ f.shape = 5
  · rw [mulStream_paired mem base f t m j paired, MatrixUnit.mulInto_rowsAt _ _ _ _ hj, if_pos paired]
    have second : (streamFirst mem base f t m j).row f.tdst2 (f.mrow0 + j) = _ := congrFun first f.tdst2
    rw [second]
    exact congrArg (Function.update · _ _) first
  · rw [mulStream_single mem base f t m j paired, if_neg paired]
    exact first

theorem mulStream_row_ne {j r : Nat} (i : Nat) (hj : f.mrow0 + j < 128) (hr : r < 128) (ne : r ≠ f.mrow0 + j) :
    (mulStream mem base f t m j).row i r = m.row i r := by
  have first : (streamFirst mem base f t m j).row i r = m.row i r := m.mulInto_row_ne f _ i _ hj hr ne
  by_cases paired : f.shape = 4 ∨ f.shape = 5
  · rw [mulStream_paired mem base f t m j paired, MatrixUnit.mulInto_row_ne _ _ _ _ _ hj hr ne, first]
  · rw [mulStream_single mem base f t m j paired, first]

-- all rows of a word

/-- The engine after the first `n` rows of a MUL. -/
def streamed (n : Nat) : MatrixUnit := (List.range n).foldl (mulStream mem base f t) m

theorem streamed_succ (n : Nat) :
    streamed mem base f t m (n + 1) = mulStream mem base f t (streamed mem base f t m n) n := by
  simp [streamed, List.range_succ]

theorem streamed_rowsOnly (n : Nat) : RowsOnly m (streamed mem base f t m n) := by
  induction n with
  | zero => exact .refl m
  | succ n ih => rw [streamed_succ]; exact ih.trans (mulStream_rowsOnly ..)

theorem streamed_row_outside {n r : Nat} (i : Nat) (hn : f.mrow0 + n ≤ 128) (hr : r < 128)
    (out : r < f.mrow0 ∨ f.mrow0 + n ≤ r) : (streamed mem base f t m n).row i r = m.row i r := by
  induction n with
  | zero => rfl
  | succ n ih =>
    rw [streamed_succ, mulStream_row_ne _ _ _ _ _ i (by omega) hr (by omega)]
    exact ih (by omega) (by omega)

/-- Each row is made once, from the rows that the registers held before the word: no other row of the word touches it. -/
theorem streamed_rowsAt {n j : Nat} (hn : f.mrow0 + n ≤ 128) (hj : j < n) :
    (streamed mem base f t m n).rowsAt (f.mrow0 + j)
      = streamedRows mem base f t (m.scale f.tscale) m.act j (m.rowsAt (f.mrow0 + j)) := by
  induction n with
  | zero => omega
  | succ n ih =>
    rw [streamed_succ]
    rcases Nat.lt_succ_iff_lt_or_eq.1 hj with lt | rfl
    · rw [← ih (by omega) lt]
      funext i
      exact mulStream_row_ne _ _ _ _ _ i (by omega) (by omega) (by omega)
    · have before : (streamed mem base f t m j).rowsAt (f.mrow0 + j) = m.rowsAt (f.mrow0 + j) :=
        funext fun i => streamed_row_outside mem base f t m i (by omega) (by omega) (by omega)
      have kept := streamed_rowsOnly mem base f t m j
      rw [mulStream_rowsAt _ _ _ _ _ (by omega), before, kept.scale, kept.act]

end MulRows

-- the word

/-- The engine with the planes as SW asks for them (R72, R78). -/
def MatrixUnit.swapped (m : MatrixUnit) (sw : Bool) (t : Tile) : MatrixUnit :=
  if sw then { m with active := some t, shadow := .empty, badActive := m.badShadow, badShadow := false } else m

/-- The swap leaves rows, scales, descriptors and counters alone. -/
theorem MatrixUnit.swapped_frame (m : MatrixUnit) (sw : Bool) (t : Tile) :
    (m.swapped sw t).rowsAt = m.rowsAt ∧ (m.swapped sw t).scale = m.scale ∧ (m.swapped sw t).act = m.act
      ∧ (m.swapped sw t).rows = m.rows := by
  cases sw <;> exact ⟨rfl, rfl, rfl, rfl⟩

theorem MatrixUnit.swapped_shadow (m : MatrixUnit) (sw : Bool) (t : Tile) :
    (m.swapped sw t).shadow = if sw then .empty else m.shadow := by
  cases sw <;> rfl

theorem MatrixUnit.swapped_active {m : MatrixUnit} {sw : Bool} {t : Tile} (plane : planeAfter m sw = some t) :
    (m.swapped sw t).active = some t := by
  cases sw with
  | false => exact plane
  | true => rfl

/-- MXE_ROWS counts `n` rows more. -/
def MatrixUnit.counting (m : MatrixUnit) (n : Nat) : MatrixUnit := { m with rows := m.rows + BitVec.ofNat 64 n }

theorem mulRun_streams (mem : Memory) (base : Nat) {m : MatrixUnit} {w : W64} {t : Tile}
    (plane : planeAfter m (mulWord w).sw = some t) :
    mulRun mem base m w
      = (streamed mem base (mulWord w) t (m.swapped (mulWord w).sw t) ((mulWord w).mcount + 1)).counting
          ((mulWord w).mcount + 1) := by
  simp only [mulRun, plane]
  rfl

/-- `n` is the engine `m` after the word `f` has streamed its rows through the tile `t`. -/
structure Multiplied (mem : Memory) (base : Nat) (f : MulWord) (t : Tile) (m n : MatrixUnit) : Prop where
  active : n.active = some t
  shadow : n.shadow = if f.sw then .empty else m.shadow
  counted : n.rows = m.rows + BitVec.ofNat 64 (f.mcount + 1)
  made : ∀ j, j ≤ f.mcount → n.rowsAt (f.mrow0 + j)
    = streamedRows mem base f t (m.scale f.tscale) m.act j (m.rowsAt (f.mrow0 + j))
  outside : ∀ i r, r < 128 → r < f.mrow0 ∨ f.mrow0 + f.mcount < r → n.row i r = m.row i r

theorem mulRun_multiplied (mem : Memory) (base : Nat) {m : MatrixUnit} {w : W64} {t : Tile}
    (plane : planeAfter m (mulWord w).sw = some t) (rows : (mulWord w).mrow0 + (mulWord w).mcount < 128) :
    Multiplied mem base (mulWord w) t m (mulRun mem base m w) := by
  rw [mulRun_streams mem base plane]
  obtain ⟨rowsAt, scale, act, counter⟩ := m.swapped_frame (mulWord w).sw t
  have planes := streamed_rowsOnly mem base (mulWord w) t (m.swapped (mulWord w).sw t) ((mulWord w).mcount + 1)
  refine ⟨?_, ?_, ?_, fun j hj => ?_, fun i r hr out => ?_⟩
  · rw [planes]; exact MatrixUnit.swapped_active plane
  · rw [planes]; exact m.swapped_shadow ..
  · rw [planes, ← counter]; rfl
  · rw [← scale, ← act, ← rowsAt]
    exact streamed_rowsAt mem base _ t _ (by omega) (by omega)
  · exact (streamed_row_outside mem base _ t _ i (by omega) hr (by omega)).trans (congrFun (congrFun rowsAt r) i)

section Halves

variable {mem : Memory} {base : Nat} {f : MulWord} {t : Tile} {m n : MatrixUnit}

/-- TDST holds the row of half 0, unless half 1 has gone there after it. -/
theorem Multiplied.first (h : Multiplied mem base f t m n) (alone : f.shape = 4 ∨ f.shape = 5 → f.tdst2 ≠ f.tdst) (j : Nat)
    (hj : j ≤ f.mcount) :
    n.row f.tdst (f.mrow0 + j) = mulRow f.afmt t f.depth t.half0 (m.scale f.tscale) f.acc
      (actRow mem base (m.act f.adesc) f.afmt f.depth (f.arow0 + j)) (m.row f.tdst (f.mrow0 + j)) := by
  refine (congrFun (h.made j hj) f.tdst).trans ?_
  unfold streamedRows
  split
  · next paired => rw [Function.update_of_ne (alone paired).symm, Function.update_self]; rfl
  · rw [Function.update_self]; rfl

theorem Multiplied.second (h : Multiplied mem base f t m n) (paired : f.shape = 4 ∨ f.shape = 5) (j : Nat) (hj : j ≤ f.mcount) :
    n.row f.tdst2 (f.mrow0 + j) = mulRow f.afmt t f.depth t.half1 (m.scale f.tscale) f.acc
      (actRow mem base (m.act (if f.shape = 4 then f.adesc2 else f.adesc)) f.afmt f.depth (f.arow0 + j))
      (if f.tdst2 = f.tdst then mulRow f.afmt t f.depth t.half0 (m.scale f.tscale) f.acc
        (actRow mem base (m.act f.adesc) f.afmt f.depth (f.arow0 + j)) (m.row f.tdst (f.mrow0 + j))
        else m.row f.tdst2 (f.mrow0 + j)) := by
  refine (congrFun (h.made j hj) f.tdst2).trans ?_
  unfold streamedRows
  rw [if_pos paired, Function.update_self, Function.update_apply]
  rfl

/-- The registers that a word does not name keep their rows. -/
theorem Multiplied.others (h : Multiplied mem base f t m n) (i r : Nat) (hr : r < 128)
    (out : (i ≠ f.tdst ∧ (f.shape = 4 ∨ f.shape = 5 → i ≠ f.tdst2)) ∨ r < f.mrow0 ∨ f.mrow0 + f.mcount < r) :
    n.row i r = m.row i r := by
  by_cases inside : f.mrow0 ≤ r ∧ r ≤ f.mrow0 + f.mcount
  · obtain ⟨j, rfl⟩ := Nat.exists_eq_add_of_le inside.1
    obtain ⟨ne, ne2⟩ := out.resolve_right (by omega)
    refine (congrFun (h.made j (by omega)) i).trans ?_
    unfold streamedRows
    split
    · next paired => rw [Function.update_of_ne (ne2 paired), Function.update_of_ne ne]; rfl
    · rw [Function.update_of_ne ne]; rfl
  · exact h.outside i r hr (by omega)

end Halves

-- the core that runs the word alone

theorem word58_op (op : BitVec 6) (args : BitVec 58) : fld (word58 op args) 63 58 = op.toNat := by
  have hargs : args.toNat < 2 ^ 58 := args.isLt
  have hop : op.toNat < 2 ^ 6 := op.isLt
  rw [fld, bits, word58, BitVec.toNat_append, ← Nat.shiftLeft_add_eq_or_of_lt hargs, Nat.shiftLeft_eq,
    Nat.shiftRight_eq_div_pow]
  omega

theorem matrixIssue_mul (s : State) (c : Nat) (args : BitVec 58) :
    s.matrixIssue c (word58 0x02 args) = mulFault (s.core c).mx (word58 0x02 args) := by
  simp [State.matrixIssue, word58_op]

/-- A swap that finds a tile finds it in a FULL shadow plane. -/
theorem planeAfter_full {m : MatrixUnit} {t : Tile} (plane : planeAfter m true = some t) : m.shadow = .full t := by
  unfold planeAfter at plane
  simp only [if_true] at plane
  split at plane
  · next full => rw [full, Option.some.inj plane]
  · cases plane

theorem mul_waits_not {s : State} {c : Nat} {args : BitVec 58} {t : Tile}
    (plane : planeAfter (s.core c).mx (mulWord (word58 0x02 args)).sw = some t) :
    s.matrixWaits c (word58 0x02 args) = false := by
  unfold State.matrixWaits
  cases sw : (mulWord (word58 0x02 args)).sw with
  | false =>
    have stays : (fld (word58 0x02 args) 10 10 == 1) = false := sw
    split
    · rw [word58_op, stays]; rfl
    · rfl
  | true => rw [planeAfter_full (sw ▸ plane)]

theorem matrixAlone_passes {s : State} {c : Nat} {w : W64} {run : WordAt → State → State} (runs : s.runs c = true)
    (waits : s.matrixWaits c w = false) (issue : s.matrixIssue c w = none) :
    s.matrixAlone c w run = run (s.core c).sq.alone s := by
  simp [State.matrixAlone, State.runAlone, runs, waits, issue]

theorem exec_mxMul (core : CoreId) (args : BitVec 58) (s : State) :
    exec (.mxMul core args) s
      = .next (s.matrixAlone core (word58 0x02 args) fun off s => s.runMul core (word58 0x02 args) off) := rfl

theorem runMul_clean {s : State} {c : Nat} {w : W64} {off : WordAt} (clean : s.upsets = []) :
    s.runMul c w off = s.modMx c fun m => mulRun s.mem (carrelBase c) m w := by
  unfold State.runMul
  rw [readSpans_clean s _ _ clean]

theorem modMx_onlyCore (s : State) (c : Nat) (f : MatrixUnit → MatrixUnit) : OnlyCore c s (s.modMx c f) :=
  ⟨rfl, fun _ ne => Tbl.get_put_ne _ _ _ _ _ ne⟩

theorem modMx_core (s : State) (c : Nat) (f : MatrixUnit → MatrixUnit) :
    (s.modMx c f).core c = { s.core c with mx := f (s.core c).mx } :=
  Tbl.get_put_self ..

/-- What the check of R72 gives a word that passes it: rows of the register, and a shape of R70. -/
theorem mulFault_none {m : MatrixUnit} {w : W64} (passes : mulFault m w = none) :
    (mulWord w).mrow0 + (mulWord w).mcount < 128 ∧ (mulWord w).shape < 6 := by
  unfold mulFault at passes
  simp only at passes
  split at passes
  · cases passes
  · next legal =>
    simp only [not_or] at legal
    omega

/-- MX.MUL that passes its checks, where no read meets a code error: the core's engine alone changes, as the word says. -/
theorem exec_mxMul_multiplies {core : CoreId} {args : BitVec 58} {s : State} {tile : Tile} (runs : s.runs core = true)
    (clean : s.upsets = []) (issue : s.matrixIssue core (word58 0x02 args) = none)
    (plane : planeAfter (s.core core).mx (mulWord (word58 0x02 args)).sw = some tile) :
    ∃ t, exec (.mxMul core args) s = .next t ∧ OnlyCore core s t
      ∧ t.core core = { s.core core with mx := (t.core core).mx }
      ∧ Multiplied s.mem (carrelBase core) (mulWord (word58 0x02 args)) tile (s.core core).mx (t.core core).mx := by
  have rows := (mulFault_none ((matrixIssue_mul s core args).symm.trans issue)).1
  refine ⟨s.modMx core fun m => mulRun s.mem (carrelBase core) m (word58 0x02 args), ?_, modMx_onlyCore .., ?_, ?_⟩
  · rw [exec_mxMul, matrixAlone_passes runs (mul_waits_not plane) issue, runMul_clean clean]
  · rw [modMx_core]
  · rw [modMx_core]
    exact mulRun_multiplied s.mem _ plane rows

theorem MulWord.depth_single {f : MulWord} (shape : f.shape < 4) :
    (if f.shape = 2 then 64 else if f.shape = 3 then 32 else 128) = f.depth := by
  unfold MulWord.depth
  exact if_congr (by omega) rfl rfl

theorem MulWord.depth_paired {f : MulWord} (shape : 4 ≤ f.shape) : (if f.shape = 4 then 64 else 128) = f.depth := by
  unfold MulWord.depth
  rw [if_neg (show f.shape ≠ 3 by omega)]
  exact if_congr (by omega) rfl rfl

/-- Settles O9: the engine is `Multiplied` by the word, of which the rows of a single-tile shape are those of half 0 and
those of a paired shape are those of both halves, in this order. -/
theorem matrixMultiplyWritesItsRows : Obligations.MatrixMultiplyWritesItsRows := by
  unfold Obligations.MatrixMultiplyWritesItsRows
  constructor
  · intro core args s tile f m k runs clean issue shape plane
    obtain ⟨t, step, only, engine, done⟩ := exec_mxMul_multiplies runs clean issue plane
    have single : ¬ (f.shape = 4 ∨ f.shape = 5) := by omega
    have depth : k = f.depth := MulWord.depth_single shape
    rw [depth]
    exact ⟨t, step, only, engine, done.active, done.shadow, done.counted,
      fun j hj => done.first (fun paired => absurd paired single) j hj,
      fun i r hr out => done.others i r hr (out.imp_left fun ne => ⟨ne, fun paired => absurd paired single⟩)⟩
  · intro core args s tile f m k read first second runs clean issue shape plane
    obtain ⟨t, step, only, engine, done⟩ := exec_mxMul_multiplies runs clean issue plane
    have legal : f.shape < 6 := (mulFault_none ((matrixIssue_mul s core args).symm.trans issue)).2
    have paired : f.shape = 4 ∨ f.shape = 5 := by omega
    have depth : k = f.depth := MulWord.depth_paired shape
    simp only [second, first, read, depth]
    exact ⟨t, step, only, engine,
      fun j hj => ⟨done.second paired j hj, fun ne => done.first (fun _ => ne) j hj⟩,
      fun i r hr out => done.others i r hr (out.imp_left fun ne => ⟨ne.1, fun _ => ne.2⟩)⟩

end Sys2Proof.Machine

/-! PROOFS. What a fault leaves to be read: the state of each core (R154) and the capture of each page (R430). Only the fault
of a core and the stop of a program's cores write them: one lemma per operation that a program fault runs, in the model's
order, says that the operation leaves them as they are. -/

namespace Sys2Proof.Machine

open Sys2Proof

/-- The state of each core and the capture of each page. -/
def State.record (s : State) : (Nat → CoreMode) × (Nat → List W32) :=
  (fun c => (s.core c).sq.mode, fun p => (s.page p).caps)

-- how states are built

/-- A record update that writes neither cores nor pages. -/
@[simp] theorem record_mk (a : State) (fuses mem upsets clusters logs ports regions dieClocks clock ledgers ledger windows
    admitted remote win tenants slots sessions adm fab fports routes cartridges engines oeSel editions acc accDie charter
    curators fwCur fwOpt sec gen power busData busLatch freeCtr pending) :
    (State.mk fuses mem upsets a.cores clusters a.pages logs ports regions dieClocks clock ledgers ledger windows admitted
      remote win tenants slots sessions adm fab fports routes cartridges engines oeSel editions acc accDie charter
      curators fwCur fwOpt sec gen power busData busLatch freeCtr pending).record = a.record := (rfl)

@[simp] theorem ite_record {p : Prop} [Decidable p] (s t : State) :
    (if p then s else t).record = if p then s.record else t.record := apply_ite ..

@[simp] theorem ite_fst_record {α : Type} {p : Prop} [Decidable p] (x y : State × α) :
    (if p then x else y).1.record = if p then x.1.record else y.1.record :=
  apply_ite (fun x : State × α => x.1.record) ..

/-- The state of an answer that a match has taken apart. -/
theorem record_of_fst_eq {α : Type} {x : State × α} {s t : State} {a : α} (e : x = (t, a)) (k : x.1.record = s.record) :
    t.record = s.record := by
  rw [e] at k
  exact k

/-- A fold whose accumulator holds a state. -/
theorem foldl_record_of {α β : Type} (g : β → State) (f : β → α → β) (l : List α) (x : β)
    (h : ∀ x a, (g (f x a)).record = (g x).record) : (g (l.foldl f x)).record = (g x).record := by
  induction l generalizing x with
  | nil => rfl
  | cons a l ih => exact (ih _).trans (h x a)

@[simp] theorem foldl_record {α : Type} (f : State → α → State) (l : List α) (s : State)
    (h : ∀ s a, (f s a).record = s.record) : (l.foldl f s).record = s.record := foldl_record_of id f l s h

-- entries of the tables: `(rfl)`, so that they rewrite the side goal of `foldl_record` too

/-- A change of a core that leaves its state. -/
@[simp] theorem modCore_record (s : State) (c : Nat) (f : Core → Core) (h : ∀ k, (f k).sq.mode = k.sq.mode) :
    (s.modCore c f).record = s.record := by
  refine Prod.ext (funext fun d => ?_) rfl
  show ((s.modCore c f).core d).sq.mode = (s.core d).sq.mode
  by_cases same : d = c
  · subst same
    exact (congrArg (fun k : Core => k.sq.mode) (Tbl.get_put_self ..)).trans (h _)
  · exact congrArg (fun k : Core => k.sq.mode) (Tbl.get_put_ne _ _ _ _ _ same)

@[simp] theorem modSq_record (s : State) (c : Nat) (f : Sequencer → Sequencer) (h : ∀ q, (f q).mode = q.mode) :
    (s.modSq c f).record = s.record := modCore_record s c _ fun k => h k.sq

@[simp] theorem modXf_record (s : State) (c : Nat) (f : TransferUnit → TransferUnit) : (s.modXf c f).record = s.record :=
  modCore_record s c _ fun _ => rfl

@[simp] theorem modCar_record (s : State) (c : Nat) (f : CarrelUnit → CarrelUnit) : (s.modCar c f).record = s.record :=
  modCore_record s c _ fun _ => rfl

@[simp] theorem modQueue_record (s : State) (c q : Nat) (f : Endpoint → Endpoint) : (s.modQueue c q f).record = s.record :=
  modCore_record s c _ fun _ => rfl

/-- A change of a page that leaves its capture. -/
@[simp] theorem modPage_record (s : State) (p : Nat) (f : PageHdr → PageHdr) (h : ∀ x, (f x).caps = x.caps) :
    (s.modPage p f).record = s.record := by
  refine Prod.ext rfl (funext fun q => ?_)
  show ((s.modPage p f).page q).caps = (s.page q).caps
  rw [modPage_page]
  split
  · next same => rw [h, same]
  · rfl

@[simp] theorem modCluster_record (s : State) (c : Nat) (f : Cluster → Cluster) : (s.modCluster c f).record = s.record := (rfl)
@[simp] theorem modRing_record (s : State) (c r : Nat) (f : Ring → Ring) : (s.modRing c r f).record = s.record := (rfl)
@[simp] theorem modPart_record (s : State) (c p : Nat) (f : Part → Part) : (s.modPart c p f).record = s.record := (rfl)
@[simp] theorem modLog_record (s : State) (d : Nat) (f : EvLog → EvLog) : (s.modLog d f).record = s.record := (rfl)
@[simp] theorem modPort_record (s : State) (p : Nat) (f : TsdPort → TsdPort) : (s.modPort p f).record = s.record := (rfl)
@[simp] theorem modWindow_record (s : State) (h : Nat) (f : Window → Window) : (s.modWindow h f).record = s.record := (rfl)
@[simp] theorem modRemoteWin_record (s : State) (h : Nat) (f : RemoteWin → RemoteWin) :
    (s.modRemoteWin h f).record = s.record := (rfl)
@[simp] theorem modTenant_record (s : State) (t : Nat) (f : Tenant → Tenant) : (s.modTenant t f).record = s.record := (rfl)
@[simp] theorem modSlot_record (s : State) (i : Nat) (f : Slot → Slot) : (s.modSlot i f).record = s.record := (rfl)
@[simp] theorem modSession_record (s : State) (i : Nat) (f : Session → Session) : (s.modSession i f).record = s.record := (rfl)
@[simp] theorem modFport_record (s : State) (p : Nat) (f : FabPort → FabPort) : (s.modFport p f).record = s.record := (rfl)
@[simp] theorem setRoute_record (s : State) (r : Nat) (v : RouteEntry) : (s.setRoute r v).record = s.record := (rfl)
@[simp] theorem modEdition_record (s : State) (i : Nat) (f : Edition → Edition) : (s.modEdition i f).record = s.record := (rfl)
@[simp] theorem draw_record (s : State) : s.draw.2.record = s.record := (rfl)

-- events

section Occurrence

variable {R : State → State → Prop} {P : Nat → Prop} (refl : ∀ s, R s s) (trans : ∀ {s t u}, R s t → R t u → R s u)
  (sets : ∀ s p bit, P p → R s (s.modPage p fun h => { h with evtRaw := setBit h.evtRaw bit }))
  (log : ∀ s d f, R s (s.modLog d f)) (port : ∀ s p f, R s (s.modPort p f))
  (evl : ∀ d, P (evlPage d)) (tsd : ∀ p, P (tsdPage p))

include refl trans sets log port evl tsd

/-- An occurrence is made of bits set in pages where `P` holds (the page's own, those of the event logs and of the Tsudan
ports) and of changes of logs and ports: what they all keep, it keeps. -/
theorem emit_rel (fuel : Nat) (s : State) (page bit : Nat) (detail : Bytes) (own : P page) :
    R s (s.emit fuel page bit detail) := by
  induction fuel generalizing s page bit detail with
  | zero => exact refl s
  | succ n ih =>
    have either {s t u : State} {b : Prop} [Decidable b] (h : R s t) (k : R s u) : R s (if b then t else u) := by
      split <;> assumption
    have logged {s : State} (b c : Prop) [Decidable b] [Decidable c] (f : EvLog → EvLog) (d : Nat) :
        R s (if b then s else if c then (s.modLog d f).emit n (evlPage d) 0 [] else s.modLog d f) :=
      either (refl s) (trans (log ..) (either (ih _ _ _ _ (evl d)) (refl _)))
    have queued (s : State) (b : Prop) [Decidable b] (p : Nat) (f : TsdPort → TsdPort) :
        R s (if b then (s.modPort p f).emit n (tsdPage p) 4 [] else s.modPort p f) :=
      trans (port ..) (either (ih _ _ _ _ (tsd p)) (refl _))
    unfold State.emit
    refine trans (sets s page bit own) ?_
    dsimp only
    split
    · exact refl _
    · exact either (logged ..) (trans (logged ..) (trans (queued ..) (queued ..)))

theorem raise_rel (s : State) (page bit : Nat) (detail : Bytes) (own : P page) : R s (s.raise page bit detail) :=
  trans (trans (emit_rel refl trans sets log port evl tsd 6 s page bit detail own) (port ..)) (port ..)

end Occurrence

@[simp] theorem raise_record (s : State) (page bit : Nat) (detail : Bytes) : (s.raise page bit detail).record = s.record :=
  raise_rel (R := fun s t => t.record = s.record) (P := fun _ => True) (fun _ => rfl) (fun h k => k.trans h)
    (fun s p _ _ => modPage_record s p _ fun _ => rfl) modLog_record modPort_record (fun _ => trivial) (fun _ => trivial)
    s page bit detail trivial

/-- An event leaves every page but its own, those of the event logs and those of the Tsudan ports. -/
theorem raise_page (s : State) (page bit : Nat) (detail : Bytes) {q : Nat} (other : page ≠ q) (evl : ∀ d, evlPage d ≠ q)
    (tsd : ∀ p, tsdPage p ≠ q) : (s.raise page bit detail).page q = s.page q :=
  raise_rel (R := fun s t => t.page q = s.page q) (P := (· ≠ q)) (fun _ => rfl) (fun h k => k.trans h)
    (fun s p _ ne => by rw [modPage_page, if_neg ne.symm]) (fun _ _ _ => rfl) (fun _ _ _ => rfl) evl tsd s page bit detail other

@[simp] theorem raise0_record (s : State) (page bit : Nat) : (s.raise0 page bit).record = s.record := raise_record ..

-- packets and commands

@[simp] theorem pumpPort_record (s : State) (p : Nat) : (s.pumpPort p).record = s.record := (rfl)

@[simp] theorem sendPacket_record (s : State) (p : Nat) (q : TxPacket) : (s.sendPacket p q).record = s.record := by
  simp [State.sendPacket]

@[simp] theorem complete_record (s : State) (p : Nat) (tag : BitVec 32) (r : Reply) :
    (s.complete p tag r).record = s.record := by
  unfold State.complete
  split <;> simp

@[simp] theorem completeWhere_record (s : State) (sel : CmdWait → Bool) (r : Reply) :
    (s.completeWhere sel r).record = s.record := by
  simp [State.completeWhere]

@[simp] theorem setWait_record (s : State) (p : Nat) (tag : BitVec 32) (w : CmdWait) :
    (s.setWait p tag w).record = s.record := (rfl)

@[simp] theorem operate_record (s : State) (p : Nat) (tag : BitVec 32) (op : State → State × Answer)
    (h : ∀ s, (op s).1.record = s.record) : (s.operate p tag op).record = s.record := by
  unfold State.operate
  split
  · next t r e => simp [record_of_fst_eq e (h s)]
  · next t w e => simp [record_of_fst_eq e (h s)]

-- sending on the fabric

@[simp] theorem freeFlit_record (s : State) (i vc : Nat) : (s.freeFlit i vc).record = s.record := by simp [State.freeFlit]
@[simp] theorem delayOwn_record (s : State) (fs : List Flit) : (s.delayOwn fs).record = s.record := by simp [State.delayOwn]
@[simp] theorem pumpFport_record (s : State) (n : Nat) : (s.pumpFport n).record = s.record := by simp [State.pumpFport]

@[simp] theorem markWaited_record (s : State) (f : Flit) : (s.markWaited f).1.record = s.record := by
  simp [State.markWaited]

@[simp] theorem queueFlit_record (s : State) (n ingress : Nat) (f : Flit) :
    (s.queueFlit n ingress f).record = s.record := by
  simp [State.queueFlit]

@[simp] theorem dropFlit_record (s : State) : s.dropFlit.record = s.record := by simp [State.dropFlit]

@[simp] theorem sendOver_record (s : State) (r : RouteEntry) (typ vc tsf : Nat) (payload : Bytes) :
    (s.sendOver r typ vc tsf payload).record = s.record := by
  simp [State.sendOver]

@[simp] theorem sendLocal_record (s : State) (n typ vc : Nat) (payload : Bytes) :
    (s.sendLocal n typ vc payload).record = s.record := by
  simp [State.sendLocal, State.sendLocalFrom]

-- sessions

@[simp] theorem autoFree_record (s : State) (i : Nat) : (s.autoFree i).record = s.record := by simp [State.autoFree]

@[simp] theorem closeSession_record (s : State) (i reason : Nat) : (s.closeSession i reason).record = s.record := by
  simp [State.closeSession, State.unqueue]

@[simp] theorem endRow_record (s : State) (i reason detail : Nat) (stamp : W64) :
    (s.endRow i reason detail stamp).record = s.record := (rfl)

@[simp] theorem faultSessions_record (s : State) (slot : Nat) : (s.faultSessions slot).record = s.record := by
  simp [State.faultSessions]

-- what is given back

@[simp] theorem beginCloses_record (s : State) (sel : Window → Bool) : (s.beginCloses sel).record = s.record := by
  simp [State.beginCloses, State.beginClose]

@[simp] theorem clearCore_record (s : State) (c : Nat) : (s.clearCore c).record = s.record := by
  simp [State.clearCore, State.unloadRings, Core.cleared]

@[simp] theorem startCarrelClear_record (s : State) (c : Nat) (next : Option (BitVec 8)) (waitFor : Option Nat) :
    (s.startCarrelClear c next waitFor).record = s.record := by
  simp [State.startCarrelClear]

@[simp] theorem markClear_record (s : State) (k p : Nat) (next : PartKind) (owner : Option (BitVec 8))
    (waitFor : Option Nat) : (s.markClear k p next owner waitFor).record = s.record := by
  simp [State.markClear]

@[simp] theorem startDue_record (s : State) : s.startDue.record = s.record := by simp [State.startDue]

@[simp] theorem sendVc3_record (s : State) (slot device typ : Nat) (payload : Bytes) :
    (s.sendVc3 slot device typ payload).1.record = s.record := by
  unfold State.sendVc3
  split <;> simp

@[simp] theorem askAll_record (s : State) (index typ kind : Nat) (devices : List Nat) :
    (s.askAll index typ kind devices).1.record = s.record := by
  unfold State.askAll
  exact foldl_record_of Prod.fst _ _ _ fun a d => by dsimp only; split <;> simp

@[simp] theorem retireEdition_record (s : State) (index : Nat) : (s.retireEdition index).record = s.record := by
  simp [State.retireEdition]

@[simp] theorem drainCheck_record (s : State) (slot : Nat) : (s.drainCheck slot).record = s.record := by
  simp [State.drainCheck]

@[simp] theorem dropRoutes_record (s : State) (slot : Nat) : (s.dropRoutes slot).record = s.record := by
  simp [State.dropRoutes]

@[simp] theorem wipeCarrel_record (s : State) (c : Nat) (waitFor : Option Nat) :
    (s.wipeCarrel c waitFor).record = s.record := by
  simp [State.wipeCarrel]

@[simp] theorem emptySlot_record (s : State) (slot : Nat) : (s.emptySlot slot).record = s.record := by
  simp [State.emptySlot]

@[simp] theorem freeCore_record (s : State) (c : Nat) : (s.freeCore c).record = s.record := by
  simp [State.freeCore, State.freeEndpoint]

@[simp] theorem freeRings_record (s : State) (k : Nat) : (s.freeRings k).record = s.record := by simp [State.freeRings]
@[simp] theorem undoLoad_record (s : State) (slot : Nat) : (s.undoLoad slot).record = s.record := by simp [State.undoLoad]

@[simp] theorem failLoad_record (s : State) (slot : Nat) (r : Reply) : (s.failLoad slot r).record = s.record := by
  unfold State.failLoad
  split <;> simp

@[simp] theorem dropRemote_record (s : State) (t : Nat) : (s.dropRemote t).record = s.record := by simp [State.dropRemote]

@[simp] theorem advanceRelease_record (s : State) (t : Nat) : (s.advanceRelease t).record = s.record := by
  unfold State.advanceRelease
  dsimp only
  split
  · rfl
  · split
    · simp
    · split
      · simp
      · split <;> simp

@[simp] theorem bindPart_record (s : State) (t : Nat) (named : List (Nat × Nat × PartKind)) (k p : Nat) :
    (s.bindPart t named k p).record = s.record := by
  unfold State.bindPart
  split <;> simp

@[simp] theorem bindCluster_record (s : State) (t : Nat) (mask : BitVec 32) (k : Nat) :
    (s.bindCluster t mask k).record = s.record := by
  simp [State.bindCluster]

@[simp] theorem bindGrant_record (s : State) (b : Bytes) : (s.bindGrant b).record = s.record := by simp [State.bindGrant]
@[simp] theorem bound_record (s : State) (t : Nat) : (s.bound t).record = s.record := (rfl)

@[simp] theorem bindOp_record (port : Nat) (b : Bytes) (s : State) : (bindOp port b s).1.record = s.record := by
  unfold bindOp
  split <;> simp

@[simp] theorem advanceBind_record (s : State) (port : Nat) (c : Cmd) : (s.advanceBind port c).record = s.record := by
  unfold State.advanceBind
  split <;> simp

@[simp] theorem progress_record (s : State) : s.progress.record = s.record := by simp [State.progress]

@[simp] theorem sessionEnded_record (s : State) (slot : Nat) : (s.sessionEnded slot).record = s.record := by
  simp [State.sessionEnded]

@[simp] theorem raiseMode_record (s : State) (c : Nat) : (s.raiseMode c).record = s.record := raise_record ..

@[simp] theorem sendAborts_record (s : State) (slot : Nat) : (s.sendAborts slot).record = s.record := by
  unfold State.sendAborts
  split <;> simp

-- the fault of a core

/-- Core `c` is FAULTED, and the capture of page `q` is `x`. -/
structure StopRecorded (c q : Nat) (x : List W32) (s : State) : Prop where
  mode : (s.core c).sq.mode = .faulted
  caps : (s.page q).caps = x

theorem StopRecorded.of_record {c q : Nat} {x : List W32} {s t : State} (h : StopRecorded c q x s)
    (same : t.record = s.record) : StopRecorded c q x t :=
  ⟨(congrFun (congrArg Prod.fst same) c).trans h.mode, (congrFun (congrArg Prod.snd same) q).trans h.caps⟩

/-- The page of a matrix engine is no core's, no event log's and no Tsudan port's (R423, R424). -/
theorem mxePage_apart (c d : Nat) : corePage d ≠ mxePage c ∧ evlPage d ≠ mxePage c ∧ tsdPage d ≠ mxePage c := by
  unfold mxePage corePage unitPage evlPage tsdPage diePageNo
  omega

theorem capture_mode (s : State) (p bit : Nat) (caps : List W32) (c : Nat) :
    ((s.capture p bit caps).core c).sq.mode = (s.core c).sq.mode := by
  unfold State.capture State.raiseCap
  dsimp only
  refine (congrFun (congrArg Prod.fst (raise_record ..)) c).trans ?_
  split <;> rfl

/-- A capture leaves the pages of other units. -/
theorem capture_page_mxe (s : State) (p bit : Nat) (caps : List W32) (c : Nat) (other : p ≠ mxePage c) :
    (s.capture p bit caps).page (mxePage c) = s.page (mxePage c) := by
  unfold State.capture State.raiseCap
  dsimp only
  rw [raise_page _ _ _ _ other (fun d => (mxePage_apart c d).2.1) (fun d => (mxePage_apart c d).2.2)]
  split
  · rw [modPage_page, if_neg other.symm]
  · rfl

/-- The first capture since the page's bit was cleared is the one of the fault (R430). -/
theorem capture_taken (s : State) (p bit : Nat) (caps : List W32) (four : caps.length = 4)
    (clear : (s.page p).evtRaw.getLsbD bit = false) : ((s.capture p bit caps).page p).caps.take 4 = caps := by
  unfold State.capture State.raiseCap
  simp only [clear, four, Bool.not_false, if_true]
  refine (congrArg (List.take 4) (congrFun (congrArg Prod.snd (raise_record ..)) p)).trans ?_
  simp only [State.record, modPage_page]
  simp [four]

theorem stopped_mode (s : State) (c : Nat) : ((s.modCore c Core.stopped).core c).sq.mode = .faulted :=
  congrArg (fun k : Core => k.sq.mode) (Tbl.get_put_self ..)

/-- Stopping a core of a program leaves a core that is FAULTED already, and the matrix engines' captures. -/
theorem programStop_recorded {c : Nat} {x : List W32} {s : State} (h : StopRecorded c (mxePage c) x s)
    (origin reason d : Nat) : StopRecorded c (mxePage c) x (s.programStop origin reason d) := by
  unfold State.programStop
  split
  · exact h
  · refine StopRecorded.of_record ⟨?_, ?_⟩ (raiseMode_record ..)
    · rw [capture_mode]
      by_cases same : c = d
      · rw [same, stopped_mode]
      · exact (congrArg (fun k : Core => k.sq.mode) (Tbl.get_put_ne _ _ _ _ _ same)).trans h.mode
    · rw [capture_page_mxe _ _ _ _ _ (mxePage_apart c d).1]
      exact h.caps

theorem programFault_recorded {c : Nat} {x : List W32} {s : State} (h : StopRecorded c (mxePage c) x s)
    (slot reason : Nat) (origin : Option Nat) : StopRecorded c (mxePage c) x (s.programFault slot reason origin) := by
  unfold State.programFault
  split
  · exact h
  · have stops := List.foldlRecOn (motive := StopRecorded c (mxePage c) x) (s.slot slot).cores
      (fun (s : State) d => if origin = some d then s else s.programStop (origin.getD 0xFF) reason d)
      (h.of_record (modSlot_record s slot fun x => { x with state := .faulted })) fun s hs d _ => by
        split
        · exact hs
        · exact programStop_recorded hs ..
    exact stops.of_record (by simp)

theorem programOf_recorded {c : Nat} {x : List W32} {s : State} (h : StopRecorded c (mxePage c) x s) (d reason : Nat)
    (origin : Option Nat) : StopRecorded c (mxePage c) x (s.programOf d reason origin) := by
  unfold State.programOf
  split
  · exact programFault_recorded h ..
  · exact h

theorem pastFault_of_runs {s : State} {c : Nat} (runs : s.runs c = true) : s.pastFault c = false := by
  unfold State.runs at runs
  unfold State.pastFault
  cases mode : (s.core c).sq.mode <;> simp_all [CoreMode.runs]

/-- A matrix word that faults on a core that runs words leaves it FAULTED and its cause, word and offset in the engine's
capture, unless one stands there already (R90, R154, R430); a program's fault changes neither (R477). -/
theorem matrixFault_recorded {s : State} {c : Nat} (runs : s.runs c = true) (cause : Nat) (w : W64) (place : WordAt) :
    ((s.matrixFault c cause w place).core c).sq.mode = .faulted
      ∧ ((s.page (mxePage c)).evtRaw.getLsbD 0 = false →
          ((s.matrixFault c cause w place).page (mxePage c)).caps.take 4 = wordCaps cause w place) := by
  unfold State.matrixFault State.coreFault
  rw [pastFault_of_runs runs, if_neg Bool.false_ne_true]
  unfold State.coreStop
  dsimp only
  generalize [BitVec.ofNat 32 (256 * 1 + cause), BitVec.ofNat 32 place.bundle, _, _] = first
  have page : ((s.modCore c Core.stopped).capture (corePage c) 0 first).page (mxePage c) = s.page (mxePage c) :=
    capture_page_mxe _ _ _ _ _ (mxePage_apart c c).1
  have stop : StopRecorded c (mxePage c) _ _ := programOf_recorded (StopRecorded.of_record ⟨
    (capture_mode _ (mxePage c) 0 (wordCaps cause w place) c).trans
      ((capture_mode _ (corePage c) 0 first c).trans (stopped_mode s c)), rfl⟩ (raiseMode_record _ c)) c reasonCore (some c)
  exact ⟨stop.mode, fun clear => (congrArg (List.take 4) stop.caps).trans (capture_taken _ _ _ _ rfl (page ▸ clear))⟩

end Sys2Proof.Machine

/-! PROOFS. The matrix words that set a register (R74), load a plane (R65, R71, R77) and store rows (R73), each run alone on
its core: the fields of a word, whether it waits, what its check finds, and what it leaves. -/

namespace Sys2Proof.Machine

open Sys2Proof

-- the word and its core

/-- A field of a matrix word below its opcode, `n` bits from bit `lo`. -/
theorem word58_field (op : BitVec 6) (args : BitVec 58) (lo n : Nat) (some_bits : 0 < n) (below : lo + n ≤ 58) :
    fld (word58 op args) (lo + n - 1) lo = (args.extractLsb' lo n).toNat := by
  have width : lo + n - 1 - lo + 1 = n := by omega
  rw [fld, bits, width, BitVec.extractLsb'_toNat, word58, BitVec.toNat_append]
  refine Nat.eq_of_testBit_eq fun i => ?_
  by_cases inside : i < n
  · have low : ¬ 58 ≤ lo + i := by omega
    simp [Nat.testBit_mod_two_pow, inside, low]
  · simp [Nat.testBit_mod_two_pow, inside]

theorem ofNat_word58_field (op : BitVec 6) (args : BitVec 58) (lo n : Nat) (some_bits : 0 < n) (below : lo + n ≤ 58) :
    BitVec.ofNat n (fld (word58 op args) (lo + n - 1) lo) = args.extractLsb' lo n := by
  rw [word58_field op args lo n some_bits below, BitVec.ofNat_toNat, BitVec.setWidth_eq]

/-- No word waits unless a shadow load is under way (R78, R80). -/
theorem matrixWaits_idle {s : State} {c : Nat} (idle : ∀ l, (s.core c).mx.shadow ≠ .loading l) (w : W64) :
    s.matrixWaits c w = false := by
  unfold State.matrixWaits
  split
  · next l loading => exact absurd loading (idle l)
  · rfl

/-- Only MX.LOAD and MX.MUL can wait. -/
theorem matrixWaits_others (s : State) (c : Nat) {op : BitVec 6} (args : BitVec 58) (load : op.toNat ≠ 0x01)
    (mul : op.toNat ≠ 0x02) : s.matrixWaits c (word58 op args) = false := by
  unfold State.matrixWaits
  split
  · simp [word58_op, load, mul]
  · rfl

theorem matrixAlone_faults {s : State} {c : Nat} {w : W64} {cause : Nat} (run : WordAt → State → State)
    (runs : s.runs c = true) (waits : s.matrixWaits c w = false) (issue : s.matrixIssue c w = some cause) :
    s.matrixAlone c w run = s.matrixFault c cause w (s.core c).sq.alone := by
  simp [State.matrixAlone, State.runAlone, State.issueFault, runs, waits, issue]

theorem matrixIssue_store (s : State) (c : Nat) (args : BitVec 58) :
    s.matrixIssue c (word58 0x03 args) = storeFault (s.width c) (s.core c).mx (word58 0x03 args) := by
  simp [State.matrixIssue, word58_op]

theorem matrixIssue_seta (s : State) (c : Nat) (args : BitVec 58) :
    s.matrixIssue c (word58 0x04 args) = setaFault (word58 0x04 args) := by
  simp [State.matrixIssue, word58_op]

theorem matrixIssue_sets (s : State) (c : Nat) (args : BitVec 58) :
    s.matrixIssue c (word58 0x05 args) = setsFault (word58 0x05 args) := by
  simp [State.matrixIssue, word58_op]

theorem exec_mxLoad (core : CoreId) (args : BitVec 58) (s : State) :
    exec (.mxLoad core args) s
      = .next (s.matrixAlone core (word58 0x01 args) fun off s => s.runLoad core (word58 0x01 args) off) := rfl

theorem exec_shadowLoadDone (core : CoreId) (s : State) : exec (.shadowLoadDone core) s = .next (s.shadowDone core) := rfl

theorem exec_mxStore (core : CoreId) (args : BitVec 58) (s : State) :
    exec (.mxStore core args) s
      = .next (s.matrixAlone core (word58 0x03 args) fun off s => s.runStore core (word58 0x03 args) off) := rfl

theorem exec_mxSeta (core : CoreId) (args : BitVec 58) (s : State) :
    exec (.mxSeta core args) s
      = .next (s.matrixAlone core (word58 0x04 args) fun _ s => s.runSeta core (word58 0x04 args)) := rfl

theorem exec_mxSets (core : CoreId) (args : BitVec 58) (s : State) :
    exec (.mxSets core args) s
      = .next (s.matrixAlone core (word58 0x05 args) fun _ s => s.runMxSets core (word58 0x05 args)) := rfl

-- what reset leaves

theorem reset_scale (i : Nat) : MatrixUnit.reset.scale i = fp32One := ite_self _

/-- Settles O4: no table of State.reset lists an entry, so that each core and each port reads its reset value. -/
theorem resetLeavesTheModuleCleared : Obligations.ResetLeavesTheModuleCleared := by
  unfold Obligations.ResetLeavesTheModuleCleared
  have core (c : Nat) : State.reset.core c = Core.reset := rfl
  have port (p : Nat) : State.reset.port p = TsdPort.reset := rfl
  have fport (n : Nat) : State.reset.fport n = FabPort.reset := rfl
  refine ⟨Memory.wf_nil, rfl, fun _ => rfl, fun c => ?_, fun p => ?_, fun n => ?_, rfl, rfl⟩
  · rw [core]
    exact ⟨rfl, rfl, rfl, rfl, fun _ _ => rfl, reset_scale, fun _ => rfl⟩
  · rw [port]
    exact ⟨rfl, rfl, rfl⟩
  · rw [fport]
    exact ⟨rfl, rfl⟩

-- MX.SETA and MX.SETS

/-- The descriptor that an MX.SETA holds (R74). -/
theorem setaRun_act (m : MatrixUnit) (args : BitVec 58) (i : Nat) :
    (setaRun m (word58 0x04 args)).act i = if i = (args.extractLsb' 54 4).toNat
      then ⟨args.extractLsb' 33 21, args.extractLsb' 12 21, args.extractLsb' 4 8⟩ else m.act i := by
  have index : fld (word58 0x04 args) 57 54 = _ := word58_field 0x04 args 54 4 (by decide) (by decide)
  have ebase : BitVec.ofNat 21 (fld (word58 0x04 args) 53 33) = _ :=
    ofNat_word58_field 0x04 args 33 21 (by decide) (by decide)
  have sbase : BitVec.ofNat 21 (fld (word58 0x04 args) 32 12) = _ :=
    ofNat_word58_field 0x04 args 12 21 (by decide) (by decide)
  have pitch : BitVec.ofNat 8 (fld (word58 0x04 args) 11 4) = _ :=
    ofNat_word58_field 0x04 args 4 8 (by decide) (by decide)
  unfold setaRun MatrixUnit.act
  dsimp only
  rw [index, ebase, sbase, pitch, Tbl.get_put]

/-- The scale register that an MX.SETS names, not register 0, takes its VALUE (R74). -/
theorem setsRun_scale (m : MatrixUnit) (args : BitVec 58) (i : Nat) (named : (args.extractLsb' 54 4).toNat ≠ 0) :
    (setsRun m (word58 0x05 args)).scale i = if i = (args.extractLsb' 54 4).toNat
      then args.extractLsb' 0 32 else m.scale i := by
  have index : fld (word58 0x05 args) 57 54 = _ := word58_field 0x05 args 54 4 (by decide) (by decide)
  have value : BitVec.ofNat 32 (fld (word58 0x05 args) 31 0) = _ :=
    ofNat_word58_field 0x05 args 0 32 (by decide) (by decide)
  unfold setsRun MatrixUnit.scale
  dsimp only
  rw [index, value, Tbl.get_put]
  split
  · next zero => rw [if_neg (by omega)]
  · rfl

theorem setaFault_legal {args : BitVec 58} (legal : args.extractLsb' 0 4 = 0) : setaFault (word58 0x04 args) = none := by
  have rsvd : fld (word58 0x04 args) 3 0 = _ := word58_field 0x04 args 0 4 (by decide) (by decide)
  rw [setaFault, rsvd, legal]
  rfl

/-- MX.SETS faults on a reserved bit and on register 0 (R74, R90). -/
theorem setsFault_eq (args : BitVec 58) : setsFault (word58 0x05 args)
    = if args.extractLsb' 32 22 ≠ 0 ∨ args.extractLsb' 54 4 = 0 then some mxIllegal else none := by
  have rsvd : fld (word58 0x05 args) 53 32 = _ := word58_field 0x05 args 32 22 (by decide) (by decide)
  have index : fld (word58 0x05 args) 57 54 = _ := word58_field 0x05 args 54 4 (by decide) (by decide)
  unfold setsFault
  rw [rsvd, index]
  exact if_congr (by simp [← BitVec.toNat_inj]) rfl rfl

/-- MX.MUL faults where a descriptor that it uses has PITCH 0 (R74, R90). -/
theorem mulFault_pitch {m : MatrixUnit} {w : W64} (pitch : (m.act (mulWord w).adesc).pitch = 0
    ∨ (mulWord w).shape = 4 ∧ (m.act (mulWord w).adesc2).pitch = 0) : mulFault m w = some mxIllegal := by
  unfold mulFault
  refine if_pos ?_
  rcases pitch with first | ⟨pk, second⟩
  · simp [first]
  · simp [pk, second]

theorem exec_mxSeta_legal {core : CoreId} {args : BitVec 58} {s : State} (runs : s.runs core = true)
    (legal : args.extractLsb' 0 4 = 0) :
    exec (.mxSeta core args) s = .next (s.modMx core fun m => setaRun m (word58 0x04 args)) := by
  have issue := (matrixIssue_seta s core args).trans (setaFault_legal legal)
  rw [exec_mxSeta, matrixAlone_passes runs (matrixWaits_others s core args (by decide) (by decide)) issue]
  rfl

theorem exec_mxSets_legal {core : CoreId} {args : BitVec 58} {s : State} (runs : s.runs core = true)
    (legal : args.extractLsb' 32 22 = 0) (named : args.extractLsb' 54 4 ≠ 0) :
    exec (.mxSets core args) s = .next (s.modMx core fun m => setsRun m (word58 0x05 args)) := by
  have issue : s.matrixIssue core (word58 0x05 args) = none := by
    rw [matrixIssue_sets, setsFault_eq, if_neg (not_or.2 ⟨not_not.2 legal, named⟩)]
  rw [exec_mxSets, matrixAlone_passes runs (matrixWaits_others s core args (by decide) (by decide)) issue]
  rfl

/-- An MX.SETS of register 0 ends in a matrix fault. -/
theorem exec_mxSets_faults {core : CoreId} {args : BitVec 58} {s : State} (runs : s.runs core = true)
    (zero : args.extractLsb' 54 4 = 0) : exec (.mxSets core args) s
      = .next (s.matrixFault core mxIllegal (word58 0x05 args) (s.core core).sq.alone) := by
  have issue : s.matrixIssue core (word58 0x05 args) = some mxIllegal := by
    rw [matrixIssue_sets, setsFault_eq, if_pos (Or.inr zero)]
  rw [exec_mxSets, matrixAlone_faults _ runs (matrixWaits_others s core args (by decide) (by decide)) issue]

/-- So does an MX.MUL through a descriptor of PITCH 0, unless it waits for a shadow load. -/
theorem exec_mxMul_faults {core : CoreId} {args : BitVec 58} {s : State} (runs : s.runs core = true)
    (idle : ∀ l, (s.core core).mx.shadow ≠ .loading l)
    (pitch : ((s.core core).mx.act (mulWord (word58 0x02 args)).adesc).pitch = 0
      ∨ (mulWord (word58 0x02 args)).shape = 4 ∧ ((s.core core).mx.act (mulWord (word58 0x02 args)).adesc2).pitch = 0) :
    exec (.mxMul core args) s
      = .next (s.matrixFault core mxIllegal (word58 0x02 args) (s.core core).sq.alone) := by
  have issue := (matrixIssue_mul s core args).trans (mulFault_pitch pitch)
  rw [exec_mxMul, matrixAlone_faults _ runs (matrixWaits_idle idle _) issue]

/-- Settles O7: MX.SETA and MX.SETS change the one entry of their table that they name, and the words at fault are found
by their checks and end in a matrix fault. -/
theorem matrixRegistersAreSet : Obligations.MatrixRegistersAreSet := by
  unfold Obligations.MatrixRegistersAreSet
  refine ⟨fun core args s runs legal => ?_, fun _ _ _ _ _ _ => rfl, fun core args s runs legal named => ?_,
    fun core args s i runs faulty => ?_, fun c => ⟨fun _ => rfl, fun i => ⟨reset_scale i, rfl⟩⟩⟩
  · refine ⟨_, exec_mxSeta_legal runs legal, modMx_onlyCore .., ?_, ?_, fun i ne => ?_⟩ <;> rw [modMx_core]
    · rfl
    · rw [setaRun_act, if_pos rfl]
    · rw [setaRun_act, if_neg ne]
  · have index : (args.extractLsb' 54 4).toNat ≠ 0 := by simpa [← BitVec.toNat_inj] using named
    refine ⟨_, exec_mxSets_legal runs legal named, modMx_onlyCore .., ?_, ?_, fun i ne => ?_⟩ <;> rw [modMx_core]
    · rfl
    · rw [setsRun_scale _ _ _ index, if_pos rfl]
    · rw [setsRun_scale _ _ _ index, if_neg ne]
  · have fault : ∃ w, exec i s = .next (s.matrixFault core mxIllegal w (s.core core).sq.alone) := by
      rcases faulty with ⟨rfl, zero⟩ | ⟨rfl, idle, pitch⟩
      · exact ⟨_, exec_mxSets_faults runs zero⟩
      · exact ⟨_, exec_mxMul_faults runs idle pitch⟩
    obtain ⟨w, step⟩ := fault
    obtain ⟨mode, caps⟩ := matrixFault_recorded runs mxIllegal w (s.core core).sq.alone
    refine ⟨_, step, mode, fun clear => ?_⟩
    have first := congrArg (List.take 1) (caps clear)
    rwa [List.take_take] at first

end Sys2Proof.Machine

/-! PROOFS. MX.LOAD and the end of a shadow load (R42, R65, R71, R77, R525), MX.STORE (R73, R177). -/

namespace Sys2Proof.Machine

open Sys2Proof

-- MX.LOAD

/-- A field of one bit. -/
theorem word58_bit (op : BitVec 6) (args : BitVec 58) (i : Nat) (below : i < 58) :
    (fld (word58 op args) i i == 1) = args.getLsbD i := by
  have field : fld (word58 op args) i i = _ := word58_field op args i 1 (by decide) (by omega)
  rw [field, BitVec.extractLsb'_toNat, BitVec.getLsbD, Nat.testBit_eq_decide_div_mod_eq, Nat.shiftRight_eq_div_pow]
  rfl

/-- The source of an MX.LOAD (R71). -/
theorem load_src (args : BitVec 58) : fld (word58 0x01 args) 45 17 = (args.extractLsb' 17 29).toNat :=
  word58_field 0x01 args 17 29 (by decide) (by decide)

theorem load_shelf (args : BitVec 58) : (fld (word58 0x01 args) 46 46 == 1) = args.getLsbD 46 :=
  word58_bit 0x01 args 46 (by decide)

/-- The bytes of the tile that an MX.LOAD names (R76). -/
theorem load_bytes (args : BitVec 58) (width : Nat) :
    tileBytes (fld (word58 0x01 args) 54 51) (fld (word58 0x01 args) 57 55) width
      = tileBytes (args.extractLsb' 51 4).toNat (args.extractLsb' 55 3).toNat width :=
  congrArg₂ (tileBytes · · width) (word58_field 0x01 args 51 4 (by decide) (by decide))
    (word58_field 0x01 args 55 3 (by decide) (by decide))

/-- What MX.LOAD puts in the shadow plane, by the fields of the word (R65, R71). -/
theorem loadRun_fields (m : MatrixUnit) (args : BitVec 58) (place : WordAt) :
    loadRun m (word58 0x01 args) place = { m with
      shadow := .loading ⟨args.extractLsb' 55 3, args.extractLsb' 51 4, m.scale (args.extractLsb' 47 4).toNat,
        args.getLsbD 46, (args.extractLsb' 17 29).toNat, word58 0x01 args, place⟩
      badShadow := false } := by
  have shape : BitVec.ofNat 3 (fld (word58 0x01 args) 57 55) = _ :=
    ofNat_word58_field 0x01 args 55 3 (by decide) (by decide)
  have wfmt : BitVec.ofNat 4 (fld (word58 0x01 args) 54 51) = _ :=
    ofNat_word58_field 0x01 args 51 4 (by decide) (by decide)
  have wscale : fld (word58 0x01 args) 50 47 = _ := word58_field 0x01 args 47 4 (by decide) (by decide)
  unfold loadRun
  rw [shape, wfmt, wscale, load_shelf, load_src]

/-- Carrels lie below the shelves, each in a span of its own (R162). -/
theorem carrel_place (core : CoreId) {off : Nat} (inside : off < 2 ^ 38) :
    isShelf (carrelBase core + off) = false ∧ coreAt (carrelBase core + off) = core := by
  have core_lt : core.val < 256 := core.isLt
  unfold isShelf coreAt carrelBase
  exact ⟨decide_eq_false (by omega), by omega⟩

/-- A load from the carrel requests nothing of a shelf. -/
theorem offer_carrel (s : State) (core : CoreId) (unit : ReqUnit) (write : Bool) {src : Nat} (inside : src < 2 ^ 38) (n : Nat) :
    s.offer core unit write (loadSource core false src) n = s :=
  offer_elsewhere s _ _ _ _ _ (carrel_place core inside).1

section RunLoad

variable (s : State) (c : Nat) (w : W64) (place : WordAt)

theorem runLoad_frame : s.runLoad c w place
    = { s with cores := (s.runLoad c w place).cores, clusters := (s.runLoad c w place).clusters } := by
  unfold State.runLoad
  rw [offer_clusters]
  rfl

theorem runLoad_core (d : Nat) : (s.runLoad c w place).core d = (s.modMx c fun m => loadRun m w place).core d := by
  unfold State.runLoad
  rw [offer_clusters]
  rfl

/-- The requests of a load do not depend on what the engine holds. -/
theorem runLoad_clusters : (s.runLoad c w place).clusters
    = (s.offer c .matrix false (loadSource c (fld w 46 46 == 1) (fld w 45 17))
        (tileBytes (fld w 54 51) (fld w 57 55) (s.width c))).clusters := by
  unfold State.runLoad State.offer
  split <;> rfl

end RunLoad

/-- The tile that a load's bytes make has the scale that the load names (R42). -/
theorem tileOf_tw {shape wfmt w : Nat} {tw : W32} {bs : Bytes} {tile : Tile} (h : tileOf shape wfmt tw w bs = some tile) :
    tile.tw = tw := by
  unfold tileOf at h
  split at h
  · split at h
    · cases h; rfl
    · cases h
  · split at h
    · cases h; rfl
    · cases h
  · cases h

/-- Settles O8: the word's fields are those of the shadow plane that it begins to load, and the load's end puts the tile
that its bytes make there. -/
theorem weightLoadFillsTheShadowPlane : Obligations.WeightLoadFillsTheShadowPlane := by
  unfold Obligations.WeightLoadFillsTheShadowPlane
  constructor
  · intro core args s runs idle issue src bytes
    have src_lt : (args.extractLsb' 17 29).toNat < 2 ^ 29 := (args.extractLsb' 17 29).isLt
    refine ⟨s.runLoad core (word58 0x01 args) (s.core core).sq.alone, ?_, runLoad_frame .., fun d ne => ?_, ?_,
      fun carrel => ?_, fun shelf => ?_⟩
    · rw [exec_mxLoad, matrixAlone_passes runs (matrixWaits_idle idle _) issue]
    · rw [runLoad_core]
      exact (modMx_onlyCore ..).2 d ne
    · rw [runLoad_core, modMx_core, loadRun_fields]
      rfl
    · rw [runLoad_clusters, load_shelf, load_src, carrel, offer_carrel s core _ _ (by omega)]
    · rw [runLoad_clusters, load_shelf, load_src, load_bytes, shelf]
      rfl
  · intro core s l tile clean loading whole
    have done : s.shadowDone core = s.modMx core fun m => { m with shadow := .full tile } := by
      simp only [State.shadowDone, loading, readSpan_clean s _ _ _ clean, whole]
    exact ⟨_, (exec_shadowLoadDone core s).trans (congrArg Host.Outcome.next done), modMx_onlyCore .., tileOf_tw whole,
      modMx_core ..⟩

-- rows of bytes at a fixed distance

/-- Memory after `n` rows of bytes are stored, row `j` at `at_ j`. -/
def storeRows (m : Memory) (at_ : Nat → Nat) (row : Nat → Bytes) (n : Nat) : Memory :=
  (List.range n).foldl (fun m j => m.write (at_ j) (row j)) m

section StoredRows

variable {m : Memory} {at_ : Nat → Nat} {row : Nat → Bytes}

theorem storeRows_succ (n : Nat) : storeRows m at_ row (n + 1) = (storeRows m at_ row n).write (at_ n) (row n) := by
  simp [storeRows, List.range_succ]

theorem storeRows_outside {n a : Nat} (out : ∀ j, j < n → a < at_ j ∨ at_ j + (row j).length ≤ a) :
    (storeRows m at_ row n).byte a = m.byte a := by
  induction n with
  | zero => rfl
  | succ n ih =>
    have here := out n (by omega)
    rw [storeRows_succ, Memory.byte_write, if_neg (by omega)]
    exact ih fun j hj => out j (by omega)

/-- Where no row reaches the next one, each row stands as it was stored. -/
theorem storeRows_inside {n j i : Nat} (apart : ∀ j k, j < k → at_ j + (row j).length ≤ at_ k) (hj : j < n)
    (hi : i < (row j).length) : (storeRows m at_ row n).byte (at_ j + i) = (row j).getD i 0 := by
  induction n with
  | zero => omega
  | succ n ih =>
    rw [storeRows_succ, Memory.byte_write]
    rcases Nat.lt_succ_iff_lt_or_eq.1 hj with before | rfl
    · have ends := apart j n before
      rw [if_neg (by omega), ih before]
    · rw [if_pos (by omega), Nat.add_sub_cancel_left]
      rfl

end StoredRows

-- the rows that MX.STORE leaves

/-- The engine after MX.STORE has taken its first `n` rows (R73, R91). -/
def MatrixUnit.afterStore (m : MatrixUnit) (w : W64) (n : Nat) : MatrixUnit :=
  (List.range n).foldl (fun m j => if fld w 11 11 = 1
    then (m.setRow (fld w 57 55) (fld w 54 48 + j) zeroRow).renewRow (fld w 57 55) (fld w 54 48 + j) else m) m

section AfterStore

variable (m : MatrixUnit) (w : W64)

theorem afterStore_succ (n : Nat) : m.afterStore w (n + 1)
    = if fld w 11 11 = 1 then ((m.afterStore w n).setRow (fld w 57 55) (fld w 54 48 + n) zeroRow).renewRow (fld w 57 55)
        (fld w 54 48 + n) else m.afterStore w n := by
  simp [MatrixUnit.afterStore, List.range_succ]

/-- With CLR the rows taken are +0; no other row changes (R73). -/
theorem afterStore_row {n r : Nat} (i : Nat) (rows : fld w 54 48 + n ≤ 128) (hr : r < 128) :
    (m.afterStore w n).row i r
      = if fld w 11 11 = 1 ∧ i = fld w 57 55 ∧ fld w 54 48 ≤ r ∧ r < fld w 54 48 + n then zeroRow else m.row i r := by
  induction n with
  | zero => rw [if_neg (by omega)]; rfl
  | succ n ih =>
    rw [afterStore_succ]
    by_cases clr : fld w 11 11 = 1
    · rw [if_pos clr]
      refine (MatrixUnit.setRow_row (m.afterStore w n) (fld w 57 55) i zeroRow (by omega) hr).trans ?_
      rw [ih (by omega)]
      split
      · rw [if_pos (by omega)]
      · exact if_congr (by omega) rfl rfl
    · rw [if_neg clr, ih (by omega)]
      exact if_congr (by omega) rfl rfl

/-- Rows of good parity are stored with their register alone changed: clearing them renews no parity. -/
theorem afterStore_tiles {n : Nat} (good : ∀ k ∈ m.badRows, ∀ j, j < n → k ≠ 128 * fld w 57 55 + (fld w 54 48 + j)) :
    m.afterStore w n = { m with tiles := (m.afterStore w n).tiles } := by
  induction n with
  | zero => rfl
  | succ n ih =>
    have kept := ih fun k hk j hj => good k hk j (by omega)
    rw [afterStore_succ]
    split
    · have same : m.badRows.filter (· ≠ 128 * fld w 57 55 + (fld w 54 48 + n)) = m.badRows :=
        List.filter_eq_self.2 fun k hk => decide_eq_true (good k hk n (by omega))
      rw [kept]
      unfold MatrixUnit.setRow MatrixUnit.renewRow
      dsimp only
      rw [same]
    · exact kept

end AfterStore

/-- The address of a row's bytes (R73). -/
def storeAt (base : Nat) (w : W64) (j : Nat) : Nat := base + fld w 40 20 + j * fld w 19 12 * 64

/-- A pitch that holds a row keeps the rows apart. -/
theorem storeAt_apart {width : Nat} {w : W64} (base : Nat) (pitch : 4 * width ≤ fld w 19 12 * 64) {j k : Nat} (lt : j < k) :
    storeAt base w j + 4 * width ≤ storeAt base w k := by
  have next : (j + 1) * fld w 19 12 * 64 ≤ k * fld w 19 12 * 64 := Nat.mul_le_mul_right _ (Nat.mul_le_mul_right _ lt)
  have one : (j + 1) * fld w 19 12 * 64 = j * fld w 19 12 * 64 + fld w 19 12 * 64 := by ring
  unfold storeAt
  omega

/-- MX.STORE takes each row as the register held it before the word: no earlier row of the word touches it. -/
theorem storeRun_stores (width base : Nat) (m : MatrixUnit) (mem : Memory) (w : W64)
    (rows : fld w 54 48 + fld w 47 41 < 128) :
    storeRun width base m mem w = (m.afterStore w (fld w 47 41 + 1),
      storeRows mem (storeAt base w) (fun j => rowBytes width (m.row (fld w 57 55) (fld w 54 48 + j))) (fld w 47 41 + 1)) := by
  unfold storeRun
  generalize hn : fld w 47 41 + 1 = n
  have fits : fld w 54 48 + n ≤ 128 := by omega
  clear hn rows
  induction n with
  | zero => rfl
  | succ n ih =>
    have old : (m.afterStore w n).row (fld w 57 55) (fld w 54 48 + n) = m.row (fld w 57 55) (fld w 54 48 + n) :=
      (afterStore_row m w _ (by omega) (by omega)).trans (if_neg (by omega))
    rw [List.range_succ, List.foldl_append, ih (by omega), List.foldl_cons, List.foldl_nil, afterStore_succ, storeRows_succ]
    dsimp only
    rw [old]
    rfl

theorem leBytes_length (n v : Nat) : (leBytes n v).length = n := by
  induction n generalizing v with
  | zero => rfl
  | succ n ih => exact congrArg (· + 1) (ih _)

/-- A stored row takes at most the bytes of the presented width. -/
theorem rowBytes_length_le (width : Nat) (row : List W32) : (rowBytes width row).length ≤ 4 * width := by
  have count : (rowBytes width row).length = (row.take width).length * 4 := by
    simp [rowBytes, List.length_flatMap, leBytes_length]
  rw [count, List.length_take]
  omega

/-- What the check of R73 gives a word that passes it: rows of the register, a pitch that holds a row, bytes of the carrel,
and rows of good parity. -/
theorem storeFault_none {width : Nat} {m : MatrixUnit} {w : W64} (passes : storeFault width m w = none) :
    fld w 54 48 + fld w 47 41 < 128 ∧ 4 * width ≤ fld w 19 12 * 64
      ∧ fld w 40 20 + fld w 47 41 * fld w 19 12 * 64 + 4 * width ≤ carrelSize
      ∧ m.rowsBad (fld w 57 55) (fld w 54 48) (fld w 47 41 + 1) = false := by
  unfold storeFault rowsOver at passes
  split at passes
  · cases passes
  · next legal =>
    split at passes
    · cases passes
    · split at passes
      · cases passes
      · next parity =>
        simp only [not_or, decide_eq_true_eq] at legal
        exact ⟨by omega, by omega, by omega, Bool.eq_false_iff.2 parity⟩

theorem rowsBad_none {m : MatrixUnit} {t r n : Nat} (good : m.rowsBad t r n = false) :
    ∀ k ∈ m.badRows, ∀ j, j < n → k ≠ 128 * t + (r + j) := by
  intro k hk j hj same
  have at_k := List.any_eq_false.1 good k hk
  simp only [Bool.and_eq_true, decide_eq_true_eq] at at_k
  omega

/-- Without code errors, and without an armed injection in the carrels written, a write has nothing more to do (R174,
R190). -/
theorem wrote_clean (s : State) (spans : List (Nat × Nat)) (clean : s.upsets = [])
    (unarmed : ∀ x ∈ spans, isShelf x.1 = true ∨ (s.core (coreAt x.1)).car.inject.arm = false) : s.wrote spans = s := by
  unfold State.wrote
  rw [foldl_same _ _ _ fun x _ => cleanSpan_clean s x.1 x.2 clean]
  dsimp only
  split
  · next a n rest =>
    refine if_neg fun armed => ?_
    rcases unarmed (a, n) (List.mem_cons_self ..) with shelf | quiet <;> simp_all
  · rfl

theorem runStore_clean {s : State} {core : CoreId} {w : W64} {off : WordAt} (clean : s.upsets = [])
    (unarmed : (s.core core).car.inject.arm = false)
    (passes : storeFault (s.width core) (s.core core).mx w = none) :
    s.runStore core w off = ({ s with mem := (storeRun (s.width core) (carrelBase core) (s.core core).mx s.mem w).2 } :
      State).modMx core fun _ => (storeRun (s.width core) (carrelBase core) (s.core core).mx s.mem w).1 := by
  unfold State.runStore
  dsimp only
  rw [readSpans_clean s _ _ clean]
  refine wrote_clean _ _ clean fun x hx => Or.inr ?_
  obtain ⟨-, -, carrel, -⟩ := storeFault_none passes
  simp only [atBase, storeWrites, List.map_map, List.mem_map, List.mem_range, Function.comp_apply] at hx
  obtain ⟨j, hj, rfl⟩ := hx
  have before : j * fld w 19 12 * 64 ≤ fld w 47 41 * fld w 19 12 * 64 :=
    Nat.mul_le_mul_right _ (Nat.mul_le_mul_right _ (by omega))
  have size : carrelSize = 2 ^ 21 := rfl
  have own := (carrel_place core (off := fld w 40 20 + j * fld w 19 12 * 64) (by omega)).2
  rw [own, modMx_core]
  exact unarmed

/-- Settles O10: the engine is `afterStore` of the rows stored, and the memory is that of the rows' bytes at their distance,
of which none reaches the next. -/
theorem matrixStoreWritesItsRows : Obligations.MatrixStoreWritesItsRows := by
  unfold Obligations.MatrixStoreWritesItsRows
  intro core args s w m at_ runs clean unarmed issue
  have passes : storeFault (s.width core) m w = none := (matrixIssue_store s core args).symm.trans issue
  obtain ⟨rows, pitch, -, parity⟩ := storeFault_none passes
  have stores := storeRun_stores (s.width core) (carrelBase core) m s.mem w rows
  have step := runStore_clean (off := (s.core core).sq.alone) clean unarmed passes
  rw [stores] at step
  have short (j : Nat) := rowBytes_length_le (s.width core) (m.row (fld w 57 55) (fld w 54 48 + j))
  have apart (j k : Nat) (lt : j < k) :
      at_ j + (rowBytes (s.width core) (m.row (fld w 57 55) (fld w 54 48 + j))).length ≤ at_ k :=
    (Nat.add_le_add_left (short j) _).trans (storeAt_apart (carrelBase core) pitch lt)
  refine ⟨s.runStore core w (s.core core).sq.alone, ?_, ?_⟩
  · rw [exec_mxStore, matrixAlone_passes runs (matrixWaits_others s core args (by decide) (by decide)) issue]
  rw [step, modMx_core]
  refine ⟨⟨rfl, fun d ne => Tbl.get_put_ne _ _ _ _ _ ne⟩, ?_, fun j i hj hi => ?_, fun a out => ?_, fun j hj => ?_,
    fun i r hr out => ?_⟩
  · exact congrArg (fun x => { s.core core with mx := x }) (afterStore_tiles m w (rowsBad_none parity))
  · exact storeRows_inside apart (by omega) hi
  · refine storeRows_outside fun j hj => (out j (by omega)).imp_right fun past => ?_
    exact le_trans (Nat.add_le_add_left (short j) _) past
  · refine (afterStore_row m w _ (by omega) (by omega)).trans (if_congr (by omega) rfl rfl)
  · exact (afterStore_row m w i (by omega) hr).trans (if_neg (by omega))

end Sys2Proof.Machine

/-! PROOFS. The tree of R114 over 32-bit integers: what holds of single elements and of two parts joined holds of the whole
(R113 to R115). -/

namespace Sys2Proof.Machine

open Sys2Proof

-- the tree

/-- Two elements or more leave some on both sides of the half (R114). -/
theorem treeHalf_splits {n : Nat} (two : 2 ≤ n) : 0 < treeHalf n ∧ treeHalf n < n := by
  have le : 2 ^ (n - 1).log2 ≤ n - 1 := Nat.log2_self_le (by omega)
  exact ⟨Nat.two_pow_pos _, by unfold treeHalf; omega⟩

theorem treeFold_induct {α : Type} {op : α → α → α} (z : α) {P : List α → α → Prop} (leaf : ∀ x, P [x] x)
    (node : ∀ {l r : List α} {a b : α}, P l a → P r b → P (l ++ r) (op a b)) (fuel : Nat) (l : List α) (some : l ≠ [])
    (enough : l.length ≤ fuel) : P l (treeFold op z fuel l) := by
  induction fuel generalizing l with
  | zero => exact absurd (List.eq_nil_of_length_eq_zero (by omega)) some
  | succ n ih =>
    match l with
    | [x] => exact leaf x
    | x :: y :: xs =>
      have two : 2 ≤ (x :: y :: xs).length := by simp
      unfold treeFold
      generalize x :: y :: xs = l at two enough
      obtain ⟨pos, lt⟩ := treeHalf_splits two
      have first := ih (l.take (treeHalf l.length)) (List.ne_nil_of_length_pos (by rw [List.length_take]; omega))
        (by rw [List.length_take]; omega)
      have second := ih (l.drop (treeHalf l.length)) (List.ne_nil_of_length_pos (by rw [List.length_drop]; omega))
        (by rw [List.length_drop]; omega)
      have whole := node first second
      rwa [List.take_append_drop] at whole

/-- What holds of one element, and of two parts together once of each, holds of the tree's result (R114). -/
theorem tree_induct {α : Type} {op : α → α → α} (z : α) {P : List α → α → Prop} (leaf : ∀ x, P [x] x)
    (node : ∀ {l r : List α} {a b : α}, P l a → P r b → P (l ++ r) (op a b)) {l : List α} (some : l ≠ []) :
    P l (tree op z l) := treeFold_induct z leaf node _ l some (le_refl _)

theorem leNat_leBytes (n v : Nat) : leNat (leBytes n v) = v % 256 ^ n := by
  induction n generalizing v with
  | zero => simp [leBytes, leNat, Nat.mod_one]
  | succ n ih =>
    have byte : (BitVec.ofNat 8 v).toNat = v % 256 := BitVec.toNat_ofNat ..
    rw [leBytes, leNat, ih, byte, Nat.pow_succ', Nat.mod_mul]

-- RD.SUM and RD.MAX

/-- An element of a reduction, or the identity in its place where it is not enabled (R113). -/
def enabledOr (identity : W32) (xs : List (W32 × Bool)) : List W32 := xs.map fun x => if x.2 then x.1 else identity

theorem enabledOr_ne_nil (identity : W32) {xs : List (W32 × Bool)} (some : xs ≠ []) : enabledOr identity xs ≠ [] := by
  simpa [enabledOr] using some

theorem mem_enabledOr {identity v : W32} {xs : List (W32 × Bool)} :
    v ∈ enabledOr identity xs ↔ (∃ x ∈ xs, x.2 = true ∧ x.1 = v) ∨ v = identity ∧ ∃ x ∈ xs, x.2 = false := by
  constructor
  · intro h
    obtain ⟨x, hx, rfl⟩ := List.mem_map.mp h
    cases on : x.2 with
    | true => exact .inl ⟨x, hx, on, rfl⟩
    | false => exact .inr ⟨rfl, x, hx, on⟩
  · rintro (⟨x, hx, on, rfl⟩ | ⟨rfl, x, hx, off⟩)
    · exact List.mem_map.mpr ⟨x, hx, by rw [on]; rfl⟩
    · exact List.mem_map.mpr ⟨x, hx, by rw [off]; rfl⟩

theorem tree_add (z : W32) {l : List W32} (some : l ≠ []) :
    (tree (· + ·) z l).toNat = (l.map BitVec.toNat).sum % 2 ^ 32 := by
  refine tree_induct z (P := fun l v => v.toNat = (l.map BitVec.toNat).sum % 2 ^ 32) (fun x => ?_)
    (fun {l r a b} ha hb => ?_) some
  · simp [Nat.mod_eq_of_lt x.isLt]
  · simp [BitVec.toNat_add, ha, hb]

/-- The choice of RD.MAX between two integers (R113). -/
def intMax (a b : W32) : W32 := if a.toInt < b.toInt then b else a

/-- `m` is a greatest element of a list. -/
def Greatest (l : List W32) (m : W32) : Prop := m ∈ l ∧ ∀ x ∈ l, x.toInt ≤ m.toInt

theorem Greatest.append {l r : List W32} {a b : W32} (ha : Greatest l a) (hb : Greatest r b) :
    Greatest (l ++ r) (intMax a b) := by
  obtain ⟨ma, upper⟩ := ha
  obtain ⟨mb, upper'⟩ := hb
  unfold intMax
  split
  · next lt =>
    refine ⟨List.mem_append_right _ mb, fun x hx => ?_⟩
    rcases List.mem_append.mp hx with h | h
    · exact (upper x h).trans (le_of_lt lt)
    · exact upper' x h
  · next ge =>
    refine ⟨List.mem_append_left _ ma, fun x hx => ?_⟩
    rcases List.mem_append.mp hx with h | h
    · exact upper x h
    · exact (upper' x h).trans (not_lt.mp ge)

theorem tree_intMax (z : W32) {l : List W32} (some : l ≠ []) : Greatest l (tree intMax z l) :=
  tree_induct z (P := Greatest) (fun x => ⟨List.mem_singleton_self x, fun y hy => by simp_all⟩) (fun ha hb => ha.append hb)
    some

theorem intMin_le (v : W32) : (0x80000000#32).toInt ≤ v.toInt := v.le_toInt

-- RD.ARGMAX

/-- The pairs of RD.ARGMAX: an element with its position, an identity pair of position −1 where it is not enabled (R115). -/
def positioned (xs : List (W32 × Bool)) : List (W32 × Int) :=
  xs.mapIdx fun i x => if x.2 then (x.1, (i : Int)) else (0x80000000#32, -1)

/-- Positions rise, those of identity pairs left out. -/
def Rising (l : List (W32 × Int)) : Prop := l.Pairwise fun p q => 0 ≤ p.2 → 0 ≤ q.2 → p.2 < q.2

theorem positioned_rising (xs : List (W32 × Bool)) : Rising (positioned xs) := by
  refine List.pairwise_iff_getElem.mpr fun i j hi hj lt => ?_
  simp only [positioned, List.getElem_mapIdx]
  split
  · split
    · simpa using lt
    · simp
  · simp

/-- `t` is the greatest of the pairs of a list, and the first of that value (R115). -/
def Leads (t : W32 × Int) (l : List (W32 × Int)) : Prop :=
  ∀ p ∈ l, 0 ≤ p.2 → p.1.toInt ≤ t.1.toInt ∧ (p.2 < t.2 → p.1.toInt < t.1.toInt)

/-- The choice of RD.ARGMAX takes a pair of a list, and the leading one where it is there. -/
def Chooses (t : W32 × Int) (l : List (W32 × Int)) (r : W32 × Int) : Prop :=
  Rising l → Leads t l → r ∈ l ∧ (t ∈ l → r = t)

/-- RD.ARGMAX over integers takes the greater of two enabled elements, and the earlier of two equal ones (R115). -/
theorem argmaxOp_int (a b : W32 × Int) : argmaxOp true a b = if a.2 < 0 then (if b.2 < 0 then a else b)
    else if b.2 < 0 then a else if a.1.toInt < b.1.toInt then b else a := rfl

theorem argmaxOp_mem (a b : W32 × Int) : argmaxOp true a b = a ∨ argmaxOp true a b = b := by
  have either {c : Prop} [Decidable c] {x y : W32 × Int} (hx : x = a ∨ x = b) (hy : y = a ∨ y = b) :
      (if c then x else y) = a ∨ (if c then x else y) = b := by split <;> assumption
  rw [argmaxOp_int]
  exact either (either (.inl rfl) (.inr rfl)) (either (.inl rfl) (either (.inr rfl) (.inl rfl)))

theorem Chooses.append {t a b : W32 × Int} {l r : List (W32 × Int)} (enabled : 0 ≤ t.2) (ha : Chooses t l a)
    (hb : Chooses t r b) : Chooses t (l ++ r) (argmaxOp true a b) := by
  intro rising leads
  obtain ⟨risingL, risingR, before⟩ := List.pairwise_append.mp rising
  obtain ⟨memA, leadA⟩ := ha risingL fun p hp => leads p (List.mem_append_left _ hp)
  obtain ⟨memB, leadB⟩ := hb risingR fun p hp => leads p (List.mem_append_right _ hp)
  have upperA := leads a (List.mem_append_left _ memA)
  have upperB := leads b (List.mem_append_right _ memB)
  refine ⟨?_, fun ht => ?_⟩
  · rcases argmaxOp_mem a b with h | h <;> rw [h]
    · exact List.mem_append_left _ memA
    · exact List.mem_append_right _ memB
  · rcases List.mem_append.mp ht with left | right
    · rw [leadA left]
      rw [leadA left] at upperA
      have below : 0 ≤ b.2 → ¬ t.1.toInt < b.1.toInt := fun h => not_lt.mpr (upperB h).1
      rw [argmaxOp_int, if_neg (not_lt.mpr enabled)]
      split
      · rfl
      · next h => rw [if_neg (below (not_lt.mp h))]
    · rw [leadB right]
      have less : 0 ≤ a.2 → a.1.toInt < t.1.toInt := fun h => (upperA h).2 (before a memA t right h enabled)
      rw [argmaxOp_int, if_neg (not_lt.mpr enabled), if_neg (not_lt.mpr enabled)]
      split
      · rfl
      · next h => rw [if_pos (less (not_lt.mp h))]

theorem tree_argmax {t : W32 × Int} {l : List (W32 × Int)} (z : W32 × Int) (enabled : 0 ≤ t.2) (rising : Rising l)
    (leads : Leads t l) (mem : t ∈ l) : tree (argmaxOp true) z l = t :=
  (tree_induct z (P := Chooses t) (fun x _ _ => ⟨List.mem_singleton_self x, fun h => (List.mem_singleton.mp h).symm⟩)
    (fun ha hb => ha.append enabled hb) (List.ne_nil_of_mem mem) rising leads).2 mem

theorem mem_positioned {xs : List (W32 × Bool)} {p : W32 × Int} (mem : p ∈ positioned xs) (enabled : 0 ≤ p.2) :
    ∃ j : Nat, p.2 = j ∧ xs[j]? = some (p.1, true) := by
  obtain ⟨j, hj, rfl⟩ := List.mem_mapIdx.mp mem
  cases on : xs[j].2 with
  | false => simp [on] at enabled
  | true => exact ⟨j, by simp, by simp [← on]⟩

theorem positioned_mem {xs : List (W32 × Bool)} {i : Nat} {v : W32} (at_ : xs[i]? = some (v, true)) :
    (v, (i : Int)) ∈ positioned xs := by
  obtain ⟨lt, e⟩ := List.getElem?_eq_some_iff.mp at_
  exact List.mem_mapIdx.mpr ⟨i, lt, by simp [e]⟩

/-- The bytes of a position. -/
theorem leBytes_position {i : Nat} (small : i < 2 ^ 32) : leBytes 4 (BitVec.ofInt 32 (i : Int)).toNat = leBytes 4 i := by
  rw [BitVec.ofInt_natCast, BitVec.toNat_ofNat, Nat.mod_eq_of_lt small]

/-- Settles O17: by induction over the tree, whose result is the sum, a greatest element, or the leading pair of its
elements. -/
theorem integerReductionsAddAndCompare : Obligations.IntegerReductionsAddAndCompare := by
  unfold Obligations.IntegerReductionsAddAndCompare
  refine ⟨fun xs some => ⟨?_, tree intMax 0 (enabledOr 0x80000000#32 xs), rfl, fun x hx on => ?_, ?_⟩,
    fun xs i v at_ short upper => ?_⟩
  · have bytes : groupResult 1 true xs = leBytes 4 (tree (· + ·) 0 (enabledOr 0 xs)).toNat := rfl
    have elements : (enabledOr 0 xs).map BitVec.toNat = xs.map fun x => if x.2 then x.1.toNat else 0 := by
      rw [enabledOr, List.map_map]
      exact List.map_congr_left fun x _ => apply_ite BitVec.toNat ..
    rw [bytes, leNat_leBytes, tree_add 0 (enabledOr_ne_nil 0 some), elements]
    exact Nat.mod_mod ..
  · exact (tree_intMax 0 (enabledOr_ne_nil _ some)).2 _ (mem_enabledOr.mpr (.inl ⟨x, hx, on, rfl⟩))
  · obtain ⟨mem, upper⟩ := tree_intMax 0 (enabledOr_ne_nil 0x80000000#32 some)
    rcases mem_enabledOr.mp mem with chosen | ⟨least, -⟩
    · exact .inl chosen
    · by_cases on : ∃ x ∈ xs, x.2 = true
      · obtain ⟨x, hx, on⟩ := on
        have le := upper x.1 (mem_enabledOr.mpr (.inl ⟨x, hx, on, rfl⟩))
        rw [least] at le ⊢
        exact .inl ⟨x, hx, on, BitVec.eq_of_toInt_eq (le_antisymm le (intMin_le x.1))⟩
      · exact .inr ⟨least, fun x hx => Bool.eq_false_iff.mpr fun h => on ⟨x, hx, h⟩⟩
  · have leads : Leads (v, (i : Int)) (positioned xs) := fun p hp enabled => by
      obtain ⟨j, pos, entry⟩ := mem_positioned hp enabled
      obtain ⟨le, lt⟩ := upper j p.1 entry
      exact ⟨le, fun h => lt (by simp only at h; omega)⟩
    have bytes : groupResult 3 true xs
        = leBytes 4 (tree (argmaxOp true) (0x80000000#32, -1) (positioned xs)).1.toNat
          ++ leBytes 4 (BitVec.ofInt 32 (tree (argmaxOp true) (0x80000000#32, -1) (positioned xs)).2).toNat := rfl
    have lt : i < xs.length := (List.getElem?_eq_some_iff.mp at_).1
    rw [bytes, tree_argmax _ (Int.natCast_nonneg i) (positioned_rising xs) leads (positioned_mem at_),
      leBytes_position (by omega)]

end Sys2Proof.Machine

/-! PROOFS. The words that write one run of results, each run alone on its core: the tile-axis words of the matrix engine
(R120 to R122) and those of the reduction unit (R112 to R116). -/

namespace Sys2Proof.Machine

open Sys2Proof

theorem fld_lt (w : W64) (hi lo : Nat) : fld w hi lo < 2 ^ (hi - lo + 1) := Nat.mod_lt _ (Nat.two_pow_pos _)

/-- Without code errors, and without an armed injection in its carrel, a unit's write to its carrel stores the bytes alone. -/
theorem writeSpan_carrel {s : State} {core : CoreId} (r : Reader) {off : Nat} (bs : Bytes) (inside : off < 2 ^ 38)
    (clean : s.upsets = []) (unarmed : (s.core core).car.inject.arm = false) :
    s.writeSpan r (carrelBase core + off) bs = ({ s with mem := s.mem.write (carrelBase core + off) bs }, none) :=
  writeSpan_clean s r _ bs clean (.inr ((carrel_place core inside).2.symm ▸ unarmed))

-- tile-axis words

theorem runTileAxis_clean {s : State} {core : CoreId} (columns maximum : Bool) (w : W64) (off : WordAt)
    (clean : s.upsets = []) (unarmed : (s.core core).car.inject.arm = false) :
    s.runTileAxis core columns maximum w off = { s with
      mem := s.mem.write (carrelBase core + fld w 40 20) (trBytes (s.width core) columns maximum (s.core core).mx w) } := by
  unfold State.runTileAxis
  dsimp only
  rw [writeSpan_carrel _ _ ((fld_lt w 40 20).trans (by decide)) clean unarmed]

/-- The tile-axis words' instruction, opcode, and whether they fold columns, and by maximum (R120). -/
def tileAxisWords : List ((CoreId → BitVec 58 → Instr) × BitVec 6 × Bool × Bool) :=
  [(.mxTrsumR, 0x10#6, false, false), (.mxTrsumC, 0x11#6, true, false), (.mxTrmaxR, 0x12#6, false, true),
    (.mxTrmaxC, 0x13#6, true, true)]

/-- What row and check a tile-axis word has. -/
structure TileAxis (i : CoreId → BitVec 58 → Instr) (op : BitVec 6) (columns maximum : Bool) : Prop where
  row : ∀ core args s, exec (i core args) s = .next (s.matrixAlone core (word58 op args) fun off s =>
    s.runTileAxis core columns maximum (word58 op args) off)
  check : ∀ (s : State) c args, s.matrixIssue c (word58 op args)
    = trFault (s.width c) columns (s.core c).sq.mode (s.core c).mx (word58 op args)
  no_load : op.toNat ≠ 0x01
  no_mul : op.toNat ≠ 0x02

theorem tileAxisWords_tileAxis : ∀ q ∈ tileAxisWords, TileAxis q.1 q.2.1 q.2.2.1 q.2.2.2 := by
  simp only [tileAxisWords, List.forall_mem_cons, List.not_mem_nil, false_implies, implies_true, and_true]
  refine ⟨?_, ?_, ?_, ?_⟩ <;>
    exact ⟨fun _ _ _ => rfl, fun s c args => by simp [State.matrixIssue, word58_op], by decide, by decide⟩

theorem trFault_service (width : Nat) (columns : Bool) (m : MatrixUnit) (w : W64) :
    trFault width columns .service m w ≠ none := by
  unfold trFault
  dsimp only
  split
  · exact Option.some_ne_none _
  · rw [if_pos (by decide)]
    exact Option.some_ne_none _

/-- Settles O11: the word passes its check and stores the bytes of its results; the check refuses SERVICE. -/
theorem tileAxisWordsWriteTheirResults : Obligations.TileAxisWordsWriteTheirResults := by
  unfold Obligations.TileAxisWordsWriteTheirResults
  intro q hq core args s w dest
  obtain ⟨row, check, load, mul⟩ := tileAxisWords_tileAxis q hq
  refine ⟨fun runs clean unarmed issue => ?_, fun service => ?_⟩
  · rw [row, matrixAlone_passes runs (matrixWaits_others s core args load mul) issue, runTileAxis_clean _ _ _ _ clean unarmed]
  · rw [show w = word58 q.2.1 args from rfl, check, service]
    exact trFault_service _ _ _ _

-- reduction words

theorem reductionAlone_passes {s : State} {c : Nat} {w : W64} (runs : s.runs c = true) (issue : s.reductionIssue c w = none) :
    s.reductionAlone c w = s.reductionRun c w (s.core c).sq.alone := by
  simp [State.reductionAlone, State.runAlone, runs, issue]

/-- A descriptor's BASE is an offset in the carrel (R94). -/
theorem VectorUnit.base_lt (u : VectorUnit) (i : Nat) : u.base i < 2 ^ 21 := BitVec.isLt _

theorem reductionRun_clean {s : State} {core : CoreId} {w : W64} (off : WordAt) (works : (rdWord w).op ≠ 0)
    (clean : s.upsets = []) (unarmed : (s.core core).car.inject.arm = false) :
    s.reductionRun core w off = { s with
      mem := s.mem.write (carrelBase core + (s.core core).vx.base (rdWord w).dst)
        (rdBytes (carrelBase core) (s.core core).vx (rdWord w) s.mem) } := by
  unfold State.reductionRun
  simp only [if_neg works, readSpan_clean s _ _ _ clean,
    writeSpan_carrel _ _ (((s.core core).vx.base_lt _).trans (by decide)) clean unarmed]

/-- The reduction words that write results (R113). -/
def reductionWords : List ((CoreId → BitVec 58 → Instr) × BitVec 6) :=
  [(.rdSum, 0x01#6), (.rdMax, 0x02#6), (.rdArgmax, 0x03#6), (.rdSumsq, 0x04#6), (.rdLse, 0x05#6)]

theorem reductionWords_row : ∀ q ∈ reductionWords,
    (∀ core args s, exec (q.1 core args) s = .next (s.reductionAlone core (word58 q.2 args))) ∧ q.2.toNat ≠ 0 := by
  simp only [reductionWords, List.forall_mem_cons, List.not_mem_nil, false_implies, implies_true, and_true]
  refine ⟨?_, ?_, ?_, ?_, ?_⟩ <;> exact ⟨fun _ _ _ => rfl, by decide⟩

/-- Settles O16: the word passes its check, reads its elements and stores its groups' bytes at DST. -/
theorem reductionWordsWriteTheirResults : Obligations.ReductionWordsWriteTheirResults := by
  unfold Obligations.ReductionWordsWriteTheirResults
  intro q hq core args s r u bs runs clean unarmed issue
  obtain ⟨row, works⟩ := reductionWords_row q hq
  have op : (rdWord (word58 q.2 args)).op ≠ 0 := (word58_op q.2 args).trans_ne works
  rw [row, reductionAlone_passes runs issue, reductionRun_clean _ op clean unarmed]

end Sys2Proof.Machine

/-! PROOFS. The element-wise words of the vector engine, each run alone on its core (R92 to R108): without code errors the
core's unit and the memory are those of the word's run, whose writes lie in the core's carrel. -/

namespace Sys2Proof.Machine

open Sys2Proof

-- where a run writes

/-- Every span of a list begins in the carrel's part of the call numbers (R162). -/
def InCarrel (l : List (Nat × Nat)) : Prop := ∀ x ∈ l, x.1 < 2 ^ 38

theorem InCarrel.append {l r : List (Nat × Nat)} (hl : InCarrel l) (hr : InCarrel r) : InCarrel (l ++ r) :=
  fun x hx => (List.mem_append.mp hx).elim (hl x) (hr x)

/-- A joined run begins where one of the spans did. -/
theorem joinRuns_starts {l : List (Nat × Nat)} : ∀ x ∈ joinRuns l, ∃ y ∈ l, y.1 = x.1 := by
  induction l with
  | nil => simp [joinRuns]
  | cons a l ih =>
    intro x hx
    unfold joinRuns at hx
    split at hx
    · exact ⟨a, List.mem_cons_self .., by simp_all⟩
    · next y t e =>
      have rest (z) (hz : z ∈ y :: t) : ∃ b ∈ a :: l, b.1 = z.1 :=
        (ih z (e ▸ hz)).imp fun b hb => ⟨List.mem_cons_of_mem _ hb.1, hb.2⟩
      split at hx
      · rcases List.mem_cons.mp hx with rfl | h
        · exact ⟨a, List.mem_cons_self .., rfl⟩
        · exact rest x (List.mem_cons_of_mem _ h)
      · rcases List.mem_cons.mp hx with rfl | h
        · exact ⟨x, List.mem_cons_self .., rfl⟩
        · exact rest x h

theorem InCarrel.joinRuns {l : List (Nat × Nat)} (h : InCarrel l) : InCarrel (joinRuns l) := fun x hx => by
  obtain ⟨y, hy, e⟩ := joinRuns_starts x hx
  exact e ▸ h y hy

/-- An item writes in the carrel's part of the call numbers. -/
def Item.Near (i : Item) : Prop := ∀ w ∈ i.writes, w.1 < 2 ^ 38

theorem Item.near_of_writes {i : Item} (h : i.writes = []) : i.Near := fun w hw => by simp [h] at hw

theorem itemRuns_inCarrel (scales : Bool) {is : List Item} (near : ∀ i ∈ is, i.Near) : InCarrel (itemRuns scales is) := by
  refine InCarrel.joinRuns fun x hx => ?_
  obtain ⟨i, hi, e⟩ := List.mem_filterMap.mp hx
  obtain ⟨w, hw, rfl⟩ := Option.map_eq_some_iff.mp e
  exact near i hi w (List.mem_of_getElem? hw)

theorem splitFault_subset (is : List Item) : (splitFault is).1 ⊆ is := by
  induction is with
  | nil => simp [splitFault]
  | cons i is ih =>
    unfold splitFault
    split
    · simp
    · exact List.cons_subset_cons i ih

theorem laneSize_le (code : Nat) : laneSize code ≤ 4 := by
  unfold laneSize laneFmt
  split
  · next l e => split at e <;> cases e <;> decide
  · decide

theorem mxBits_le (fmt : Nat) : mxBits fmt ≤ 8 := by
  unfold mxBits
  split
  · decide
  · split <;> decide

/-- An offset of an element that lies a few bytes past a descriptor's BASE for each position. -/
theorem near_offset (u : VectorUnit) (i : Nat) {e s : Nat} (small : e < 8192) (size : s ≤ 32) : u.base i + e * s < 2 ^ 38 := by
  have base := u.base_lt i
  have far : e * s ≤ 8192 * 32 := Nat.mul_le_mul (by omega) size
  omega

theorem laneItem_near (u : VectorUnit) (e : Nat) {off : Nat} (size : Nat) (r : LaneRes) (inside : off < 2 ^ 38) :
    (laneItem u e off size r).Near := by
  simpa [Item.Near, laneItem] using inside

theorem item_near (c : VxCtx) (v : VxWord) (mem : Memory) {e : Nat} (small : e < 8192) : (c.item v mem e).Near := by
  have lane (code : Nat) : c.unit.base v.dst + e * laneSize code < 2 ^ 38 :=
    near_offset _ _ small ((laneSize_le code).trans (by decide))
  have byte : c.unit.base v.dst + e < 2 ^ 38 := by simpa using near_offset c.unit v.dst (s := 1) small (by decide)
  unfold VxCtx.item
  dsimp only
  split
  · exact Item.near_of_writes rfl
  · split
    · split <;> exact Item.near_of_writes rfl
    · split
      · exact Item.near_of_writes rfl
      · split
        · exact Item.near_of_writes rfl
        · split
          · exact Item.near_of_writes rfl
          · simpa [Item.Near] using lane v.typ
    · split
      · exact Item.near_of_writes rfl
      · split
        · exact laneItem_near _ _ _ _ byte
        · exact Item.near_of_writes rfl
    · exact laneItem_near _ _ _ _ (lane v.typ)
    · split
      · refine laneItem_near _ _ _ _ ?_
        split
        · exact lane v.srcc
        · exact lane v.typ
      · exact Item.near_of_writes rfl

theorem blockItem_near (c : VxCtx) (v : VxWord) (mem : Memory) {blk : Nat} (small : blk < 8192) : (c.blockItem v mem blk).Near := by
  have codes : c.unit.base v.dst + blk * (4 * v.packBits) < 2 ^ 38 :=
    near_offset _ _ small (Nat.mul_le_mul_left 4 (mxBits_le v.srcc))
  have scale : c.unit.base v.srcb + blk < 2 ^ 38 := by simpa using near_offset c.unit v.srcb (s := 1) small (by decide)
  unfold VxCtx.blockItem
  dsimp only
  split
  · exact Item.near_of_writes rfl
  · split
    · exact Item.near_of_writes rfl
    · rintro w (_ | ⟨_, _ | ⟨_, ⟨⟩⟩⟩)
      · exact codes
      · exact scale

theorem passItems_near (c : VxCtx) (v : VxWord) (mem : Memory) (p : Nat) (short : v.n ≤ 8192) :
    ∀ i ∈ c.passItems v mem p, i.Near := by
  unfold VxCtx.passItems
  dsimp only
  split
  · simp only [List.forall_mem_map, List.mem_range]
    exact fun j hj => blockItem_near c v mem (by omega)
  · simp only [List.forall_mem_map, List.mem_range]
    exact fun j hj => item_near c v mem (by omega)

/-- What a word has written so far lies in the carrel. -/
def VxRun.Near (r : VxRun) : Prop := InCarrel r.elems ∧ InCarrel r.scales

theorem pass_near (c : VxCtx) (v : VxWord) (ue : Option Nat) {r : VxRun} (p : Nat) (short : v.n ≤ 8192) (h : r.Near) :
    (c.pass v ue r p).Near := by
  unfold VxCtx.pass
  split
  · exact h
  · split
    · exact h
    · have good (mem : Memory) : ∀ i ∈ (splitFault (c.passItems v mem p)).1, i.Near :=
        fun i hi => passItems_near c v mem p short i (splitFault_subset _ hi)
      exact ⟨h.1.append (itemRuns_inCarrel false (good _)), h.2.append (itemRuns_inCarrel true (good _))⟩

theorem run_wrote (c : VxCtx) (v : VxWord) (ue : Option Nat) (mem : Memory) (short : v.n ≤ 8192) :
    InCarrel (c.run v ue mem).wrote := by
  unfold VxCtx.run
  dsimp only
  generalize e : List.foldl (c.pass v ue) _ _ = r
  have near : r.Near := by
    rw [← e]
    exact List.foldlRecOn (motive := VxRun.Near) _ _ ⟨by simp [InCarrel], by simp [InCarrel]⟩
      fun r h p _ => pass_near c v ue p short h
  exact near.1.joinRuns.append near.2.joinRuns

-- the word and its core

theorem word56_op (op : BitVec 8) (args : BitVec 56) : fld (word56 op args) 63 56 = op.toNat := by
  have hargs : args.toNat < 2 ^ 56 := args.isLt
  have hop : op.toNat < 2 ^ 8 := op.isLt
  rw [fld, bits, word56, BitVec.toNat_append, ← Nat.shiftLeft_add_eq_or_of_lt hargs, Nat.shiftLeft_eq,
    Nat.shiftRight_eq_div_pow]
  omega

theorem vectorAlone_passes {s : State} {c : Nat} {w : W64} {run : WordAt → State → State} (runs : s.runs c = true)
    (issue : s.vectorIssue c w = none) : s.vectorAlone c w run = run (s.core c).sq.alone s := by
  simp [State.vectorAlone, State.runAlone, runs, issue]

theorem modVx_onlyCoreAndMemory (s : State) (c : Nat) (mem : Memory) (f : VectorUnit → VectorUnit) :
    OnlyCoreAndMemory c s (({ s with mem := mem } : State).modVx c f) :=
  ⟨rfl, fun _ ne => Tbl.get_put_ne _ _ _ _ _ ne⟩

theorem modVx_core (s : State) (c : Nat) (f : VectorUnit → VectorUnit) :
    (s.modVx c f).core c = { s.core c with vx := f (s.core c).vx } :=
  Tbl.get_put_self ..

theorem vectorEcc_clean {s : State} (c : Nat) (k : VxCtx) (v : VxWord) (clean : s.upsets = []) :
    s.vectorEcc c k v = (s, none) := if_pos clean

/-- A run without a fault leaves its unit and its memory. -/
theorem runVector_clean {s : State} {core : CoreId} {w : W64} (off : WordAt) (notSetq : (vxWord w).op ≠ 0x32)
    (notStq : (vxWord w).op ≠ 0x33) (clean : s.upsets = []) (unarmed : (s.core core).car.inject.arm = false)
    (done : ((s.vxCtx core (vxWord w)).run (vxWord w) none s.mem).fault = none) :
    s.runVector core w off
      = ({ s with mem := ((s.vxCtx core (vxWord w)).run (vxWord w) none s.mem).mem } : State).modVx core fun _ =>
          ((s.vxCtx core (vxWord w)).run (vxWord w) none s.mem).unit := by
  have short : (vxWord w).n ≤ 8192 := fld_lt w 55 43
  unfold State.runVector
  simp only [vectorEcc_clean core _ _ clean, if_neg notSetq, if_neg notStq, done]
  refine wrote_clean _ _ clean fun x hx => .inr ?_
  obtain ⟨y, hy, rfl⟩ := List.mem_map.mp hx
  have place : coreAt (carrelBase core + y.1) = core := (carrel_place core (run_wrote _ _ none s.mem short y hy)).2
  rw [show (s.vxCtx core (vxWord w)).base = carrelBase core from rfl, place, modVx_core]
  exact unarmed

/-- The element-wise words of the vector engine (R100 to R106). -/
def elementWords : List ((CoreId → BitVec 56 → Instr) × BitVec 8) :=
  [(.vxAdd, 0x01#8), (.vxSub, 0x02#8), (.vxMul, 0x03#8), (.vxFma, 0x04#8), (.vxMin, 0x05#8), (.vxMax, 0x06#8),
    (.vxAbs, 0x07#8), (.vxNeg, 0x08#8), (.vxAnd, 0x09#8), (.vxOr, 0x0A#8), (.vxXor, 0x0B#8), (.vxShl, 0x0C#8),
    (.vxShr, 0x0D#8), (.vxSel, 0x0E#8), (.vxMov, 0x0F#8), (.vxBcast, 0x10#8), (.vxCmp, 0x11#8), (.vxGather, 0x12#8),
    (.vxCvt, 0x18#8), (.vxPack, 0x19#8), (.vxUnpack, 0x1A#8), (.vxExp, 0x20#8), (.vxExp2, 0x21#8), (.vxRcp, 0x22#8),
    (.vxRsqrt, 0x23#8), (.vxSigm, 0x24#8), (.vxGelu, 0x25#8)]

/-- The row of a word that runs over its elements. -/
structure ElementWise (i : CoreId → BitVec 56 → Instr) (op : BitVec 8) : Prop where
  row : ∀ core args s, exec (i core args) s
    = .next (s.vectorAlone core (word56 op args) fun off s => s.runVector core (word56 op args) off)
  notSetq : op.toNat ≠ 0x32
  notStq : op.toNat ≠ 0x33

theorem elementWords_elementWise : ∀ q ∈ elementWords, ElementWise q.1 q.2 := by
  intro q hq
  fin_cases hq <;> exact ⟨fun _ _ _ => rfl, by decide, by decide⟩

/-- Settles O13: the word passes its check, no read meets a code error, and what the run wrote lies in the core's carrel,
where no injection is armed. -/
theorem vectorWordsRunOverTheirElements : Obligations.VectorWordsRunOverTheirElements := by
  unfold Obligations.VectorWordsRunOverTheirElements
  intro q hq core args s w o runs clean unarmed issue done
  obtain ⟨row, setq, stq⟩ := elementWords_elementWise q hq
  have op : (vxWord w).op = q.2.toNat := word56_op q.2 args
  refine ⟨({ s with mem := o.mem } : State).modVx core fun _ => o.unit, ?_, modVx_onlyCoreAndMemory .., rfl, modVx_core ..⟩
  rw [row, vectorAlone_passes runs issue, runVector_clean _ (op.trans_ne setq) (op.trans_ne stq) clean unarmed done]

end Sys2Proof.Machine

/-! PROOFS. Memory that is not in its canonical form: a byte string that is read from it depends on where the read begins
(Memory.read), and a write puts cells in order. The statements about elements and mask sets quantify over it too. -/

namespace Sys2Proof.Machine

open Sys2Proof

-- VX.MOV of two elements, the first disabled

/-- Descriptor 1 lies 64 bytes up; mask set 1 enables element 1 alone. -/
def maskedUnit : VectorUnit := { VectorUnit.reset with desc := [(1, 64)], masks := [(257, 1)] }

/-- VX.MOV of two INT8 elements to descriptor 1 under mask set 1. -/
def maskedMove : VxWord :=
  { op := 0x0F, n := 2, dst := 1, srca := 0, srcb := 0, srcc := 0, mset := 1, minv := false, typ := 0xD, low := 0 }

/-- Two cells about the enabled element's byte, in falling order: a read that begins at 64 finds the cell of 66 first, so
that it does not see the byte at 64. -/
def fallingCells : Memory := [(66, 1), (64, 2)]

/-- Refutes O14 where memory is not in its canonical form: the disabled element 0 at 64 reads 0 before the word; the write
of element 1 at 65 brings the cell of 64 before that of 66, and element 0 reads 2. -/
theorem not_enabledElementsTakeTheirResults : ¬ Obligations.EnabledElementsTakeTheirResults := by
  unfold Obligations.EnabledElementsTakeTheirResults
  rintro ⟨elements, -⟩
  have kept := (elements ⟨0, ⟨0, 0, 0, 0, 0⟩, maskedUnit⟩ maskedMove fallingCells (by decide) (by decide) (by decide +kernel)
    (by decide +kernel) (by decide +kernel) (by decide +kernel)).1 0 (by decide)
  exact absurd kept (by decide +kernel)

-- VX.SETQ of mask set 1

/-- Core 0 in SERVICE, cells of its carrel out of order: a read that begins at 0 takes the byte at 3 and then looks for that
at 1, so that it does not see the byte at 5; one that begins at 4 does. -/
def unorderedCarrel : State :=
  { State.reset with
    cores := [(0, { Core.reset with sq := { Core.reset.sq with mode := .service } })]
    mem := [(3, 2), (1, 7), (5, 1)] }

/-- VX.SETQ of mask set 1 through descriptor 0 (R95, R98). -/
def loadMaskSet1 : BitVec 56 := 0x40000

/-- Refutes O15 where memory is not in its canonical form: VX.SETQ reads 512 bytes in one run, in which bytes 4 and 5 are
0, while the two bytes that are read from offset 4 are 0 and 1. -/
theorem not_vectorRegistersAreSet : ¬ Obligations.VectorRegistersAreSet := by
  unfold Obligations.VectorRegistersAreSet
  rintro ⟨-, -, -, -, setq, -⟩
  obtain ⟨t, step, -, -, masks⟩ := setq 0 loadMaskSet1 unorderedCarrel (by decide +kernel) rfl (by decide +kernel)
    (by decide +kernel)
  have row : exec (.vxSetq 0 loadMaskSet1) unorderedCarrel
      = .next (unorderedCarrel.vectorAlone 0 (word56 0x32 loadMaskSet1) fun off s =>
          s.runVector 0 (word56 0x32 loadMaskSet1) off) := rfl
  obtain rfl := Host.Outcome.next.inj (row.symm.trans step)
  exact absurd (masks 1 2 (by decide) (by decide)) (by decide +kernel)

end Sys2Proof.Machine

/-! PROOFS. Bring-up (R119, R154, R181, R511 to R513, R515): the judgement of clusters core by core, the clearing of every
partition, the link words of the ports that the reading room lights, and the cores that service begins with. -/

namespace Sys2Proof.Machine

open Sys2Proof

-- cores and reports

/-- `t` is `s` but for cores and for what reports events (R421). -/
def OnlyCoresAndReports (s t : State) : Prop :=
  t = { s with cores := t.cores, pages := t.pages, logs := t.logs, ports := t.ports }

theorem OnlyCoresAndReports.refl (s : State) : OnlyCoresAndReports s s := rfl

theorem OnlyCoresAndReports.trans {s t u : State} (h : OnlyCoresAndReports s t) (k : OnlyCoresAndReports t u) :
    OnlyCoresAndReports s u := by
  unfold OnlyCoresAndReports at *
  rw [k, h]

theorem OnlyReports.coresToo {s t : State} (h : OnlyReports s t) : OnlyCoresAndReports s t := by
  unfold OnlyCoresAndReports
  rw [h]

theorem OnlyReports.core {s t : State} (h : OnlyReports s t) (c : Nat) : t.core c = s.core c := by
  rw [h]
  rfl

theorem foldl_onlyCoresAndReports {α : Type} {f : State → α → State} (h : ∀ s a, OnlyCoresAndReports s (f s a)) (l : List α)
    (s : State) : OnlyCoresAndReports s (l.foldl f s) :=
  List.foldlRecOn (motive := OnlyCoresAndReports s) l f (.refl s) fun t ht a _ => ht.trans (h t a)

theorem modCore_core (s : State) (c d : Nat) (f : Core → Core) :
    (s.modCore c f).core d = if d = c then f (s.core c) else s.core d := Tbl.get_put ..

/-- A step over distinct cores, each of which changes its own core alone. -/
theorem foldl_core {f : State → Nat → State} {g : Nat → Core → Core}
    (own : ∀ s c d, (f s c).core d = if d = c then g c (s.core c) else s.core d) {l : List Nat} (once : l.Nodup) (s : State)
    (d : Nat) : (l.foldl f s).core d = if d ∈ l then g d (s.core d) else s.core d := by
  induction l generalizing s with
  | nil => simp
  | cons c l ih =>
    obtain ⟨fresh, rest⟩ := List.nodup_cons.mp once
    rw [List.foldl_cons, ih rest, own]
    by_cases same : d = c
    · subst same
      simp [fresh]
    · simp [same]

/-- A core in another state (R154). -/
def Core.inMode (k : Core) (m : CoreMode) : Core := { k with sq := { k.sq with mode := m } }

theorem setMode_core (s : State) (c d : Nat) (m : CoreMode) :
    (s.setMode c m).core d = if d = c then (s.core c).inMode m else s.core d := by
  unfold State.setMode
  split
  · next already =>
    split
    · next same => rw [same, ← already]; rfl
    · rfl
  · exact ((raise_reports ..).core d).trans (modCore_core ..)

theorem setMode_onlyCoresAndReports (s : State) (c : Nat) (m : CoreMode) : OnlyCoresAndReports s (s.setMode c m) := by
  unfold State.setMode
  split
  · exact .refl s
  · exact OnlyCoresAndReports.trans (t := s.modSq c fun q => { q with mode := m }) rfl (raise_reports ..).coresToo

-- clusters

theorem mem_clusterCores {c k : Nat} : c ∈ clusterCores k ↔ c / 8 = k := by
  simp only [clusterCores, List.mem_map, List.mem_range]
  exact ⟨by rintro ⟨i, hi, rfl⟩; omega, fun h => ⟨c % 8, by omega, by omega⟩⟩

theorem clusterCores_nodup (k : Nat) : (clusterCores k).Nodup :=
  List.nodup_range.map fun _ _ h => Nat.add_left_cancel h

theorem clusterIn_congr {s t : State} {k : Nat} (same : ∀ c, c / 8 = k → t.core c = s.core c) (m : CoreMode) :
    t.clusterIn k m = s.clusterIn k m := by
  unfold State.clusterIn
  rw [Bool.eq_iff_iff, List.all_eq_true, List.all_eq_true]
  exact forall₂_congr fun c hc => by rw [same c (mem_clusterCores.mp hc)]

theorem mode_of_clusterIn {s : State} {c k : Nat} {m : CoreMode} (h : s.clusterIn k m = true) (mem : c ∈ clusterCores k) :
    (s.core c).sq.mode = m := of_decide_eq_true (List.all_eq_true.mp h c mem)

-- self-test (R119, R154, R512)

section Selftest

variable (pass : BitVec 16) (rdu : BitVec 128)

/-- Self-test shows the outcome of one reduction unit (R119). -/
def State.testRdu (s : State) (c : Nat) : State :=
  if rdu.getLsbD (c % 128) then s.modRd c fun u => { u with tested := true, pass := rdu.getLsbD (c % 128) }
  else (s.modRd c fun u => { u with tested := true, pass := rdu.getLsbD (c % 128) }).raise0 (rduPage c) 1

/-- Whether a cluster passes: its own test, its alignment, and all of its reduction units (R154). -/
def clusterPasses (align : BitVec 32) (k : Nat) : Bool :=
  pass.getLsbD (k % 16) && !align.getLsbD k && (clusterCores k).all fun c => rdu.getLsbD (c % 128)

/-- A core with the outcome of its reduction unit. -/
def Core.tested (k : Core) (ok : Bool) : Core := { k with rd := { k.rd with tested := true, pass := ok } }

/-- Core `c` as self-test leaves it. -/
def Core.judged (align : BitVec 32) (c : Nat) (k : Core) : Core :=
  if clusterPasses pass rdu align (c / 8) then k.tested (rdu.getLsbD (c % 128))
  else (k.tested (rdu.getLsbD (c % 128))).inMode .isolated

theorem testRdu_core (s : State) (c d : Nat) :
    (s.testRdu rdu c).core d = if d = c then (s.core c).tested (rdu.getLsbD (c % 128)) else s.core d := by
  unfold State.testRdu
  split
  · exact modCore_core ..
  · exact ((raise0_reports ..).core d).trans (modCore_core ..)

theorem testRdu_onlyCoresAndReports (s : State) (c : Nat) : OnlyCoresAndReports s (s.testRdu rdu c) := by
  unfold State.testRdu
  split
  · exact .refl _
  · exact OnlyCoresAndReports.trans (t := s.modRd c _) rfl (raise0_reports ..).coresToo

theorem judgeCluster_eq (s : State) (k : Nat) : s.judgeCluster pass rdu k =
    if s.clusterIn k .diag = false then s
    else if pass.getLsbD (k % 16) && !((clusterCores k).foldl (State.testRdu rdu) s).gen.alignFailed.getLsbD k
        && (clusterCores k).all fun c => (((clusterCores k).foldl (State.testRdu rdu) s).core c).rd.pass
      then (clusterCores k).foldl (State.testRdu rdu) s
      else (clusterCores k).foldl (fun (s : State) c => s.setMode c .isolated) ((clusterCores k).foldl (State.testRdu rdu) s) :=
  rfl

theorem judgeCluster_onlyCoresAndReports (s : State) (k : Nat) : OnlyCoresAndReports s (s.judgeCluster pass rdu k) := by
  have tests := foldl_onlyCoresAndReports (testRdu_onlyCoresAndReports rdu) (clusterCores k) s
  rw [judgeCluster_eq]
  split
  · exact .refl s
  · split
    · exact tests
    · exact tests.trans (foldl_onlyCoresAndReports (fun s c => setMode_onlyCoresAndReports s c .isolated) _ _)

theorem judgeCluster_core (s : State) (k d : Nat) : (s.judgeCluster pass rdu k).core d =
    if s.clusterIn k .diag = true ∧ d / 8 = k then (s.core d).judged pass rdu s.gen.alignFailed d else s.core d := by
  have tests (c : Nat) := foldl_core (g := fun c k => k.tested (rdu.getLsbD (c % 128))) (testRdu_core rdu)
    (clusterCores_nodup k) s c
  have gen : ((clusterCores k).foldl (State.testRdu rdu) s).gen = s.gen := by
    rw [foldl_onlyCoresAndReports (testRdu_onlyCoresAndReports rdu) (clusterCores k) s]
  have units : ((clusterCores k).all fun c => (((clusterCores k).foldl (State.testRdu rdu) s).core c).rd.pass)
      = (clusterCores k).all fun c => rdu.getLsbD (c % 128) := by
    rw [Bool.eq_iff_iff, List.all_eq_true, List.all_eq_true]
    exact forall₂_congr fun c hc => by rw [tests, if_pos hc]; rfl
  rw [judgeCluster_eq, gen, units]
  cases diag : s.clusterIn k .diag with
  | false => rw [if_pos rfl, if_neg (by simp)]
  | true =>
    rw [if_neg (by simp), apply_ite (State.core · d), foldl_core (g := fun _ k => k.inMode .isolated)
      (fun s c d => setMode_core s c d .isolated) (clusterCores_nodup k), tests]
    by_cases own : d / 8 = k
    · subst own
      simp only [mem_clusterCores.mpr rfl, if_true, and_self]
      rfl
    · simp only [mt mem_clusterCores.mp own, if_false, own, and_false, ite_self]

/-- Self-test of a core in DIAG (R119, R154). -/
theorem judged_diag {align : BitVec 32} {c k : Nat} {x : Core} (diag : x.sq.mode = .diag) (own : c / 8 = k) :
    (x.judged pass rdu align c).rd.tested = true ∧ (x.judged pass rdu align c).rd.pass = rdu.getLsbD (c % 128)
      ∧ (x.judged pass rdu align c).sq.mode = if clusterPasses pass rdu align k then .diag else .isolated := by
  unfold Core.judged
  rw [own]
  split
  · exact ⟨rfl, rfl, diag⟩
  · exact ⟨rfl, rfl, rfl⟩

/-- Self-test has judged clusters: those in DIAG, and none of their cores twice. -/
def State.judgeClusters (s : State) (ks : List Nat) : State := ks.foldl (fun s k => s.judgeCluster pass rdu k) s

theorem judgeClusters_onlyCoresAndReports (s : State) (ks : List Nat) :
    OnlyCoresAndReports s (s.judgeClusters pass rdu ks) :=
  foldl_onlyCoresAndReports (judgeCluster_onlyCoresAndReports pass rdu) ks s

theorem judgeClusters_gen (s : State) (ks : List Nat) : (s.judgeClusters pass rdu ks).gen = s.gen := by
  rw [judgeClusters_onlyCoresAndReports]

theorem judgeClusters_core {ks : List Nat} (once : ks.Nodup) (s : State) (d : Nat) : (s.judgeClusters pass rdu ks).core d =
    if s.clusterIn (d / 8) .diag = true ∧ d / 8 ∈ ks then (s.core d).judged pass rdu s.gen.alignFailed d else s.core d := by
  unfold State.judgeClusters
  induction ks generalizing s with
  | nil => simp
  | cons k ks ih =>
    obtain ⟨fresh, rest⟩ := List.nodup_cons.mp once
    have gen : (s.judgeCluster pass rdu k).gen = s.gen := by rw [judgeCluster_onlyCoresAndReports pass rdu s k]
    rw [List.foldl_cons, ih rest, gen]
    by_cases own : d / 8 = k
    · rw [if_neg fun h => fresh (own ▸ h.2), judgeCluster_core]
      exact if_congr (by simp [own]) rfl rfl
    · have same (c : Nat) (h : c / 8 = d / 8) : (s.judgeCluster pass rdu k).core c = s.core c := by
        rw [judgeCluster_core, if_neg fun x => own (h ▸ x.2)]
      rw [clusterIn_congr same, same d rfl]
      exact if_congr (by simp [own]) rfl rfl

end Selftest

-- the clearing of every shelf and carrel (R181, R511)

theorem modPart_part (s : State) (k p i j : Nat) (f : Part → Part) :
    (s.modPart k p f).part i j = if i = k ∧ j = p then f (s.part k p) else s.part i j := by
  unfold State.modPart State.modCluster State.part State.cluster Tbl.modify
  dsimp only
  rw [Tbl.get_put]
  by_cases cluster : i = k
  · subst cluster
    rw [if_pos rfl, Tbl.get_put]
    exact if_congr (by simp) rfl rfl
  · rw [if_neg cluster, if_neg (cluster ·.1)]

/-- A partition that is being cleared, with no owner. -/
def Part.BeingCleared (x : Part) : Prop := x.kind = .clearing ∧ x.owner = none

/-- The clearing of the first `n` partitions begins; none of them has a next holder (R181, R511). -/
def State.clearParts (s : State) (n : Nat) : State :=
  (List.range n).foldl (fun (s : State) i =>
    s.modPart (i / 8) (i % 8) fun x => { x with kind := .clearing, owner := none, next := .free, nextOwner := none, hash := none }) s

theorem clearParts_part (s : State) (n : Nat) : ∀ i, i < n → ((s.clearParts n).part (i / 8) (i % 8)).BeingCleared := by
  unfold State.clearParts
  induction n with
  | zero => exact fun i h => absurd h (Nat.not_lt_zero i)
  | succ n ih =>
    intro i lt
    rw [List.range_succ, List.foldl_append, List.foldl_cons, List.foldl_nil, modPart_part]
    split
    · exact ⟨rfl, rfl⟩
    · exact ih i (by omega)

theorem clearParts_clusters (s : State) (n : Nat) : s.clearParts n = { s with clusters := (s.clearParts n).clusters } :=
  List.foldlRecOn (motive := fun t : State => t = { s with clusters := t.clusters }) _ _ rfl fun t ht i _ => by
    rw [ht]
    rfl

/-- `t` is `s` but for carrels being cleared. -/
structure CarrelsClearing (s t : State) : Prop where
  frame : t = { s with cores := t.cores }
  rd : ∀ c, (t.core c).rd = (s.core c).rd
  sq : ∀ c, (t.core c).sq = (s.core c).sq

theorem modCar_clearing {s t : State} (h : CarrelsClearing s t) (c : Nat) (f : CarrelUnit → CarrelUnit) :
    CarrelsClearing s (t.modCar c f) := by
  have own (d : Nat) : ((t.modCar c f).core d).rd = (t.core d).rd ∧ ((t.modCar c f).core d).sq = (t.core d).sq := by
    unfold State.modCar
    rw [modCore_core]
    split
    · next same => rw [same]; exact ⟨rfl, rfl⟩
    · exact ⟨rfl, rfl⟩
  refine ⟨?_, fun d => (own d).1.trans (h.rd d), fun d => (own d).2.trans (h.sq d)⟩
  unfold State.modCar
  rw [h.frame]
  rfl

theorem clearParts_core (s : State) (n c : Nat) : (s.clearParts n).core c = s.core c := by
  rw [clearParts_clusters]
  rfl

theorem CarrelsClearing.part {s t : State} (h : CarrelsClearing s t) (k p : Nat) : t.part k p = s.part k p := by
  rw [h.frame]
  rfl

/-- The clearing of every carrel begins (R511). -/
def State.clearCarrels (s : State) : State :=
  s.allCores.foldl (fun (s : State) c => s.modCar c fun x => { x with clearing := true, nextTenant := none }) s

theorem clearCarrels_carrels (s : State) : CarrelsClearing s s.clearCarrels :=
  List.foldlRecOn (motive := CarrelsClearing s) _ _ ⟨rfl, fun _ => rfl, fun _ => rfl⟩
    fun _ ht c _ => modCar_clearing ht c _

theorem beginClearing_eq (s : State) : s.beginClearing = (s.clearParts 256).clearCarrels := by
  simp only [State.beginClearing, State.clearCarrels, State.clearParts]

theorem beginClearing_carrels (s : State) : CarrelsClearing (s.clearParts 256) s.beginClearing :=
  beginClearing_eq s ▸ clearCarrels_carrels _

theorem beginClearing_frame (s : State) :
    s.beginClearing = { s with cores := s.beginClearing.cores, clusters := s.beginClearing.clusters } := by
  have carrels := (beginClearing_carrels s).frame
  rw [clearParts_clusters s 256] at carrels
  rw [carrels]

theorem beginClearing_core (s : State) (c : Nat) :
    (s.beginClearing.core c).rd = (s.core c).rd ∧ (s.beginClearing.core c).sq = (s.core c).sq := by
  rw [← clearParts_core s 256 c]
  exact ⟨(beginClearing_carrels s).rd c, (beginClearing_carrels s).sq c⟩

theorem beginClearing_part (s : State) {k p : Nat} (hk : k < 32) (hp : p < 8) : (s.beginClearing.part k p).BeingCleared := by
  have cleared := clearParts_part s 256 (8 * k + p) (by omega)
  rw [show (8 * k + p) / 8 = k by omega, show (8 * k + p) % 8 = p by omega] at cleared
  rw [(beginClearing_carrels s).part]
  exact cleared

/-- A bit of PWR_BOOT that is set has been set (R511). -/
theorem setBoot_booted (s : State) (i j : Nat) : (s.setBoot i).booted j = (s.booted j || (decide (j < 8) && decide (i = j))) :=
  setBit_getLsbD ..

-- the end of self-test

/-- Self-test has ended on a die, and its outcome is noted (R512). -/
def State.endSelftest (s : State) (die : Die) : State :=
  { s with gen := if die.val = 0 then { s.gen with selftestA := true } else { s.gen with selftestB := true } }

theorem endSelftest_mem (s : State) (die : Die) : (s.endSelftest die).mem = s.mem := rfl
theorem endSelftest_core (s : State) (die : Die) (c : Nat) : (s.endSelftest die).core c = s.core c := rfl

theorem endSelftest_noted (s : State) (die : Die) :
    (if die.val = 0 then (s.endSelftest die).gen.selftestA else (s.endSelftest die).gen.selftestB) = true := by
  unfold State.endSelftest
  split <;> rfl

/-- Self-test has ended on the other die too. -/
theorem endSelftest_both {s : State} {die : Die}
    (other : (if die.val = 0 then s.gen.selftestB else s.gen.selftestA) = true) :
    (s.endSelftest die).gen.selftestA = true ∧ (s.endSelftest die).gen.selftestB = true := by
  unfold State.endSelftest
  split at other
  · next first => rw [if_pos first]; exact ⟨rfl, other⟩
  · next second => rw [if_neg second]; exact ⟨other, rfl⟩

/-- What self-test on both dies brings (R181, R511). -/
def State.afterSelftest (s : State) : State :=
  if s.gen.selftestA && s.gen.selftestB then (s.setBoot bootSelftest).redigest.beginClearing else s

theorem afterSelftest_mem (s : State) : s.afterSelftest.mem = s.mem := by
  unfold State.afterSelftest
  split
  · rw [beginClearing_frame]; rfl
  · rfl

theorem afterSelftest_gen (s : State) :
    s.afterSelftest.gen.selftestA = s.gen.selftestA ∧ s.afterSelftest.gen.selftestB = s.gen.selftestB := by
  unfold State.afterSelftest
  split
  · rw [beginClearing_frame]; exact ⟨rfl, rfl⟩
  · exact ⟨rfl, rfl⟩

theorem afterSelftest_core (s : State) (c : Nat) :
    (s.afterSelftest.core c).rd = (s.core c).rd ∧ (s.afterSelftest.core c).sq = (s.core c).sq := by
  unfold State.afterSelftest
  split
  · exact beginClearing_core ..
  · exact ⟨rfl, rfl⟩

/-- With both dies done every partition is being cleared. -/
theorem afterSelftest_clears {s : State} (both : s.gen.selftestA = true ∧ s.gen.selftestB = true) :
    s.afterSelftest.booted bootSelftest = true
      ∧ ∀ k p, k < 32 → p < 8 → (s.afterSelftest.part k p).kind = .clearing ∧ (s.afterSelftest.part k p).owner = none := by
  unfold State.afterSelftest
  rw [if_pos (by rw [both.1, both.2]; rfl)]
  refine ⟨?_, fun k p hk hp => beginClearing_part _ hk hp⟩
  rw [beginClearing_frame]
  exact (setBoot_booted ..).trans (by simp [bootSelftest])

/-- The clusters of a die (R6). -/
def dieClusters (die : Die) : List Nat := (List.range 16).map fun i => 16 * die.val + i

theorem mem_dieClusters {die : Die} {k : Nat} : k ∈ dieClusters die ↔ k / 16 = die.val := by
  simp only [dieClusters, List.mem_map, List.mem_range]
  exact ⟨by rintro ⟨i, hi, rfl⟩; omega, fun h => ⟨k % 16, by omega, by omega⟩⟩

theorem dieClusters_nodup (die : Die) : (dieClusters die).Nodup := List.nodup_range.map fun _ _ h => Nat.add_left_cancel h

theorem exec_selftestDone {die : Die} {pass : BitVec 16} {rdu : BitVec 128} {s : State} (granted : s.charter.granted = true)
    (up : s.curatorUp die = true) (first : (if die.val = 0 then s.gen.selftestA else s.gen.selftestB) = false) :
    exec (.selftestDone die pass rdu) s
      = .next ((s.judgeClusters pass rdu (dieClusters die)).endSelftest die).afterSelftest := by
  show execSelftestDone die pass rdu s = _
  unfold execSelftestDone
  dsimp only
  rw [if_neg (by rw [granted, up, first]; decide)]
  unfold State.afterSelftest State.endSelftest State.judgeClusters dieClusters
  rfl

-- the reading room (R513)

section Ports

variable {R : State → State → Prop} (refl : ∀ s, R s s) (trans : ∀ {s t u}, R s t → R t u → R s u)
  (page : ∀ s p f, R s (s.modPage p f)) (log : ∀ s d f, R s (s.modLog d f))
  (queue : ∀ (s : State) p r, R s (s.modPort p fun t => t.enqueue r)) (pump : ∀ s p, R s (s.pumpPort p))

include refl trans page log queue

/-- What the changes of pages and logs and the queueing of a record keep, an occurrence keeps (R421). -/
theorem emit_queues (fuel : Nat) (s : State) (number bit : Nat) (detail : Bytes) : R s (s.emit fuel number bit detail) := by
  induction fuel generalizing s number bit detail with
  | zero => exact refl s
  | succ n ih =>
    have either {s t u : State} {b : Prop} [Decidable b] (h : R s t) (k : R s u) : R s (if b then t else u) := by
      split <;> assumption
    have logged {s : State} (b c : Prop) [Decidable b] [Decidable c] (f : EvLog → EvLog) (d : Nat) :
        R s (if b then s else if c then (s.modLog d f).emit n (evlPage d) 0 [] else s.modLog d f) :=
      either (refl s) (trans (log ..) (either (ih ..) (refl _)))
    have queued (s : State) (b : Prop) [Decidable b] (p : Nat) (r : EvRec) :
        R s (if b then (s.modPort p fun t => t.enqueue r).emit n (tsdPage p) 4 [] else s.modPort p fun t => t.enqueue r) :=
      trans (queue ..) (either (ih ..) (refl _))
    unfold State.emit
    refine trans (page s number fun h => { h with evtRaw := setBit h.evtRaw bit }) ?_
    dsimp only
    split
    · exact refl _
    · exact either (logged ..) (trans (logged ..) (trans (queued ..) (queued ..)))

include pump

theorem raise_queues (s : State) (number bit : Nat) (detail : Bytes) : R s (s.raise number bit detail) :=
  trans (trans (emit_queues refl trans page log queue 6 s number bit detail) (pump ..)) (pump ..)

end Ports

/-- A port that is not UP has the same state and link word in `t` as in `s`. -/
def LinksRest (s t : State) : Prop :=
  ∀ p, (s.port p).state ≠ .up → (t.port p).state = (s.port p).state ∧ (t.port p).word = (s.port p).word

theorem LinksRest.trans {s t u : State} (h : LinksRest s t) (k : LinksRest t u) : LinksRest s u := fun p down => by
  obtain ⟨state, word⟩ := h p down
  obtain ⟨state', word'⟩ := k p (state ▸ down)
  exact ⟨state'.trans state, word'.trans word⟩

theorem modPort_port (s : State) (p q : Nat) (f : TsdPort → TsdPort) :
    (s.modPort p f).port q = if q = p then f (s.port p) else s.port q := Tbl.get_put ..

theorem modPort_linksRest {s : State} {p : Nat} {f : TsdPort → TsdPort}
    (rests : ∀ t : TsdPort, t.state ≠ .up → (f t).state = t.state ∧ (f t).word = t.word) : LinksRest s (s.modPort p f) :=
  fun q down => by
    rw [modPort_port]
    split
    · next same => exact same ▸ rests _ (same ▸ down)
    · exact ⟨rfl, rfl⟩

theorem enqueue_link (t : TsdPort) (r : EvRec) : (t.enqueue r).state = t.state ∧ (t.enqueue r).word = t.word := by
  unfold TsdPort.enqueue
  split
  · exact ⟨rfl, rfl⟩
  · split <;> exact ⟨rfl, rfl⟩

theorem closeEvents_down {t : TsdPort} (down : t.state ≠ .up) : t.closeEvents = t := if_neg fun h => down h.1

theorem pump_down {t : TsdPort} (down : t.state ≠ .up) (n : Nat) (now : W64) : TsdPort.pump n t now = t := by
  cases n with
  | zero => rfl
  | succ n => exact if_pos down

theorem pumpPort_linksRest (s : State) (p : Nat) : LinksRest s (s.pumpPort p) :=
  modPort_linksRest fun t down => by
    rw [closeEvents_down down, ite_self, pump_down down]
    exact ⟨rfl, rfl⟩

theorem raise0_linksRest (s : State) (page bit : Nat) : LinksRest s (s.raise0 page bit) :=
  raise_queues (fun _ _ _ => ⟨rfl, rfl⟩) .trans (fun _ _ _ _ _ => ⟨rfl, rfl⟩) (fun _ _ _ _ _ => ⟨rfl, rfl⟩)
    (fun _ _ r => modPort_linksRest fun t _ => enqueue_link t r) pumpPort_linksRest s page bit []

/-- A port that is enabled begins its training and sends its link word with INIT (R395, R398, R513). -/
def TsdPort.light (t : TsdPort) : TsdPort :=
  if t.enable ∧ t.state = .down then ({ t with state := .training } : TsdPort).sendWord true else t

/-- The flags of an INIT word. -/
theorem leNat_flags (a b : Bool) :
    leNat [BitVec.ofNat 8 (a.toNat + 2 * b.toNat + 4)] = a.toNat + 2 * b.toNat + 4 := by
  cases a <;> cases b <;> rfl

theorem leNat_ack (v : BitVec 16) : leNat (leBytes 2 v.toNat) = v.toNat :=
  (leNat_leBytes 2 v.toNat).trans (Nat.mod_eq_of_lt v.isLt)

/-- Bytes 0 to 13 of an INIT word, with the module's own buffers (R398, R401). -/
def initBody (flags : Nat) (ack : BitVec 16) : Bytes :=
  [0x7F#8, BitVec.ofNat 8 flags] ++ leBytes 2 ack.toNat ++ [0x00, 0x08, 0x00, 0x10, 0x00, 0x40, 0x00, 0x00, 0, 0]

theorem sendWord_init (t : TsdPort) : (t.sendWord true).word
    = initBody (t.rxAny.toNat + 2 * t.nak.toNat + 4) (t.rxNext - 1)
      ++ leBytes 2 (crc16 (initBody (t.rxAny.toNat + 2 * t.nak.toNat + 4) (t.rxNext - 1))).toNat := by
  have body : t.wordBody true = initBody (t.rxAny.toNat + 2 * t.nak.toNat + 4) (t.rxNext - 1) := by
    simp [TsdPort.wordBody, initBody, ownBuffer, leBytes]
  rw [← body]
  rfl

/-- The INIT word says the flags, the number before the next packet's, and the module's own buffers (R398). -/
theorem initWord (t : TsdPort) : LinkWord (t.sendWord true).word (t.rxAny.toNat + 2 * t.nak.toNat + 4) (t.rxNext - 1).toNat
    (fun c => [2048, 4096, 16384, 0].getD c 0) := by
  have flags := leNat_flags t.rxAny t.nak
  rw [sendWord_init]
  generalize t.rxAny.toNat + 2 * t.nak.toNat + 4 = f at flags ⊢
  generalize t.rxNext - 1 = ack
  generalize e : crc16 (initBody f ack) = crc
  refine ⟨rfl, rfl, flags, leNat_ack ack, fun c hc => ?_, rfl, ?_⟩
  · interval_cases c <;> simp [leAt, initBody, leBytes, leNat]
  · have check : leAt (initBody f ack ++ leBytes 2 crc.toNat) 14 2 = crc.toNat := leNat_ack crc
    rw [check, BitVec.ofNat_toNat, BitVec.setWidth_eq, ← e]
    exact congrArg crc16 (List.take_left' rfl)

theorem light_training {t : TsdPort} (enabled : t.enable = true) (down : t.state = .down) :
    t.light.state = .training ∧ LinkWord t.light.word (t.rxAny.toNat + 2 * t.nak.toNat + 4) (t.rxNext - 1).toNat
      (fun c => [2048, 4096, 16384, 0].getD c 0) := by
  unfold TsdPort.light
  rw [if_pos ⟨enabled, down⟩]
  exact ⟨rfl, initWord { t with state := .training }⟩

/-- Both ports are lit. -/
def State.lightPorts (s : State) : State := [0, 1].foldl (fun (s : State) p => s.modPort p TsdPort.light) s

theorem lightPorts_port (s : State) (p : TPort) : s.lightPorts.port p = (s.port p).light := by
  show ((s.modPort 0 TsdPort.light).modPort 1 TsdPort.light).port p = _
  simp only [modPort_port]
  have two : p.val = 0 ∨ p.val = 1 := by omega
  rcases two with h | h <;> simp [h]

/-- `t` is `s` but for optical engines that begin their calibration and bits of PWR_BOOT that are set (R511). -/
structure OpticsBegun (s t : State) : Prop where
  frame : t = { s with engines := t.engines, power := { s.power with boot := t.power.boot } }
  boot : ∀ b, s.booted b = true → t.booted b = true

theorem OpticsBegun.refl (s : State) : OpticsBegun s s := ⟨rfl, fun _ h => h⟩

theorem OpticsBegun.trans {s t u : State} (h : OpticsBegun s t) (k : OpticsBegun t u) : OpticsBegun s u :=
  ⟨by rw [k.frame, h.frame], fun b x => k.boot b (h.boot b x)⟩

theorem OpticsBegun.rest {s t : State} (h : OpticsBegun s t) :
    t.gen = s.gen ∧ t.mem = s.mem ∧ t.power.rrMs = s.power.rrMs ∧ ∀ p, t.port p = s.port p := by
  rw [h.frame]
  exact ⟨rfl, rfl, rfl, fun _ => rfl⟩

theorem setBoot_optics (s : State) (bit : Nat) : OpticsBegun s (s.setBoot bit) :=
  ⟨rfl, fun b h => by rw [setBoot_booted, h, Bool.true_or]⟩

theorem optics_begun (s : State) : OpticsBegun s s.optics := by
  unfold State.optics
  extract_lets settled begun done
  have engines : OpticsBegun s begun :=
    List.foldlRecOn (motive := OpticsBegun s) _ _ (.refl s) fun t ht d _ => by
      split
      · exact ht
      · split
        · exact ht.trans ⟨rfl, fun _ h => h⟩
        · exact ht
  split
  · exact .refl s
  · split
    · exact engines.trans (setBoot_optics ..)
    · exact engines

/-- The reading room is open: its bits, its time, the ports lit (R513). -/
def State.openReadingRoom (s : State) : State :=
  ({ s.setBoot bootReadingRoom with
    gen := { s.gen with readingRoom := true }
    power := { (s.setBoot bootReadingRoom).power with rrMs := BitVec.ofNat 16 (min 65535 s.power.sinceGood) } } :
    State).lightPorts

/-- An unlocked debug port is reported (R468). -/
def State.reportDebug (s : State) : State := if s.sec.debugUnlocked then s.raise0 secPage 7 else s

theorem openReadingRoom_booted (s : State) : s.openReadingRoom.booted bootReadingRoom = true :=
  (setBoot_booted ..).trans (by simp [bootReadingRoom])

theorem openReadingRoom_port (s : State) (p : TPort) : s.openReadingRoom.port p = (s.port p).light := lightPorts_port _ p

theorem exec_readingRoomBegin {s : State} (cleared : s.booted bootCleared = true) (first : s.booted bootReadingRoom = false) :
    exec .readingRoomBegin s = .next s.openReadingRoom.reportDebug.optics := by
  show execReadingRoomBegin s = _
  unfold execReadingRoomBegin
  rw [if_neg (by simp [cleared, first])]
  rfl

theorem reportDebug_reports (s : State) : OnlyReports s s.reportDebug := ite_reports (raise0_reports ..) (.refl s)

theorem OnlyReports.rest {s t : State} (h : OnlyReports s t) : t.gen = s.gen ∧ t.mem = s.mem ∧ t.power = s.power := by
  rw [h]
  exact ⟨rfl, rfl, rfl⟩

theorem reportDebug_linksRest (s : State) : LinksRest s s.reportDebug := by
  unfold State.reportDebug
  split
  · exact raise0_linksRest _ _ _
  · exact fun _ _ => ⟨rfl, rfl⟩

-- service (R515)

/-- The cores of DIAG are in SERVICE. -/
def State.coresToService (s : State) : State :=
  s.allCores.foldl (fun (s : State) c => if (s.core c).sq.mode = .diag then s.setMode c .service else s) s

/-- A core of DIAG in SERVICE, another as it is. -/
def Core.toService (k : Core) : Core := if k.sq.mode = .diag then k.inMode .service else k

theorem coresToService_onlyCoresAndReports (s : State) : OnlyCoresAndReports s s.coresToService :=
  foldl_onlyCoresAndReports (fun s c => by
    split
    · exact setMode_onlyCoresAndReports ..
    · exact .refl s) _ s

theorem coresToService_core (s : State) (c : CoreId) (intact : s.fused (clusterOf c) = false) :
    s.coresToService.core c = (s.core c).toService := by
  have own (s : State) (c d : Nat) : (if (s.core c).sq.mode = .diag then s.setMode c .service else s).core d
      = if d = c then (s.core c).toService else s.core d := by
    unfold Core.toService
    split
    · exact setMode_core ..
    · split
      · next same => rw [same]
      · rfl
  have mem : c.val ∈ s.allCores := List.mem_filter.mpr ⟨List.mem_range.mpr c.isLt, by simp [intact]⟩
  exact (foldl_core (g := fun _ => Core.toService) own (List.nodup_range.filter _) s c).trans (if_pos mem)

/-- The module is in service. -/
def State.inService (s : State) (now : W64) : State :=
  ({ s with
    gen := { s.gen with service := true, readingRoom := false, serviceLedger := now }
    power := { s.power with serviceMs := BitVec.ofNat 16 (min 65535 s.power.sinceGood) } } : State).setBoot bootService

theorem exec_serviceBegin {s : State} (room : s.booted bootReadingRoom = true) (first : s.gen.service = false)
    (ready : s.serviceReady = true) :
    exec .serviceBegin s = .next ((s.coresToService.inService s.coresToService.now).raise0 genPage 0) := by
  show execServiceBegin s = _
  unfold execServiceBegin
  rw [if_neg (by simp [room, first, ready])]
  rfl

theorem coresToService_now (s : State) : s.coresToService.now = s.now := by
  rw [coresToService_onlyCoresAndReports]
  rfl

theorem inService_gen (s : State) (now : W64) :
    (s.coresToService.inService now).gen = { s.gen with service := true, readingRoom := false, serviceLedger := now } := by
  rw [coresToService_onlyCoresAndReports s]
  rfl

theorem inService_mem (s : State) (now : W64) : (s.coresToService.inService now).mem = s.mem := by
  rw [coresToService_onlyCoresAndReports s]
  rfl

theorem inService_booted (s : State) (now : W64) : (s.inService now).booted bootService = true :=
  (setBoot_booted ..).trans (by simp [bootService])

theorem inService_core (s : State) (now : W64) (c : Nat) : (s.inService now).core c = s.core c := rfl

theorem toService_mode (x : Core) : x.toService.sq.mode = if x.sq.mode = .diag then .service else x.sq.mode := by
  unfold Core.toService
  split <;> rfl

theorem booted_of_power {s t : State} (same : t.power = s.power) (bit : Nat) : t.booted bit = s.booted bit := by
  unfold State.booted
  rw [same]

/-- Settles O58: self-test judges each core of its die's clusters once, the lit ports rest while events are reported, and
each core that exists is taken to SERVICE from DIAG alone. -/
theorem bringUpReachesService : Obligations.BringUpReachesService := by
  unfold Obligations.BringUpReachesService
  intro s
  refine ⟨fun die pass rdu granted up first => ⟨_, exec_selftestDone granted up first, ?_, ?_, fun k hk diag c hc => ?_,
    fun other => afterSelftest_clears ?_⟩, fun cleared first => ⟨_, exec_readingRoomBegin cleared first, ?_⟩,
    fun room first ready => ⟨_, exec_serviceBegin room first ready, ?_⟩⟩
  · rw [afterSelftest_mem, endSelftest_mem, judgeClusters_onlyCoresAndReports]
  · rw [(afterSelftest_gen _).1, (afterSelftest_gen _).2]
    exact endSelftest_noted ..
  · have own : c / 8 = k := mem_clusterCores.mp hc
    have judged := judgeClusters_core pass rdu (dieClusters_nodup die) s c
    rw [own, if_pos ⟨diag, mem_dieClusters.mpr hk⟩] at judged
    rw [(afterSelftest_core _ c).1, (afterSelftest_core _ c).2, endSelftest_core, judged]
    exact judged_diag pass rdu (mode_of_clusterIn diag hc) own
  · rw [← judgeClusters_gen pass rdu s (dieClusters die)] at other
    exact endSelftest_both other
  · have begun := optics_begun s.openReadingRoom.reportDebug
    obtain ⟨gen, mem, rrMs, port⟩ := begun.rest
    obtain ⟨gen', mem', power'⟩ := (reportDebug_reports s.openReadingRoom).rest
    refine ⟨?_, begun.boot _ ?_, mem.trans mem', rrMs.trans (congrArg Power.rrMs power'), fun p enabled down => ?_⟩
    · rw [gen, gen']
      rfl
    · rw [booted_of_power power']
      exact openReadingRoom_booted s
    · have lit := light_training enabled down
      rw [← openReadingRoom_port] at lit
      obtain ⟨state, word⟩ := reportDebug_linksRest s.openReadingRoom p (by rw [lit.1]; decide)
      rw [port, state, word]
      exact lit
  · obtain ⟨gen, mem, power⟩ := (raise0_reports (s.coresToService.inService s.coresToService.now) genPage 0).rest
    refine ⟨?_, ?_, mem.trans (inService_mem ..), fun c intact => ?_⟩
    · rw [gen, inService_gen, coresToService_now]
    · rw [booted_of_power power]
      exact inService_booted ..
    · rw [(raise0_reports ..).core, inService_core, coresToService_core s c intact, toService_mode]

end Sys2Proof.Machine

/-! PROOFS. Control words, and the words that change nothing (R68, R100, R113, R129 to R131, R140, R145, R146, R191, R201):
which of them wait, and what a control word that passes its check leaves on its core or in its ring. -/

namespace Sys2Proof.Machine

open Sys2Proof

-- which control words wait, and what a word that passes does

/-- Only CT.WAITQ, CT.ACQR and CT.RELR can wait. -/
theorem controlWait_others (s : State) (c : Nat) {w : W64} (waitq : fld w 63 58 ≠ 0x08) (acqr : fld w 63 58 ≠ 0x09)
    (relr : fld w 63 58 ≠ 0x0A) : s.controlWait c w = none := by
  simp [State.controlWait]

/-- Only CT.WAITQ sees credits come back (R140). -/
theorem returnCredits_others (s : State) (c : Nat) {w : W64} (other : fld w 63 58 ≠ 0x08) : s.returnCredits c w = s := by
  simp [State.returnCredits, other]

theorem controlAlone_passes {s : State} {c : Nat} {w : W64} {run : WordAt → State → State} (runs : s.runs c = true)
    (wait : s.controlWait c w = none) (issue : s.controlIssue c (s.core c).sq.pc w = none) :
    s.controlAlone c w run = run (s.core c).sq.alone s := by
  simp [State.controlAlone, State.runAlone, runs, wait, issue]

/-- A word without an effect of its own, in every core state. -/
theorem runAlone_idle (s : State) (c : Nat) (w : W64) : s.runAlone c w none (fun _ s => s) = s := ite_self s

/-- A control word that only waits: credits may come back while it does (R140). -/
theorem controlAlone_idle {s : State} {c : Nat} {w : W64} (issue : s.controlIssue c (s.core c).sq.pc w = none) :
    s.controlAlone c w (fun _ s => s) = if (s.controlWait c w).isSome then s.returnCredits c w else s := by
  rw [State.controlAlone, issue, Option.map_none, runAlone_idle]

-- the sequencer's words

theorem ctLoop_fields (q : Sequencer) (next : Nat) (args : BitVec 58) :
    q.pushLoop next (word58 0x01 args) = { q with
      loops := ⟨next, (args.extractLsb' 19 15).toNat, (args.extractLsb' 34 24).toNat + 1, q.calls.length⟩ :: q.loops } := by
  rw [Sequencer.pushLoop, word58_field 0x01 args 19 15 (by decide) (by decide), word58_field 0x01 args 34 24 (by decide) (by decide)]

theorem branch_target (op : BitVec 6) (args : BitVec 58) : fld (word58 op args) 57 43 = (args.extractLsb' 43 15).toNat :=
  word58_field op args 43 15 (by decide) (by decide)

theorem delay_cycles (args : BitVec 58) : fld (word58 0x05 args) 57 34 = (args.extractLsb' 34 24).toNat :=
  word58_field 0x05 args 34 24 (by decide) (by decide)

theorem sequencerWords_run {core : CoreId} {args : BitVec 58} {s : State} {op : BitVec 6} {run : WordAt → State → State}
    (other : op.toNat < 0x08) (ok : s.runs core = true ∧ s.controlIssue core (s.core core).sq.pc (word58 op args) = none) :
    s.controlAlone core (word58 op args) run = run (s.core core).sq.alone s :=
  controlAlone_passes ok.1 (controlWait_others s core (by rw [word58_op]; omega) (by rw [word58_op]; omega) (by rw [word58_op]; omega)) ok.2

-- the words that change nothing

theorem exec_nops (core : CoreId) (s : State) :
    exec (.mxNop core 0) s = .next s ∧ exec (.vxNop core 0) s = .next s ∧ exec (.rdNop core 0) s = .next s
      ∧ exec (.xfNop core 0) s = .next s ∧ exec (.ctNop core 0) s = .next s := by
  have matrix : s.matrixAlone core (word58 0x00 0) (fun _ s => s) = s := by
    rw [State.matrixAlone, matrixWaits_others s core 0 (by decide) (by decide)]
    exact runAlone_idle s core (word58 0x00 0)
  have vector : s.vectorAlone core (word56 0x00 0) (fun _ s => s) = s := runAlone_idle ..
  have reduction : s.reductionAlone core (word58 0x00 0) = s := runAlone_idle ..
  have transfer : s.transferAlone core (word58 0x00 0) (fun _ s => s) = s := runAlone_idle s core (word58 0x00 0)
  have control : s.controlAlone core (word58 0x00 0) (fun _ s => s) = s := runAlone_idle s core (word58 0x00 0)
  exact ⟨congrArg _ matrix, congrArg _ vector, congrArg _ reduction, congrArg _ transfer, congrArg _ control⟩

/-- XF.FENCE that passes its check, whether it waits or not (R201). -/
theorem exec_xfFence_idle {core : CoreId} {args : BitVec 58} {s : State}
    (issue : s.transferIssue core (word58 0x03 args) = none) : exec (.xfFence core args) s = .next s := by
  have alone : s.transferAlone core (word58 0x03 args) (fun _ s => s) = s := by
    rw [State.transferAlone, issue, runAlone_idle, ite_self]
  exact congrArg _ alone

/-- CT.ACQR that passes its check, whether it waits or not (R145). -/
theorem exec_ctAcqr_idle {core : CoreId} {args : BitVec 58} {s : State}
    (issue : s.controlIssue core (s.core core).sq.pc (word58 0x09 args) = none) : exec (.ctAcqr core args) s = .next s := by
  have alone : s.controlAlone core (word58 0x09 args) (fun _ s => s) = s := by
    rw [controlAlone_idle issue, returnCredits_others s core (by rw [word58_op]; decide), ite_self]
  exact congrArg _ alone

/-- CT.WAITQ that passes its check (R140). -/
theorem exec_ctWaitq_idle {core : CoreId} {args : BitVec 58} {s : State}
    (issue : s.controlIssue core (s.core core).sq.pc (word58 0x08 args) = none) :
    exec (.ctWaitq core args) s = .next (if (s.controlWait core (word58 0x08 args)).isSome
      then s.returnCredits core (word58 0x08 args) else s) :=
  congrArg _ (controlAlone_idle issue)

/-- `t` is `s` but for credits of core `c` that have come back, and the draws that say how many (R136, R140). -/
structure CreditsReturned (c : Nat) (s t : State) : Prop where
  frame : t = { s with cores := t.cores, freeCtr := t.freeCtr }
  others : ∀ d, d ≠ c → t.core d = s.core d
  own : t.core c = { s.core c with queues := (t.core c).queues }
  queue : ∀ q, t.queue c q = { s.queue c q with used := (t.queue c q).used } ∧ (t.queue c q).used ≤ (s.queue c q).used

theorem CreditsReturned.refl (c : Nat) (s : State) : CreditsReturned c s s :=
  ⟨rfl, fun _ _ => rfl, rfl, fun _ => ⟨rfl, le_rfl⟩⟩

theorem modQueue_queue (s : State) (c q i : Nat) (f : Endpoint → Endpoint) :
    (s.modQueue c q f).queue c i = if i = q then f (s.queue c q) else s.queue c i := by
  unfold State.queue State.modQueue
  rw [modCore_core, if_pos rfl]
  split
  · next same => rw [same, Tbl.get_modify_self]
  · next ne => exact Tbl.get_modify_ne _ _ _ _ _ ne

theorem returnCredits_returned (s : State) (c : Nat) (w : W64) : CreditsReturned c s (s.returnCredits c w) := by
  unfold State.returnCredits
  dsimp only
  split
  · refine ⟨rfl, fun d ne => (modCore_core ..).trans (if_neg ne), ?_, fun q => ?_⟩
    · unfold State.modQueue
      rw [modCore_core, if_pos rfl]
      rfl
    · rw [modQueue_queue]
      split
      · next same => exact ⟨by rw [same]; rfl, by rw [same]; exact Nat.sub_le ..⟩
      · exact ⟨rfl, le_rfl⟩
  · exact .refl c s

/-- Settles O18: a word of the sequencer that passes its check neither waits nor faults, so that its own change of the
sequencer is what remains; the words that change nothing are idle, whether they wait or not. -/
theorem controlWordsMoveTheSequencer : Obligations.ControlWordsMoveTheSequencer := by
  unfold Obligations.ControlWordsMoveTheSequencer
  refine ⟨fun core args s => ⟨fun ok => ?_, fun ok => ?_, fun ok => ?_, fun ok => ?_, fun ok => ?_, fun ok => ?_⟩,
    exec_nops, fun core args s => ⟨exec_xfFence_idle, fun issue => ⟨fun wait => ?_, ?_⟩, exec_ctAcqr_idle⟩⟩
  · refine congrArg _ ((sequencerWords_run (by decide) ok).trans ?_)
    exact congrArg (fun q => s.setCore core { s.core core with sq := q }) (ctLoop_fields ..)
  · refine congrArg _ ((sequencerWords_run (by decide) ok).trans ?_)
    rw [← branch_target 0x02]
    rfl
  · refine congrArg _ ((sequencerWords_run (by decide) ok).trans ?_)
    rw [List.headD_eq_head?_getD]
    rfl
  · refine congrArg _ ((sequencerWords_run (by decide) ok).trans ?_)
    rw [← branch_target 0x04]
    rfl
  · refine congrArg _ ((sequencerWords_run (by decide) ok).trans ?_)
    rw [← delay_cycles]
    rfl
  · exact congrArg _ (sequencerWords_run (by decide) ok)
  · rw [exec_ctWaitq_idle issue, wait]
    rfl
  · refine ⟨_, exec_ctWaitq_idle issue, ?_⟩
    have back : CreditsReturned core s (if (s.controlWait core (word58 0x08 args)).isSome
        then s.returnCredits core (word58 0x08 args) else s) := by
      split
      · exact returnCredits_returned ..
      · exact .refl ..
    exact ⟨back.frame, back.others, back.own, back.queue⟩

-- CT.RELR

theorem modCluster_cluster (s : State) (k i : Nat) (f : Cluster → Cluster) :
    (s.modCluster k f).cluster i = if i = k then f (s.cluster k) else s.cluster i := Tbl.get_put ..

theorem modRing_ring (s : State) (k r i j : Nat) (f : Ring → Ring) :
    (s.modRing k r f).ring i j = if i = k ∧ j = r then f (s.ring k r) else s.ring i j := by
  unfold State.ring State.modRing
  rw [modCluster_cluster]
  by_cases cluster : i = k
  · subst cluster
    by_cases ring : j = r
    · subst ring
      simp
    · simp [ring, Tbl.get_modify_ne]
  · simp [cluster]

/-- CT.RELR that passes its check, of a ring other than the batch ring (R146). -/
theorem runRelr_ring (s : State) (c : Nat) {w : W64} (plain : fld w 57 52 ≠ 63) :
    s.runRelr c w = s.modRing (clusterOf c) (fld w 57 52) fun r =>
      if fld w 51 51 = 1 then { r with present := r.present ++ [r.tail], tail := (r.tail + 1) % r.slots }
      else { r with present := r.present.filter (· ≠ r.head), head := (r.head + 1) % r.slots } := by
  unfold State.runRelr State.ringPut State.ringTake
  simp only [plain, if_false]
  split <;> rfl

theorem relr_ring (args : BitVec 58) : fld (word58 0x0A args) 57 52 = (args.extractLsb' 52 6).toNat :=
  word58_field 0x0A args 52 6 (by decide) (by decide)

theorem relr_puts (args : BitVec 58) : fld (word58 0x0A args) 51 51 = 1 ↔ args.getLsbD 51 = true := by
  rw [← word58_bit 0x0A args 51 (by decide), beq_iff_eq]

/-- Settles O21: a word that passes changes one ring of its cluster. -/
theorem ringReleaseMovesHeadOrTail : Obligations.RingReleaseMovesHeadOrTail := by
  unfold Obligations.RingReleaseMovesHeadOrTail
  intro core args s w k g r runs wait issue plain
  have ring : fld w 57 52 = g := relr_ring args
  have change := runRelr_ring s core (w := w) (ring ▸ plain)
  refine ⟨s.runRelr core w, congrArg _ (controlAlone_passes runs wait issue), ?_⟩
  rw [change, ring]
  refine ⟨rfl, ?_, fun i ne => ?_, fun j ne => ?_⟩
  · rw [modRing_ring, if_pos ⟨rfl, rfl⟩]
    exact if_congr (relr_puts args) rfl rfl
  · rw [modRing_ring, if_neg fun same => ne same.2]
  · exact (modCluster_cluster ..).trans (if_neg ne)

end Sys2Proof.Machine

/-! PROOFS. The release of a stamp and the end of a step (R149, R150, R152, R242): a release of a group that is all there
changes its members' sequencers, each once, and the group's own record. -/

namespace Sys2Proof.Machine

open Sys2Proof

theorem modSq_core (s : State) (c d : Nat) (f : Sequencer → Sequencer) :
    (s.modSq c f).core d = if d = c then { s.core c with sq := f (s.core c).sq } else s.core d := modCore_core ..

/-- Steps that change cores alone change cores alone. -/
theorem foldl_onlyCores {α : Type} {f : State → α → State} (own : ∀ s a, f s a = { s with cores := (f s a).cores })
    (l : List α) (s : State) : l.foldl f s = { s with cores := (l.foldl f s).cores } := by
  induction l generalizing s with
  | nil => rfl
  | cons a l ih => rw [List.foldl_cons, ih, own]

-- the last arrival and its cause

theorem le_foldl_max {l : List Nat} {b x : Nat} (h : x ≤ b ∨ x ∈ l) : x ≤ l.foldl max b := by
  induction l generalizing b with
  | nil => simpa using h
  | cons a l ih =>
    refine ih ?_
    rcases h with le | mem
    · exact .inl (le_max_of_le_left le)
    · rcases List.mem_cons.mp mem with rfl | mem
      · exact .inl (le_max_right ..)
      · exact .inr mem

theorem arrivedAt_le_lastArrival {s : State} {e : StampEntry} {c : Nat} (mem : c ∈ e.members) :
    s.arrivedAt c ≤ s.lastArrival e := le_foldl_max (.inr (List.mem_map_of_mem mem))

/-- The lower of a core number and those before it. -/
def lowerOf (b : Option Nat) (c : Nat) : Option Nat := match b with | some d => some (min c d) | none => some c

theorem foldl_lowerOf {l : List Nat} {b m : Nat} (mem : m = b ∨ m ∈ l) (le : m ≤ b) (least : ∀ d ∈ l, m ≤ d) :
    l.foldl lowerOf (some b) = some m := by
  induction l generalizing b with
  | nil => simp_all
  | cons c l ih =>
    have head : m ≤ c := least c (List.mem_cons_self ..)
    refine ih ?_ (le_min head le) fun d hd => least d (List.mem_cons_of_mem _ hd)
    rcases mem with rfl | mem
    · exact .inl (min_eq_right head).symm
    · rcases List.mem_cons.mp mem with rfl | mem
      · exact .inl (min_eq_left le).symm
      · exact .inr mem

/-- Of the members that arrive in the last cycle, the lowest (R150). -/
theorem lastMember_least {s : State} {e : StampEntry} {m : Nat} (mem : m ∈ e.members)
    (last : s.arrivedAt m = s.lastArrival e) (least : ∀ d ∈ e.members, s.arrivedAt d = s.lastArrival e → m ≤ d) :
    s.lastMember e = some m := by
  have fold : s.lastMember e = (e.members.filter fun c => s.arrivedAt c = s.lastArrival e).foldl lowerOf none := rfl
  have listed : m ∈ e.members.filter fun c => s.arrivedAt c = s.lastArrival e := by simp [mem, last]
  have bound : ∀ d ∈ e.members.filter fun c => s.arrivedAt c = s.lastArrival e, m ≤ d := by
    intro d hd
    obtain ⟨hd, at_⟩ := List.mem_filter.mp hd
    exact least d hd (of_decide_eq_true at_)
  rw [fold]
  generalize (e.members.filter fun c => s.arrivedAt c = s.lastArrival e) = l at listed bound
  cases l with
  | nil => cases listed
  | cons b l =>
    exact foldl_lowerOf (List.mem_cons.mp listed) (bound b (List.mem_cons_self ..)) fun d hd =>
      bound d (List.mem_cons_of_mem _ hd)

theorem releaseCause_local {s : State} {e : StampEntry} {r : GroupRun} {m : Nat} (lowest : s.lastMember e = some m) :
    s.releaseCause e r none = s.arrivedCause m := by
  rw [State.releaseCause, lowest]

theorem releaseCause_remote {s : State} {e : StampEntry} {r : GroupRun} {h : HoldIn} {k : Nat} (mem : h ∈ r.remote)
    (only : ∀ h' ∈ r.remote, h'.role = h.role → h' = h) :
    s.releaseCause e r (some (h.role, k)) = if h.mark then 1 else h.cause := by
  have found : r.remote.find? (fun h' => h'.role = h.role) = some h := by
    have some : (r.remote.find? fun h' => h'.role = h.role).isSome := List.find?_isSome.mpr ⟨h, mem, by simp⟩
    obtain ⟨h', at_⟩ := Option.isSome_iff_exists.mp some
    rw [at_, only h' (List.mem_of_find?_eq_some at_) (by simpa using List.find?_some at_)]
  unfold State.releaseCause
  simp only [found]

-- the release

/-- The members of a group go on `last + P` cycles into the program, their holds counted (R149, R150). -/
def State.releaseMembers (s : State) (e : StampEntry) (cause last : Nat) : State :=
  e.members.foldl (fun (t : State) c => t.modSq c fun q => q.release (last - s.arrivedAt c) cause (last + stampPeriod e)) s

theorem releaseMembers_core {s : State} {e : StampEntry} (once : e.members.Nodup) (cause last d : Nat) :
    (s.releaseMembers e cause last).core d = if d ∈ e.members
      then { s.core d with sq := (s.core d).sq.release (last - s.arrivedAt d) cause (last + stampPeriod e) } else s.core d :=
  foldl_core (g := fun c k => { k with sq := k.sq.release (last - s.arrivedAt c) cause (last + stampPeriod e) })
    (fun _ _ _ => modSq_core ..) once s d

theorem releaseMembers_frame (s : State) (e : StampEntry) (cause last : Nat) :
    s.releaseMembers e cause last = { s with cores := (s.releaseMembers e cause last).cores } :=
  foldl_onlyCores (fun _ _ => rfl) ..

/-- The record of a group after its release (R150). -/
def State.nextGroup (s : State) (slot group : Nat) (g : GroupRun) : State :=
  s.modProg slot fun p => { p with groups := Tbl.put GroupRun.reset p.groups group ⟨g.seq + 1, g.id, [], []⟩ }

/-- A release of a group whose members, local and remote, have all arrived, none of them at a CT.STEP (R149, R242). -/
theorem releaseStamp_all {s : State} {slot group : Nat} {late : Option (Nat × Nat)} {e : StampEntry} {g : GroupRun}
    (record : Tbl.get GroupRun.reset (s.slot slot).prog.groups group = g)
    (behind : ∀ x, late = some x → 0 < x.2 ∧ ∃ h ∈ g.remote, h.role = x.1) (running : (s.slot slot).state = .running)
    (entry : (s.slot slot).group group = some e) (some_member : e.members ≠ []) (all : ∀ c ∈ e.members, c ∈ g.arrived)
    (remote : ∀ p ∈ e.peers, ∃ h ∈ g.remote, h.role = p.role)
    (stamps : ∀ c ∈ e.members, ∀ st, (s.core c).sq.stamp = some st → st.ends = false) :
    s.releaseStamp slot group late
      = (s.releaseMembers e (s.releaseCause e g late) (s.lastArrival e + (late.map Prod.snd).getD 0)).nextGroup slot group g := by
  have there : g.arrived ≠ [] := by
    obtain ⟨c, hc⟩ := List.exists_mem_of_ne_nil _ some_member
    exact List.ne_nil_of_mem (all c hc)
  have full : groupFull e g = true := by simpa [groupFull] using all
  have others : (e.peers.all fun p => g.remote.any fun h => h.role = p.role) = true := by simpa using remote
  have later (role : Nat) : lateBy g role late = late := by
    unfold lateBy
    cases late with
    | none => rfl
    | some x => 
      obtain ⟨pos, h, mem, same⟩ := behind x rfl
      rw [Option.filter_some, if_pos]
      simp only [pos, decide_true, Bool.true_or, Bool.and_true, List.any_eq_true, decide_eq_true_eq]
      exact ⟨h, mem, same⟩
  unfold State.releaseStamp
  simp only [entry, record, later]
  rw [if_neg (by simp [running, there, full, others])]
  simp only [List.foldl_map]
  refine if_pos (List.filter_eq_nil_iff.mpr fun c hc => ?_)
  split
  · next st at_ => simp [stamps c hc st at_]
  · simp

/-- A member as the release of its group leaves it (R149, R150). -/
theorem nextGroup_member {e : StampEntry} {c : Nat} (once : e.members.Nodup) (mem : c ∈ e.members) (s : State)
    (cause last slot group : Nat) (g : GroupRun) :
    (((s.releaseMembers e cause last).nextGroup slot group g).core c).sq
      = (s.core c).sq.release (last - s.arrivedAt c) cause (last + stampPeriod e) := by
  change ((s.releaseMembers e cause last).core c).sq = _
  rw [releaseMembers_core once, if_pos mem]

theorem nextGroup_group (s : State) (slot group : Nat) (g : GroupRun) :
    Tbl.get GroupRun.reset ((s.nextGroup slot group g).slot slot).prog.groups group = ⟨g.seq + 1, g.id, [], []⟩ := by
  rw [State.nextGroup, State.modProg, modSlot_slot, if_pos rfl]
  exact Tbl.get_put_self ..

theorem release_holds {q : Sequencer} {held : Nat} (cause cycle : Nat) (pos : 0 < held) :
    (q.release held cause cycle).holdCause = BitVec.ofNat 4 cause := if_pos pos

theorem endStep_here {s : State} {slot c : Nat} {f : Folio} (folio : (s.slot slot).folio = some f) (none : f.stepEntry = [])
    (mode : (s.core c).sq.mode ≠ .faulted) : s.endStep slot c
      = (s.modSq c fun q => { q with step := q.step + 1, pc := (s.core c).sq.pc }).modVx c fun u => { u with draws := [] } := by
  have entry : s.stepEntry slot c (s.core c).sq.step.toNat = some (s.core c).sq.pc := by simp [State.stepEntry, folio, none]
  simp only [State.endStep, entry, if_neg mode]

/-- Settles O20: the members of a full group leave its stamp together, `last + P` cycles into the program, and a core that
ends its step goes on at the next bundle. -/
theorem stampReleaseFreesTheMembers : Obligations.StampReleaseFreesTheMembers := by
  unfold Obligations.StampReleaseFreesTheMembers
  refine ⟨?_, ?_⟩
  · intro slot group lastRole behind s e late g last behindOf running entry some_member once all remote stamps
    have step := releaseStamp_all rfl behindOf running entry some_member all remote stamps
    refine ⟨_, congrArg Host.Outcome.next step, ?_, fun c hc => ?_, fun c hc => ?_, nextGroup_group ..⟩
    · rw [State.nextGroup, releaseMembers_frame]
      rfl
    · have upTo : s.arrivedAt c ≤ s.lastArrival e := arrivedAt_le_lastArrival hc
      rw [nextGroup_member once hc]
      refine ⟨rfl, rfl, rfl, rfl, rfl, rfl, fun now => ?_, fun m hm alone at_ least before => ?_, fun h hh from_ only => ?_⟩
      · exact if_neg (by rw [now]; simp [last])
      · have lastIs : last = s.lastArrival e := by simp [last, alone]
        rw [lastIs] at at_ least before
        rw [release_holds _ _ (by rw [alone]; simpa using before), alone,
          releaseCause_local (lastMember_least hm at_ least)]
      · obtain ⟨k, from_⟩ := from_
        have pos : 0 < k := (behindOf _ from_).1
        rw [release_holds _ _ (by rw [from_]; simp; omega), from_, releaseCause_remote hh only]
    · exact (releaseMembers_core once ..).trans (if_neg hc)
  · intro s slot c f folio none mode
    rw [endStep_here folio none mode]
    refine ⟨⟨rfl, fun d ne => ?_⟩, ?_, ?_, ?_⟩
    · exact (modCore_core ..).trans ((if_neg ne).trans ((modSq_core ..).trans (if_neg ne)))
    all_goals rw [modVx_core, modSq_core, if_pos rfl]

end Sys2Proof.Machine

/-! PROOFS. What sending flits changes (R219, R372, R378, R391): the fabric ports, the marks of requests that a link retry
delays, the units of relayed streams and the draws of free bits; a flit that is discarded is reported besides. -/

namespace Sys2Proof.Machine

open Sys2Proof

-- marks and units

theorem OnlyMarked.refl (k : Core) : OnlyMarked k k := rfl

theorem OnlyMarked.trans {i j k : Core} (h : OnlyMarked i j) (l : OnlyMarked j k) : OnlyMarked i k := by
  unfold OnlyMarked at *
  rw [l, h]

theorem OnlyMarked.sq {k j : Core} (h : OnlyMarked k j) : j.sq = k.sq := by rw [h]

theorem OnlyMarked.out {k j : Core} (h : OnlyMarked k j) : j.xf.out = k.xf.out := by rw [h]

theorem OnlyMarks.refl (s : State) : OnlyMarks s s := fun c => .refl (s.core c)

theorem OnlyMarks.trans {s t u : State} (h : OnlyMarks s t) (k : OnlyMarks t u) : OnlyMarks s u := fun c => (h c).trans (k c)

theorem OnlyMarks.of_cores {s t : State} (same : t.cores = s.cores) : OnlyMarks s t := fun c => by
  rw [State.core, State.core, same]
  exact .refl _

theorem OnlyUnits.trans {s t u : State} (h : OnlyUnits s t) (k : OnlyUnits t u) : OnlyUnits s u := fun p => by
  rw [k p, h p]

theorem OnlyUnits.of_ports {s t : State} (same : t.ports = s.ports) : OnlyUnits s t := fun p => by
  rw [State.port, same]
  rfl

theorem delay_marks (k : Core) (tag : Nat) : OnlyMarked k { k with xf := k.xf.delay tag } := by
  unfold OnlyMarked TransferUnit.delay
  split
  · split <;> rfl
  · rfl

theorem modXf_delay_marks (s : State) (c tag : Nat) : OnlyMarks s (s.modXf c fun u => u.delay tag) := fun d => by
  rw [State.modXf, modCore_core]
  split
  · next same => rw [same]; exact delay_marks ..
  · exact .refl _

-- what sending a flit changes

theorem OnlySends.refl (s : State) : OnlySends s s := ⟨rfl, .refl s, .of_ports rfl⟩

theorem OnlySends.trans {s t u : State} (h : OnlySends s t) (k : OnlySends t u) : OnlySends s u := by
  obtain ⟨frame, marks, units⟩ := h
  obtain ⟨frame', marks', units'⟩ := k
  refine ⟨?_, marks.trans marks', units.trans units'⟩
  rw [frame', frame]

theorem foldl_onlySends {α : Type} {f : State → α → State} (h : ∀ s a, OnlySends s (f s a)) (l : List α) (s : State) :
    OnlySends s (l.foldl f s) :=
  List.foldlRecOn (motive := OnlySends s) l f (.refl s) fun t ht a _ => ht.trans (h t a)

theorem modFport_onlySends (s : State) (n : Nat) (f : FabPort → FabPort) : OnlySends s (s.modFport n f) :=
  ⟨rfl, .of_cores rfl, .of_ports rfl⟩

theorem draw_onlySends (s : State) : OnlySends s s.draw.2 := ⟨rfl, .of_cores rfl, .of_ports rfl⟩

theorem freeFlit_onlySends (s : State) (i vc : Nat) : OnlySends s (s.freeFlit i vc) := by
  unfold State.freeFlit
  split
  · exact modFport_onlySends ..
  · refine ⟨rfl, .of_cores rfl, fun p => ?_⟩
    rw [modPort_port]
    split
    · next same => rw [same]; rfl
    · rfl

theorem delayOwn_onlySends (s : State) (fs : List Flit) : OnlySends s (s.delayOwn fs) := by
  refine foldl_onlySends (fun s f => ?_) fs s
  split
  · exact ⟨rfl, modXf_delay_marks s _ _, .of_ports rfl⟩
  · exact .refl s

theorem pumpFport_onlySends (s : State) (n : Nat) : OnlySends s (s.pumpFport n) :=
  ((modFport_onlySends ..).trans (foldl_onlySends (fun _ _ => freeFlit_onlySends ..) ..)).trans (delayOwn_onlySends ..)

theorem markWaited_onlySends (s : State) (f : Flit) : OnlySends s (s.markWaited f).1 := by
  unfold State.markWaited
  split
  · exact draw_onlySends s
  · exact .refl s

theorem queueFlit_onlySends (s : State) (n ingress : Nat) (f : Flit) : OnlySends s (s.queueFlit n ingress f) :=
  ((markWaited_onlySends ..).trans (modFport_onlySends ..)).trans (pumpFport_onlySends ..)

-- flits that may be discarded

/-- `t` is `s` but for what sending flits changes, discarding them and reporting that among it (R380, R389, R391). -/
structure Sends (s t : State) : Prop where
  frame : t = { s with cores := t.cores, fports := t.fports, fab := { s.fab with drop := t.fab.drop }, freeCtr := t.freeCtr
                       pages := t.pages, logs := t.logs, ports := t.ports }
  marks : OnlyMarks s t
  cmds : SameCmds s t
  expiries : ∀ p, (t.page p).tmoCount = (s.page p).tmoCount

theorem Sends.refl (s : State) : Sends s s := ⟨rfl, .refl s, .refl s, fun _ => rfl⟩

theorem Sends.trans {s t u : State} (h : Sends s t) (k : Sends t u) : Sends s u where
  frame := by rw [k.frame, h.frame]
  marks := h.marks.trans k.marks
  cmds := h.cmds.trans k.cmds
  expiries p := (k.expiries p).trans (h.expiries p)

theorem foldl_sends {α : Type} {f : State → α → State} (h : ∀ s a, Sends s (f s a)) (l : List α) (s : State) :
    Sends s (l.foldl f s) :=
  List.foldlRecOn (motive := Sends s) l f (.refl s) fun t ht a _ => ht.trans (h t a)

theorem OnlySends.sends {s t : State} (h : OnlySends s t) : Sends s t := by
  obtain ⟨frame, marks, units⟩ := h
  refine ⟨?_, marks, ⟨fun p => ?_⟩, fun p => ?_⟩
  · rw [frame]
  · rw [units p]
  · rw [frame]
    rfl

/-- An occurrence leaves the count of expired timeouts of every page. -/
theorem raise_expiries (s : State) (page bit : Nat) (detail : Bytes) (p : Nat) :
    ((s.raise page bit detail).page p).tmoCount = (s.page p).tmoCount := by
  refine raise_rel (R := fun s t => (t.page p).tmoCount = (s.page p).tmoCount) (P := fun _ => True) (fun _ => rfl)
    (fun h k => k.trans h) (fun s q bit _ => ?_) (fun _ _ _ => rfl) (fun _ _ _ => rfl) (fun _ => trivial) (fun _ => trivial)
    s page bit detail trivial
  rw [modPage_page]
  split
  · next same => rw [same]
  · rfl

theorem raise_sends (s : State) (page bit : Nat) (detail : Bytes) : Sends s (s.raise page bit detail) where
  frame := by rw [raise_reports s page bit detail]
  marks c := by rw [(raise_reports s page bit detail).core c]; exact .refl _
  cmds := raise_cmds ..
  expiries := raise_expiries s page bit detail

theorem dropFlit_sends (s : State) : Sends s s.dropFlit :=
  Sends.trans (t := { s with fab := { s.fab with drop := sat32 s.fab.drop 1 } })
    ⟨rfl, .of_cores rfl, ⟨fun _ => rfl⟩, fun _ => rfl⟩ (raise_sends ..)

theorem sendOver_sends (s : State) (r : RouteEntry) (typ vc tsf : Nat) (payload : Bytes) :
    Sends s (s.sendOver r typ vc tsf payload) := by
  unfold State.sendOver
  split
  · exact dropFlit_sends s
  · split
    · exact (queueFlit_onlySends ..).sends
    · exact .refl s

theorem sendHolds_sends (s : State) (slot c : Nat) (e : StampEntry) (r : GroupRun) (st : StampWait) :
    Sends s (s.sendHolds slot c e r st) := foldl_sends (fun _ _ => sendOver_sends ..) e.peers s

theorem sendAborts_sends (s : State) (slot : Nat) : Sends s (s.sendAborts slot) := by
  unfold State.sendAborts
  split
  · exact .refl s
  · next f _ => exact foldl_sends (fun _ _ => foldl_sends (fun _ _ => sendOver_sends ..) ..) f.stamps s

theorem Sends.core_sq {s t : State} (h : Sends s t) (c : Nat) : (t.core c).sq = (s.core c).sq := (h.marks c).sq

theorem Sends.slots {s t : State} (h : Sends s t) : t.slots = s.slots := by rw [h.frame]

theorem Sends.mem {s t : State} (h : Sends s t) : t.mem = s.mem := by rw [h.frame]

end Sys2Proof.Machine

/-! PROOFS. Flits that are taken and go on (R138, R242, R243, R371, R375, R376, R378, R380, R386 to R388): a flit of the link's
sequence reaches its row's own work, a flit that is queued is on its port until it is acknowledged. -/

namespace Sys2Proof.Machine

open Sys2Proof

theorem modFport_fport (s : State) (p q : Nat) (f : FabPort → FabPort) :
    (s.modFport p f).fport q = if q = p then f (s.fport p) else s.fport q := by
  unfold State.modFport State.fport
  split
  · next same => rw [same, Tbl.get_modify_self]
  · next other => rw [Tbl.get_modify_ne _ _ _ _ _ other]

-- taking a flit

/-- `t` is `s` but for its fabric ports. -/
def OnlyFports (s t : State) : Prop := t = { s with fports := t.fports }

theorem OnlyFports.trans {s t u : State} (h : OnlyFports s t) (k : OnlyFports t u) : OnlyFports s u := by
  unfold OnlyFports at *
  rw [k, h]

theorem OnlyFports.reports {s t u : State} (h : OnlyFports s t) (k : OnlyReports t u) :
    u = { s with fports := u.fports, pages := u.pages, logs := u.logs, ports := u.ports } := by
  unfold OnlyFports at h
  rw [k, h]

/-- Port `n` after it has taken a flit of channel `vc`, whose buffer entry is free again (R370, R371). -/
def State.taken (s : State) (n : FPort) (vc : Nat) : State := (s.acceptFlit n).freeFlit n vc

theorem OnlyFports.cores {s t u v : State} (h : OnlyFports s t) (k : u = { t with cores := u.cores })
    (l : v = { u with cores := v.cores }) : v = { s with fports := v.fports, cores := v.cores } := by
  unfold OnlyFports at h
  rw [l, k, h]

theorem modFport_frame (s : State) (n : Nat) (f : FabPort → FabPort) : OnlyFports s (s.modFport n f) := rfl

theorem taken_frame (s : State) (n : FPort) (vc : Nat) : OnlyFports s (s.taken n vc) := by
  unfold State.taken State.freeFlit
  rw [if_pos n.isLt]
  rfl

theorem freeFlit_port (s : State) {i : Nat} (vc : Nat) (fabric : i < 64) :
    s.freeFlit i vc = s.modFport i fun p => { p with freed := Tbl.modify 0 p.freed vc fun n => n + 1 } := if_pos fabric

/-- The next flit of a link's sequence, of a known type and at its last hop, does its row's work. -/
theorem receive_takes {s : State} {n : FPort} {f : Flit} {typ : BitVec 8} {act : State → State} (takes : Takes s n f typ) :
    s.receive n { f with typ := typ } act = act (s.taken n f.vc.toNat) := by
  obtain ⟨up, next, known, last⟩ := takes
  unfold State.receive
  rw [if_neg (not_not_intro up), if_neg (not_not_intro next)]
  dsimp only
  rw [if_neg (not_not_intro known), if_pos last]
  rfl

theorem taken_fport (s : State) (n : FPort) (vc q : Nat) : (s.taken n vc).fport q =
    { s.fport q with rxNext := ((s.taken n vc).fport q).rxNext, rxAny := ((s.taken n vc).fport q).rxAny
                     nak := ((s.taken n vc).fport q).nak, freed := ((s.taken n vc).fport q).freed } := by
  rw [State.taken, freeFlit_port _ _ n.isLt, modFport_fport, State.acceptFlit, modFport_fport, modFport_fport]
  split
  · next same => rw [if_pos rfl, same]
  · rfl

-- a queued flit is on its port

/-- The port holds a flit: it waits on its channel, or was sent and waits for its acknowledgement (R371, R378). -/
def FabPort.Holds (p : FabPort) (f : Flit) : Prop :=
  ∃ x, ((∃ i, (i, x) ∈ p.queue f.vc.toNat) ∨ x ∈ p.retry) ∧ { x with lseq := f.lseq, mark := f.mark, waited := f.waited } = f

theorem flitQueued_iff_holds (s : State) (n : Nat) (f : Flit) : FlitQueued s n f ↔ (s.fport n).Holds f := Iff.rfl

theorem markStarved_holds {p : FabPort} {f : Flit} (h : p.Holds f) : p.markStarved.Holds f := by
  obtain ⟨x, place, same⟩ := h
  unfold FabPort.markStarved
  split
  · exact ⟨x, place, same⟩
  · rcases place with ⟨i, waits⟩ | sent
    · by_cases vc0 : f.vc.toNat = 0
      · refine ⟨{ x with mark := true }, .inl ⟨i, ?_⟩, same⟩
        rw [vc0] at waits ⊢
        rw [FabPort.queue, Tbl.get_modify_self]
        exact List.mem_map_of_mem (f := fun e : Nat × Flit => (e.1, { e.2 with mark := true })) waits
      · refine ⟨x, .inl ⟨i, ?_⟩, same⟩
        rw [FabPort.queue, Tbl.get_modify_ne _ _ _ _ _ vc0]
        exact waits
    · exact ⟨x, .inr sent, same⟩

theorem countWait_holds {p : FabPort} {f : Flit} (n : Nat) (h : p.Holds f) : (p.countWait n).Holds f := by
  unfold FabPort.countWait
  split <;> exact h

theorem sendHead_holds {p : FabPort} {f : Flit} (vc w1 w2 : Nat) (h : p.Holds f) : (p.sendHead vc w1 w2).1.Holds f := by
  obtain ⟨x, place, same⟩ := h
  unfold FabPort.sendHead
  split
  · exact ⟨x, place, same⟩
  · next i g rest head =>
    rcases place with ⟨j, waits⟩ | sent
    · by_cases own : f.vc.toNat = vc
      · rw [own, head, List.mem_cons] at waits
        rcases waits with first | later
        · obtain ⟨-, rfl⟩ := Prod.mk.inj first
          exact ⟨_, .inr (List.mem_append_right _ (List.mem_singleton_self _)), same⟩
        · refine ⟨x, .inl ⟨j, ?_⟩, same⟩
          rw [FabPort.queue, own, Tbl.get_put_self]
          exact later
      · refine ⟨x, .inl ⟨j, ?_⟩, same⟩
        rw [FabPort.queue, Tbl.get_put_ne _ _ _ _ _ own]
        exact waits
    · exact ⟨x, .inr (List.mem_append_left _ sent), same⟩

theorem pump_holdsFlit {p : FabPort} {f : Flit} (n w1 w2 : Nat) (acc : List (Nat × Nat)) (h : p.Holds f) :
    (FabPort.pump n p w1 w2 acc).1.Holds f := by
  induction n generalizing p acc with
  | zero => exact h
  | succ n ih =>
    have marked := markStarved_holds h
    unfold FabPort.pump
    dsimp only
    split
    · exact marked
    · split
      · exact marked
      · next vc _ =>
        have sent := sendHead_holds vc w1 w2 (countWait_holds 1 marked)
        split
        · next at_ => rwa [at_] at sent
        · next at_ => rw [at_] at sent; exact ih _ sent

theorem freeFlit_queued {s : State} {n : Nat} {f : Flit} (i vc : Nat) (h : FlitQueued s n f) :
    FlitQueued (s.freeFlit i vc) n f := by
  unfold State.freeFlit
  split
  · rw [flitQueued_iff_holds, modFport_fport]
    split
    · next same => rw [same] at h; exact h
    · exact h
  · exact h

theorem delayOwn_fports (s : State) (fs : List Flit) : (s.delayOwn fs).fports = s.fports := by
  refine List.foldlRecOn (motive := fun t : State => t.fports = s.fports) fs _ rfl fun t same f _ => ?_
  split
  · exact same
  · exact same

theorem pumpFport_queued {s : State} {n : Nat} {f : Flit} (h : FlitQueued s n f) : FlitQueued (s.pumpFport n) n f := by
  unfold State.pumpFport
  dsimp only
  rw [flitQueued_iff_holds, State.fport, delayOwn_fports]
  refine List.foldlRecOn (motive := fun t => FlitQueued t n f) _ _ ?_ fun t ht _ _ => freeFlit_queued _ _ ht
  rw [flitQueued_iff_holds, modFport_fport, if_pos rfl]
  exact pump_holdsFlit _ _ _ _ h

/-- A flit that is queued on an UP port is there until its acknowledgement. -/
theorem queueFlit_queued (s : State) (n ingress : Nat) (f : Flit) : FlitQueued (s.queueFlit n ingress f) n f := by
  refine pumpFport_queued ⟨(s.markWaited f).2, .inl ⟨ingress, ?_⟩, ?_⟩
  · rw [modFport_fport, if_pos rfl, FabPort.queue, Tbl.get_modify_self]
    exact List.mem_append_right _ (List.mem_singleton_self _)
  · unfold State.markWaited
    split <;> rfl

theorem acceptFlit_state (s : State) (n q : Nat) : ((s.acceptFlit n).fport q).state = (s.fport q).state := by
  rw [State.acceptFlit, modFport_fport]
  split
  · next same => rw [same]
  · rfl

theorem receive_forwards {s : State} {n : FPort} {f : Flit} (up : (s.fport n).state = .up) (next : f.lseq = (s.fport n).rxNext)
    (known : vcOfType f.typ = some f.vc.toNat) (transit : ¬ (f.hops = 0 ∨ f.hopidx.toNat + 1 = f.hops.toNat))
    (valid : s.fab.idValid = true) (egressUp : (s.fport (f.route.toNat / 2 ^ (6 * f.hopidx.toNat) % 64)).state = .up) :
    s.receive n f id = (s.acceptFlit n).queueFlit (f.route.toNat / 2 ^ (6 * f.hopidx.toNat) % 64) n
      { flitWithRet f n with hopidx := f.hopidx + 1 } := by
  have hop : BitVec.ofNat 3 (f.hopidx.toNat + 1) = f.hopidx + 1 := by bv_omega
  unfold State.receive
  rw [if_neg (not_not_intro up), if_neg (not_not_intro next)]
  dsimp only
  rw [if_neg (not_not_intro known), if_neg transit]
  unfold State.forwardFlit
  dsimp only
  rw [Nat.add_sub_cancel, hop, acceptFlit_state]
  exact if_pos ⟨valid, egressUp⟩

-- fields of a payload

theorem leNat_lt (b : Bytes) : leNat b < 256 ^ b.length := by
  induction b with
  | nil => exact Nat.one_pos
  | cons x b ih =>
    have byte := x.isLt
    rw [leNat, List.length_cons, pow_succ]
    omega

theorem fldAt_lt (b : Bytes) (o n : Nat) : fldAt b o n < 256 ^ n :=
  (leNat_lt _).trans_le (Nat.pow_le_pow_right (by decide) (List.length_take_le ..))

-- entries of a queue stream

/-- The stream of a flit on its port, as it stands before the flit (R375). -/
def FabPort.streamOf (p : FabPort) (f : Flit) : QStream :=
  (p.streams.find? fun q => decide (q.src = f.src.toNat) && decide (q.core = bits f.tsf.toNat 15 8)
    && decide (q.qep = bits f.tsf.toNat 17 16 + 8)).getD
      ⟨f.src.toNat, bits f.tsf.toNat 15 8, bits f.tsf.toNat 17 16 + 8, [], none, false, 0⟩

theorem settleWait_frame (s : State) (c q : Nat) (mark : Bool) : OnlyCore c s (s.settleWait c q mark) := by
  have waited (s : State) (f : Endpoint → Endpoint) : OnlyCore c s (s.modQueue c q f) :=
    ⟨rfl, fun d ne => (modCore_core ..).trans (if_neg ne)⟩
  unfold State.settleWait
  dsimp only
  split
  · refine ⟨rfl, fun d ne => ?_⟩
    rw [modCore_core, if_neg ne, (waited ..).2 d ne]
  · exact waited ..

theorem settleWait_entries (s : State) (c q : Nat) (mark : Bool) :
    ((s.settleWait c q mark).queue c q).entries = (s.queue c q).entries := by
  unfold State.settleWait
  dsimp only
  split
  · rw [State.queue, modCore_core, if_pos rfl]
    exact (congrArg Endpoint.entries (modQueue_queue ..)).trans (by rw [if_pos rfl])
  · rw [modQueue_queue, if_pos rfl]

/-- An entry that is complete joins its endpoint where that is bound (R138, R375, R376). -/
theorem takeQueueData_joins {s : State} {n : Nat} {f : Flit} {e : QEntry}
    (entry : (((s.fport n).streamOf f).take f).2 = some e)
    (bound : (s.queue (bits f.tsf.toNat 15 8) (bits f.tsf.toNat 17 16 + 8)).bound = true) :
    ∃ g, s.takeQueueData n f = ((s.modFport n g).settleWait (bits f.tsf.toNat 15 8) (bits f.tsf.toNat 17 16 + 8) e.mark).modQueue
      (bits f.tsf.toNat 15 8) (bits f.tsf.toNat 17 16 + 8)
      fun x => Endpoint.mark (bits f.tsf.toNat 17 16 + 8) { x with entries := x.entries ++ [e] } := by
  unfold FabPort.streamOf at entry
  unfold State.takeQueueData
  dsimp only
  generalize List.find? _ _ = found at entry ⊢
  cases found with
  | none =>
    rw [Option.getD_none] at entry
    simp only [entry]
    exact ⟨_, if_pos bound⟩
  | some q =>
    rw [Option.getD_some] at entry
    simp only [entry]
    exact ⟨_, if_pos bound⟩

theorem holdSlot_congr {s t : State} (same : t.slots = s.slots) (src role group : Nat) :
    t.holdSlot src role group = s.holdSlot src role group := by
  unfold State.holdSlot
  rw [same]

/-- A group's record with the arrival that a HOLD reports (R243). -/
def heardFrom (r : GroupRun) (f : Flit) : GroupRun :=
  { r with id := BitVec.ofNat 12 (fldAt f.payload 2 2)
           remote := r.remote ++ [⟨fldAt f.payload 8 2 % 4096, fldAt f.payload 7 1 % 16, f.mark⟩] }

/-- A HOLD that its module awaits is recorded (R242, R243). -/
theorem takeHold_records {s : State} {f : Flit} {i : Nat} {e : StampEntry}
    (slot : s.holdSlot f.src.toNat (fldAt f.payload 8 2 % 4096) (fldAt f.payload 0 2 % 1024) = some i)
    (group : (s.slot i).group (fldAt f.payload 0 2 % 1024) = some e) (noAbort : fldAt f.payload 6 1 / 4 % 2 = 0)
    (peer : ∃ p ∈ e.peers, p.role = fldAt f.payload 8 2 % 4096) {r : GroupRun}
    (record : Tbl.get GroupRun.reset (s.slot i).prog.groups (fldAt f.payload 0 2 % 1024) = r)
    (seq : BitVec.ofNat 16 (fldAt f.payload 4 2) = r.seq)
    (id : r.arrived = [] ∧ r.remote = [] ∨ r.id = BitVec.ofNat 12 (fldAt f.payload 2 2)) :
    s.takeHold f = s.modProg i fun p => { p with groups := Tbl.put GroupRun.reset p.groups (fldAt f.payload 0 2 % 1024) (heardFrom r f) } := by
  have known : (e.peers.any fun p => p.role = fldAt f.payload 8 2 % 4096) = true := by simpa using peer
  unfold State.takeHold
  simp only [slot, noAbort, record, group, known, seq]
  rw [if_neg (by decide), if_neg]
  · rfl
  · rcases id with ⟨none, none'⟩ | same
    · simp [none, none']
    · simp [same]

-- the partner of a port

/-- The partner as a call slip tells it (R386). -/
def slipCaller (f : Flit) : Neighbour :=
  { serial := BitVec.ofNat 64 (fldAt f.payload 0 8), device := BitVec.ofNat 12 (fldAt f.payload 32 2)
    idValid := decide (fldAt f.payload 32 2 / 4096 % 2 = 1), port := BitVec.ofNat 6 (fldAt f.payload 34 1)
    mstate := BitVec.ofNat 4 (fldAt f.payload 35 1), epoch := BitVec.ofNat 32 (fldAt f.payload 36 4) }

theorem caller_fields (f : Flit) : (slipCaller f).serial.toNat = fldAt f.payload 0 8
    ∧ (slipCaller f).device.toNat = fldAt f.payload 32 2 % 4096 ∧ (slipCaller f).port.toNat = fldAt f.payload 34 1 % 64 :=
  ⟨Nat.mod_eq_of_lt (fldAt_lt f.payload 0 8), rfl, rfl⟩

/-- What a call slip tells of its port's timing and root (R387). -/
def State.slipOf (s : State) (n : Nat) (f : Flit) : SlipRec :=
  { tx := BitVec.ofNat 64 (fldAt f.payload 8 8), echoTx := BitVec.ofNat 64 (fldAt f.payload 16 8)
    echoRx := BitVec.ofNat 64 (fldAt f.payload 24 8), arrival := (s.dieLedger (n / 32)).now
    rootId := BitVec.ofNat 12 (fldAt f.payload 40 2), dist := BitVec.ofNat 4 (fldAt f.payload 40 2 / 4096)
    ldg := BitVec.ofNat 3 (fldAt f.payload 42 1) }

/-- A port that has taken a call slip. -/
def State.slipped (s : State) (n : Nat) (f : Flit) : State :=
  s.modFport n fun p => { p with nb := some (slipCaller f), slip := some (s.slipOf n f) }

theorem slipped_frame (s : State) (n : Nat) (f : Flit) : OnlyFports s (s.slipped n f) := rfl

theorem slipped_nb (s : State) (n : Nat) (f : Flit) : ((s.slipped n f).fport n).nb = some (slipCaller f) := by
  rw [State.slipped, modFport_fport, if_pos rfl]

theorem OnlyReports.fport {s t : State} (h : OnlyReports s t) (p : Nat) : t.fport p = s.fport p := by
  rw [h]
  rfl

/-- The first call slip on a port records the partner and is reported (R386 to R388). -/
theorem takeSlip_first {s : State} {n : Nat} {f : Flit} (first : (s.fport n).nb = none) :
    ∃ t, s.takeSlip n f = t.raise0 (fportPage n) 2 ∧ OnlyReports (s.slipped n f) t := by
  unfold State.takeSlip
  simp only [first]
  exact ⟨_, rfl, (ite_reports (raise0_reports ..) (.refl _)).trans (ite_reports (raise0_reports ..) (.refl _))⟩

theorem taken_streamOf (s : State) (n : FPort) (vc q : Nat) (f : Flit) :
    ((s.taken n vc).fport q).streamOf f = (s.fport q).streamOf f := by
  rw [taken_fport]
  rfl

theorem taken_core (s : State) (n : FPort) (vc c : Nat) : (s.taken n vc).core c = s.core c := by
  rw [taken_frame]
  rfl

theorem taken_slot (s : State) (n : FPort) (vc i : Nat) : (s.taken n vc).slot i = s.slot i := by
  rw [taken_frame]
  rfl

/-- Settles O33: the flit joins its link's sequence, and its row's work changes the endpoint, the group, the egress or the
partner's record alone. -/
theorem streamsHoldsAndRoutesGoOn : Obligations.StreamsHoldsAndRoutesGoOn := by
  unfold Obligations.StreamsHoldsAndRoutesGoOn
  refine ⟨?_, ?_, ?_, ?_⟩
  · intro port flit s e c qep same q takes entry bound
    have queue : (s.taken port flit.vc.toNat).queue c qep = s.queue c qep := by rw [State.queue, taken_core]; rfl
    obtain ⟨g, joins⟩ := takeQueueData_joins (s := s.taken port flit.vc.toNat) (n := port) (f := flit)
      (by rw [taken_streamOf]; exact entry) (by rw [queue]; exact bound)
    obtain ⟨frame, cores⟩ := settleWait_frame ((s.taken port flit.vc.toNat).modFport port g) c qep e.mark
    refine ⟨_, congrArg Host.Outcome.next ((receive_takes takes).trans joins), ?_, ?_, fun d ne => ?_⟩
    · exact ((taken_frame ..).trans (modFport_frame ..)).cores frame rfl
    · rw [modQueue_queue, if_pos rfl]
      exact congrArg (· ++ [e]) ((settleWait_entries ..).trans (congrArg Endpoint.entries queue))
    · exact (modCore_core ..).trans ((if_neg ne).trans ((cores d ne).trans (taken_core ..)))
  · intro port flit s i e g role r id takes slot group noAbort peer seq known
    have records := takeHold_records (s := s.taken port flit.vc.toNat) (r := r)
      ((holdSlot_congr (by rw [taken_frame]) ..).trans slot) (by rw [taken_slot]; exact group) noAbort peer
      (by rw [taken_slot]) seq known
    refine ⟨_, congrArg Host.Outcome.next ((receive_takes takes).trans records), ?_, ?_⟩
    · rw [taken_frame]
      rfl
    · rw [State.modProg, modSlot_slot, if_pos rfl]
      exact Tbl.get_put_self ..
  · intro port flit s egress up next known transit valid egressUp
    have transit' : ¬ (flit.hops = 0 ∨ flit.hopidx.toNat + 1 = flit.hops.toNat) := by
      rintro (h | h)
      · simp [h] at transit
      · omega
    refine ⟨_, congrArg Host.Outcome.next ((if_neg transit').trans (receive_forwards up next known transit' valid egressUp)),
      (modFport_onlySends ..).trans (queueFlit_onlySends ..), queueFlit_queued ..⟩
  · intro port flit s takes first
    obtain ⟨t, slip, reports⟩ := takeSlip_first (s := s.taken port flit.vc.toNat) (n := port) (f := flit)
      (by rw [taken_fport]; exact first)
    have frame := reports.trans (raise0_reports t (fportPage port) 2)
    obtain ⟨serial, device, fport⟩ := caller_fields flit
    refine ⟨_, slipCaller flit, congrArg Host.Outcome.next ((receive_takes takes).trans slip), ?_, ?_, serial, device, fport,
      raise0_sets _ _ _ (by decide)⟩
    · exact ((taken_frame ..).trans (slipped_frame ..)).reports frame
    · rw [frame.fport, slipped_nb]

end Sys2Proof.Machine

/-! PROOFS. One engine cycle of a core without descriptors (R127 to R131, R148, R149, R158): a cycle at a stamp, of a delay, of a
bundle without unit words. -/

namespace Sys2Proof.Machine

open Sys2Proof

-- the cycle of a core without descriptors

theorem OnlyCore.trans {c : Nat} {s t u : State} (h : OnlyCore c s t) (k : OnlyCore c t u) : OnlyCore c s u := by
  obtain ⟨frame, cores⟩ := h
  obtain ⟨frame', cores'⟩ := k
  refine ⟨?_, fun d ne => (cores' d ne).trans (cores d ne)⟩
  rw [frame', frame]

theorem OnlyCore.refl (c : Nat) (s : State) : OnlyCore c s s := ⟨rfl, fun _ _ => rfl⟩

theorem modCore_onlyCore (s : State) (c : Nat) (f : Core → Core) : OnlyCore c s (s.modCore c f) :=
  ⟨rfl, fun _ ne => (modCore_core ..).trans (if_neg ne)⟩

theorem modSq_onlyCore (s : State) (c : Nat) (f : Sequencer → Sequencer) : OnlyCore c s (s.modSq c f) := modCore_onlyCore ..

theorem modSq_self (s : State) (c : Nat) (f : Sequencer → Sequencer) :
    (s.modSq c f).core c = { s.core c with sq := f (s.core c).sq } := (modSq_core ..).trans (if_pos rfl)

/-- Without descriptors no queue moves. -/
theorem queueCycle_idle {s : State} {c : Nat} (none : (s.core c).xf.out = []) : s.queueCycle c = (s, []) := by
  unfold State.queueCycle
  simp [List.range_succ, none]

/-- No request of the core waits at a shelf (R525). -/
theorem countShelfWaits_idle {s : State} {c : Nat} (free : ∀ k ∈ s.clusters, c ∉ k.2.delayed ∧ c ∉ k.2.behind) :
    s.countShelfWaits c = s := by
  have delayed : (s.clusters.any fun k => k.2.delayed.contains c) = false := by simpa using fun k v h => (free (k, v) h).1
  have behind : (s.clusters.any fun k => k.2.behind.contains c) = false := by simpa using fun k v h => (free (k, v) h).2
  simp only [State.countShelfWaits, delayed, behind, Bool.false_eq_true, if_false]

/-- What a running core without descriptors does in one engine cycle (R127). -/
def State.idleCycle (s : State) (c : Nat) (w : UnitWaits) : State :=
  if (s.core c).sq.stamp.isSome || (s.core c).sq.halted then (s.passCycle c).reachPlan c
  else if 0 < (s.core c).sq.delay then
    if (s.core c).sq.planned then (s.modSq c fun q => { q with delay := q.delay - 1 }).passCycle c
    else (s.modSq c fun q => { q with delay := q.delay - 1 }).heldCycle c
  else s.offerBundle c w

theorem bundleCycle_idle {s : State} {c : Nat} (w : UnitWaits) (runs : s.runs c = true) (run : (s.core c).sq.run = true)
    (recovering : (s.cluster (clusterOf c)).recovering = false) (none : (s.core c).xf.out = [])
    (free : ∀ k ∈ s.clusters, c ∉ k.2.delayed ∧ c ∉ k.2.behind) : s.bundleCycle c w = s.idleCycle c w := by
  unfold State.bundleCycle
  rw [countShelfWaits_idle free, queueCycle_idle none]
  simp [runs, run, recovering, State.countBlocked, State.idleCycle]

-- a cycle at a stamp or of a delay

theorem passCycle_core (s : State) (c : Nat) : (s.passCycle c).core c = { s.core c with sq := (s.core c).sq.passed 1 } :=
  modSq_self ..

/-- Before S reaches PLAN, and after the core's arrival, a cycle is counted and nothing else (R148, R149). -/
theorem reachPlan_early {s : State} {c : Nat}
    (early : ∀ st, (s.core c).sq.stamp = some st → st.arrived = true ∨ (s.core c).sq.s < st.plan) : s.reachPlan c = s := by
  unfold State.reachPlan
  split
  · next st at_ =>
    split
    · next there =>
      have arrived := (early st at_).resolve_right (by omega)
      unfold State.arrive
      split
      · next st' slot at_' _ =>
        obtain rfl : st = st' := Option.some.inj (at_.symm.trans at_')
        exact if_pos arrived
      · rfl
    · rfl
  · rfl

/-- A cycle without an issue, short of the watchdog's limit (R158). -/
theorem heldCycle_short {s : State} {c : Nat} (short : (s.core c).sq.idle + 1 < s.watchdogLimit c) :
    s.heldCycle c = s.modSq c fun q => { q.passed 1 with idle := q.idle + 1 } := by
  unfold State.heldCycle
  dsimp only
  rw [modSq_self]
  exact if_neg (Nat.not_le.mpr short)

-- the arrival

/-- A stamp at which the core has arrived (R149). -/
def Sequencer.reached (q : Sequencer) (st : StampWait) : StampWait :=
  { st with arrived := true, cause := arrivalCause st q.devSince, time := q.cycle }

/-- The arrival of a core, before any HOLD is sent (R149). -/
def State.noteArrival (s : State) (c slot : Nat) (st : StampWait) : State :=
  (s.modSq c fun q => { q with stamp := some (q.reached st) }).modProg slot fun p =>
    { p with groups := Tbl.modify GroupRun.reset p.groups st.group fun r => { r with id := st.id, arrived := r.arrived ++ [c] } }

/-- A core arrives at a group that awaits no other module: the arrival is noted, and HOLD flits may be sent (R149). -/
theorem arrive_sends {s : State} {c i : Nat} {st : StampWait} (at_ : (s.core c).sq.stamp = some st) (slot : s.slotOf c = some i)
    (fresh : st.arrived = false) (alone : (Tbl.get GroupRun.reset (s.slot i).prog.groups st.group).remote = []) :
    Sends (s.noteArrival c i st) (s.arrive c) := by
  unfold State.arrive
  rw [at_, slot]
  dsimp only
  rw [if_neg (by simp [fresh]), if_neg (fun h => h.1 alone)]
  split
  · split
    · exact sendHolds_sends ..
    · exact .refl _
  · exact .refl _

theorem noteArrival_sq (s : State) (c i : Nat) (st : StampWait) :
    ((s.noteArrival c i st).core c).sq = { (s.core c).sq with stamp := some ((s.core c).sq.reached st) } := by
  change ((s.modSq c fun q => { q with stamp := some (q.reached st) }).core c).sq = _
  rw [modSq_self]

theorem noteArrival_arrived (s : State) (c i : Nat) (st : StampWait) :
    c ∈ (Tbl.get GroupRun.reset ((s.noteArrival c i st).slot i).prog.groups st.group).arrived := by
  rw [State.noteArrival, State.modProg, modSlot_slot, if_pos rfl, Tbl.get_modify_self]
  exact List.mem_append_right _ (List.mem_singleton_self c)

theorem reachPlan_arrives {s : State} {c : Nat} {st : StampWait} (at_ : (s.core c).sq.stamp = some st)
    (due : st.plan ≤ (s.core c).sq.s) : s.reachPlan c = s.arrive c := by
  unfold State.reachPlan
  rw [at_]
  exact if_pos due

-- a bundle without unit words

/-- The engine cycles for which the units hold a bundle (R80, R110, R117, R134). -/
def longestWait (w : UnitWaits) : Nat := max (max (max w.mx w.vx) (max w.rd w.other)) w.link

/-- A word of 0 is a NOP, which reads and writes no memory (R134). -/
theorem granuleWaits_nops (s : State) (c : Nat) : s.granuleWaits c 0 0 0 0 = false := by
  have none (l : List (Nat × Nat)) : overlap 64 [] l = false := rfl
  have matrix : s.matrixSpans c 0 = ([], []) := rfl
  have vector : s.vectorSpans c 0 = ([], []) := rfl
  have reduction : s.reductionSpans c 0 = ([], []) := rfl
  have transfer : s.transferSpans c 0 = ([], []) := rfl
  unfold State.granuleWaits
  simp only [matrix, vector, reduction, transfer, List.filter_nil, none, Bool.or_self, Bool.and_false]
  exact ite_self _

/-- A bundle whose only word is a control word that waits for nothing does not wait. -/
theorem bundleWaits_control {s : State} {c : Nat} {ws : List (Nat × W64)} (n : Nat)
    (units : ∀ b, 60 ≤ b → slotWord ws b = 0) (free : s.controlWait c (slotWord ws 59) = none) :
    s.ringAwaits c ws = [] ∧ s.bundleWaits c ws n = (s, false) := by
  have matrix : s.matrixWaits c 0 = false := by unfold State.matrixWaits; split <;> rfl
  have transfer : s.transferWait c 0 = none := rfl
  have rings : s.ringAwaits c ws = [] := by
    unfold State.ringAwaits
    rw [units 60 (by decide), free, transfer]
    rfl
  refine ⟨rings, ?_⟩
  unfold State.bundleWaits
  rw [units 63 (by decide), units 62 (by decide), units 61 (by decide), units 60 (by decide)]
  simp only [free, transfer, matrix, rings, granuleWaits_nops]
  rfl

/-- Such a bundle is issued once the units let it (R127). -/
theorem offerBundle_control {s : State} {c : Nat} (w : UnitWaits) (fetched : (s.core c).sq.fetchFault (s.core c).sq.pc = none)
    (units : ∀ b, 60 ≤ b → slotWord ((s.core c).sq.bundle (s.core c).sq.pc) b = 0)
    (free : s.controlWait c (slotWord ((s.core c).sq.bundle (s.core c).sq.pc) 59) = none)
    (credits : s.returnCredits c (slotWord ((s.core c).sq.bundle (s.core c).sq.pc) 59) = s) :
    s.offerBundle c w = (s.countWaits c w).issueBundle c (s.core c).sq.pc ((s.core c).sq.bundleLen (s.core c).sq.pc)
      ((s.core c).sq.bundle (s.core c).sq.pc) := by
  obtain ⟨rings, waits⟩ := bundleWaits_control 1 units free
  unfold State.offerBundle
  simp only [fetched, credits, waits, State.pastPatience, rings, List.find?_nil, Option.map_none]

theorem countWaits_sq (s : State) (c : Nat) (w : UnitWaits) :
    OnlyCore c s (s.countWaits c w) ∧ ∃ d e m, ((s.countWaits c w).core c).sq
        = { (s.core c).sq with dev := d, devSince := e, s := m, cycle := (s.core c).sq.cycle + longestWait w }
      ∧ m % 2 ^ 24 = ((s.core c).sq.s + longestWait w) % 2 ^ 24 := by
  unfold State.countWaits
  dsimp only
  split
  · next idle =>
    have none : longestWait w = 0 := by unfold longestWait; omega
    exact ⟨.refl .., _, _, _, by rw [none]; rfl, by rw [none]; rfl⟩
  · refine ⟨modCore_onlyCore .., ?_⟩
    rw [modCore_core, if_pos rfl]
    simp only [Sequencer.passed, Core.countDev, longestWait]
    exact ⟨_, _, _, rfl, Nat.mod_mod ..⟩

-- the issue of such a bundle

theorem modSq_runs {s : State} {c : Nat} {f : Sequencer → Sequencer} (mode : ∀ q, (f q).mode = q.mode)
    (runs : s.runs c = true) : (s.modSq c f).runs c = true := by
  rw [State.runs, modSq_self, mode]
  exact runs

/-- A bundle issues: the counts of cycles without an issue and at a ring end (R145, R158). -/
def Sequencer.issued (q : Sequencer) : Sequencer := { q with idle := 0, ringWait := 0 }

/-- A bundle without a word follows the loop rule (R130). -/
theorem issueBundle_empty {s : State} {c : Nat} (p len : Nat) (runs : s.runs c = true) :
    s.issueBundle c p len [] = ((s.modSq c Sequencer.issued).modSq c fun q => q.follow p len).passCycle c := by
  have still : ((s.modSq c Sequencer.issued).modSq c fun q => q.follow p len).runs c = true :=
    modSq_runs (fun _ => rfl) (modSq_runs (fun _ => rfl) runs)
  exact if_pos still

/-- CT.JUMP passes its check at issue (R129). -/
theorem slotIssue_jump {w : W64} (op : fld w 63 58 = 0x04) (clear : w.toNat % 2 ^ 43 = 0) (s : State) (c p : Nat) :
    s.slotIssue c p 59 w = none := by
  change (s.controlIssue c p w).map IssueFault.sequencer = none
  unfold State.controlIssue
  simp only [op, controlRsvd, clear, ne_eq, not_true_eq_false, if_false, Option.map_none, -Nat.reducePow]

theorem slotRun_jump {w : W64} (op : fld w 63 58 = 0x04) (s : State) (c p len : Nat) (o : WordAt) :
    s.slotRun c p len 59 w o = (s.modSq c fun q => q.follow p len).modSq c fun q => q.runJump w := by
  unfold State.slotRun
  dsimp only
  rw [if_neg (by omega), State.controlRun, op]
  rfl

/-- A bundle of CT.JUMP replaces the continuation (R130). -/
theorem issueBundle_jump {s : State} {c : Nat} {w : W64} (p len : Nat) (runs : s.runs c = true) (op : fld w 63 58 = 0x04)
    (clear : w.toNat % 2 ^ 43 = 0) : s.issueBundle c p len [(59, w)] =
      (((s.modSq c Sequencer.issued).modSq c fun q => q.follow p len).modSq c fun q => q.runJump w).passCycle c := by
  have first : (s.modSq c Sequencer.issued).runs c = true := modSq_runs (fun _ => rfl) runs
  have still : (((s.modSq c Sequencer.issued).modSq c fun q => q.follow p len).modSq c fun q => q.runJump w).runs c = true :=
    modSq_runs (fun _ => rfl) (modSq_runs (fun _ => rfl) first)
  have control : ([(59, w)] : List (Nat × W64)).any (fun e => e.1 = 59) = true := rfl
  have start : (s.modSq c fun q => { q with idle := 0, ringWait := 0 }) = s.modSq c Sequencer.issued := rfl
  unfold State.issueBundle
  dsimp only
  rw [start]
  simp only [control, if_true, List.foldl_cons, List.foldl_nil, Option.isSome_none, Bool.false_eq_true, if_false,
    slotIssue_jump op clear, slotRun_jump op, first, still]

/-- S counts the cycle of the issue too (R148). -/
theorem counts_one {m a n : Nat} (count : m % 2 ^ 24 = (a + n) % 2 ^ 24) : (m + 1) % 2 ^ 24 = (a + (n + 1)) % 2 ^ 24 := by
  omega

theorem countWaits_runs {s : State} {c : Nat} (w : UnitWaits) (runs : s.runs c = true) : (s.countWaits c w).runs c = true := by
  obtain ⟨-, d, e, m, sq, -⟩ := countWaits_sq s c w
  rw [State.runs, sq]
  exact runs

/-- A bundle without a word, once the units let it (R127, R130). -/
theorem offerBundle_empty {s : State} {c : Nat} (w : UnitWaits) (runs : s.runs c = true)
    (fetched : (s.core c).sq.fetchFault (s.core c).sq.pc = none)
    (header : headerSlots (Tbl.get 0 (s.core c).sq.istore (s.core c).sq.pc) = []) :
    s.offerBundle c w = (((s.countWaits c w).modSq c Sequencer.issued).modSq c
      fun q => q.follow (s.core c).sq.pc 1).passCycle c := by
  have words : (s.core c).sq.bundle (s.core c).sq.pc = [] := by rw [Sequencer.bundle, header]; rfl
  have len : (s.core c).sq.bundleLen (s.core c).sq.pc = 1 := by rw [Sequencer.bundleLen, header]; rfl
  rw [offerBundle_control w fetched (by rw [words]; exact fun _ _ => rfl) (by rw [words]; rfl) (by rw [words]; rfl), words, len]
  exact issueBundle_empty _ _ (countWaits_runs w runs)

/-- A bundle of CT.JUMP, once the units let it (R127, R130). -/
theorem offerBundle_jump {s : State} {c : Nat} {j : W64} (w : UnitWaits) (runs : s.runs c = true)
    (fetched : (s.core c).sq.fetchFault (s.core c).sq.pc = none)
    (header : headerSlots (Tbl.get 0 (s.core c).sq.istore (s.core c).sq.pc) = [59])
    (word : Tbl.get 0 (s.core c).sq.istore ((s.core c).sq.pc + 1) = j) (op : fld j 63 58 = 0x04)
    (clear : j.toNat % 2 ^ 43 = 0) :
    s.offerBundle c w = ((((s.countWaits c w).modSq c Sequencer.issued).modSq c
      fun q => q.follow (s.core c).sq.pc ((s.core c).sq.bundleLen (s.core c).sq.pc)).modSq c
      fun q => q.runJump j).passCycle c := by
  have words : (s.core c).sq.bundle (s.core c).sq.pc = [(59, j)] := by rw [Sequencer.bundle, header, ← word]; rfl
  have units (b : Nat) (unit : 60 ≤ b) : slotWord [(59, j)] b = 0 := by
    have other : ¬ 59 = b := by omega
    simp [slotWord, other]
  have control : slotWord [(59, j)] 59 = j := rfl
  rw [offerBundle_control w fetched (by rw [words]; exact units)
    (by rw [words, control]; exact controlWait_others s c (by omega) (by omega) (by omega))
    (by rw [words, control]; exact returnCredits_others s c (by omega)), words]
  exact issueBundle_jump _ _ (countWaits_runs w runs) op clear

/-- Settles O60: one engine cycle counts S, and arrives, counts a delay down, or issues the bundle. -/
theorem bundlesIssueOnePerCycle : Obligations.BundlesIssueOnePerCycle := by
  unfold Obligations.BundlesIssueOnePerCycle
  intro c w s q n step runs run recovering out free
  have cycle (t : State) (h : s.idleCycle c w = t) : exec (.bundleIssue c w) s = .next t :=
    congrArg Host.Outcome.next ((bundleCycle_idle w runs run recovering out free).trans h)
  refine ⟨fun held early => ?_, fun st i at_ fresh due slot alone => ?_, fun still goes delayed => ⟨fun planned => ?_,
    fun branch short => ?_⟩, fun still goes ready fetched => ⟨fun header => ?_, fun header op clear => ?_⟩⟩
  · have counted : (s.passCycle c).reachPlan c = s.passCycle c := by
      refine reachPlan_early ?_
      rw [passCycle_core]
      exact early
    exact ⟨_, cycle _ ((if_pos held).trans counted), modSq_onlyCore .., passCycle_core ..⟩
  · have at_' : ((s.passCycle c).core c).sq.stamp = some st := by rw [passCycle_core]; exact at_
    have due' : st.plan ≤ ((s.passCycle c).core c).sq.s := by rw [passCycle_core]; exact due
    have sends := arrive_sends (s := s.passCycle c) at_' slot fresh alone
    have sq := (sends.core_sq c).trans (noteArrival_sq ..)
    rw [passCycle_core] at sq
    have held : (q.stamp.isSome || q.halted) = true := by rw [show q.stamp = some st from at_]; rfl
    refine ⟨_, _, cycle _ ((if_pos held).trans (reachPlan_arrives at_' due')), congrArg Sequencer.stamp sq, rfl, rfl, rfl,
      congrArg Sequencer.s sq, sends.mem, ?_⟩
    rw [State.slot, sends.slots]
    exact noteArrival_arrived ..
  · have waits : ¬ (q.stamp.isSome || q.halted) = true := by simp [still, goes]
    refine ⟨_, cycle _ ((if_neg waits).trans ((if_pos delayed).trans (if_pos planned))),
      (modSq_onlyCore ..).trans (modSq_onlyCore ..), ?_⟩
    rw [passCycle_core, modSq_self]
    rfl
  · have waits : ¬ (q.stamp.isSome || q.halted) = true := by simp [still, goes]
    have held : (s.modSq c fun q => { q with delay := q.delay - 1 }).heldCycle c
        = (s.modSq c fun q => { q with delay := q.delay - 1 }).modSq c fun q => { q.passed 1 with idle := q.idle + 1 } := by
      refine heldCycle_short ?_
      rw [modSq_self]
      exact short
    refine ⟨_, cycle _ ((if_neg waits).trans ((if_pos delayed).trans ((if_neg (ne_true_of_eq_false branch)).trans held))),
      (modSq_onlyCore ..).trans (modSq_onlyCore ..), ?_⟩
    rw [modSq_self, modSq_self]
    rfl
  · have waits : ¬ (q.stamp.isSome || q.halted) = true := by simp [still, goes]
    have idle : ¬ 0 < q.delay := by omega
    obtain ⟨only, d, e, m, sq, count⟩ := countWaits_sq s c w
    refine ⟨_, cycle _ ((if_neg waits).trans ((if_neg idle).trans (offerBundle_empty w runs fetched header))),
      ((only.trans (modSq_onlyCore ..)).trans (modSq_onlyCore ..)).trans (modSq_onlyCore ..), ?_⟩
    rw [passCycle_core, modSq_self, modSq_self]
    dsimp only
    rw [sq]
    exact ⟨rfl, rfl, rfl, counts_one count, rfl, rfl, rfl⟩
  · have waits : ¬ (q.stamp.isSome || q.halted) = true := by simp [still, goes]
    have idle : ¬ 0 < q.delay := by omega
    obtain ⟨only, d, e, m, sq, count⟩ := countWaits_sq s c w
    refine ⟨_, cycle _ ((if_neg waits).trans ((if_neg idle).trans (offerBundle_jump w runs fetched header rfl op clear))),
      (((only.trans (modSq_onlyCore ..)).trans (modSq_onlyCore ..)).trans (modSq_onlyCore ..)).trans (modSq_onlyCore ..), ?_⟩
    rw [passCycle_core, modSq_self, modSq_self, modSq_self]
    dsimp only
    rw [sq]
    exact ⟨rfl, rfl, rfl, rfl, counts_one count, rfl⟩

end Sys2Proof.Machine

/-! PROOFS. RUN, PROGRAM_START and HALT (R155, R222, R277, R278): the cores of a slot, each once; a command that completes at
once and one that waits. -/

namespace Sys2Proof.Machine

open Sys2Proof

-- the cores of a slot

theorem onesBelow_nodup {w : Nat} (v : BitVec w) (n : Nat) : (onesBelow v n).Nodup := List.nodup_range.filter _

theorem slotCores_nodup (x : Slot) : x.cores.Nodup := by
  unfold Slot.cores
  split
  · next f _ =>
    refine List.nodup_flatMap.mpr ⟨fun k _ => clusterCores_nodup k, (onesBelow_nodup f.clusters 32).imp fun ne => ?_⟩
    intro c here there
    exact ne ((mem_clusterCores.mp here).symm.trans (mem_clusterCores.mp there))
  · exact List.nodup_nil

/-- A step over numbered cores, each once, that changes each of them by its number. -/
theorem foldl_numbered {g : Nat × Nat → Core → Core} {l : List (Nat × Nat)} (once : (l.map Prod.fst).Nodup) (s : State) :
    (∀ e ∈ l, (l.foldl (fun (s : State) e => s.modCore e.1 (g e)) s).core e.1 = g e (s.core e.1))
      ∧ ∀ d, d ∉ l.map Prod.fst → (l.foldl (fun (s : State) e => s.modCore e.1 (g e)) s).core d = s.core d := by
  induction l generalizing s with
  | nil => exact ⟨nofun, fun _ _ => rfl⟩
  | cons a l ih =>
    obtain ⟨fresh, rest⟩ := List.nodup_cons.mp once
    obtain ⟨own, others⟩ := ih rest (s.modCore a.1 (g a))
    refine ⟨fun e he => ?_, fun d hd => ?_⟩
    · rcases List.mem_cons.mp he with rfl | he
      · rw [List.foldl_cons, others _ fresh, modCore_core, if_pos rfl]
      · have ne : e.1 ≠ a.1 := fun same => fresh (same ▸ List.mem_map_of_mem he)
        rw [List.foldl_cons, own e he, modCore_core, if_neg ne]
    · obtain ⟨ne, hd⟩ := not_or.mp (mt List.mem_cons.mpr hd)
      rw [List.foldl_cons, others d hd, modCore_core, if_neg ne]

-- commands

theorem runCommand_operates {s : State} {p : Nat} {tag : BitVec 32} {code : BitVec 8} {op : State → State × Answer}
    (accepts : Accepts s p tag) : s.runCommand p tag code op = (s.begun p tag code).operate p tag op :=
  runCommand_accepts s p tag code op accepts

/-- A command whose operation is done at once (R403). -/
theorem runCommand_done {s u : State} {p : Nat} {tag : BitVec 32} {code : BitVec 8} {op : State → State × Answer} {r : Reply}
    (accepts : Accepts s p tag) (done : op (s.begun p tag code) = (u, .done r)) (same : SameCmds (s.begun p tag code) u) :
    ∃ l, s.runCommand p tag code op = { u with ports := l } ∧ Completed { u with ports := l } p tag code r := by
  have frame := complete_ports u p tag r
  refine ⟨(u.complete p tag r).ports, ?_, ?_⟩
  · rw [runCommand_operates accepts, State.operate, done]
    exact frame
  · rw [← frame]
    exact begun_completes r accepts.2.2.1 same

/-- A command whose operation waits stays in progress with its wait (R403). -/
theorem runCommand_waits {s u : State} {p : Nat} {tag : BitVec 32} {code : BitVec 8} {op : State → State × Answer} {w : CmdWait}
    (accepts : Accepts s p tag) (waits : op (s.begun p tag code) = (u, .waits w)) (same : SameCmds (s.begun p tag code) u) :
    s.runCommand p tag code op = u.setWait p tag w ∧ ∃ c ∈ ((u.setWait p tag w).port p).cmds, c.tag = tag ∧ c.wait = w := by
  have cmds : (u.port p).cmds = (s.port p).cmds ++ [⟨tag, code, classOf code, 1, [], .packets⟩] := by
    rw [same.cmds, begun_port_self]
  have going : u.inProgress p tag = true := by simp [State.inProgress, cmds]
  refine ⟨?_, ⟨tag, code, classOf code, 1, [], w⟩, ?_, rfl, rfl⟩
  · rw [runCommand_operates accepts, State.operate, waits]
    exact if_pos going
  · rw [State.setWait, modPort_port, if_pos rfl]
    simp [cmds]

-- RUN

theorem dropStreams_onlyFports (s : State) (cores : List Nat) : OnlyFports s (s.dropStreams cores) :=
  List.foldlRecOn (motive := OnlyFports s) s.fports _ rfl fun _ ht _ _ => ht.trans rfl

/-- A port without the streams of some cores (R277). -/
def FabPort.without (p : FabPort) (cores : List Nat) : FabPort :=
  { p with streams := p.streams.filter fun q => !cores.contains q.core }

/-- A key without an entry reads as the default. -/
theorem Tbl.get_absent {α : Type} (d : α) {t : Tbl α} {k : Nat} (absent : k ∉ t.map Prod.fst) : Tbl.get d t k = d := by
  induction t with
  | nil => rfl
  | cons e t ih =>
    obtain ⟨ne, absent⟩ := not_or.mp (mt List.mem_cons.mpr absent)
    rw [Tbl.get, if_neg (Ne.symm ne)]
    exact ih absent

theorem without_twice (p : FabPort) (cores : List Nat) : (p.without cores).without cores = p.without cores := by
  simp [FabPort.without, List.filter_filter]

theorem foldl_without (cores : List Nat) (l : List (Nat × FabPort)) (s : State) (n : Nat) :
    (l.foldl (fun (s : State) e => s.modFport e.1 fun p => p.without cores) s).fport n
      = if n ∈ l.map Prod.fst then (s.fport n).without cores else s.fport n := by
  induction l generalizing s with
  | nil => rfl
  | cons e l ih =>
    rw [List.foldl_cons, ih, modFport_fport]
    by_cases own : n = e.1
    · subst own
      simp [without_twice]
    · rw [if_neg own]
      exact if_congr (by rw [List.map_cons, List.mem_cons, or_iff_right own]) rfl rfl

theorem dropStreams_fport (s : State) (cores : List Nat) (n : Nat) :
    (s.dropStreams cores).fport n = (s.fport n).without cores := by
  refine (foldl_without cores s.fports s n).trans ?_
  split
  · rfl
  · next absent => rw [State.fport, Tbl.get_absent _ absent]; rfl

theorem foldl_onlyClusters {f : State → Nat → State} (own : ∀ s k, f s k = { s with clusters := (f s k).clusters })
    (l : List Nat) (s : State) : l.foldl f s = { s with clusters := (l.foldl f s).clusters } := by
  induction l generalizing s with
  | nil => rfl
  | cons k l ih => rw [List.foldl_cons, ih, own]

/-- The module with the state of a slot's cores, rings and queue streams from before a run (R155, R277). -/
def State.runCleared (s : State) (x : Slot) : State :=
  ((List.range 32).filter x.claims).foldl (fun (s : State) k => s.modCluster k Cluster.runReset)
    (x.cores.foldl (fun (s : State) c => s.modCore c Core.runReset) (s.dropStreams x.cores))

theorem runCleared_frame (s : State) (x : Slot) : s.runCleared x = { s with
    cores := (s.runCleared x).cores, clusters := (s.runCleared x).clusters, fports := (s.runCleared x).fports } := by
  have streams := dropStreams_onlyFports s x.cores
  unfold OnlyFports at streams
  unfold State.runCleared
  rw [foldl_onlyClusters (fun _ _ => rfl), foldl_onlyCores (fun _ _ => rfl), streams]

theorem runCleared_core (s : State) (x : Slot) (c : Nat) :
    (s.runCleared x).core c = if c ∈ x.cores then (s.core c).runReset else s.core c := by
  unfold State.runCleared
  rw [foldl_onlyClusters (fun _ _ => rfl)]
  refine (foldl_core (g := fun _ => Core.runReset) (fun _ _ _ => modCore_core ..) (slotCores_nodup x) _ c).trans ?_
  rw [dropStreams_onlyFports s x.cores]
  rfl

theorem runCleared_fport (s : State) (x : Slot) (n : Nat) :
    (s.runCleared x).fport n = (s.fport n).without x.cores := by
  unfold State.runCleared
  rw [foldl_onlyClusters (fun _ _ => rfl), foldl_onlyCores (fun _ _ => rfl)]
  exact dropStreams_fport ..

/-- A slot that enters RUNNING (R277). -/
def Slot.entered (x : Slot) (start : W64) : Slot := { x with state := .running, prog := { Prog.reset with startLedger := start } }

theorem enterRun_eq (s : State) (slot : Nat) (start : W64) :
    s.enterRun slot start = (s.runCleared (s.slot slot)).modSlot slot fun x => x.entered start := rfl

theorem enterRun_frame (s : State) (slot : Nat) (start : W64) : s.enterRun slot start = { s with
    cores := (s.enterRun slot start).cores, clusters := (s.enterRun slot start).clusters
    fports := (s.enterRun slot start).fports, slots := (s.enterRun slot start).slots } := by
  have frame := runCleared_frame s (s.slot slot)
  rw [enterRun_eq]
  generalize s.runCleared (s.slot slot) = t at frame ⊢
  rw [State.modSlot, frame]

theorem enterRun_core (s : State) (slot : Nat) (start : W64) (c : Nat) :
    (s.enterRun slot start).core c = if c ∈ (s.slot slot).cores then (s.core c).runReset else s.core c := runCleared_core ..

theorem enterRun_fport (s : State) (slot : Nat) (start : W64) (n : Nat) :
    (s.enterRun slot start).fport n = (s.fport n).without (s.slot slot).cores := runCleared_fport ..

/-- No stream of a slot's cores is left when its program enters RUNNING (R277). -/
theorem enterRun_streams (s : State) (slot : Nat) (start : W64) (n : Nat) :
    (s.enterRun slot start).fport n = { s.fport n with streams := ((s.enterRun slot start).fport n).streams }
      ∧ ∀ q ∈ ((s.enterRun slot start).fport n).streams, q.core ∉ (s.slot slot).cores := by
  rw [enterRun_fport]
  refine ⟨rfl, fun q hq => ?_⟩
  simpa using (List.mem_filter.mp hq).2

theorem enterRun_slot (s : State) (slot : Nat) (start : W64) :
    (s.enterRun slot start).slot slot = (s.slot slot).entered start := by
  rw [enterRun_eq, modSlot_slot, if_pos rfl, State.slot, runCleared_frame]
  rfl

/-- RUN of a LOADED slot whose conditions hold (R222, R277). -/
theorem runOp_enters {b : Bytes} {s : State} {f : Folio} (size : b.length = 16) (fits : fldAt b 0 1 < 64)
    (clear : zeroAt b 1 7 = true) (loaded : (s.slot (fldAt b 0 1)).state = .loaded) (folio : (s.slot (fldAt b 0 1)).folio = some f)
    (ledger : f.moduleCount ≤ 1 ∨ s.freqLocked = true ∧ (s.ledger.state = .root ∨ s.ledger.state = .locked))
    (resident : f.resident = none ∨ s.activeEdition (fldAt b 0 1) ≠ 0xFF)
    (time : BitVec.ofNat 64 (fldAt b 8 8) = (0 : W64) ∨ s.now.toNat ≤ (BitVec.ofNat 64 (fldAt b 8 8) : W64).toNat) :
    runOp b s = (s.enterRun (fldAt b 0 1) (BitVec.ofNat 64 (fldAt b 8 8)), .done (Reply.ok [])) := by
  have formed : ¬ (b.length ≠ 16 ∨ 63 < fldAt b 0 1 ∨ zeroAt b 1 7 = false) := by simp [size, clear]; omega
  have locked : ¬ (1 < f.moduleCount ∧ s.freqLocked = false) := by rcases ledger with one | ⟨lock, -⟩ <;> simp_all
  have known : ¬ (1 < f.moduleCount ∧ s.ledger.state ≠ .root ∧ s.ledger.state ≠ .locked) := by
    rintro ⟨many, root, other⟩
    exact ledger.elim (by omega) fun h => h.2.elim root other
  have edition : ¬ (f.resident.isSome && decide (s.activeEdition (fldAt b 0 1) = 0xFF)) = true := by
    rcases resident with none | active <;> simp_all
  have due : ¬ (BitVec.ofNat 64 (fldAt b 8 8) ≠ (0 : W64)
      ∧ (BitVec.ofNat 64 (fldAt b 8 8) : W64).toNat < s.now.toNat) := by
    rintro ⟨later, past⟩
    exact time.elim later (by omega)
  unfold runOp
  simp only [folio]
  rw [if_neg formed, if_neg (not_not_intro loaded), if_neg locked, if_neg known, if_neg edition, if_neg due]

-- PROGRAM_START

/-- The START entry of the core at index `i` of a slot's cores (R155, R277). -/
def Slot.startOf (x : Slot) (e : Nat × Nat) (k : Core) : Core :=
  k.start ((match x.folio with | some f => f.start | none => []).getD e.2 0)

theorem startCores_cores (s : State) (slot : Nat) :
    (∀ i c, (s.slot slot).cores[i]? = some c → (s.startCores slot).core c = (s.slot slot).startOf (c, i) (s.core c))
      ∧ ∀ d, d ∉ (s.slot slot).cores → (s.startCores slot).core d = s.core d := by
  have keys : ((s.slot slot).cores.zipIdx.map Prod.fst) = (s.slot slot).cores := List.zipIdx_map_fst ..
  obtain ⟨own, others⟩ := foldl_numbered (g := (s.slot slot).startOf) (l := (s.slot slot).cores.zipIdx)
    (by rw [keys]; exact slotCores_nodup _) s
  rw [keys] at others
  exact ⟨fun i c at_ => own (c, i) (List.mem_zipIdx_iff_getElem?.mpr at_), others⟩

theorem startCores_frame (s : State) (slot : Nat) : s.startCores slot = { s with cores := (s.startCores slot).cores } :=
  foldl_onlyCores (fun _ _ => rfl) ..

/-- PROGRAM_START of a slot that puts no batch record (R155, R277). -/
theorem programStart_starts {s : State} {slot : SlotId} {f : Folio} (running : (s.slot slot).state = .running)
    (folio : (s.slot slot).folio = some f) (fresh : (s.slot slot).prog.started = false)
    (noHalt : (s.slot slot).prog.haltPending = false)
    (due : (s.slot slot).prog.startLedger = 0 ∨ (s.slot slot).prog.startLedger.toNat ≤ s.now.toNat)
    (alone : ((s.slot slot).isDeployment && (s.slot slot).isHead) = false) :
    exec (.programStart slot) s = .next ((s.startCores slot).modProg slot fun p => { p with started := true }) := by
  have starts : ¬ ((s.slot slot).state ≠ .running ∨ (s.slot slot).prog.started = true
      ∨ ((s.slot slot).prog.haltPending = true ∧ f.hasStep = false)
      ∨ ((s.slot slot).prog.startLedger ≠ 0 ∧ s.now.toNat < (s.slot slot).prog.startLedger.toNat)) := by
    rcases due with zero | past <;> simp_all
  change execProgramStart slot s = _
  unfold execProgramStart
  simp only [folio, alone]
  rw [if_neg starts]
  rfl

-- HALT

theorem haltCores_frame (s : State) (slot : Nat) : s.haltCores slot = { s with cores := (s.haltCores slot).cores } :=
  foldl_onlyCores (fun _ _ => rfl) ..

theorem haltCores_core (s : State) (slot c : Nat) : (s.haltCores slot).core c = if c ∈ (s.slot slot).cores
    then { s.core c with sq := { (s.core c).sq with halted := true, stamp := none } } else s.core c :=
  foldl_core (g := fun _ k => { k with sq := { k.sq with halted := true, stamp := none } }) (fun _ _ _ => modSq_core ..)
    (slotCores_nodup _) s c

/-- HALT stands (R278). -/
def State.haltAsked (s : State) (slot : Nat) : State := s.modProg slot fun p => { p with haltPending := true }

/-- A program that is asked to halt: at its next step, or without CT.STEP at once (R278). -/
def State.halting (s : State) (slot : Nat) (f : Folio) : State :=
  if f.hasStep then s.haltAsked slot else (s.haltAsked slot).haltCores slot

theorem halting_frame (s : State) (slot : Nat) (f : Folio) :
    s.halting slot f = { s with cores := (s.halting slot f).cores, slots := (s.halting slot f).slots } := by
  unfold State.halting
  split
  · rfl
  · rw [haltCores_frame]
    rfl

theorem haltAsked_slot (s : State) (slot : Nat) :
    (s.haltAsked slot).slot slot = { s.slot slot with prog := { (s.slot slot).prog with haltPending := true } } :=
  (modSlot_slot ..).trans (if_pos rfl)

theorem halting_slot (s : State) (slot : Nat) (f : Folio) :
    (s.halting slot f).slot slot = { s.slot slot with prog := { (s.slot slot).prog with haltPending := true } } := by
  unfold State.halting
  split
  · exact haltAsked_slot ..
  · rw [haltCores_frame]
    exact haltAsked_slot ..

theorem halting_halts {s : State} {slot c : Nat} {f : Folio} (mem : c ∈ (s.slot slot).cores) :
    ((s.halting slot f).core c).sq.halted = if f.hasStep then (s.core c).sq.halted else true := by
  have mem' : c ∈ ((s.haltAsked slot).slot slot).cores := by
    rw [haltAsked_slot]
    exact mem
  unfold State.halting
  split
  · rfl
  · rw [haltCores_core, if_pos mem']

/-- HALT of a RUNNING program that serves no session (R278). -/
theorem haltOp_waits {b : Bytes} {s : State} {f : Folio} (size : b.length = 1) (fits : fldAt b 0 1 < 64)
    (running : (s.slot (fldAt b 0 1)).state = .running) (folio : (s.slot (fldAt b 0 1)).folio = some f)
    (noSessions : (s.slot (fldAt b 0 1)).isDeployment = false) (fresh : (s.slot (fldAt b 0 1)).prog.haltPending = false) :
    haltOp b s = (s.halting (fldAt b 0 1) f, .waits (.halt (fldAt b 0 1))) := by
  have formed : ¬ (b.length ≠ 1 ∨ 63 < fldAt b 0 1) := by simp [size]; omega
  unfold haltOp
  simp only [noSessions, folio]
  rw [if_neg formed, if_neg (not_not_intro running)]
  simp [fresh]
  rfl

theorem onlyPorts_cmds {s t : State} (same : t.ports = s.ports) : SameCmds s t := ⟨fun p => by rw [State.port, same]; rfl⟩

/-- Settles O42: RUN clears what a run leaves behind, PROGRAM_START starts each core at its entry, HALT waits and without
CT.STEP halts every core. -/
theorem programsRunStartAndHalt : Obligations.ProgramsRunStartAndHalt := by
  unfold Obligations.ProgramsRunStartAndHalt
  refine ⟨?_, ?_, ?_⟩
  · intro p tag b s f slot start accepts size fits clear loaded folio ledger resident time
    have enters := runOp_enters (s := s.begun p tag 0x11) size fits clear loaded folio ledger resident time
    have frame := enterRun_frame (s.begun p tag 0x11) slot start
    have cmds : SameCmds (s.begun p tag 0x11) ((s.begun p tag 0x11).enterRun slot start) :=
      onlyPorts_cmds (by rw [frame])
    obtain ⟨l, run, completed⟩ := runCommand_done accepts enters cmds
    have own := enterRun_slot (s.begun p tag 0x11) slot start
    refine ⟨_, congrArg Host.Outcome.next run, ?_, enterRun_streams (s.begun p tag 0x11) slot start, congrArg Slot.state own,
      congrArg (fun x => x.prog.startLedger) own, congrArg (fun x => x.prog.started) own, fun c hc => ?_, fun c hc => ?_,
      completed⟩
    · rw [frame]
      rfl
    · have core := (enterRun_core (s.begun p tag 0x11) slot start c).trans (if_pos hc)
      exact ⟨congrArg (fun k => k.sq.loops) core, congrArg (fun k => k.sq.calls) core, congrArg (fun k => k.sq.step) core⟩
    · exact (enterRun_core (s.begun p tag 0x11) slot start c).trans (if_neg hc)
  · intro slot s f running folio fresh noHalt due alone
    obtain ⟨own, others⟩ := startCores_cores s slot
    refine ⟨_, programStart_starts running folio fresh noHalt due alone, ?_, ?_, fun i c at_ => ?_, others⟩
    · rw [startCores_frame]
      rfl
    · exact congrArg (fun x => x.prog.started) ((modSlot_slot ..).trans (if_pos rfl))
    · have core := own i c at_
      have pc : ((s.slot slot).startOf (c, i) (s.core c)).sq.pc = f.start.getD i 0 := by
        rw [Slot.startOf, folio]
        rfl
      exact ⟨congrArg (fun k => k.sq.run) core, congrArg (fun k => k.sq.halted) core, (congrArg (fun k => k.sq.pc) core).trans pc,
        congrArg (fun k => k.vx.draws) core, congrArg (fun k => k.sq.mode) core⟩
  · intro p tag b s f slot accepts size fits running folio noSessions fresh
    have waits := haltOp_waits (s := s.begun p tag 0x12) size fits running folio noSessions fresh
    have frame := halting_frame (s.begun p tag 0x12) slot f
    obtain ⟨halt, going⟩ := runCommand_waits accepts waits (onlyPorts_cmds (by rw [frame]))
    have own := halting_slot (s.begun p tag 0x12) slot f
    refine ⟨_, congrArg Host.Outcome.next halt, ?_, congrArg (fun x => x.prog.haltPending) own,
      (congrArg Slot.state own).trans running, fun c hc => halting_halts hc, going⟩
    rw [State.setWait, State.modPort, frame]
    rfl

end Sys2Proof.Machine

/-! PROOFS. Faults of a core that runs no program (R154, R157): a capture and a changed state are reported, the core stops, and
nothing else of the module changes. -/

namespace Sys2Proof.Machine

open Sys2Proof

-- reports

/-- `t` is `s` but for reports: no command ends, no bit of EVT_RAW is taken away, no expiry is counted. -/
structure Reported (s t : State) : Prop where
  frame : OnlyReports s t
  cmds : SameCmds s t
  stand : EventsStand s t
  expiries : ∀ p, (t.page p).tmoCount = (s.page p).tmoCount

theorem Reported.refl (s : State) : Reported s s := ⟨.refl s, .refl s, .refl s, fun _ => rfl⟩

theorem Reported.trans {s t u : State} (h : Reported s t) (k : Reported t u) : Reported s u :=
  ⟨h.frame.trans k.frame, h.cmds.trans k.cmds, h.stand.trans k.stand, fun p => (k.expiries p).trans (h.expiries p)⟩

theorem raise_reported (s : State) (page bit : Nat) (detail : Bytes) : Reported s (s.raise page bit detail) :=
  ⟨raise_reports .., raise_cmds .., raise_stand .., raise_expiries s page bit detail⟩

theorem setCaps_reported (s : State) (p : Nat) (caps : List W32) : Reported s (s.modPage p fun h => { h with caps := caps }) := by
  refine ⟨rfl, ⟨fun _ => rfl⟩, ⟨fun q i h => ?_⟩, fun q => ?_⟩ <;> rw [modPage_page] <;> split
  · next same => rw [← same]; exact h
  · exact h
  · next same => rw [same]
  · rfl

theorem raiseCap_reported (s : State) (page bit : Nat) (caps : List W32) (take : Bool) :
    Reported s (s.raiseCap page bit caps take) := by
  unfold State.raiseCap
  dsimp only
  split
  · exact (setCaps_reported ..).trans (raise_reported ..)
  · exact raise_reported ..

theorem capture_reported (s : State) (page bit : Nat) (caps : List W32) : Reported s (s.capture page bit caps) :=
  raiseCap_reported ..

/-- A capture sets its bit. -/
theorem capture_sets (s : State) (page : Nat) {bit : Nat} (caps : List W32) (small : bit < 32) :
    ((s.capture page bit caps).page page).evtRaw.getLsbD bit = true := raise_sets _ _ _ _ small

theorem Reported.core {s t : State} (h : Reported s t) (c : Nat) : t.core c = s.core c := h.frame.core c

-- a core that stops

/-- The reports of a core's fault, behind its stop (R157, R433). -/
theorem coreStop_reported (s : State) (c unit cause offset : Nat) (word : W64) (unitPage : Option (Nat × List W32)) :
    Reported (s.modCore c Core.stopped) (s.coreStop c unit cause offset word unitPage)
      ∧ ((s.coreStop c unit cause offset word unitPage).page (corePage c)).evtRaw.getLsbD 0 = true := by
  unfold State.coreStop
  dsimp only
  split
  · exact ⟨((capture_reported ..).trans (capture_reported ..)).trans (raise_reported ..),
      ((capture_reported ..).trans (raise_reported ..)).stand.keep _ _ (capture_sets _ _ _ (by decide))⟩
  · exact ⟨(capture_reported ..).trans (raise_reported ..), (raise_reported ..).stand.keep _ _ (capture_sets _ _ _ (by decide))⟩

/-- What a core has waited for, or of what it has been told, before it faults: its program, registers and memory are as
they were (R141, R145, R148, R158, R216). -/
structure Waited (c : Nat) (s t : State) : Prop where
  frame : t = { s with cores := t.cores, clusters := t.clusters, pages := t.pages, freeCtr := t.freeCtr }
  others : ∀ d, d ≠ c → t.core d = s.core d
  mode : (t.core c).sq.mode = (s.core c).sq.mode
  pc : (t.core c).sq.pc = (s.core c).sq.pc
  mx : (t.core c).mx = { (s.core c).mx with stall := (t.core c).mx.stall, swapWait := (t.core c).mx.swapWait }
  vx : (t.core c).vx = (s.core c).vx

/-- What a fault of a core of no program leaves (R154, R157). -/
structure Stops (c : Nat) (s t : State) : Prop where
  mode : (t.core c).sq.mode = .faulted
  left : (t.core c).sq.faultedFrom = (s.core c).sq.mode
  pc : (t.core c).sq.pc = (s.core c).sq.pc
  mx : (t.core c).mx = { (s.core c).mx with stall := (t.core c).mx.stall, swapWait := (t.core c).mx.swapWait }
  vx : (t.core c).vx = (s.core c).vx
  out : (t.core c).xf.out = []
  run : (t.core c).sq.run = true → (t.core c).xf.waiting = true
  others : ∀ d, d ≠ c → t.core d = s.core d
  mem : t.mem = s.mem
  slots : t.slots = s.slots
  event : (t.page (corePage c)).evtRaw.getLsbD 0 = true

theorem Waited.refl (c : Nat) (s : State) : Waited c s s := ⟨rfl, fun _ _ => rfl, rfl, rfl, rfl, rfl⟩

theorem Waited.trans {c : Nat} {s t u : State} (h : Waited c s t) (k : Waited c t u) : Waited c s u where
  frame := by rw [k.frame, h.frame]
  others d ne := (k.others d ne).trans (h.others d ne)
  mode := k.mode.trans h.mode
  pc := k.pc.trans h.pc
  mx := by rw [k.mx, h.mx]
  vx := k.vx.trans h.vx

/-- A core that has waited stops. -/
theorem Waited.stops {c : Nat} {s t : State} (h : Waited c s t) (unit cause offset : Nat) (word : W64)
    (unitPage : Option (Nat × List W32)) : Stops c s (t.coreStop c unit cause offset word unitPage) := by
  obtain ⟨reported, event⟩ := coreStop_reported t c unit cause offset word unitPage
  have own : (t.coreStop c unit cause offset word unitPage).core c = (t.core c).stopped := by
    rw [reported.core, modCore_core, if_pos rfl]
  have mem : (t.coreStop c unit cause offset word unitPage).mem = t.mem := by rw [reported.frame]; rfl
  have slots : (t.coreStop c unit cause offset word unitPage).slots = t.slots := by rw [reported.frame]; rfl
  refine ⟨?_, ?_, ?_, ?_, ?_, ?_, ?_, fun d ne => ?_, ?_, ?_, event⟩
  · rw [own]; rfl
  · rw [own]; exact h.mode
  · rw [own]; exact h.pc
  · rw [own]; exact h.mx
  · rw [own]; exact h.vx
  · rw [own]; rfl
  · rw [own]; exact id
  · rw [reported.core, modCore_core, if_neg ne, h.others d ne]
  · rw [mem, h.frame]
  · rw [slots, h.frame]

theorem slotOf_congr {s t : State} (same : t.slots = s.slots) (c : Nat) : t.slotOf c = s.slotOf c := by
  rw [State.slotOf, same]
  rfl

theorem pastFault_congr {s t : State} {c : Nat} (same : (t.core c).sq.mode = (s.core c).sq.mode) : t.pastFault c = s.pastFault c := by
  rw [State.pastFault, same]
  rfl

/-- A core of no program has no program that its fault could stop (R477). -/
theorem programOf_none {s : State} {c : Nat} (none : s.slotOf c = none) (reason : Nat) (origin : Option Nat) :
    s.programOf c reason origin = s := by
  rw [State.programOf, none]

/-- A fault of a running core of no program. -/
theorem Waited.faults {c : Nat} {s t : State} (h : Waited c s t) (runs : s.runs c = true) (none : s.slotOf c = none)
    (unit cause offset : Nat) (word : W64) (unitPage : Option (Nat × List W32)) :
    Stops c s (t.coreFault c unit cause offset word unitPage) := by
  have stops := h.stops unit cause offset word unitPage
  unfold State.coreFault
  rw [if_neg (by rw [pastFault_congr h.mode, pastFault_of_runs runs]; decide),
    programOf_none ((slotOf_congr stops.slots c).trans none)]
  exact stops

-- waits

/-- A change of a core's counts leaves its program and registers. -/
structure CountsOnly (k j : Core) : Prop where
  mode : j.sq.mode = k.sq.mode
  pc : j.sq.pc = k.sq.pc
  mx : j.mx = { k.mx with stall := j.mx.stall, swapWait := j.mx.swapWait }
  vx : j.vx = k.vx

theorem modCore_waited (s : State) (c : Nat) {f : Core → Core} (counts : ∀ k, CountsOnly k (f k)) : Waited c s (s.modCore c f) := by
  obtain ⟨mode, pc, mx, vx⟩ := counts (s.core c)
  have own : (s.modCore c f).core c = f (s.core c) := (modCore_core ..).trans (if_pos rfl)
  refine ⟨rfl, fun d ne => (modCore_core ..).trans (if_neg ne), ?_, ?_, ?_, ?_⟩ <;> rw [own] <;> assumption

theorem ite_waited {c : Nat} {s t u : State} {b : Prop} [Decidable b] (h : Waited c s t) (k : Waited c s u) :
    Waited c s (if b then t else u) := by split <;> assumption

theorem foldl_waited {α : Type} {c : Nat} {f : State → α → State} (h : ∀ s a, Waited c s (f s a)) (l : List α) (s : State) :
    Waited c s (l.foldl f s) :=
  List.foldlRecOn (motive := Waited c s) l f (.refl c s) fun t ht a _ => ht.trans (h t a)

theorem countDev_waited (s : State) (c cause n : Nat) : Waited c s (s.modCore c fun k => k.countDev cause n) :=
  modCore_waited s c fun _ => ⟨rfl, rfl, rfl, rfl⟩

theorem modQueue_waited (s : State) (c q : Nat) (f : Endpoint → Endpoint) : Waited c s (s.modQueue c q f) :=
  modCore_waited s c fun _ => ⟨rfl, rfl, rfl, rfl⟩

theorem qstall_waited (s : State) (c q cause n : Nat) : Waited c s (s.qstall c q cause n) :=
  (modQueue_waited ..).trans (countDev_waited ..)

theorem modRing_waited (s : State) (c k r : Nat) (f : Ring → Ring) : Waited c s (s.modRing k r f) :=
  ⟨rfl, fun _ _ => rfl, rfl, rfl, rfl, rfl⟩

theorem ringStall_waited (s : State) (c r n : Nat) : Waited c s (s.ringStall c r n) :=
  (modRing_waited ..).trans (countDev_waited ..)

/-- The cycles that a matrix word waits count on the matrix engine (R78, R80). -/
theorem matrixWait_waited (s : State) (c n : Nat) (load : Bool) : Waited c s (s.modMx c fun x =>
    if load then { x with stall := sat32 x.stall n } else { x with swapWait := sat32 x.swapWait n }) :=
  modCore_waited s c fun _ => ⟨rfl, rfl, by cases load <;> rfl, rfl⟩

theorem modSq_waited (s : State) (c : Nat) {f : Sequencer → Sequencer} (mode : ∀ q, (f q).mode = q.mode) (pc : ∀ q, (f q).pc = q.pc) :
    Waited c s (s.modSq c f) := modCore_waited s c fun k => ⟨mode k.sq, pc k.sq, rfl, rfl⟩

/-- A bundle that waits changes counts alone (R78, R80, R134, R141, R145). -/
theorem bundleWaits_waited (s : State) (c : Nat) (ws : List (Nat × W64)) (n : Nat) : Waited c s (s.bundleWaits c ws n).1 := by
  unfold State.bundleWaits
  extract_lets m t k mw gw load unit rings s₁ s₂ s₃ s₄ s₅ s₆
  have matrix : Waited c s s₁ := ite_waited (matrixWait_waited ..) (.refl ..)
  have units : Waited c s₁ s₂ := ite_waited (countDev_waited ..) (.refl ..)
  have transfer : Waited c s₂ s₃ := by
    unfold s₃ t
    split
    · exact countDev_waited ..
    · exact .refl ..
  have control : Waited c s₃ s₄ := by
    unfold s₄ k
    split
    · exact qstall_waited ..
    · exact .refl ..
  have ringWaits : Waited c s₄ s₅ := foldl_waited (fun _ _ => ringStall_waited ..) ..
  have patience : Waited c s₅ s₆ := ite_waited (.refl ..) (modSq_waited _ _ (fun _ => rfl) fun _ => rfl)
  exact ((((matrix.trans units).trans transfer).trans control).trans ringWaits).trans patience

theorem waitCycles_waited (s : State) (c n : Nat) : Waited c s (s.waitCycles c n) :=
  (bundleWaits_waited ..).trans (modSq_waited _ _ (fun _ => rfl) fun _ => rfl)

theorem countTmo_waited (s : State) (c p : Nat) : Waited c s (s.countTmo p) := ⟨rfl, fun _ _ => rfl, rfl, rfl, rfl, rfl⟩

theorem draw_waited (s : State) (c : Nat) : Waited c s s.draw.2 := ⟨rfl, fun _ _ => rfl, rfl, rfl, rfl, rfl⟩

-- a request that gets no answer

theorem quiet_congr {s t : State} (clusters : t.clusters = s.clusters) (tenants : t.tenants = s.tenants) (cmds : SameCmds s t)
    (quiet : Quiet s) : Quiet t := by
  obtain ⟨due, releasing, binds⟩ := quiet
  exact ⟨by rw [clusters]; exact due, by rw [tenants]; exact releasing, fun p c hc => binds p c (cmds.cmds p ▸ hc)⟩

theorem Reported.quiet {s t : State} (h : Reported s t) (quiet : Quiet s) : Quiet t :=
  quiet_congr (by rw [h.frame]) (by rw [h.frame]) h.cmds quiet

/-- The stopped core of a request whose answer is no longer awaited (R479). -/
theorem Stops.settle {c : Nat} {s t : State} (h : Stops c s t) : Stops c s (t.settle c) := by
  have own : (t.settle c).core c = { t.core c with sq := { (t.core c).sq with run := ((t.settle c).core c).sq.run } } := by
    rw [State.settle, modCore_core, if_pos rfl]
    split <;> rfl
  have idle : ((t.settle c).core c).sq.run = true → (t.core c).xf.waiting = true := by
    rw [State.settle, modCore_core, if_pos rfl]
    split
    · exact fun run => absurd run Bool.false_ne_true
    · exact h.run
  refine ⟨?_, ?_, ?_, ?_, ?_, ?_, fun run => ?_, fun d ne => ?_, h.mem, h.slots, h.event⟩
  · rw [own]; exact h.mode
  · rw [own]; exact h.left
  · rw [own]; exact h.pc
  · rw [own]; exact h.mx
  · rw [own]; exact h.vx
  · rw [own]; exact h.out
  · rw [own]; exact idle run
  · exact (modCore_core ..).trans ((if_neg ne).trans (h.others d ne))

theorem countTmo_page (s : State) (p q : Nat) : ((s.countTmo p).page q).evtRaw = (s.page q).evtRaw := by
  rw [State.countTmo, modPage_page]
  split
  · next same => rw [same]
  · rfl

theorem Stops.countTmo {c : Nat} {s t : State} (h : Stops c s t) (p : Nat) : Stops c s (t.countTmo p) :=
  ⟨h.mode, h.left, h.pc, h.mx, h.vx, h.out, h.run, h.others, h.mem, h.slots, by rw [countTmo_page]; exact h.event⟩

theorem modCore_quiet {s : State} (c : Nat) (f : Core → Core) (quiet : Quiet s) : Quiet (s.modCore c f) :=
  quiet_congr (s := s) rfl rfl ⟨fun _ => rfl⟩ quiet

theorem countTmo_quiet {s : State} (p : Nat) (quiet : Quiet s) : Quiet (s.countTmo p) :=
  quiet_congr (s := s) rfl rfl ⟨fun _ => rfl⟩ quiet

theorem coreStop_quiet {s : State} (c unit cause offset : Nat) (word : W64) (unitPage : Option (Nat × List W32))
    (quiet : Quiet s) : Quiet (s.coreStop c unit cause offset word unitPage) :=
  (coreStop_reported ..).1.quiet (modCore_quiet _ _ quiet)

/-- The module once a request of a core is no longer awaited. -/
def State.unasked (s : State) (c tag : Nat) : State := s.modXf c fun x => x.setTag tag none

theorem unasked_waited (s : State) (c tag : Nat) : Waited c s (s.unasked c tag) :=
  modCore_waited s c (f := fun k => { k with xf := k.xf.setTag tag none }) fun _ => ⟨rfl, rfl, rfl, rfl⟩

/-- A request of a running core ends with a stop of the core (R215, R216). -/
theorem requestStop_stops {s : State} {c : Nat} (runs : s.runs c = true) (tag cause status reason : Nat) (t : WinTag) :
    ∃ page, s.requestStop c tag cause status reason t = ((s.unasked c tag).coreStop c 4 cause t.offset 0 page).settle c := by
  have able : (s.unasked c tag).pastFault c = false :=
    (pastFault_congr (unasked_waited ..).mode).trans (pastFault_of_runs runs)
  have notFaulted : ((s.unasked c tag).core c).sq.mode ≠ .faulted := by
    intro faulted
    simp [State.pastFault, faulted] at able
  have choice (a b d : State) : (if ((s.unasked c tag).core c).sq.mode = .faulted then a
      else if (s.unasked c tag).pastFault c then b else d) = d := by
    rw [if_neg notFaulted, able, if_neg Bool.false_ne_true]
  exact ⟨_, choice ..⟩

/-- A request of a running core of no program ends with a fault of the core alone. -/
theorem requestFault_stops {s : State} {c : Nat} (runs : s.runs c = true) (none : s.slotOf c = none) (quiet : Quiet s)
    (tag cause status reason : Nat) (t : WinTag) :
    Stops c s (s.requestFault c tag cause status reason t) ∧ Quiet (s.requestFault c tag cause status reason t) := by
  obtain ⟨page, stopped⟩ := requestStop_stops runs tag cause status reason t
  have stops : Stops c s (s.requestStop c tag cause status reason t) := by
    rw [stopped]
    exact ((unasked_waited ..).stops ..).settle
  have alone (r : Nat) (o : Option Nat) : (s.requestStop c tag cause status reason t).programOf c r o
      = s.requestStop c tag cause status reason t := programOf_none ((slotOf_congr stops.slots c).trans none) r o
  have fault : s.requestFault c tag cause status reason t = s.requestStop c tag cause status reason t := by
    unfold State.requestFault
    dsimp only
    rw [pastFault_of_runs runs, alone, alone, ite_self, ite_self]
  rw [fault]
  refine ⟨stops, ?_⟩
  rw [stopped]
  exact modCore_quiet _ _ (coreStop_quiet _ _ _ _ _ _ (modCore_quiet _ _ quiet))

/-- Settles O23: whatever faults the core, only its counts have changed before it stops. -/
theorem timeoutsFaultTheirCore : Obligations.TimeoutsFaultTheirCore := by
  unfold Obligations.TimeoutsFaultTheirCore
  intro core s runs none quiet faulted
  have fault {i : Instr} {t : State} (step : exec i s = .next t) (stops : Stops core s t) : faulted i :=
    ⟨t, step, stops.mode, stops.left, stops.pc, stops.mx, stops.vx, stops.out, stops.run, stops.others, stops.mem, stops.slots,
      stops.event⟩
  have ringFaults (put : Bool) (waits : (s.ringAwaited core put).isSome = true) : Stops core s (s.ringTimeout core put) := by
    obtain ⟨w, at_⟩ := Option.isSome_iff_exists.mp waits
    rw [State.ringTimeout, at_]
    exact (waitCycles_waited ..).faults runs none ..
  refine ⟨fun waits => fault rfl (ringFaults false waits), fun waits => fault rfl (ringFaults true waits),
    fun run noStamp goes delay => ?_, fun reqTag waits => ?_, fun desc o mem own bad => ?_, fun args cause issue => ?_⟩
  · have counts : (!s.runs core || !(s.core core).sq.run || (s.core core).sq.stamp.isSome || (s.core core).sq.halted
        || decide (0 < (s.core core).sq.delay) && (s.core core).sq.planned) = false := by
      rcases delay with zero | branch <;> simp_all
    refine fault (congrArg Host.Outcome.next (if_neg (ne_true_of_eq_false counts))) ?_
    exact (((waitCycles_waited ..).trans (draw_waited ..)).trans (countTmo_waited ..)).faults runs none ..
  · obtain ⟨t, at_⟩ := Option.isSome_iff_exists.mp waits
    obtain ⟨stops, still⟩ := requestFault_stops runs none quiet reqTag xfTimeoutCause 0 0 t
    have step : exec (.xfTimeout core reqTag) s
        = .next ((s.requestFault core reqTag xfTimeoutCause 0 0 t).countTmo (xfePage core)).progress := by
      change execXfTimeout core reqTag s = _
      rw [execXfTimeout, at_]
    rw [progress_quiet _ (countTmo_quiet _ still)] at step
    exact fault step (stops.countTmo _)
  · have found : ((s.core core).xf.out.find? fun o => decide (o.desc = desc.val) && o.ueAt.isSome).isSome :=
      List.find?_isSome.mpr ⟨o, mem, by simp [own, bad]⟩
    obtain ⟨o', at_⟩ := Option.isSome_iff_exists.mp found
    have step : exec (.xfEccUe core desc) s = .next (s.transferFault core xfEccUeCause desc o'.offset) := by
      change execXfEccUe core desc s = _
      rw [execXfEccUe, at_]
    exact fault step ((Waited.refl ..).faults runs none ..)
  · have waits := matrixWaits_others s core args (op := 0x03) (by decide) (by decide)
    exact fault (congrArg Host.Outcome.next (matrixAlone_faults _ runs waits issue)) ((Waited.refl ..).faults runs none ..)

end Sys2Proof.Machine

/-! PROOFS. A program fault (R331, R477 to R480) where no edition is loaded and nothing waits to be given back: its slot, its
cores and its sessions change, other cores keep all but marks. -/

namespace Sys2Proof.Machine

open Sys2Proof

-- what a program fault may change

/-- `t` is `s` but for what a program fault may change: no command ends, no expiry is counted. -/
structure Faulting (s t : State) : Prop where
  frame : t = { s with cores := t.cores, slots := t.slots, sessions := t.sessions, fports := t.fports
                       fab := { s.fab with drop := t.fab.drop }, freeCtr := t.freeCtr, pages := t.pages, logs := t.logs
                       ports := t.ports }
  cmds : SameCmds s t
  expiries : ∀ p, (t.page p).tmoCount = (s.page p).tmoCount

theorem Faulting.refl (s : State) : Faulting s s := ⟨rfl, .refl s, fun _ => rfl⟩

theorem Faulting.trans {s t u : State} (h : Faulting s t) (k : Faulting t u) : Faulting s u where
  frame := by rw [k.frame, h.frame]
  cmds := h.cmds.trans k.cmds
  expiries p := (k.expiries p).trans (h.expiries p)

theorem foldl_faulting {α : Type} {f : State → α → State} (h : ∀ s a, Faulting s (f s a)) (l : List α) (s : State) :
    Faulting s (l.foldl f s) :=
  List.foldlRecOn (motive := Faulting s) l f (.refl s) fun t ht a _ => ht.trans (h t a)

theorem Sends.faulting {s t : State} (h : Sends s t) : Faulting s t := ⟨by rw [h.frame], h.cmds, h.expiries⟩

theorem Reported.faulting {s t : State} (h : Reported s t) : Faulting s t := ⟨by rw [h.frame], h.cmds, h.expiries⟩

theorem Faulting.quiet {s t : State} (h : Faulting s t) (quiet : Quiet s) : Quiet t :=
  quiet_congr (by rw [h.frame]) (by rw [h.frame]) h.cmds quiet

-- the cores of the program

/-- A core at PROGRAM_STOP (R154, R478). -/
def Core.programStopped (k : Core) : Core :=
  if k.sq.mode = .faulted ∨ k.sq.mode = .isolated ∨ k.sq.mode = .reset then k else k.stopped

theorem programStop_core (s : State) (origin reason c d : Nat) :
    (s.programStop origin reason c).core d = if d = c then (s.core c).programStopped else s.core d := by
  unfold State.programStop Core.programStopped
  split
  · split
    · next same => rw [same]
    · rfl
  · exact (((capture_reported ..).trans (raise_reported ..)).core d).trans (modCore_core ..)

theorem modCore_faulting (s : State) (c : Nat) (f : Core → Core) : Faulting s (s.modCore c f) := ⟨rfl, ⟨fun _ => rfl⟩, fun _ => rfl⟩

theorem programStop_faulting (s : State) (origin reason c : Nat) : Faulting s (s.programStop origin reason c) := by
  unfold State.programStop
  split
  · exact .refl s
  · exact (modCore_faulting ..).trans ((capture_reported ..).trans (raise_reported ..)).faulting

theorem programStopped_runs {k : Core} (runs : k.sq.mode.runs = true) : k.programStopped = k.stopped := by
  unfold Core.programStopped
  rw [if_neg]
  rintro (mode | mode | mode) <;> simp [mode, CoreMode.runs] at runs

-- the sessions of the program

theorem Tbl.get_of_mem {α : Type} [DecidableEq α] {d : α} {t : Tbl α} {k : Nat} {v : α} (wf : Tbl.wf d t = true)
    (mem : (k, v) ∈ t) : Tbl.get d t k = v := by
  have above {lo k : Nat} {t : Tbl α} (wf : Tbl.wfFrom d lo t = true) (mem : k ∈ t.map Prod.fst) : lo ≤ k := by
    induction t generalizing lo with
    | nil => cases mem
    | cons e t ih =>
      simp only [Tbl.wfFrom, Bool.and_eq_true, decide_eq_true_eq] at wf
      rcases List.mem_cons.mp mem with rfl | mem
      · exact wf.1.1
      · exact (Nat.le_succ_of_le wf.1.1).trans (ih wf.2 mem)
  unfold Tbl.wf at wf
  generalize 0 = lo at wf
  induction t generalizing lo with
  | nil => cases mem
  | cons e t ih =>
    simp only [Tbl.wfFrom, Bool.and_eq_true, decide_eq_true_eq] at wf
    rcases List.mem_cons.mp mem with rfl | mem
    · exact if_pos rfl
    · have later := above wf.2 (List.mem_map_of_mem (f := Prod.fst) mem)
      exact (if_neg (by omega)).trans (ih mem _ wf.2)

theorem Tbl.mem_of_get {α : Type} {d : α} {t : Tbl α} {k : Nat} (some : Tbl.get d t k ≠ d) : (k, Tbl.get d t k) ∈ t := by
  induction t with
  | nil => exact absurd rfl some
  | cons e t ih =>
    obtain ⟨k', v⟩ := e
    by_cases own : k' = k
    · subst own
      simp [Tbl.get]
    · rw [Tbl.get, if_neg own] at some ⊢
      exact List.mem_cons_of_mem _ (ih some)

theorem modSession_session (s : State) (i j : Nat) (f : Session → Session) :
    (s.modSession i f).session j = if j = i then f (s.session i) else s.session j := by
  unfold State.modSession State.session
  split
  · next same => rw [same, Tbl.get_modify_self]
  · next other => rw [Tbl.get_modify_ne _ _ _ _ _ other]

/-- `t` is `s` but for sessions, what leaves on the ports and the slots' queues. -/
structure SessionsEnd (s t : State) : Prop where
  frame : t = { s with sessions := t.sessions, slots := t.slots, ports := t.ports }
  cmds : SameCmds s t
  slots : ∀ j, (t.slot j).state = (s.slot j).state
  wf : Tbl.wf Session.reset s.sessions = true → Tbl.wf Session.reset t.sessions = true

theorem SessionsEnd.refl (s : State) : SessionsEnd s s := ⟨rfl, .refl s, fun _ => rfl, id⟩

theorem SessionsEnd.trans {s t u : State} (h : SessionsEnd s t) (k : SessionsEnd t u) : SessionsEnd s u where
  frame := by rw [k.frame, h.frame]
  cmds := h.cmds.trans k.cmds
  slots j := (k.slots j).trans (h.slots j)
  wf := k.wf ∘ h.wf

theorem foldl_sessionsEnd {α : Type} {f : State → α → State} (h : ∀ s a, SessionsEnd s (f s a)) (l : List α) (s : State) :
    SessionsEnd s (l.foldl f s) :=
  List.foldlRecOn (motive := SessionsEnd s) l f (.refl s) fun t ht a _ => ht.trans (h t a)

theorem SessionsEnd.faulting {s t : State} (h : SessionsEnd s t) : Faulting s t :=
  ⟨by rw [h.frame], h.cmds, fun p => by rw [h.frame]; rfl⟩

theorem SessionsEnd.core {s t : State} (h : SessionsEnd s t) (c : Nat) : t.core c = s.core c := by
  rw [h.frame]
  rfl

theorem modSession_end (s : State) (i : Nat) (f : Session → Session) : SessionsEnd s (s.modSession i f) :=
  ⟨rfl, ⟨fun _ => rfl⟩, fun _ => rfl, Tbl.wf_modify _ _ _ _⟩

theorem unqueue_end (s : State) (i : Nat) : SessionsEnd s (s.unqueue i) := by
  refine SessionsEnd.trans (t := s.modSlot (s.session i).slot fun x => { x with queue := x.queue.filter (· ≠ i) })
    ⟨rfl, ⟨fun _ => rfl⟩, fun j => ?_, id⟩ (modSession_end ..)
  rw [modSlot_slot]
  split
  · next same => rw [same]
  · rfl

theorem sendPacket_end (s : State) (p : Nat) (x : TxPacket) : SessionsEnd s (s.sendPacket p x) := by
  have frame := sendPacket_ports s p x
  refine ⟨by rw [frame], ⟨fun q => sendPacket_cmds s p q x⟩, fun j => by rw [frame]; rfl, fun wf => by rw [frame]; exact wf⟩

theorem autoFree_end (s : State) (i : Nat) : SessionsEnd s (s.autoFree i) := by
  unfold State.autoFree
  split
  · exact modSession_end ..
  · exact .refl s

theorem closeSession_end (s : State) (i reason : Nat) : SessionsEnd s (s.closeSession i reason) :=
  (((unqueue_end ..).trans (modSession_end ..)).trans (sendPacket_end ..)).trans (autoFree_end ..)

/-- Closing a session leaves the others as they are. -/
theorem closeSession_others (s : State) {i j : Nat} (reason : Nat) (ne : j ≠ i) :
    (s.closeSession i reason).session j = s.session j := by
  have other (t : State) (f : Session → Session) : (t.modSession i f).session j = t.session j :=
    (modSession_session ..).trans (if_neg ne)
  have freed (t : State) : (t.autoFree i).session j = t.session j := by
    unfold State.autoFree
    split
    · exact other ..
    · rfl
  have sent (t : State) (p : Nat) (x : TxPacket) : (t.sendPacket p x).session j = t.session j := by
    rw [sendPacket_ports]
    rfl
  unfold State.closeSession
  dsimp only
  rw [freed, sent, other, State.unqueue, other]
  rfl

/-- The session has ended with FAULT (R290, R331). -/
def Session.EndedByFault (x : Session) : Prop := x.state = .ending ∧ x.endReason = endFault

theorem endRow_session (s : State) (i detail j : Nat) (now : W64) :
    if j = i then ((s.endRow i endFault detail now).session j).EndedByFault
    else (s.endRow i endFault detail now).session j = s.session j := by
  rw [State.endRow, modSession_session]
  split
  · exact ⟨rfl, rfl⟩
  · rfl

theorem foldl_endRow {l : List (Nat × Session)} {now : W64} {j : Nat} (s : State)
    (named : j ∈ l.map Prod.fst ∨ (s.session j).EndedByFault) :
    ((l.foldl (fun (s : State) e => s.endRow e.1 endFault 0 now) s).session j).EndedByFault := by
  induction l generalizing s with
  | nil => simpa using named
  | cons e l ih =>
    have step := endRow_session s e.1 0 j now
    refine ih _ ?_
    split at step
    · exact .inr step
    · next other =>
      rw [step]
      rcases named with mem | ended
      · exact .inl ((List.mem_cons.mp mem).resolve_left other)
      · exact .inr ended

theorem foldl_close {l : List (Nat × Session)} {j : Nat} (s : State) (spared : j ∉ l.map Prod.fst) :
    (l.foldl (fun (s : State) e => s.closeSession e.1 endFault) s).session j = s.session j := by
  induction l generalizing s with
  | nil => rfl
  | cons e l ih =>
    obtain ⟨ne, spared⟩ := not_or.mp (mt List.mem_cons.mpr spared)
    rw [List.foldl_cons, ih _ spared, closeSession_others _ _ ne]

/-- The sessions in a program's batch end with FAULT (R290). -/
def State.batchEnds (s : State) (slot : Nat) : State :=
  (s.sessionsOf slot SessState.inBatch).foldl (fun (t : State) e => t.endRow e.1 endFault 0 s.now) s

theorem batchEnds_end (s : State) (slot : Nat) : SessionsEnd s (s.batchEnds slot) :=
  foldl_sessionsEnd (fun _ _ => modSession_end ..) ..

theorem faultSessions_eq (s : State) (slot : Nat) : s.faultSessions slot
    = ((s.batchEnds slot).sessionsOf slot fun x => x = .opened).foldl (fun (t : State) e => t.closeSession e.1 endFault)
      (s.batchEnds slot) := rfl

theorem faultSessions_end (s : State) (slot : Nat) : SessionsEnd s (s.faultSessions slot) := by
  rw [faultSessions_eq]
  exact (batchEnds_end ..).trans (foldl_sessionsEnd (fun _ _ => closeSession_end ..) ..)

/-- Every session in the program's batch ends with FAULT (R331). -/
theorem faultSessions_batch {s : State} {slot j : Nat} (wf : Tbl.wf Session.reset s.sessions = true)
    (own : (s.session j).slot = slot) (batch : (s.session j).state.inBatch = true) :
    ((s.faultSessions slot).session j).EndedByFault := by
  have there : (j, s.session j) ∈ s.sessions := Tbl.mem_of_get fun reset => by
    rw [State.session, reset] at batch
    exact absurd batch (by decide)
  have listed : j ∈ (s.sessionsOf slot SessState.inBatch).map Prod.fst :=
    List.mem_map_of_mem (f := Prod.fst) (List.mem_filter.mpr ⟨there, by simp [batch, own]⟩)
  have ended : ((s.batchEnds slot).session j).EndedByFault := foldl_endRow s (.inl listed)
  have spared : j ∉ ((s.batchEnds slot).sessionsOf slot fun x => x = .opened).map Prod.fst := by
    intro opened
    obtain ⟨e, mem, rfl⟩ := List.mem_map.mp opened
    obtain ⟨mem, sel⟩ := List.mem_filter.mp mem
    have same : (s.batchEnds slot).session e.1 = e.2 := Tbl.get_of_mem ((batchEnds_end s slot).wf wf) mem
    rw [same] at ended
    simp [ended.1] at sel
  rw [faultSessions_eq, foldl_close _ spared]
  exact ended

-- the program

/-- Without editions no edition is retired (R357). -/
theorem drainCheck_none {s : State} (none : s.editions = []) (slot : Nat) : s.drainCheck slot = s := by
  have reset (i : Nat) : s.edition i = Edition.reset := by rw [State.edition, none, Tbl.get_nil]
  unfold State.drainCheck
  split
  · exact foldl_same _ _ _ fun i _ => if_neg (by rw [reset]; exact fun h => absurd h.1 (by decide))
  · rfl

/-- What a program fault leaves (R331, R477 to R480). -/
structure ProgramFaults (i : Nat) (s t : State) : Prop where
  faulting : Faulting s t
  state : (t.slot i).state = .faulted
  cores : ∀ c ∈ (s.slot i).cores, s.runs c = true → (t.core c).sq.mode = .faulted ∧ (t.core c).xf.out = []
  others : ∀ c, c ∉ (s.slot i).cores → OnlyMarked (s.core c) (t.core c)
  modes : ∀ c, (t.core c).sq.mode = .faulted ∨ (t.core c).sq.mode = (s.core c).sq.mode
  slots : ∀ j, j ≠ i → (t.slot j).state = (s.slot j).state
  sessions : Tbl.wf Session.reset s.sessions = true → ∀ j, (s.session j).slot = i → (s.session j).state.inBatch = true →
    (t.session j).EndedByFault

/-- A core that stops takes FAULTED or keeps its state (R154). -/
theorem programStopped_mode (k : Core) : k.programStopped.sq.mode = .faulted ∨ k.programStopped.sq.mode = k.sq.mode := by
  unfold Core.programStopped
  split
  · exact .inr rfl
  · exact .inl rfl

/-- The slot and the cores of a program that stops, before HOLD ABORT is sent (R478). -/
def State.programStops (s : State) (i reason : Nat) : State :=
  (s.slot i).cores.foldl (fun (t : State) c => t.programStop 0xFF reason c) (s.modSlot i fun x => { x with state := .faulted })

theorem programStops_faulting (s : State) (i reason : Nat) : Faulting s (s.programStops i reason) :=
  Faulting.trans (t := s.modSlot i fun x => { x with state := .faulted }) ⟨rfl, ⟨fun _ => rfl⟩, fun _ => rfl⟩
    (foldl_faulting (fun _ _ => programStop_faulting ..) ..)

theorem programStops_core (s : State) (i reason c : Nat) : (s.programStops i reason).core c
    = if c ∈ (s.slot i).cores then (s.core c).programStopped else s.core c :=
  foldl_core (g := fun _ => Core.programStopped) (fun _ _ _ => programStop_core ..) (slotCores_nodup _) _ c

theorem programStop_frame (s : State) (origin reason c : Nat) : OnlyCoresAndReports s (s.programStop origin reason c) := by
  unfold State.programStop
  split
  · exact .refl s
  · exact OnlyCoresAndReports.trans (t := s.modCore c Core.stopped) rfl
      ((capture_reported ..).trans (raise_reported ..)).frame.coresToo

theorem programStops_frame (s : State) (i reason : Nat) :
    OnlyCoresAndReports (s.modSlot i fun x => { x with state := .faulted }) (s.programStops i reason) :=
  foldl_onlyCoresAndReports (fun _ _ => programStop_frame ..) ..

theorem programStops_slots (s : State) (i reason j : Nat) :
    (s.programStops i reason).slot j = if j = i then { s.slot i with state := .faulted } else s.slot j := by
  have same : (s.programStops i reason).slot j = (s.modSlot i fun x => { x with state := .faulted }).slot j := by
    rw [programStops_frame]
    rfl
  rw [same, modSlot_slot]

theorem programFault_eq {s : State} {i : Nat} (running : (s.slot i).state = .running) (reason : Nat) :
    s.programFault i reason none = (((s.programStops i reason).sendAborts i).faultSessions i).sessionEnded i := by
  unfold State.programFault
  rw [if_neg (not_not_intro running)]
  simp only [reduceCtorEq, if_false]
  rfl

/-- A program fault of a RUNNING slot, without editions and with nothing to be given back (R331, R477 to R480). -/
theorem programFault_faults {s : State} {i : Nat} (running : (s.slot i).state = .running) (editions : s.editions = [])
    (quiet : Quiet s) (reason : Nat) : ProgramFaults i s (s.programFault i reason none) := by
  have stops := programStops_faulting s i reason
  have sends := sendAborts_sends (s.programStops i reason) i
  have ends := faultSessions_end ((s.programStops i reason).sendAborts i) i
  have faulting := (stops.trans sends.faulting).trans ends.faulting
  have nothing : (((s.programStops i reason).sendAborts i).faultSessions i).sessionEnded i
      = ((s.programStops i reason).sendAborts i).faultSessions i := by
    rw [State.sessionEnded, drainCheck_none (by rw [faulting.frame]; exact editions), progress_quiet _ (faulting.quiet quiet)]
  have slot (j : Nat) : ((((s.programStops i reason).sendAborts i).faultSessions i).slot j).state
      = if j = i then .faulted else (s.slot j).state := by
    rw [ends.slots, State.slot, sends.slots]
    refine (congrArg Slot.state (programStops_slots s i reason j)).trans ?_
    split <;> rfl
  have session (j : Nat) : ((s.programStops i reason).sendAborts i).session j = s.session j := by
    rw [State.session, sends.frame, programStops_frame]
    rfl
  have core (c : Nat) : OnlyMarked (if c ∈ (s.slot i).cores then (s.core c).programStopped else s.core c)
      ((((s.programStops i reason).sendAborts i).faultSessions i).core c) := by
    rw [ends.core, ← programStops_core s i reason]
    exact sends.marks c
  rw [programFault_eq running, nothing]
  refine ⟨faulting, (slot i).trans (if_pos rfl), fun c hc runs => ?_, fun c hc => ?_, fun c => ?_,
    fun j ne => (slot j).trans (if_neg ne), fun wf j own batch => ?_⟩
  · have marked := core c
    rw [if_pos hc, programStopped_runs runs] at marked
    exact ⟨congrArg Sequencer.mode marked.sq, marked.out⟩
  · have marked := core c
    rwa [if_neg hc] at marked
  · rw [(core c).sq]
    split
    · exact programStopped_mode _
    · exact .inr rfl
  · refine faultSessions_batch ?_ (by rw [session, own]) (by rw [session, batch])
    rw [sends.frame, programStops_frame]
    exact wf

end Sys2Proof.Machine

/-! PROOFS. HOLD_TIMEOUT, CORE_RUN_END and HALT_COMPLETE (R132, R150, R278, R435): a stamp that times out faults its program, a
halted core reads RUN = 0, a halted slot is LOADED again and its HALT completes. -/

namespace Sys2Proof.Machine

open Sys2Proof

-- commands that complete by their wait

theorem complete_cmds (s : State) (p q : Nat) (tag : BitVec 32) (r : Reply) : ((s.complete p tag r).port q).cmds
    = if q = p then (s.port p).cmds.filter fun x => x.tag ≠ tag else (s.port q).cmds := by
  unfold State.complete
  split
  · next absent =>
    split
    · next same =>
      rw [List.find?_eq_none] at absent
      rw [same, List.filter_eq_self.mpr]
      simpa using absent
    · rfl
  · rw [sendPacket_cmds, modPort_port]
    split <;> rfl

/-- A list of commands of one port completes. -/
def State.completeEach (s : State) (p : Nat) (r : Reply) (l : List Cmd) : State :=
  l.foldl (fun (s : State) c => s.complete p c.tag r) s

theorem completeEach_cmds (s : State) (p q : Nat) (r : Reply) (l : List Cmd) : ((s.completeEach p r l).port q).cmds
    = if q = p then (s.port p).cmds.filter fun x => x.tag ∉ l.map Cmd.tag else (s.port q).cmds := by
  unfold State.completeEach
  induction l generalizing s with
  | nil => simp; intro same; rw [same]
  | cons c l ih =>
    rw [List.foldl_cons, ih, complete_cmds, complete_cmds, if_pos rfl, List.filter_filter]
    split
    · refine List.filter_congr fun x _ => ?_
      simp [Bool.and_comm]
    · rfl

theorem completeWhere_eq (s : State) (sel : CmdWait → Bool) (r : Reply) : s.completeWhere sel r
    = (s.completeEach 0 r ((s.port 0).cmds.filter fun c => sel c.wait)).completeEach 1 r
      (((s.completeEach 0 r ((s.port 0).cmds.filter fun c => sel c.wait)).port 1).cmds.filter fun c => sel c.wait) := rfl

/-- On either port the commands that are left share no tag with one that was selected. -/
theorem completeWhere_cmds (s : State) (sel : CmdWait → Bool) (r : Reply) {p : Nat} (port : p < 2) :
    ((s.completeWhere sel r).port p).cmds = (s.port p).cmds.filter fun x =>
      x.tag ∉ ((s.port p).cmds.filter fun c => sel c.wait).map Cmd.tag := by
  have cases : p = 0 ∨ p = 1 := by omega
  rw [completeWhere_eq, completeEach_cmds]
  rcases cases with rfl | rfl
  · rw [if_neg (by decide), completeEach_cmds, if_pos rfl]
  · rw [if_pos rfl, completeEach_cmds, if_neg (by decide)]

/-- No command that waits so is left. -/
theorem completeWhere_unselected (s : State) (sel : CmdWait → Bool) (r : Reply) {p : Nat} (port : p < 2) {c : Cmd}
    (mem : c ∈ ((s.completeWhere sel r).port p).cmds) : sel c.wait = false := by
  rw [completeWhere_cmds s sel r port] at mem
  obtain ⟨mem, spared⟩ := List.mem_filter.mp mem
  by_contra selected
  have listed := List.mem_map_of_mem (f := Cmd.tag)
    (List.mem_filter (p := fun c => sel c.wait).mpr ⟨mem, (Bool.not_eq_false _).mp selected⟩)
  exact absurd listed (of_decide_eq_true spared)

/-- `t` is `s` but for the Tsudan ports. -/
def OnlyPorts (s t : State) : Prop := t = { s with ports := t.ports }

theorem OnlyPorts.trans {s t u : State} (h : OnlyPorts s t) (k : OnlyPorts t u) : OnlyPorts s u := by
  unfold OnlyPorts at *
  rw [k, h]

theorem completeEach_ports (s : State) (p : Nat) (r : Reply) (l : List Cmd) : OnlyPorts s (s.completeEach p r l) :=
  List.foldlRecOn (motive := OnlyPorts s) l _ rfl fun _ ht _ _ => ht.trans (complete_ports ..)

theorem completeWhere_ports (s : State) (sel : CmdWait → Bool) (r : Reply) : OnlyPorts s (s.completeWhere sel r) := by
  rw [completeWhere_eq]
  exact (completeEach_ports ..).trans (completeEach_ports ..)

-- HALT_COMPLETE

/-- A halted slot whose HALT has taken effect on every core (R278). -/
def Slot.halted (x : Slot) : Slot :=
  { x with prog := { x.prog with haltPending := false, started := false }
           state := if x.state = .running then .loaded else x.state }

theorem endHalt_completes {s : State} {slot : Nat} (pending : (s.slot slot).prog.haltPending = true)
    (running : (s.slot slot).state = .running) (stopped : s.slotStopped slot = true) :
    s.endHalt slot = (s.modSlot slot Slot.halted).completeWhere (fun w => decide (w = .halt slot)) (Reply.ok []) := by
  unfold State.endHalt
  rw [if_neg (by simp [pending, stopped])]
  simp only [running, reduceCtorEq, decide_false]
  rfl

-- CORE_RUN_END

/-- A halted core whose last word has completed (R132). -/
def Sequencer.ended (q : Sequencer) (n : Nat) : Sequencer := { q with run := false, residue := sat32 q.residue n }

theorem endRun_ends {s : State} {c : Nat} (run : (s.core c).sq.run = true) (halted : (s.core c).sq.halted = true)
    (drained : (s.core c).drained = true) : s.endRun c
      = if s.residue c = 0 then s.modSq c fun q => q.ended (s.residue c)
        else (s.modSq c fun q => q.ended (s.residue c)).raise0 (corePage c) 1 := if_pos ⟨run, halted, drained⟩

-- HOLD_TIMEOUT

/-- The cores of a slot that have arrived at a stamp (R435). -/
def State.arrivedCores (s : State) (i : Nat) : List Nat :=
  (s.slot i).cores.filter fun c => match (s.core c).sq.stamp with
    | some x => x.arrived
    | none => false

/-- What HOLD_TIMEOUT reports before it faults the program (R431, R435). -/
def State.holdExpired (s : State) (i : Nat) : State :=
  ((s.arrivedCores i).foldl (fun (s : State) c => s.raise (corePage c) 3 (leBytes 2 (s.core c).sq.stampId.toNat)) s).countTmo
    genPage

theorem foldl_reported {α : Type} {f : State → α → State} (h : ∀ s a, Reported s (f s a)) (l : List α) (s : State) :
    Reported s (l.foldl f s) :=
  List.foldlRecOn (motive := Reported s) l f (.refl s) fun t ht a _ => ht.trans (h t a)

theorem holdExpired_reports (s : State) (i : Nat) : OnlyReports s (s.holdExpired i) ∧ SameCmds s (s.holdExpired i)
    ∧ ((s.holdExpired i).page genPage).tmoCount = sat32 (s.page genPage).tmoCount 1 := by
  have reported := foldl_reported (f := fun (s : State) c => s.raise (corePage c) 3 (leBytes 2 (s.core c).sq.stampId.toNat))
    (fun _ _ => raise_reported ..) (s.arrivedCores i) s
  refine ⟨reported.frame.trans (modPage_reports ..), reported.cmds.trans (modPage_cmds ..), ?_⟩
  rw [State.holdExpired, State.countTmo, modPage_page, if_pos rfl]
  exact congrArg (sat32 · 1) (reported.expiries genPage)

theorem holdTimeout_faults {core : CoreId} {s : State} {st : StampWait} {i : Nat} (at_ : (s.core core).sq.stamp = some st)
    (arrived : st.arrived = true) (slot : s.slotOf core = some i) :
    exec (.holdTimeout core) s = .next ((s.holdExpired i).programFault i reasonHoldTimeout none).progress := by
  change execHoldTimeout core s = _
  unfold execHoldTimeout
  rw [at_, slot]
  simp only [arrived, Bool.true_eq_false, if_false]
  rfl

/-- Settles O24: the stamp's timeout faults its program, a drained core ends its run, a stopped slot ends its HALT. -/
theorem programsFaultAndRunsEnd : Obligations.ProgramsFaultAndRunsEnd := by
  unfold Obligations.ProgramsFaultAndRunsEnd
  refine ⟨?_, ?_, ?_⟩
  · intro core s st i at_ arrived slotOf running editions quiet wf
    obtain ⟨reports, cmds, count⟩ := holdExpired_reports s i
    have slot (j : Nat) : (s.holdExpired i).slot j = s.slot j := by rw [reports]; rfl
    have session (j : Nat) : (s.holdExpired i).session j = s.session j := by rw [reports]; rfl
    have quiet' := quiet_congr (by rw [reports]) (by rw [reports]) cmds quiet
    have faults := programFault_faults (s := s.holdExpired i) (i := i) (by rw [slot]; exact running)
      (by rw [reports]; exact editions) quiet' reasonHoldTimeout
    have step := holdTimeout_faults at_ arrived slotOf
    rw [progress_quiet _ (faults.faulting.quiet quiet')] at step
    refine ⟨_, step, faults.state, fun c hc runs => ?_, fun c hc => ?_, fun j ne => ?_, ?_, fun j own batch => ?_, ?_⟩
    · exact faults.cores c (by rw [slot]; exact hc) (by rw [State.runs, reports.core]; exact runs)
    · rw [← reports.core c]
      exact faults.others c (by rw [slot]; exact hc)
    · rw [faults.slots j ne, slot]
    · rw [faults.faulting.frame, reports]
    · exact faults.sessions (by rw [reports]; exact wf) j (by rw [session]; exact own) (by rw [session]; exact batch)
    · rw [faults.faulting.expiries, count]
  · intro core s run halted drained
    have counted : OnlyReports (s.modSq core fun q => q.ended (s.residue core)) (s.endRun core) := by
      rw [endRun_ends run halted drained]
      exact ite_reports (.refl _) (raise0_reports ..)
    refine ⟨s.endRun core, rfl, ?_, fun c ne => ?_, fun none => ?_, fun some => ⟨?_, ?_⟩⟩
    · rw [counted.core, modSq_self]
      rfl
    · rw [counted.core, modSq_core, if_neg ne]
    · rw [endRun_ends run halted drained, if_pos none]
      rfl
    · rw [endRun_ends run halted drained, if_neg some]
      exact raise0_sets _ _ _ (by decide)
    · rw [counted]
      rfl
  · intro slot s pending running stopped
    have ports := completeWhere_ports (s.modSlot slot Slot.halted) (fun w => decide (w = .halt slot)) (Reply.ok [])
    have slots (j : Nat) : ((s.modSlot slot Slot.halted).completeWhere (fun w => decide (w = .halt slot)) (Reply.ok [])).slot j
        = if j = slot then (s.slot slot).halted else s.slot j := by
      rw [← modSlot_slot, ports]
      rfl
    refine ⟨_, congrArg Host.Outcome.next (endHalt_completes pending running stopped), ?_, ?_, ?_, fun i ne => ?_,
      fun p port c mem => ?_⟩
    · rw [ports]
      rfl
    · rw [slots, if_pos rfl]
      exact if_pos running
    · rw [slots, if_pos rfl]
      rfl
    · rw [slots, if_neg ne]
    · exact of_decide_eq_false (completeWhere_unselected _ _ _ port mem)

end Sys2Proof.Machine

/-! PROOFS. Clusters that are isolated, cleared and recovered (R87, R154, R156, R481, R482, R489, R490): what each does to its
own cores, and that it leaves the other clusters and what waits to be given back. -/

namespace Sys2Proof.Machine

open Sys2Proof

-- isolation

/-- A core that stops in a state (R154). -/
def Core.stoppedIn (k : Core) (m : CoreMode) : Core := { k with sq := { k.sq with run := false, mode := m } }

/-- The cores of a cluster that moves to ISOLATED. -/
def State.isolateCores (s : State) (k : Nat) : State :=
  (clusterCores k).foldl (fun (s : State) c => (s.modSq c fun q => { q with run := false }).setMode c .isolated) s

theorem isolateCores_core (s : State) (k c : Nat) :
    (s.isolateCores k).core c = if c / 8 = k then (s.core c).stoppedIn .isolated else s.core c := by
  have step := foldl_core (f := fun (s : State) c => (s.modSq c fun q => { q with run := false }).setMode c .isolated)
    (g := fun _ k => k.stoppedIn .isolated) (fun s c d => by
      rw [setMode_core, modSq_core, modSq_core]
      split
      · next same => rw [if_pos rfl]; rfl
      · rfl) (clusterCores_nodup k) s c
  exact step.trans (if_congr mem_clusterCores rfl rfl)

theorem setMode_cmds (s : State) (c : Nat) (m : CoreMode) : SameCmds s (s.setMode c m) := by
  unfold State.setMode
  split
  · exact .refl s
  · exact SameCmds.trans (t := s.modSq c fun q => { q with mode := m }) ⟨fun _ => rfl⟩ (raise_cmds ..)

theorem isolateCores_frame (s : State) (k : Nat) :
    OnlyCoresAndReports s (s.isolateCores k) ∧ SameCmds s (s.isolateCores k) := by
  have stop (s : State) (c : Nat) : OnlyCoresAndReports s (s.modSq c fun q => { q with run := false }) := rfl
  exact ⟨foldl_onlyCoresAndReports (fun s c => (stop s c).trans (setMode_onlyCoresAndReports ..)) _ s,
    foldl_cmds _ _ (fun s c => SameCmds.trans (t := s.modSq c fun q => { q with run := false }) ⟨fun _ => rfl⟩ (setMode_cmds ..)) s⟩

/-- A cluster that is isolated awaits neither its isolation nor the end of a recovery run. -/
def Cluster.settled (x : Cluster) : Cluster := { x with isolating := false, recovering := false }

theorem isolateCluster_eq (s : State) (k : Nat) : s.isolateCluster k
    = ((((s.isolateCores k).modCluster k Cluster.settled).redigest).dropIsolation k).completeWhere
      (fun w => decide (w = .isolate [])) (Reply.ok []) := rfl

theorem dropIsolation_ports (s : State) (k : Nat) : OnlyPorts s (s.dropIsolation k) := rfl

/-- Isolation changes cores, the cluster, the digest of the column maps and reports. -/
theorem isolateCluster_ports (s : State) (k : Nat) :
    OnlyPorts ((s.isolateCores k).modCluster k Cluster.settled).redigest (s.isolateCluster k) := by
  rw [isolateCluster_eq]
  exact (dropIsolation_ports ..).trans (completeWhere_ports ..)

theorem isolateCluster_frame (s : State) (k : Nat) : OnlyReports { s with
    cores := (s.isolateCluster k).cores, clusters := (s.isolateCluster k).clusters, gen := (s.isolateCluster k).gen }
    (s.isolateCluster k) := by
  have ports := isolateCluster_ports s k
  have cores := (isolateCores_frame s k).1
  unfold OnlyReports
  unfold OnlyPorts at ports
  generalize s.isolateCluster k = t at ports ⊢
  rw [ports]
  simp only [State.redigest, State.modCluster]
  rw [cores]

theorem OnlyPorts.core {s t : State} (h : OnlyPorts s t) (c : Nat) : t.core c = s.core c := by
  rw [h]
  rfl

theorem OnlyPorts.gen {s t : State} (h : OnlyPorts s t) : t.gen = s.gen := by rw [h]

theorem OnlyPorts.cores {s t : State} (h : OnlyPorts s t) : t.cores = s.cores := by rw [h]

theorem OnlyPorts.fuses {s t : State} (h : OnlyPorts s t) : t.fuses = s.fuses := by rw [h]

theorem OnlyPorts.cluster {s t : State} (h : OnlyPorts s t) (k : Nat) : t.cluster k = s.cluster k := by
  rw [h]
  rfl

theorem OnlyCoresAndReports.cluster {s t : State} (h : OnlyCoresAndReports s t) (k : Nat) : t.cluster k = s.cluster k := by
  rw [h]
  rfl

theorem redigest_core (s : State) (c : Nat) : s.redigest.core c = s.core c := rfl

theorem redigest_cores (s : State) : s.redigest.cores = s.cores := rfl

theorem redigest_fuses (s : State) : s.redigest.fuses = s.fuses := rfl

theorem redigest_gen (s : State) : s.redigest.gen = { s.gen with colmap := s.columnDigest } := rfl

theorem redigest_cluster (s : State) (k : Nat) : s.redigest.cluster k = s.cluster k := rfl

theorem redigest_port (s : State) (q : Nat) : s.redigest.port q = s.port q := rfl

theorem modCluster_port (s : State) (k q : Nat) (f : Cluster → Cluster) : (s.modCluster k f).port q = s.port q := rfl

theorem modCluster_core (s : State) (k c : Nat) (f : Cluster → Cluster) : (s.modCluster k f).core c = s.core c := rfl

theorem isolateCluster_core (s : State) (k c : Nat) :
    (s.isolateCluster k).core c = if c / 8 = k then (s.core c).stoppedIn .isolated else s.core c := by
  rw [(isolateCluster_ports s k).core, redigest_core, modCluster_core, isolateCores_core]

theorem isolateCluster_cluster (s : State) (k j : Nat) :
    (s.isolateCluster k).cluster j = if j = k then (s.cluster k).settled else s.cluster j := by
  have cores := (isolateCores_frame s k).1
  rw [(isolateCluster_ports s k).cluster, redigest_cluster, modCluster_cluster, cores.cluster, cores.cluster]

theorem columnDigest_congr {s t : State} (cores : t.cores = s.cores) (fuses : t.fuses = s.fuses) :
    t.columnDigest = s.columnDigest := by
  have map (c : Nat) : t.mapBytes c = s.mapBytes c := by
    unfold State.mapBytes State.fused State.colMap State.core
    rw [cores, fuses]
  rw [State.columnDigest, funext map]
  rfl

/-- The digest is the one of the column maps that isolation leaves (R87, R490). -/
theorem isolateCluster_gen (s : State) (k : Nat) :
    (s.isolateCluster k).gen = { s.gen with colmap := (s.isolateCluster k).columnDigest } := by
  have ports := isolateCluster_ports s k
  have digest : (s.isolateCluster k).columnDigest = ((s.isolateCores k).modCluster k Cluster.settled).columnDigest :=
    columnDigest_congr (by rw [ports.cores, redigest_cores]) (by rw [ports.fuses, redigest_fuses])
  have old : ((s.isolateCores k).modCluster k Cluster.settled).gen = s.gen := by
    rw [State.modCluster_gen, (isolateCores_frame s k).1]
  rw [ports.gen, redigest_gen, digest, old]

-- commands that isolation ends

theorem completeEach_sub {s : State} {p q : Nat} {r : Reply} {l : List Cmd} {c : Cmd}
    (mem : c ∈ ((s.completeEach p r l).port q).cmds) : c ∈ (s.port q).cmds := by
  rw [completeEach_cmds] at mem
  split at mem
  · next same => rw [same]; exact List.mem_of_mem_filter mem
  · exact mem

theorem completeWhere_sub {s : State} {sel : CmdWait → Bool} {r : Reply} {q : Nat} {c : Cmd}
    (mem : c ∈ ((s.completeWhere sel r).port q).cmds) : c ∈ (s.port q).cmds := by
  rw [completeWhere_eq] at mem
  exact completeEach_sub (completeEach_sub mem)

theorem dropIsolation_cmds (s : State) (k q : Nat) : ((s.dropIsolation k).port q).cmds
    = if q < 2 then (s.port q).cmds.map fun c => c.isolated k else (s.port q).cmds := by
  unfold State.dropIsolation
  rw [List.foldl_cons, List.foldl_cons, List.foldl_nil, modPort_port, modPort_port, modPort_port]
  by_cases zero : q = 0
  · subst zero; rfl
  · by_cases one : q = 1
    · subst one; rfl
    · rw [if_neg one, if_neg zero, if_neg (by omega)]

theorem isolated_wait (c : Cmd) (k : Nat) : (c.isolated k).tag = c.tag
    ∧ ((c.isolated k).wait = c.wait ∨ ∃ l, (c.isolated k).wait = .isolate l) := by
  unfold Cmd.isolated
  split
  · exact ⟨rfl, .inr ⟨_, rfl⟩⟩
  · exact ⟨rfl, .inl rfl⟩

/-- The commands in progress before an isolation, as it finds them. -/
theorem settled_cmds (s : State) (k q : Nat) :
    ((((s.isolateCores k).modCluster k Cluster.settled).redigest).port q).cmds = (s.port q).cmds := by
  rw [redigest_port, modCluster_port, (isolateCores_frame s k).2.cmds]

-- work on one cluster

/-- Each command in progress was in progress before; an isolation may have changed what it waits for. -/
def FewerCmds (s t : State) : Prop :=
  ∀ q c, c ∈ (t.port q).cmds → ∃ c' ∈ (s.port q).cmds, c.wait = c'.wait ∨ ∃ l, c.wait = .isolate l

theorem FewerCmds.refl (s : State) : FewerCmds s s := fun _ c mem => ⟨c, mem, .inl rfl⟩

theorem FewerCmds.trans {s t u : State} (h : FewerCmds s t) (k : FewerCmds t u) : FewerCmds s u := fun q c mem => by
  obtain ⟨c', mem', wait⟩ := k q c mem
  obtain ⟨c'', mem'', wait'⟩ := h q c' mem'
  refine ⟨c'', mem'', wait.elim (fun same => ?_) .inr⟩
  rw [same]
  exact wait'

theorem SameCmds.fewer {s t : State} (h : SameCmds s t) : FewerCmds s t := fun q c mem => ⟨c, h.cmds q ▸ mem, .inl rfl⟩

theorem completeWhere_fewer (s : State) (sel : CmdWait → Bool) (r : Reply) : FewerCmds s (s.completeWhere sel r) :=
  fun _ c mem => ⟨c, completeWhere_sub mem, .inl rfl⟩

theorem dropIsolation_fewer (s : State) (k : Nat) : FewerCmds s (s.dropIsolation k) := fun q c mem => by
  rw [dropIsolation_cmds] at mem
  split at mem
  · obtain ⟨c', mem', rfl⟩ := List.mem_map.mp mem
    exact ⟨c', mem', (isolated_wait c' k).2⟩
  · exact ⟨c, mem, .inl rfl⟩

theorem isolateCluster_fewer (s : State) (k : Nat) : FewerCmds s (s.isolateCluster k) := by
  have settled : FewerCmds s ((s.isolateCores k).modCluster k Cluster.settled).redigest :=
    fun q c mem => ⟨c, settled_cmds s k q ▸ mem, .inl rfl⟩
  rw [isolateCluster_eq]
  exact (settled.trans (dropIsolation_fewer _ k)).trans (completeWhere_fewer _ _ _)

/-- Some partition's clearing is due (R213). -/
def State.AnyDue (s : State) : Prop := ∃ e ∈ s.clusters, ∃ p ∈ e.2.parts, p.2.due = true

/-- A step leaves what waits to be given back: no clearing becomes due, no tenant changes, no command begins. -/
structure KeepsQuiet (s t : State) : Prop where
  due : t.AnyDue → s.AnyDue
  tenants : t.tenants = s.tenants
  cmds : FewerCmds s t

theorem KeepsQuiet.refl (s : State) : KeepsQuiet s s := ⟨id, rfl, .refl s⟩

theorem KeepsQuiet.trans {s t u : State} (h : KeepsQuiet s t) (k : KeepsQuiet t u) : KeepsQuiet s u :=
  ⟨h.due ∘ k.due, k.tenants.trans h.tenants, h.cmds.trans k.cmds⟩

theorem KeepsQuiet.quiet {s t : State} (h : KeepsQuiet s t) (quiet : Quiet s) : Quiet t := by
  obtain ⟨due, releasing, binds⟩ := quiet
  refine ⟨fun e he p hp => ?_, by rw [h.tenants]; exact releasing, fun q c mem => ?_⟩
  · by_contra isDue
    obtain ⟨e', he', p', hp', due'⟩ := h.due ⟨e, he, p, hp, (Bool.not_eq_false _).mp isDue⟩
    exact absurd (due e' he' p' hp') (by rw [due']; decide)
  · obtain ⟨c', mem', wait⟩ := h.cmds q c mem
    rcases wait with same | ⟨l, isolates⟩
    · rw [same]
      exact binds q c' mem'
    · rw [isolates]
      exact ⟨nofun, nofun⟩

theorem keepsQuiet_of_cmds {s t : State} (clusters : t.clusters = s.clusters) (tenants : t.tenants = s.tenants)
    (cmds : FewerCmds s t) : KeepsQuiet s t := ⟨fun h => by rw [State.AnyDue, clusters] at h; exact h, tenants, cmds⟩

theorem Tbl.mem_erase {α : Type} {t : Tbl α} {k : Nat} {e : Nat × α} (mem : e ∈ Tbl.erase t k) : e ∈ t := by
  induction t with
  | nil => exact mem
  | cons a t ih =>
    rw [Tbl.erase] at mem
    split at mem
    · exact .tail _ (ih mem)
    · exact (List.mem_cons.mp mem).elim (· ▸ .head _) fun old => .tail _ (ih old)

theorem Tbl.mem_insert {α : Type} {t : Tbl α} {k : Nat} {v : α} {e : Nat × α} (mem : e ∈ Tbl.insert k v t) :
    e = (k, v) ∨ e ∈ t := by
  induction t with
  | nil => exact (List.mem_cons.mp mem).imp_right fun none => absurd none List.not_mem_nil
  | cons a t ih =>
    rw [Tbl.insert] at mem
    split at mem
    · exact List.mem_cons.mp mem
    · rcases List.mem_cons.mp mem with rfl | old
      · exact .inr (.head _)
      · exact (ih old).imp_right (.tail _)

theorem Tbl.mem_put {α : Type} [DecidableEq α] {d : α} {t : Tbl α} {k : Nat} {v : α} {e : Nat × α} (mem : e ∈ Tbl.put d t k v) :
    e = (k, v) ∨ e ∈ t := by
  unfold Tbl.put at mem
  split at mem
  · exact .inr (Tbl.mem_erase mem)
  · exact (Tbl.mem_insert mem).imp_right Tbl.mem_erase

/-- A change of a cluster that leaves its partitions. -/
theorem modCluster_keepsQuiet (s : State) (k : Nat) {f : Cluster → Cluster} (parts : ∀ x, (f x).parts = x.parts) :
    KeepsQuiet s (s.modCluster k f) := by
  refine ⟨?_, rfl, .refl s⟩
  rintro ⟨e, he, p, hp, due⟩
  rcases Tbl.mem_put he with rfl | old
  · rw [parts] at hp
    refine ⟨(k, s.cluster k), Tbl.mem_of_get fun reset => ?_, p, hp, due⟩
    rw [reset] at hp
    cases hp
  · exact ⟨e, old, p, hp, due⟩

end Sys2Proof.Machine

/-! PROOFS. Recovery (R154, R156, R273, R481, R482): the work on a cluster whose program has faulted, and the recovery run of
the curator. -/

namespace Sys2Proof.Machine

open Sys2Proof

/-- Work on the cores of one cluster: other cores, other clusters, memory, slots, editions and what waits to be given back
stay. -/
structure ClusterWork (k : Nat) (s t : State) : Prop where
  cores : ∀ c, c / 8 ≠ k → t.core c = s.core c
  clusters : ∀ j, j ≠ k → t.cluster j = s.cluster j
  slots : t.slots = s.slots
  editions : t.editions = s.editions
  mem : t.mem = s.mem
  quiet : KeepsQuiet s t

theorem ClusterWork.refl (k : Nat) (s : State) : ClusterWork k s s :=
  ⟨fun _ _ => rfl, fun _ _ => rfl, rfl, rfl, rfl, .refl s⟩

theorem ClusterWork.trans {k : Nat} {s t u : State} (h : ClusterWork k s t) (l : ClusterWork k t u) : ClusterWork k s u :=
  ⟨fun c hc => (l.cores c hc).trans (h.cores c hc), fun j hj => (l.clusters j hj).trans (h.clusters j hj),
    l.slots.trans h.slots, l.editions.trans h.editions, l.mem.trans h.mem, h.quiet.trans l.quiet⟩

/-- Work on each core of a cluster. -/
theorem foldl_clusterWork {k : Nat} {f : State → Nat → State} (h : ∀ s c, c / 8 = k → ClusterWork k s (f s c)) (s : State) :
    ClusterWork k s ((clusterCores k).foldl f s) :=
  List.foldlRecOn (motive := ClusterWork k s) _ f (.refl k s) fun t ht c mem => ht.trans (h t c (mem_clusterCores.mp mem))

theorem modCore_clusterWork (s : State) (c : Nat) (f : Core → Core) : ClusterWork (c / 8) s (s.modCore c f) where
  cores d other := (modCore_core ..).trans (if_neg fun same => other (by rw [same]))
  clusters _ _ := rfl
  slots := rfl
  editions := rfl
  mem := rfl
  quiet := keepsQuiet_of_cmds rfl rfl (.refl s)

theorem modCluster_clusterWork (s : State) (k : Nat) {f : Cluster → Cluster} (parts : ∀ x, (f x).parts = x.parts) :
    ClusterWork k s (s.modCluster k f) where
  cores _ _ := rfl
  clusters _ other := (modCluster_cluster ..).trans (if_neg other)
  slots := rfl
  editions := rfl
  mem := rfl
  quiet := modCluster_keepsQuiet s k parts

theorem setMode_clusterWork (s : State) (c : Nat) (m : CoreMode) : ClusterWork (c / 8) s (s.setMode c m) where
  cores d other := (setMode_core ..).trans (if_neg fun same => other (by rw [same]))
  clusters j _ := (setMode_onlyCoresAndReports s c m).cluster j
  slots := by rw [setMode_onlyCoresAndReports s c m]
  editions := by rw [setMode_onlyCoresAndReports s c m]
  mem := by rw [setMode_onlyCoresAndReports s c m]
  quiet := keepsQuiet_of_cmds (by rw [setMode_onlyCoresAndReports s c m]) (by rw [setMode_onlyCoresAndReports s c m])
    (setMode_cmds s c m).fewer

theorem isolateCluster_tenants (s : State) (k : Nat) : (s.isolateCluster k).tenants = s.tenants := by
  rw [isolateCluster_frame s k]

theorem isolateCluster_clusters (s : State) (k : Nat) :
    (s.isolateCluster k).clusters = (s.modCluster k Cluster.settled).clusters := by
  have ports := isolateCluster_ports s k
  have cores := (isolateCores_frame s k).1
  unfold OnlyPorts at ports
  rw [ports]
  simp only [State.redigest, State.modCluster]
  rw [cores]

theorem isolateCluster_clusterWork (s : State) (k : Nat) : ClusterWork k s (s.isolateCluster k) where
  cores c other := (isolateCluster_core s k c).trans (if_neg other)
  clusters j other := (isolateCluster_cluster s k j).trans (if_neg other)
  slots := by rw [isolateCluster_frame s k]
  editions := by rw [isolateCluster_frame s k]
  mem := by rw [isolateCluster_frame s k]
  quiet := by
    refine ⟨fun due => ?_, isolateCluster_tenants s k, isolateCluster_fewer s k⟩
    rw [State.AnyDue, isolateCluster_clusters] at due
    exact (modCluster_keepsQuiet s k (f := Cluster.settled) fun _ => rfl).due due

-- the clearing of a faulted cluster

/-- A core's working state and carrel are cleared (R156, R182). -/
def Core.wiped (k : Core) : Core :=
  { k.cleared with car := { k.car with clearing := true, nextTenant := k.sq.tenant, waitFor := none } }

/-- The clearing of a cluster's cores. -/
def State.clearCores (s : State) (k : Nat) : State :=
  (clusterCores k).foldl (fun (s : State) c => (s.clearCore c).wipeCarrel c none) s

/-- The cores of a cluster move to a state. -/
def State.moveCores (s : State) (k : Nat) (m : CoreMode) : State :=
  (clusterCores k).foldl (fun (s : State) c => s.setMode c m) s

theorem clearCore_core (s : State) (c d : Nat) : (s.clearCore c).core d = if d = c then (s.core c).cleared else s.core d :=
  (modCluster_core ..).trans (modCore_core ..)

theorem wipeCarrel_core (s : State) (c d : Nat) : (s.wipeCarrel c none).core d = if d = c then
    { s.core c with car := { (s.core c).car with clearing := true, nextTenant := (s.core c).sq.tenant, waitFor := none } }
    else s.core d := modCore_core ..

theorem clearCores_core (s : State) (k c : Nat) :
    (s.clearCores k).core c = if c / 8 = k then (s.core c).wiped else s.core c := by
  have step := foldl_core (f := fun (s : State) c => (s.clearCore c).wipeCarrel c none) (g := fun _ => Core.wiped)
    (fun s c d => by
      rw [wipeCarrel_core, clearCore_core, clearCore_core, if_pos rfl]
      split
      · rfl
      · rfl) (clusterCores_nodup k) s c
  exact step.trans (if_congr mem_clusterCores rfl rfl)

theorem wipeCarrel_clusterWork (s : State) (c : Nat) : ClusterWork (c / 8) s (s.wipeCarrel c none) := by
  unfold State.wipeCarrel State.modCar
  exact modCore_clusterWork s c _

theorem clearCores_clusterWork (s : State) (k : Nat) : ClusterWork k s (s.clearCores k) := by
  refine foldl_clusterWork (fun s c own => ?_) s
  subst own
  have clear : ClusterWork (c / 8) s (s.clearCore c) :=
    (modCore_clusterWork s c Core.cleared).trans (modCluster_clusterWork _ _ fun _ => rfl)
  exact clear.trans (wipeCarrel_clusterWork _ c)

theorem clearCores_cluster_isolating (s : State) (k : Nat) : ((s.clearCores k).cluster k).isolating = (s.cluster k).isolating := by
  refine List.foldlRecOn (motive := fun t : State => (t.cluster k).isolating = (s.cluster k).isolating) _ _ rfl
    fun t ht c mem => ?_
  rw [← ht]
  show (((t.modCore c Core.cleared).unloadRings c).cluster k).isolating = _
  unfold State.unloadRings
  rw [modCluster_cluster]
  split
  · next same => rw [← same]; rfl
  · rfl

theorem moveCores_core (s : State) (k : Nat) (m : CoreMode) (c : Nat) :
    (s.moveCores k m).core c = if c / 8 = k then (s.core c).inMode m else s.core c := by
  have step := foldl_core (f := fun (s : State) c => s.setMode c m) (g := fun _ k => k.inMode m)
    (fun s c d => setMode_core s c d m) (clusterCores_nodup k) s c
  exact step.trans (if_congr mem_clusterCores rfl rfl)

theorem moveCores_clusterWork (s : State) (k : Nat) (m : CoreMode) : ClusterWork k s (s.moveCores k m) :=
  foldl_clusterWork (fun s c own => own ▸ setMode_clusterWork s c m) s

/-- A core of the cluster has faulted in RECOVERY (R154). -/
def State.faultedInRecovery (s : State) (k : Nat) : Bool :=
  (clusterCores k).any fun c => decide ((s.core c).sq.mode = .faulted) && decide ((s.core c).sq.faultedFrom = .recovery)

/-- The state of the cores of a faulted program's cluster after its clearing (R154, R481). -/
def clearedMode (kind : Nat) : CoreMode := if kind = 3 ∨ kind = 4 then .diag else .recovery

theorem clearFaulted_eq (s : State) (kind k : Nat) : s.clearFaulted kind k
    = if (s.clearCores k).isolated k then s.clearCores k
      else if ((s.clearCores k).cluster k).isolating ∨ s.faultedInRecovery k then (s.clearCores k).isolateCluster k
      else (s.clearCores k).moveCores k (clearedMode kind) := rfl

theorem clearFaulted_clusterWork (s : State) (kind k : Nat) : ClusterWork k s (s.clearFaulted kind k) := by
  rw [clearFaulted_eq]
  have clear := clearCores_clusterWork s k
  split
  · exact clear
  · split
    · exact clear.trans (isolateCluster_clusterWork ..)
    · exact clear.trans (moveCores_clusterWork ..)

/-- Every core of the cluster has faulted, none of them in RECOVERY. -/
def State.ClusterFaulted (s : State) (k : Nat) : Prop :=
  ∀ c ∈ clusterCores k, (s.core c).sq.mode = .faulted ∧ (s.core c).sq.faultedFrom ≠ .recovery

theorem clusterFaulted_not_isolated {s : State} {k : Nat} (faulted : s.ClusterFaulted k) : (s.clearCores k).isolated k = false := by
  refine Bool.eq_false_iff.mpr fun all => ?_
  have mem : 8 * k ∈ clusterCores k := mem_clusterCores.mpr (by omega)
  have mode := of_decide_eq_true (List.all_eq_true.mp all _ mem)
  rw [clearCores_core, if_pos (mem_clusterCores.mp mem)] at mode
  exact absurd ((faulted _ mem).1.symm.trans mode) (by decide)

theorem clusterFaulted_not_inRecovery {s : State} {k : Nat} (faulted : s.ClusterFaulted k) : s.faultedInRecovery k = false :=
  List.any_eq_false.mpr fun c mem => by simp [(faulted c mem).2]

/-- A faulted cluster that no isolation claims: its cores are wiped and move on. -/
theorem clearFaulted_core {s : State} {kind k c : Nat} (faulted : s.ClusterFaulted k) (free : (s.cluster k).isolating = false)
    (mem : c ∈ clusterCores k) : (s.clearFaulted kind k).core c = (s.core c).wiped.inMode (clearedMode kind) := by
  have own := mem_clusterCores.mp mem
  rw [clearFaulted_eq, clusterFaulted_not_isolated faulted, clearCores_cluster_isolating, free,
    clusterFaulted_not_inRecovery faulted, if_neg (by decide), if_neg (by decide), moveCores_core, if_pos own,
    clearCores_core, if_pos own]

/-- What is done to each cluster of a list without repetitions leaves, on each of them, what its own step leaves. -/
theorem foldl_cluster_core {f : State → Nat → State} (work : ∀ s k, ClusterWork k s (f s k)) {l : List Nat} (once : l.Nodup)
    {k : Nat} (mem : k ∈ l) (s : State) :
    ∃ u, (∀ c, c / 8 = k → u.core c = s.core c) ∧ u.cluster k = s.cluster k
      ∧ ∀ c, c / 8 = k → (l.foldl f s).core c = (f u k).core c := by
  induction l generalizing s with
  | nil => cases mem
  | cons a l ih =>
    obtain ⟨fresh, rest⟩ := List.nodup_cons.mp once
    rw [List.foldl_cons]
    rcases List.mem_cons.mp mem with rfl | later
    · refine ⟨s, fun _ _ => rfl, rfl, fun c own => ?_⟩
      refine List.foldlRecOn (motive := fun t : State => t.core c = (f s k).core c) l f rfl fun t ht j hj => ?_
      exact ((work t j).cores c fun same => fresh (by rw [← own, same]; exact hj)).trans ht
    · have other : k ≠ a := fun same => fresh (same ▸ later)
      obtain ⟨u, core, cluster, result⟩ := ih rest later (f s a)
      exact ⟨u, fun c own => (core c own).trans ((work s a).cores c (own ▸ other)),
        cluster.trans ((work s a).clusters k other), result⟩

/-- Work on several clusters leaves slots, editions and what waits to be given back. -/
theorem foldl_clusterWork_rest {f : State → Nat → State} (work : ∀ s k, ClusterWork k s (f s k)) (l : List Nat) (s : State) :
    (l.foldl f s).slots = s.slots ∧ (l.foldl f s).editions = s.editions ∧ KeepsQuiet s (l.foldl f s) :=
  List.foldlRecOn (motive := fun t : State => t.slots = s.slots ∧ t.editions = s.editions ∧ KeepsQuiet s t) l f
    ⟨rfl, rfl, .refl s⟩ fun t ⟨slots, editions, quiet⟩ k _ =>
      ⟨(work t k).slots.trans slots, (work t k).editions.trans editions, quiet.trans (work t k).quiet⟩

-- the slot becomes EMPTY

/-- A core that has been cleared, in a state (R154, R156, R182). -/
structure ClearedCore (m : CoreMode) (k : Core) : Prop where
  carrel : k.car.clearing = true
  store : k.sq.istore = []
  descs : k.xf.descs = []
  matrix : k.mx.active = none
  vector : k.vx.desc = []
  mode : k.sq.mode = m

theorem wiped_cleared (k : Core) (m : CoreMode) : ClearedCore m (k.wiped.inMode m) := ⟨rfl, rfl, rfl, rfl, rfl, rfl⟩

/-- The cores of an emptied slot no longer pad. -/
def State.unpad (s : State) (l : List Nat) : State :=
  l.foldl (fun (s : State) c => s.modSq c fun q => { q with padded := false }) s

/-- The carrels of a reading-room or self-test folio are cleared (R514). -/
def State.wipeAll (s : State) (l : List Nat) : State := l.foldl (fun (s : State) c => s.wipeCarrel c none) s

/-- A slot without its folio, its load and its program. -/
def Slot.emptied (x : Slot) : Slot :=
  { x with
    state := .empty, load := none, check := LoadCheck.reset, folio := none, prog := Prog.reset, queue := [], admits := [] }

/-- The slot holds a reading-room or self-test folio. -/
def Slot.tests (x : Slot) : Bool := match x.folio with | some f => f.kind = 3 || f.kind = 4 | none => false

theorem retireEdition_free {s : State} (none : s.editions = []) (i : Nat) : s.retireEdition i = s := by
  unfold State.retireEdition
  refine if_pos (.inl ?_)
  unfold State.edition
  rw [none]
  rfl

theorem retire_none {s : State} (none : s.editions = []) (i : Nat) : (List.range 16).foldl (fun (s : State) e =>
    if (s.edition e).slot = i then s.retireEdition e else s) s = s :=
  List.foldlRecOn (motive := fun t : State => t = s) _ _ rfl fun t ht e _ => by
    rw [ht]
    split
    · exact retireEdition_free none e
    · rfl

theorem emptySlot_eq {s : State} (none : s.editions = []) (i : Nat) : s.emptySlot i
    = (((if ((s.unpad (s.slot i).cores).slot i).tests then
        (s.unpad (s.slot i).cores).wipeAll ((s.unpad (s.slot i).cores).slot i).cores
      else s.unpad (s.slot i).cores).dropRoutes i).modSlot i Slot.emptied) := by
  unfold State.emptySlot
  rw [retire_none none]
  rfl

theorem unpad_onlyCores (s : State) (l : List Nat) : s.unpad l = { s with cores := (s.unpad l).cores } :=
  foldl_onlyCores (fun _ _ => rfl) l s

theorem wipeAll_onlyCores (s : State) (l : List Nat) : s.wipeAll l = { s with cores := (s.wipeAll l).cores } :=
  foldl_onlyCores (fun _ _ => rfl) l s

theorem unpad_cleared {m : CoreMode} {c : Nat} (l : List Nat) {s : State} (h : ClearedCore m (s.core c)) :
    ClearedCore m ((s.unpad l).core c) := by
  refine List.foldlRecOn (motive := fun t : State => ClearedCore m (t.core c)) l _ h fun t ⟨car, store, descs, mx, vx, mode⟩ d _ => ?_
  rw [modSq_core]
  split
  · next same => subst same; exact ⟨car, store, descs, mx, vx, mode⟩
  · exact ⟨car, store, descs, mx, vx, mode⟩

theorem wipeAll_cleared {m : CoreMode} {c : Nat} (l : List Nat) {s : State} (h : ClearedCore m (s.core c)) :
    ClearedCore m ((s.wipeAll l).core c) := by
  refine List.foldlRecOn (motive := fun t : State => ClearedCore m (t.core c)) l _ h fun t ⟨car, store, descs, mx, vx, mode⟩ d _ => ?_
  rw [wipeCarrel_core]
  split
  · next same => subst same; exact ⟨rfl, store, descs, mx, vx, mode⟩
  · exact ⟨car, store, descs, mx, vx, mode⟩

theorem dropRoutes_onlyRoutes (s : State) (i : Nat) : s.dropRoutes i = { s with routes := (s.dropRoutes i).routes } :=
  List.foldlRecOn (motive := fun t : State => t = { s with routes := t.routes }) _ _ rfl fun t ht r _ => by
    rw [ht]
    rfl

theorem dropRoutes_core (s : State) (i c : Nat) : (s.dropRoutes i).core c = s.core c := by
  rw [dropRoutes_onlyRoutes]
  rfl

/-- An emptied slot, without editions: what its cores hold stays cleared, and nothing else waits than before. -/
theorem emptySlot_empties {s : State} (none : s.editions = []) (i : Nat) :
    (s.emptySlot i).slot i = ((s.emptySlot i).slot i).emptied ∧ KeepsQuiet s (s.emptySlot i)
      ∧ ∀ m c, ClearedCore m (s.core c) → ClearedCore m ((s.emptySlot i).core c) := by
  rw [emptySlot_eq none]
  generalize ht : (if ((s.unpad (s.slot i).cores).slot i).tests then _ else _ : State) = t
  have cores : t = { s with cores := t.cores } := by
    rw [← ht]
    split
    · rw [wipeAll_onlyCores, unpad_onlyCores]
    · exact unpad_onlyCores ..
  have cleared (m : CoreMode) (c : Nat) (h : ClearedCore m (s.core c)) : ClearedCore m (t.core c) := by
    rw [← ht]
    split
    · exact wipeAll_cleared _ (unpad_cleared _ h)
    · exact unpad_cleared _ h
  have frame : (t.dropRoutes i).modSlot i Slot.emptied
      = { s with cores := t.cores, routes := (t.dropRoutes i).routes, slots := ((t.dropRoutes i).modSlot i Slot.emptied).slots } := by
    rw [State.modSlot, dropRoutes_onlyRoutes, cores]
  refine ⟨by rw [modSlot_slot, if_pos rfl]; rfl, ?_, fun m c h => ?_⟩
  · rw [frame]
    exact keepsQuiet_of_cmds rfl rfl (.refl s)
  · have same : ((t.dropRoutes i).modSlot i Slot.emptied).core c = t.core c := dropRoutes_core ..
    rw [same]
    exact cleared m c h

/-- A HALT under way ends with FAULT (R278). -/
def State.failHalt (s : State) (i : Nat) : State := s.completeWhere (fun w => decide (w = .halt i)) (Reply.err stFault)

/-- The clearing of the clusters that a slot claims (R481). -/
def State.clearClaimed (s : State) (i : Nat) : State :=
  ((List.range 32).filter (s.slot i).claims).foldl (fun (s' : State) k => s'.clearFaulted (s.slot i).kind k) s

theorem clearFaultedSlot_eq {s : State} {i : Nat} (faulted : (s.slot i).state = .faulted) (stopped : s.slotStopped i = true) :
    s.clearFaultedSlot i = (((s.failHalt i).clearClaimed i).emptySlot i).progress := by
  unfold State.clearFaultedSlot
  rw [if_neg (by rw [faulted, stopped]; decide)]
  rfl

theorem failHalt_ports (s : State) (i : Nat) : OnlyPorts s (s.failHalt i) := completeWhere_ports ..

theorem failHalt_quiet (s : State) (i : Nat) : KeepsQuiet s (s.failHalt i) := by
  have ports := failHalt_ports s i
  exact keepsQuiet_of_cmds (by rw [ports]) (by rw [ports]) (completeWhere_fewer s _ _)

theorem OnlyPorts.slot {s t : State} (h : OnlyPorts s t) (i : Nat) : t.slot i = s.slot i := by
  rw [h]
  rfl

/-- The clearing of the clusters wipes each faulted one that no isolation claims. -/
theorem clearClaimed_core {s : State} {i k c : Nat} (lt : k < 32) (claims : (s.slot i).claims k = true)
    (free : (s.cluster k).isolating = false) (faulted : s.ClusterFaulted k) (mem : c ∈ clusterCores k) :
    ClearedCore (clearedMode (s.slot i).kind) ((s.clearClaimed i).core c) := by
  have own := mem_clusterCores.mp mem
  obtain ⟨u, core, cluster, result⟩ := foldl_cluster_core
    (f := fun s' k => s'.clearFaulted (s.slot i).kind k) (fun s' k => clearFaulted_clusterWork s' _ k)
    (List.nodup_range.filter _) (List.mem_filter.mpr ⟨List.mem_range.mpr lt, claims⟩) s
  have faulted' : u.ClusterFaulted k := fun d hd => by
    rw [core d (mem_clusterCores.mp hd)]
    exact faulted d hd
  rw [State.clearClaimed, result c own, clearFaulted_core faulted' (cluster ▸ free) mem]
  exact wiped_cleared ..

theorem clearFaultedSlot_clears {s : State} {i k : Nat} (faulted : (s.slot i).state = .faulted)
    (stopped : s.slotStopped i = true) (noEdition : s.editions = []) (quiet : Quiet s) (lt : k < 32)
    (claims : (s.slot i).claims k = true) (free : (s.cluster k).isolating = false) (cores : s.ClusterFaulted k) :
    (s.clearFaultedSlot i).slot i = ((s.clearFaultedSlot i).slot i).emptied
      ∧ ∀ c ∈ clusterCores k, ClearedCore (clearedMode (s.slot i).kind) ((s.clearFaultedSlot i).core c) := by
  have ports := failHalt_ports s i
  have slot := ports.slot i
  obtain ⟨-, editions, kept⟩ := foldl_clusterWork_rest
    (f := fun s' k => s'.clearFaulted ((s.failHalt i).slot i).kind k) (fun s' k => clearFaulted_clusterWork s' _ k)
    ((List.range 32).filter ((s.failHalt i).slot i).claims) (s.failHalt i)
  have none : ((s.failHalt i).clearClaimed i).editions = [] := by
    rw [State.clearClaimed, editions, ports]
    exact noEdition
  obtain ⟨empty, waits, stay⟩ := emptySlot_empties none i
  have same : s.clearFaultedSlot i = ((s.failHalt i).clearClaimed i).emptySlot i := by
    rw [clearFaultedSlot_eq faulted stopped]
    exact progress_quiet _ ((((failHalt_quiet s i).trans kept).trans waits).quiet quiet)
  rw [same, ← slot]
  refine ⟨empty, fun c mem => stay _ c (clearClaimed_core lt (slot ▸ claims) ?_ (fun d hd => ?_) mem)⟩
  · rw [ports.cluster]
    exact free
  · rw [ports.core]
    exact cores d hd

-- the recovery run of the curator (R482)

/-- The cluster is under a recovery run. -/
def Cluster.underRun (x : Cluster) : Cluster := { x with recovering := true }

/-- Every core of a cluster reads RUN = 1. -/
def State.runCores (s : State) (k : Nat) : State :=
  (clusterCores k).foldl (fun (s : State) c => s.modSq c fun q => { q with run := true }) s

theorem runCores_onlyCores (s : State) (k : Nat) : ∃ cores, s.runCores k = { s with cores := cores } :=
  ⟨_, foldl_onlyCores (fun _ _ => rfl) _ s⟩

theorem runCores_cluster (s : State) (k j : Nat) : (s.runCores k).cluster j = s.cluster j := by
  obtain ⟨cores, run⟩ := runCores_onlyCores s k
  rw [run]
  rfl

theorem runCores_marked (s : State) (k : Nat) : ∃ cores clusters,
    (s.modCluster k Cluster.underRun).runCores k = { s with cores := cores, clusters := clusters } := by
  obtain ⟨cores, run⟩ := runCores_onlyCores (s.modCluster k Cluster.underRun) k
  exact ⟨cores, _, run⟩

theorem runCores_core (s : State) (k c : Nat) : (s.runCores k).core c
    = if c ∈ clusterCores k then { s.core c with sq := { (s.core c).sq with run := true } } else s.core c :=
  foldl_core (g := fun _ k => { k with sq := { k.sq with run := true } }) (fun _ _ _ => modSq_core ..)
    (clusterCores_nodup k) s c

theorem startRecovery_eq {s : State} {k : Nat} (ready : s.clusterIn k .recovery = true) (unclaimed : s.claimant k = none)
    (mayNot : s.mayClaim k = false) (idle : (s.cluster k).recovering = false) :
    s.startRecovery k = (s.modCluster k Cluster.underRun).runCores k :=
  if_pos ⟨ready, unclaimed, mayNot, idle⟩

theorem startRecovery_starts {s : State} {k : Nat} (ready : s.clusterIn k .recovery = true) (unclaimed : s.claimant k = none)
    (mayNot : s.mayClaim k = false) (idle : (s.cluster k).recovering = false) :
    s.startRecovery k = { s with cores := (s.startRecovery k).cores, clusters := (s.startRecovery k).clusters }
      ∧ (∀ j, (s.startRecovery k).cluster j = if j = k then { s.cluster k with recovering := true } else s.cluster j)
      ∧ ∀ c, (s.startRecovery k).core c
          = if c ∈ clusterCores k then { s.core c with sq := { (s.core c).sq with run := true } } else s.core c := by
  rw [startRecovery_eq ready unclaimed mayNot idle]
  obtain ⟨cores, clusters, run⟩ := runCores_marked s k
  exact ⟨by rw [run], fun j => (runCores_cluster ..).trans (modCluster_cluster ..),
    fun c => runCores_core ..⟩

/-- A core that a passed recovery run leaves in SERVICE (R482). -/
def Core.recovered (k : Core) : Core :=
  { k with
    car := { k.car with clearing := true, nextTenant := k.sq.tenant, waitFor := none }
    sq := { k.sq with run := false, mode := .service } }

theorem recoveryPass_core (s : State) (k c : Nat) :
    (s.recoveryPass k).core c = if c / 8 = k then (s.core c).recovered else s.core c := by
  have step := foldl_core
    (f := fun (s : State) c => ((s.wipeCarrel c none).modSq c fun q => { q with run := false }).setMode c .service)
    (g := fun _ => Core.recovered) (fun s c d => by
      rw [setMode_core, modSq_core, modSq_core, wipeCarrel_core, wipeCarrel_core, if_pos rfl, if_pos rfl]
      split
      · rfl
      · rfl) (clusterCores_nodup k) (s.modCluster k fun x => { x with recovering := false }) c
  exact step.trans (if_congr mem_clusterCores rfl rfl)

theorem recoveryPass_frame (s : State) (k : Nat) :
    OnlyCoresAndReports (s.modCluster k fun x => { x with recovering := false }) (s.recoveryPass k) :=
  foldl_onlyCoresAndReports (fun s c => OnlyCoresAndReports.trans
    (t := (s.wipeCarrel c none).modSq c fun q => { q with run := false }) rfl (setMode_onlyCoresAndReports ..)) _ _

/-- The end of a recovery run that no isolation claims (R482). -/
theorem endRecovery_eq {s : State} {k : Nat} (passed : Bool) (under : (s.cluster k).recovering = true)
    (free : (s.cluster k).isolating = false) :
    s.endRecovery k passed = if passed then s.recoveryPass k else s.isolateCluster k := by
  unfold State.endRecovery
  rw [if_pos under, free, Bool.not_false, Bool.and_true]

/-- Settles O25, by the work on each cluster in turn, which leaves the others, then the emptying of the slot; a recovery run
ends with the wiping of its cores or with their isolation. -/
theorem faultedClustersRecover : Obligations.FaultedClustersRecover := by
  unfold Obligations.FaultedClustersRecover
  refine ⟨fun slot s k faulted stopped editions quiet lt claims free cores => ?_,
    fun k s ready unclaimed mayNot idle => ?_, fun k passed s under _ free => ?_⟩
  · obtain ⟨empty, cleared⟩ := clearFaultedSlot_clears faulted stopped editions quiet lt claims free cores
    refine ⟨_, rfl, by rw [empty]; rfl, by rw [empty]; rfl, fun c mem => ?_⟩
    obtain ⟨car, store, descs, mx, vx, mode⟩ := cleared c mem
    exact ⟨car, store, descs, mx, vx, mode⟩
  · obtain ⟨frame, cluster, core⟩ := startRecovery_starts ready unclaimed mayNot idle
    exact ⟨_, rfl, frame, (cluster k).trans (if_pos rfl), fun c mem => (core c).trans (if_pos mem),
      fun c mem => (core c).trans (if_neg mem), fun j other => (cluster j).trans (if_neg other)⟩
  · refine ⟨_, rfl, ?_⟩
    rw [endRecovery_eq passed under free]
    cases passed with
    | true =>
      have frame := recoveryPass_frame s k
      rw [if_pos rfl]
      refine ⟨?_, by rw [frame]; rfl, fun c mem => ?_, nofun, fun c mem => ?_⟩
      · rw [frame.cluster, modCluster_cluster, if_pos rfl]
      · rw [recoveryPass_core, if_pos (mem_clusterCores.mp mem)]
        exact ⟨rfl, rfl, fun _ => rfl⟩
      · rw [recoveryPass_core, if_neg fun own => mem (mem_clusterCores.mpr own)]
    | false =>
      have work := isolateCluster_clusterWork s k
      rw [if_neg (by decide)]
      refine ⟨?_, work.mem, fun c mem => ?_, fun _ => by rw [isolateCluster_gen], fun c mem => ?_⟩
      · rw [isolateCluster_cluster, if_pos rfl]
        rfl
      · rw [isolateCluster_core, if_pos (mem_clusterCores.mp mem)]
        exact ⟨rfl, rfl, nofun⟩
      · exact work.cores c fun own => mem (mem_clusterCores.mpr own)

end Sys2Proof.Machine

/-! PROOFS. Service registers of the shelves, carrels and cores (R160, R188 to R190, R489): which checks their entries pass
and what each entry makes of the state. -/

namespace Sys2Proof.Machine

open Sys2Proof

-- the pages (R423, R424)

theorem diePage_of_number {d i : Nat} (die : d < 2) (index : i < 0x10000) : Page.ofNumber (diePageNo d i) = diePage d i := by
  have high : diePageNo d i / 0x10000 = 2 + d := by unfold diePageNo; omega
  have low : diePageNo d i % 0x10000 = i := by unfold diePageNo; omega
  unfold Page.ofNumber
  rw [high, low, if_neg (by omega), if_pos (by omega), Nat.add_sub_cancel_left]

theorem shf_page {k : Nat} (lt : k < 32) : Page.ofNumber (shfPage k) = some (.shf k) := by
  rw [shfPage, diePage_of_number (by omega) (by omega)]
  have page : 16 * (k / 16) + (0x100 + k % 16 - 0x100) = k := by omega
  unfold diePage
  rw [if_neg (by omega), if_neg (by omega), if_neg (by omega), if_neg (by omega), if_neg (by omega), if_neg (by omega),
    if_neg (by omega), if_neg (by omega), if_pos (by omega), page]

/-- The page of a unit of a core (R424). -/
theorem unit_page {block c : Nat} (unit : block < 6) (lt : c < 256) : Page.ofNumber (unitPage block c)
    = [Page.core c, .mxe c, .vec c, .rdu c, .xfe c, .car c][block]? := by
  rw [unitPage, diePage_of_number (by omega) (by omega)]
  have core : 128 * (c / 128) + (0x1000 + 0x100 * block + c % 128) % 256 = c := by omega
  have index : (0x1000 + 0x100 * block + c % 128) / 256 - 16 = block := by omega
  unfold diePage
  rw [if_neg (by omega), if_neg (by omega), if_neg (by omega), if_neg (by omega), if_neg (by omega), if_neg (by omega),
    if_neg (by omega), if_neg (by omega), if_neg (by omega), if_pos (by omega), core, index]

theorem core_page {c : Nat} (lt : c < 256) : Page.ofNumber (corePage c) = some (.core c) := unit_page (by decide) lt

theorem car_page {c : Nat} (lt : c < 256) : Page.ofNumber (carPage c) = some (.car c) := unit_page (by decide) lt

theorem die_of_number {g : Page} {d i : Nat} (number : g.number = diePageNo d i) (index : i < 0x10000) : g.die ≠ none := by
  have region : g.number / 0x10000 ≠ 1 := by
    rw [number]
    unfold diePageNo
    omega
  unfold Page.die
  rw [if_neg region]
  nofun

theorem shf_die (k : Nat) : (Page.shf k).die ≠ none := die_of_number rfl (by omega)

theorem core_die (c : Nat) : (Page.core c).die ≠ none := die_of_number rfl (by omega)

theorem car_die (c : Nat) : (Page.car c).die ≠ none := die_of_number rfl (by omega)

-- SHF_CTRL (R488, R489)

section Shelf

variable {s : State} {p : Nat} {tag : BitVec 32} {k v : Nat}

/-- The cluster with MAPOUT as an entry of SHF_CTRL stores it. -/
def Cluster.stores (x : Cluster) (v : Nat) : Cluster := { x with mapout := decide (v / 4 % 2 = 1) }

/-- The checks of SHF_CTRL, where an isolation is permitted and no slot refuses it. -/
theorem shfCtrl_passes (lt : k < 32) (small : v < 8) (reach : s.regBusy p (.shf k) = false)
    (allowed : s.isolates k v = true → s.holds p = true ∧ s.fused k = false ∧ s.isolateFault k v 0 = none) :
    EntryPasses s p tag (shfPage k) 0x008 v (.shf k) where
  page := shf_page lt
  inPage := by decide
  aligned := rfl
  exists_ := nofun
  bits := by
    have mask : ∀ w : Fin 8, (BitVec.ofNat 32 w.val : W32) &&& ~~~(BitVec.ofNat 32 7) = 0 := by decide
    exact ⟨7, rfl, mask ⟨v, small⟩⟩
  range := by simp [State.rangeBad]
  permitted := by
    unfold State.forbidden
    rw [decide_eq_false (shf_die k)]
    cases isolates : s.isolates k v with
    | false => simp [isolates]
    | true =>
      obtain ⟨holds, fused, -⟩ := allowed isolates
      simp [holds, fused]
  reachable := reach
  state := by
    unfold State.stateFault
    cases isolates : s.isolates k v with
    | false => simp [isolates]
    | true => simp [isolates, (allowed isolates).2.2]

theorem shfCtrl_acts (h : EntryPasses s p tag (shfPage k) 0x008 v (.shf k)) :
    State.entryAct p tag s (shfPage k * 4096 + 0x008) v
      = if s.isolates k v then (s.modCluster k fun x => x.stores v).isolate k else s.modCluster k fun x => x.stores v := by
  have set : s.entrySet (shfPage k * 4096 + 0x008) v = s.modCluster k fun x => x.stores v := by
    rw [h.entrySet]
    rfl
  unfold State.entryAct
  rw [set, entry_page _ _ h.inPage, h.page, entry_offset _ _ h.inPage]
  simp

theorem shfCtrl_cluster (h : EntryPasses s p tag (shfPage k) 0x008 v (.shf k)) :
    s.entryCluster (shfPage k * 4096 + 0x008) v = if s.isolates k v then some k else none := by
  unfold State.entryCluster
  rw [entry_page _ _ h.inPage, h.page, entry_offset _ _ h.inPage]
  simp

theorem shfPage_ne_chtPage (k : Nat) : shfPage k ≠ chtPage := by
  unfold shfPage diePageNo chtPage modPageNo
  omega

/-- An entry that isolates its cluster ends at once where the cluster is ISOLATED then, else the command waits. -/
theorem shfCtrl_isolates (h : EntryPasses s p tag (shfPage k) 0x008 v (.shf k)) (isolates : s.isolates k v = true) :
    writeAll p tag [(shfPage k * 4096 + 0x008, v)] s
      = ((s.modCluster k fun x => x.stores v).isolate k,
          if ((s.modCluster k fun x => x.stores v).isolate k).isolated k then .done (Reply.ok []) else .waits (.isolate [k])) := by
  have keeps := entryYields_eq_false (shfPage k) 0x008 v (by decide) (.inl (shfPage_ne_chtPage k))
  have act : State.entryAct p tag s (shfPage k * 4096 + 0x008) v = (s.modCluster k fun x => x.stores v).isolate k := by
    rw [shfCtrl_acts h, if_pos isolates]
  have cluster : s.entryCluster (shfPage k * 4096 + 0x008) v = some k := by rw [shfCtrl_cluster h, if_pos isolates]
  unfold writeAll
  simp only [State.firstFault, List.zipIdx, h.writeFault, List.filterMap_cons, cluster, List.filterMap_nil, List.foldl_cons,
    List.foldl_nil, act, List.any_cons, List.any_nil, keeps]
  cases done : ((s.modCluster k fun x => x.stores v).isolate k).isolated k <;> simp [done]

/-- No slot refuses an isolation (R489). -/
theorem isolateFault_none (idle : s.isolated k = true
      ∨ (∀ e ∈ s.slots, e.2.state = .loading ∨ e.2.state = .loaded → e.2.claims k = false)
        ∧ (v / 2 % 2 = 1 ∨ ∀ e ∈ s.slots, e.2.state = .running → e.2.claims k = false)) : s.isolateFault k v 0 = none := by
  unfold State.isolateFault
  rcases idle with isolated | ⟨loaded, rest⟩
  · rw [if_pos isolated]
  · have noLoad : (s.slots.find? fun e => (decide (e.2.state = .loading) || decide (e.2.state = .loaded)) && e.2.claims k) = none := by
      simpa using loaded
    split
    · rfl
    · rw [noLoad]
      rcases rest with force | running
      · exact if_pos force
      · have noRun : (s.slots.find? fun e => decide (e.2.state = .running) && e.2.claims k) = none := by
          simpa using running
        rw [noRun]
        exact ite_self _

-- what an isolation makes of the state

theorem isolate_isolated (isolated : s.isolated k = true) : s.isolate k = s := if_pos isolated

/-- No loaded folio claims the cluster (R489). -/
def State.Unclaimed (s : State) (k : Nat) : Prop :=
  ∀ e ∈ s.slots, e.2.state = .loading ∨ e.2.state = .loaded ∨ e.2.state = .running → e.2.claims k = false

theorem isolate_unclaimed (free : s.Unclaimed k) (not : s.isolated k = false) : s.isolate k = s.startIsolation k := by
  have none : s.firstSlot (fun x => decide (x.state = .running) && x.claims k) = none := by
    refine firstSlot_none _ _ fun e he => ?_
    by_cases running : e.2.state = .running
    · rw [free e he (.inr (.inr running)), Bool.and_false]
    · rw [decide_eq_false running, Bool.false_and]
  unfold State.isolate
  rw [if_neg (by rw [not]; decide), none]

/-- The cluster waits for its isolation. -/
def Cluster.awaits (x : Cluster) : Cluster := { x with isolating := true }

theorem isolate_running {i : Nat} (not : s.isolated k = false)
    (first : s.firstSlot (fun x => decide (x.state = .running) && x.claims k) = some i) :
    s.isolate k = ((s.modCluster k Cluster.awaits).programFault i reasonIsolate none).progress := by
  unfold State.isolate
  rw [if_neg (by rw [not]; decide), first]
  rfl

theorem isolateCluster_isolated (s : State) (k : Nat) : (s.isolateCluster k).isolated k = true :=
  List.all_eq_true.mpr fun c mem => by
    rw [isolateCluster_core, if_pos (mem_clusterCores.mp mem)]
    rfl

theorem isolated_congr {t : State} (modes : ∀ c ∈ clusterCores k, (t.core c).sq.mode = .isolated → (s.core c).sq.mode = .isolated)
    (not : s.isolated k = false) : t.isolated k = false := by
  refine Bool.eq_false_iff.mpr fun all => absurd not (Bool.not_eq_false _ ▸ List.all_eq_true.mpr fun c mem => ?_)
  exact decide_eq_true (modes c mem (of_decide_eq_true (List.all_eq_true.mp all c mem)))

theorem stoppedIn_of_stopped {x : Core} (stopped : x.sq.run = false) (m : CoreMode) : x.stoppedIn m = x.inMode m := by
  unfold Core.stoppedIn Core.inMode
  rw [← stopped]

theorem run_of_canIsolate (can : s.canIsolate k = true) {c : Nat} (mem : c ∈ clusterCores k) : (s.core c).sq.run = false := by
  have both := List.all_eq_true.mp can c mem
  simp only [Bool.and_eq_true, Bool.not_eq_true'] at both
  exact both.1

end Shelf

-- a write that isolates while it is in progress

theorem completed_of_found {u : State} {p : Nat} {tag : BitVec 32} {code : BitVec 8} {c : Cmd} (r : Reply)
    (found : (u.port p).cmds.find? (fun x => x.tag = tag) = some c) (same : c.tag = tag ∧ c.code = code ∧ c.cls = classOf code) :
    Completed (u.complete p tag r) p tag code r := by
  obtain ⟨rfl, rfl, cls⟩ := same
  refine ⟨complete_frees u p _ r, ?_⟩
  unfold State.complete
  rw [found, ← cls]
  exact sendPacket_queued ..

/-- The last command of a list that keeps it is the one of its tag. -/
theorem find_kept {old : List Cmd} {c : Cmd} {keep : Cmd → Bool} (other : ∀ x ∈ old, x.tag ≠ c.tag) (kept : keep c = true) :
    ((old ++ [c]).filter keep).find? (fun x => x.tag = c.tag) = some c := by
  have none : (old.filter keep).find? (fun x => x.tag = c.tag) = none :=
    List.find?_eq_none.mpr fun x mem is => other x (List.mem_of_mem_filter mem) (of_decide_eq_true is)
  rw [List.filter_append, List.find?_append, none, List.filter_singleton, kept, cond_true, Option.none_or]
  exact List.find?_cons_of_pos (decide_eq_true rfl)

/-- An isolation leaves the command that begins it in progress. -/
theorem isolateCluster_finds {s u : State} {p k : Nat} {tag : BitVec 32} {code : BitVec 8} (lt : p < 2)
    (free : s.inProgress p tag = false) (same : SameCmds (s.begun p tag code) u) :
    ((u.isolateCluster k).port p).cmds.find? (fun c => c.tag = tag) = some ⟨tag, code, classOf code, 1, [], .packets⟩ := by
  have cmds : (((((u.isolateCores k).modCluster k Cluster.settled).redigest).dropIsolation k).port p).cmds
      = (s.port p).cmds.map (fun c => c.isolated k) ++ [⟨tag, code, classOf code, 1, [], .packets⟩] := by
    rw [dropIsolation_cmds, if_pos lt, settled_cmds, same.cmds, begun_port_self, List.map_append]
    rfl
  have other : ∀ c ∈ (s.port p).cmds.map (fun c => c.isolated k), c.tag ≠ tag := by
    intro c mem is
    obtain ⟨c', mem', rfl⟩ := List.mem_map.mp mem
    rw [(isolated_wait c' k).1] at is
    have none := List.any_eq_false.mp free c' mem'
    exact none (decide_eq_true is)
  rw [isolateCluster_eq, completeWhere_cmds _ _ _ lt, cmds]
  refine find_kept (c := ⟨tag, code, classOf code, 1, [], .packets⟩) other (decide_eq_true (p := _ ∉ _) fun listed => ?_)
  obtain ⟨c, mem, is⟩ := List.mem_map.mp listed
  obtain ⟨mem, waits⟩ := List.mem_filter.mp mem
  rcases List.mem_append.mp mem with old | new
  · exact other c old is
  · rw [List.mem_singleton.mp new] at waits
    exact nomatch of_decide_eq_true waits

theorem onlyPorts_completed {u t : State} {p : Nat} {tag : BitVec 32} {code : BitVec 8} {r : Reply}
    (h : ∃ l, t = { u with ports := l } ∧ Completed { u with ports := l } p tag code r) : OnlyPorts u t ∧ Completed t p tag code r := by
  obtain ⟨l, rfl, done⟩ := h
  exact ⟨rfl, done⟩

section ShelfWrite

variable {s : State} {p : Nat} {tag : BitVec 32} {k v : Nat}

/-- The state in which SHF_CTRL has been stored. -/
def State.shelfStored (s : State) (p : Nat) (tag : BitVec 32) (k v : Nat) : State :=
  (s.writing p tag).modCluster k fun x => x.stores v

theorem shelfStored_cmds (s : State) (p : Nat) (tag : BitVec 32) (k v : Nat) :
    SameCmds (s.begun p tag 0x03) (s.shelfStored p tag k v) := ⟨fun _ => rfl⟩

theorem shelfStored_cluster (s : State) (p : Nat) (tag : BitVec 32) (k v j : Nat) :
    (s.shelfStored p tag k v).cluster j = if j = k then (s.cluster k).stores v else s.cluster j := modCluster_cluster ..

/-- SHF_CTRL stores MAPOUT and does nothing more (R489). -/
theorem shelfWrite_stores (accepts : Accepts s p tag)
    (passes : EntryPasses (s.writing p tag) p tag (shfPage k) 0x008 v (.shf k)) (not : s.isolates k v = false) :
    OnlyPorts (s.shelfStored p tag k v) (s.writeOne p tag (shfPage k) 0x008 v)
      ∧ Completed (s.writeOne p tag (shfPage k) 0x008 v) p tag 0x03 (Reply.ok []) := by
  have isolates : (s.writing p tag).isolates k v = false := not
  refine onlyPorts_completed (writeOne_completes accepts passes ?_ (entryYields_eq_false _ _ _ (by decide) (.inl (shfPage_ne_chtPage k))) ?_
    (shelfStored_cmds ..))
  · rw [shfCtrl_cluster passes, isolates]
    rfl
  · rw [shfCtrl_acts passes, isolates]
    rfl

variable (accepts : Accepts s p tag) (passes : EntryPasses (s.writing p tag) p tag (shfPage k) 0x008 v (.shf k))
  (isolates : s.isolates k v = true)

include passes isolates in
/-- What an entry that isolates answers. -/
theorem shelfWrite_answers {u : State} {b : Bool} (result : (s.shelfStored p tag k v).isolate k = u) (after : u.isolated k = b) :
    writeAll p tag [(shfPage k * 4096 + 0x008, v)] (s.begun p tag 0x03)
      = (u, if b then .done (Reply.ok []) else .waits (.isolate [k])) := by
  refine (shfCtrl_isolates passes isolates).trans ?_
  rw [show (State.modCluster (s.writing p tag) k fun x => x.stores v).isolate k = u from result, after]

include accepts passes isolates

/-- On an ISOLATED cluster an isolation only stores (R489). -/
theorem shelfWrite_isolated (isolated : s.isolated k = true) :
    OnlyPorts (s.shelfStored p tag k v) (s.writeOne p tag (shfPage k) 0x008 v)
      ∧ Completed (s.writeOne p tag (shfPage k) 0x008 v) p tag 0x03 (Reply.ok []) := by
  have stored : (s.shelfStored p tag k v).isolated k = true := isolated
  exact onlyPorts_completed
    (runCommand_done accepts (shelfWrite_answers passes isolates (isolate_isolated stored) stored) (shelfStored_cmds ..))

/-- A cluster whose cores have stopped is ISOLATED at once (R154, R489). -/
theorem shelfWrite_isolates (port : p < 2) (free : s.Unclaimed k) (not : s.isolated k = false) (can : s.canIsolate k = true) :
    OnlyPorts ((s.shelfStored p tag k v).isolateCluster k) (s.writeOne p tag (shfPage k) 0x008 v)
      ∧ Completed (s.writeOne p tag (shfPage k) 0x008 v) p tag 0x03 (Reply.ok []) := by
  have result : (s.shelfStored p tag k v).isolate k = (s.shelfStored p tag k v).isolateCluster k := by
    have stopped : (s.shelfStored p tag k v).canIsolate k = true := can
    exact (isolate_unclaimed (s := s.shelfStored p tag k v) free not).trans (if_pos stopped)
  have answers := shelfWrite_answers passes isolates result (isolateCluster_isolated ..)
  have ends : s.writeOne p tag (shfPage k) 0x008 v
      = ((s.shelfStored p tag k v).isolateCluster k).complete p tag (Reply.ok []) := by
    rw [writeOne_operates accepts, State.operate, State.writing, answers]
    rfl
  have done := completed_of_found (Reply.ok []) (isolateCluster_finds (k := k) port accepts.2.2.1 (shelfStored_cmds s p tag k v))
    ⟨rfl, rfl, rfl⟩
  rw [ends]
  exact ⟨complete_ports .., done⟩

/-- A cluster whose cores have not stopped waits for them, and the command with it (R154, R489). -/
theorem shelfWrite_waits (free : s.Unclaimed k) (not : s.isolated k = false) (can : s.canIsolate k = false) :
    OnlyPorts ((s.shelfStored p tag k v).modCluster k Cluster.awaits) (s.writeOne p tag (shfPage k) 0x008 v)
      ∧ ∃ c ∈ ((s.writeOne p tag (shfPage k) 0x008 v).port p).cmds, c.tag = tag ∧ c.wait = .isolate [k] := by
  have result : (s.shelfStored p tag k v).isolate k = (s.shelfStored p tag k v).modCluster k Cluster.awaits := by
    have going : (s.shelfStored p tag k v).canIsolate k = false := can
    exact (isolate_unclaimed (s := s.shelfStored p tag k v) free not).trans (if_neg (by rw [going]; decide))
  have after : ((s.shelfStored p tag k v).modCluster k Cluster.awaits).isolated k = false := not
  obtain ⟨ends, stays⟩ := runCommand_waits accepts (shelfWrite_answers passes isolates result after)
    (SameCmds.trans (shelfStored_cmds s p tag k v) ⟨fun _ => rfl⟩)
  rw [State.writeOne, ends]
  exact ⟨rfl, stays⟩

end ShelfWrite

end Sys2Proof.Machine

/-! PROOFS. What an isolation leaves (R87, R154, R489, R490): a forced one faults the program that claims the cluster; the
frames of a write that stores, isolates or waits. -/

namespace Sys2Proof.Machine

open Sys2Proof

theorem begun_quiet {s : State} (quiet : Quiet s) (p : Nat) (tag : BitVec 32) (code : BitVec 8) : Quiet (s.begun p tag code) := by
  obtain ⟨due, releasing, binds⟩ := quiet
  refine ⟨due, releasing, fun q c mem => ?_⟩
  by_cases same : q = p
  · subst same
    rw [begun_port_self] at mem
    rcases List.mem_append.mp mem with old | new
    · exact binds q c old
    · rw [List.mem_singleton.mp new]
      exact ⟨nofun, nofun⟩
  · have other : (s.begun p tag code).port q = s.port q := (modPort_port ..).trans (if_neg same)
    exact binds q c (other ▸ mem)

/-- The state in which a forced isolation has been stored and awaits its cores. -/
def State.shelfAwaits (s : State) (p : Nat) (tag : BitVec 32) (k v : Nat) : State :=
  (s.shelfStored p tag k v).modCluster k Cluster.awaits

theorem shelfAwaits_cluster (s : State) (p : Nat) (tag : BitVec 32) (k v j : Nat) :
    (s.shelfAwaits p tag k v).cluster j = if j = k then ((s.cluster k).stores v).awaits else s.cluster j := by
  rw [State.shelfAwaits, modCluster_cluster, shelfStored_cluster, shelfStored_cluster, if_pos rfl]
  split
  · rfl
  · rfl

theorem shelfAwaits_quiet {s : State} (quiet : Quiet s) (p : Nat) (tag : BitVec 32) (k v : Nat) :
    Quiet (s.shelfAwaits p tag k v) := by
  have kept : KeepsQuiet (s.begun p tag 0x03) (s.shelfAwaits p tag k v) :=
    (modCluster_keepsQuiet _ k (f := fun x => x.stores v) fun _ => rfl).trans (modCluster_keepsQuiet _ k (f := Cluster.awaits) fun _ => rfl)
  exact kept.quiet (begun_quiet quiet p tag 0x03)

/-- A forced isolation faults the program that claims the cluster, and waits (R489). -/
theorem shelfWrite_faults {s : State} {p : Nat} {tag : BitVec 32} {k v i : Nat} (accepts : Accepts s p tag)
    (passes : EntryPasses (s.writing p tag) p tag (shfPage k) 0x008 v (.shf k)) (isolates : s.isolates k v = true)
    (not : s.isolated k = false) (first : s.firstSlot (fun x => decide (x.state = .running) && x.claims k) = some i)
    (running : (s.slot i).state = .running) (editions : s.editions = []) (quiet : Quiet s) :
    ∃ u, ProgramFaults i (s.shelfAwaits p tag k v) u ∧ OnlyPorts u (s.writeOne p tag (shfPage k) 0x008 v)
      ∧ ∃ c ∈ ((s.writeOne p tag (shfPage k) 0x008 v).port p).cmds, c.tag = tag ∧ c.wait = .isolate [k] := by
  have still := shelfAwaits_quiet quiet p tag k v
  have faults := programFault_faults (s := s.shelfAwaits p tag k v) running editions still reasonIsolate
  have result : (s.shelfStored p tag k v).isolate k = (s.shelfAwaits p tag k v).programFault i reasonIsolate none :=
    (isolate_running (s := s.shelfStored p tag k v) not first).trans (progress_quiet _ (faults.faulting.quiet still))
  refine ⟨_, faults, ?_⟩
  have after : ((s.shelfAwaits p tag k v).programFault i reasonIsolate none).isolated k = false := by
    refine isolated_congr (s := s) (fun c _ mode => ?_) not
    rcases faults.modes c with faulted | same
    · rw [faulted] at mode
      cases mode
    · exact same.symm.trans mode
  have cmds := SameCmds.trans (s := s.begun p tag 0x03) (t := s.shelfAwaits p tag k v) ⟨fun _ => rfl⟩ faults.faulting.cmds
  obtain ⟨ends, stays⟩ := runCommand_waits accepts (shelfWrite_answers passes isolates result after) cmds
  rw [State.writeOne, ends]
  exact ⟨rfl, stays⟩

-- the frames of the three outcomes

section Outcomes

variable {s t : State} {p : Nat} {tag : BitVec 32} {k v : Nat}

theorem shelfStored_core (s : State) (p : Nat) (tag : BitVec 32) (k v c : Nat) :
    (s.shelfStored p tag k v).core c = s.core c := rfl

theorem shelfStored_gen (s : State) (p : Nat) (tag : BitVec 32) (k v : Nat) : (s.shelfStored p tag k v).gen = s.gen := rfl

/-- The state in which SHF_CTRL has been stored is the one before but for clusters and ports. -/
theorem shelfStored_apart (s : State) (p : Nat) (tag : BitVec 32) (k v : Nat) :
    ∃ clusters ports, s.shelfStored p tag k v = { s with clusters := clusters, ports := ports } := ⟨_, _, rfl⟩

theorem shelfAwaits_apart (s : State) (p : Nat) (tag : BitVec 32) (k v : Nat) :
    ∃ clusters ports, s.shelfAwaits p tag k v = { s with clusters := clusters, ports := ports } := by
  obtain ⟨clusters, ports, stored⟩ := shelfStored_apart s p tag k v
  rw [State.shelfAwaits, stored]
  exact ⟨_, _, rfl⟩

/-- What differs from a state by clusters and ports, and then by ports, differs from it by clusters and ports. -/
theorem onlyPorts_apart {u : State} (apart : ∃ clusters ports, u = { s with clusters := clusters, ports := ports })
    (h : OnlyPorts u t) : t = { s with clusters := t.clusters, ports := t.ports } := by
  obtain ⟨clusters, ports, rfl⟩ := apart
  rw [h]

theorem shelfStored_frame (h : OnlyPorts (s.shelfStored p tag k v) t) :
    t = { s with clusters := t.clusters, ports := t.ports } ∧ t.cluster k = (s.cluster k).stores v
      ∧ ∀ j, j ≠ k → t.cluster j = s.cluster j := by
  refine ⟨onlyPorts_apart (shelfStored_apart ..) h, ?_, fun j other => ?_⟩
  · rw [h.cluster, shelfStored_cluster, if_pos rfl]
  · rw [h.cluster, shelfStored_cluster, if_neg other]

theorem shelfAwaits_frame (h : OnlyPorts (s.shelfAwaits p tag k v) t) :
    t = { s with clusters := t.clusters, ports := t.ports } ∧ t.cluster k = ((s.cluster k).stores v).awaits
      ∧ ∀ j, j ≠ k → t.cluster j = s.cluster j := by
  refine ⟨onlyPorts_apart (shelfAwaits_apart ..) h, ?_, fun j other => ?_⟩
  · rw [h.cluster, shelfAwaits_cluster, if_pos rfl]
  · rw [h.cluster, shelfAwaits_cluster, if_neg other]

theorem OnlyPorts.clusters (h : OnlyPorts s t) : t.clusters = s.clusters := by rw [h]

theorem shelfIsolated_reports (h : OnlyPorts ((s.shelfStored p tag k v).isolateCluster k) t) :
    OnlyReports { s with cores := t.cores, clusters := t.clusters, gen := t.gen } t := by
  have frame := isolateCluster_frame (s.shelfStored p tag k v) k
  obtain ⟨clusters, ports, apart⟩ := shelfStored_apart s p tag k v
  generalize (s.shelfStored p tag k v).isolateCluster k = u at h frame
  rw [apart] at frame
  rw [h.cores, h.clusters, h.gen]
  unfold OnlyPorts at h
  unfold OnlyReports at frame ⊢
  rw [h, frame]

/-- The clusters, the cores and the digest after an isolation (R87, R154, R490). -/
theorem shelfIsolated_frame (h : OnlyPorts ((s.shelfStored p tag k v).isolateCluster k) t) :
    t.cluster k = ((s.cluster k).stores v).settled ∧ (∀ j, j ≠ k → t.cluster j = s.cluster j)
      ∧ (∀ c, t.core c = if c / 8 = k then (s.core c).stoppedIn .isolated else s.core c)
      ∧ t.gen = { s.gen with colmap := t.columnDigest } := by
  refine ⟨?_, fun j other => ?_, fun c => ?_, ?_⟩
  · rw [h.cluster, isolateCluster_cluster, if_pos rfl, shelfStored_cluster, if_pos rfl]
  · rw [h.cluster, isolateCluster_cluster, if_neg other, shelfStored_cluster, if_neg other]
  · rw [h.core, isolateCluster_core, shelfStored_core]
  · rw [columnDigest_congr h.cores h.fuses, h.gen, isolateCluster_gen, shelfStored_gen]

end Outcomes

end Sys2Proof.Machine

/-! PROOFS. Injections and the endpoint that a core shows (R160, R188 to R190): the fields of the words, the checks and what
the entries make of the state. -/

namespace Sys2Proof.Machine

open Sys2Proof

-- injections (R188 to R190)

/-- A word whose low bits are 0 sets none of them. -/
theorem low_bits_clear {v n : Nat} (small : v < 2 ^ 32) (le : n ≤ 32) (clear : v % 2 ^ n = 0) :
    (BitVec.ofNat 32 v : W32) &&& BitVec.ofNat 32 (2 ^ n - 1) = 0 := by
  have pow : 2 ^ n ≤ 2 ^ 32 := Nat.pow_le_pow_right (by decide) le
  have pos : 0 < 2 ^ n := Nat.two_pow_pos n
  refine BitVec.eq_of_toNat_eq ?_
  rw [BitVec.toNat_and, BitVec.toNat_ofNat, BitVec.toNat_ofNat, Nat.mod_eq_of_lt small, Nat.mod_eq_of_lt (by omega),
    Nat.and_two_pow_sub_one_eq_mod, clear]
  rfl

/-- The value that SHF_ECC_INJECT takes (R188, R189). -/
def shfInjectWord (part : BitVec 3) (a b : BitVec 8) : Nat := 2 ^ 31 + part.toNat * 2 ^ 28 + a.toNat * 2 ^ 20 + b.toNat * 2 ^ 12

theorem shfInjectWord_fields (part : BitVec 3) (a b : BitVec 8) :
    shfInjectWord part a b / 2 ^ 31 = 1 ∧ shfInjectWord part a b / 2 ^ 28 % 8 = part.toNat
      ∧ shfInjectWord part a b / 2 ^ 20 % 256 = a.toNat ∧ shfInjectWord part a b / 2 ^ 12 % 256 = b.toNat
      ∧ shfInjectWord part a b % 2 ^ 12 = 0 := by
  have hp := part.isLt
  have ha := a.isLt
  have hb := b.isLt
  unfold shfInjectWord
  refine ⟨?_, ?_, ?_, ?_, ?_⟩ <;> omega

/-- The value that CAR_ECC_INJECT takes (R190). -/
def carInjectWord (a b : BitVec 8) : Nat := 2 ^ 31 + a.toNat * 2 ^ 23 + b.toNat * 2 ^ 15

theorem carInjectWord_fields (a b : BitVec 8) :
    carInjectWord a b / 2 ^ 31 = 1 ∧ carInjectWord a b / 2 ^ 23 % 256 = a.toNat ∧ carInjectWord a b / 2 ^ 15 % 256 = b.toNat
      ∧ carInjectWord a b % 2 ^ 15 = 0 := by
  have ha := a.isLt
  have hb := b.isLt
  unfold carInjectWord
  refine ⟨?_, ?_, ?_, ?_⟩ <;> omega

/-- A field of a word that is read back as it was put in. -/
theorem ofNat_of_mod {w n : Nat} {x : BitVec w} (h : n % 2 ^ w = x.toNat) : BitVec.ofNat w n = x :=
  BitVec.eq_of_toNat_eq ((BitVec.toNat_ofNat ..).trans h)

section Inject

variable {s : State} {p : Nat} {tag : BitVec 32} {a b : BitVec 8}

theorem shfInject_passes {k : Nat} {part : BitVec 3} (lt : k < 32) (reach : s.regBusy p (.shf k) = false)
    (bitA : injectBit a.toNat 136 = true) (bitB : injectBit b.toNat 136 = true) (free : (s.part k part.toNat).kind = .free) :
    EntryPasses s p tag (shfPage k) 0x13C (shfInjectWord part a b) (.shf k) := by
  obtain ⟨arm, hp, ha, hb, low⟩ := shfInjectWord_fields part a b
  have small : shfInjectWord part a b < 2 ^ 32 := by omega
  exact {
    page := shf_page lt
    inPage := by decide
    aligned := rfl
    exists_ := nofun
    bits := ⟨0xFFFFF000, rfl, low_bits_clear small (by decide) low⟩
    range := by
      simp only [State.rangeBad, ha, hb, bitA, bitB]
      rfl
    permitted := by
      unfold State.forbidden
      rw [decide_eq_false (shf_die k)]
      rfl
    reachable := reach
    state := by
      simp only [State.stateFault, arm, hp, free]
      rfl }

theorem shfInject_acts {k : Nat} {part : BitVec 3} (h : EntryPasses s p tag (shfPage k) 0x13C (shfInjectWord part a b) (.shf k)) :
    State.entryAct p tag s (shfPage k * 4096 + 0x13C) (shfInjectWord part a b)
      = s.modCluster k fun x => { x with inject := ⟨true, part, a, b⟩ } := by
  obtain ⟨arm, hp, ha, hb, -⟩ := shfInjectWord_fields part a b
  have set : s.entrySet (shfPage k * 4096 + 0x13C) (shfInjectWord part a b)
      = s.modCluster k fun x => { x with inject := ⟨true, part, a, b⟩ } := by
    rw [h.entrySet]
    show (s.modCluster k fun x => x.set 0x13C (shfInjectWord part a b)) = _
    congr 1
    funext x
    simp only [Cluster.set, arm, ofNat_of_mod (w := 3) hp, ofNat_of_mod (w := 8) ha, ofNat_of_mod (w := 8) hb]
    simp
  unfold State.entryAct
  rw [set, entry_page _ _ h.inPage, h.page, entry_offset _ _ h.inPage]
  rfl

theorem carInject_passes {c : Nat} (lt : c < 256) (fitted : s.fused (clusterOf c) = false) (reach : s.regBusy p (.car c) = false)
    (bitA : injectBit a.toNat 71 = true) (bitB : injectBit b.toNat 71 = true) (free : (s.core c).sq.tenant = none) :
    EntryPasses s p tag (carPage c) 0x114 (carInjectWord a b) (.car c) := by
  obtain ⟨arm, ha, hb, low⟩ := carInjectWord_fields a b
  have small : carInjectWord a b < 2 ^ 32 := by omega
  exact {
    page := car_page lt
    inPage := by decide
    aligned := rfl
    exists_ := fun d is => Option.some.inj is ▸ fitted
    bits := ⟨0xFFFF8000, rfl, low_bits_clear small (by decide) low⟩
    range := by
      simp only [State.rangeBad, ha, hb, bitA, bitB]
      rfl
    permitted := by
      unfold State.forbidden
      rw [decide_eq_false (car_die c)]
      rfl
    reachable := reach
    state := by
      simp only [State.stateFault, free, Option.isSome_none]
      simp }

/-- An injection armed in a carrel (R190). -/
def CarrelUnit.armed (u : CarrelUnit) (a b : BitVec 8) : CarrelUnit := { u with inject := ⟨true, u.inject.part, a, b⟩ }

theorem carInject_acts {c : Nat} (h : EntryPasses s p tag (carPage c) 0x114 (carInjectWord a b) (.car c)) :
    State.entryAct p tag s (carPage c * 4096 + 0x114) (carInjectWord a b) = s.modCar c fun u => u.armed a b := by
  obtain ⟨arm, ha, hb, -⟩ := carInjectWord_fields a b
  have set : s.entrySet (carPage c * 4096 + 0x114) (carInjectWord a b) = s.modCar c fun u => u.armed a b := by
    rw [h.entrySet]
    show (s.modCar c fun u => u.set 0x114 (carInjectWord a b)) = _
    congr 1
    funext u
    simp only [CarrelUnit.set, CarrelUnit.armed, arm, ofNat_of_mod (w := 8) ha, ofNat_of_mod (w := 8) hb]
    simp
  unfold State.entryAct
  rw [set, entry_page _ _ h.inPage, h.page]

end Inject

-- CORE_QSEL (R160)

section Select

variable {s : State} {p c : Nat} {tag : BitVec 32} {q : BitVec 5}

theorem coreQsel_passes (lt : c < 256) (fitted : s.fused (clusterOf c) = false) (reach : s.regBusy p (.core c) = false) :
    EntryPasses s p tag (corePage c) 0x150 q.toNat (.core c) where
  page := core_page lt
  inPage := by decide
  aligned := rfl
  exists_ d is := Option.some.inj is ▸ fitted
  bits := by
    have mask : ∀ w : BitVec 5, (BitVec.ofNat 32 w.toNat : W32) &&& ~~~(BitVec.ofNat 32 0x1F) = 0 := by decide
    exact ⟨0x1F, rfl, mask q⟩
  range := rfl
  permitted := by
    unfold State.forbidden
    rw [decide_eq_false (core_die c)]
    rfl
  reachable := reach
  state := rfl

theorem coreQsel_acts (h : EntryPasses s p tag (corePage c) 0x150 q.toNat (.core c)) :
    State.entryAct p tag s (corePage c * 4096 + 0x150) q.toNat = s.modCore c fun k => k.selectQueue q.toNat := by
  have set : s.entrySet (corePage c * 4096 + 0x150) q.toNat = s.modCore c fun k => k.selectQueue q.toNat := h.entrySet s
  unfold State.entryAct
  rw [set, entry_page _ _ h.inPage, h.page]

theorem selectQueue_qsel (k : Core) : (k.selectQueue q.toNat).sq.qsel = q := by
  unfold Core.selectQueue
  split
  · exact BitVec.ofNat_toNat .. |>.trans (BitVec.setWidth_eq q)
  · exact BitVec.ofNat_toNat .. |>.trans (BitVec.setWidth_eq q)

theorem selectQueue_hwm (k : Core) (exists_ : (qepClass q.toNat).isSome = true) :
    (Tbl.get Endpoint.reset (k.selectQueue q.toNat).queues q.toNat).hwm = (Tbl.get Endpoint.reset k.queues q.toNat).occ q.toNat := by
  have queues : (k.selectQueue q.toNat).queues
      = Tbl.modify Endpoint.reset k.queues q.toNat fun e => { e with hwm := e.occ q.toNat } := by
    unfold Core.selectQueue
    rw [Nat.mod_eq_of_lt q.isLt, if_pos exists_]
  rw [queues, Tbl.get_modify_self]

end Select

end Sys2Proof.Machine

/-! PROOFS. The service registers (R160, R188 to R190, R489), from the lemmas on their entries. -/

namespace Sys2Proof.Machine

open Sys2Proof

/-- The fields of the value that ISOLATE writes: FORCE as asked, MAPOUT as it is (R488, R489). -/
theorem isolateWord_fields (force mapout : Bool) : 1 + 2 * force.toNat + 4 * mapout.toNat < 8
    ∧ (1 + 2 * force.toNat + 4 * mapout.toNat) % 2 = 1 ∧ (1 + 2 * force.toNat + 4 * mapout.toNat) / 2 % 2 = force.toNat
    ∧ decide ((1 + 2 * force.toNat + 4 * mapout.toNat) / 4 % 2 = 1) = mapout := by
  revert force mapout
  decide

theorem mapoutWord_fields (on : Bool) : 4 * on.toNat < 8 ∧ 4 * on.toNat % 2 ≠ 1 ∧ decide (4 * on.toNat / 4 % 2 = 1) = on := by
  revert on
  decide

theorem Cluster.stores_eq {v : Nat} {m : Bool} (stored : decide (v / 4 % 2 = 1) = m) (x : Cluster) :
    x.stores v = { x with mapout := m } := by
  unfold Cluster.stores
  rw [stored]

theorem Faulting.cluster {s t : State} (h : Faulting s t) (k : Nat) : t.cluster k = s.cluster k := by
  rw [h.frame]
  rfl

theorem Faulting.mem {s t : State} (h : Faulting s t) : t.mem = s.mem := by rw [h.frame]

theorem OnlyPorts.mem {s t : State} (h : OnlyPorts s t) : t.mem = s.mem := by rw [h]

section Shelf

variable {s : State} {p : Nat} {tag : BitVec 32} {k v : Nat}

/-- A write that isolates passes its checks where no slot refuses it. -/
theorem isolation_passes (lt : k < 32) (small : v < 8) (reach : s.regBusy p (.shf k) = false) (holds : s.holds p = true)
    (fused : s.fused k = false) (idle : s.isolated k = true
      ∨ (∀ e ∈ s.slots, e.2.state = .loading ∨ e.2.state = .loaded → e.2.claims k = false)
        ∧ (v / 2 % 2 = 1 ∨ ∀ e ∈ s.slots, e.2.state = .running → e.2.claims k = false)) :
    EntryPasses (s.writing p tag) p tag (shfPage k) 0x008 v (.shf k) :=
  shfCtrl_passes (s := s.writing p tag) lt small reach fun _ => ⟨holds, fused, isolateFault_none (s := s.writing p tag) idle⟩

/-- An unclaimed cluster has no slot that refuses its isolation. -/
theorem unclaimed_idle (free : s.Unclaimed k) (v : Nat) :
    (∀ e ∈ s.slots, e.2.state = .loading ∨ e.2.state = .loaded → e.2.claims k = false)
      ∧ (v / 2 % 2 = 1 ∨ ∀ e ∈ s.slots, e.2.state = .running → e.2.claims k = false) :=
  ⟨fun e he => Or.rec (fun x => free e he (.inl x)) fun x => free e he (.inr (.inl x)),
    .inr fun e he x => free e he (.inr (.inr x))⟩

/-- The cores of an isolated cluster that had stopped (R154). -/
theorem isolated_core {t : State} (core : ∀ c, t.core c = if c / 8 = k then (s.core c).stoppedIn .isolated else s.core c)
    (can : s.canIsolate k = true) {c : Nat} (mem : c ∈ clusterCores k) : t.core c = (s.core c).inMode .isolated := by
  rw [core, if_pos (mem_clusterCores.mp mem), stoppedIn_of_stopped (run_of_canIsolate can mem)]

end Shelf

/-- Settles O50: each entry passes its checks, and what its register stores and starts is said by its lemma; an isolation
ends at once or waits by the state of the cluster that it leaves. -/
theorem serviceRegistersTakeEffect : Obligations.ServiceRegistersTakeEffect := by
  unfold Obligations.ServiceRegistersTakeEffect
  intro p tag s accepts
  refine ⟨fun k reach => ⟨fun holds fused => ?_, fun on stored => ?_, fun part a b bitA bitB free => ?_⟩,
    fun c fitted => ⟨fun a b reach bitA bitB free => ?_, fun q reach => ?_⟩⟩
  · intro free isolates
    have both (i : Instr) (m : Bool) (v : Nat) (small : v < 8) (does : s.isolates k v = true)
        (stored : decide (v / 4 % 2 = 1) = m) (step : exec i s = .next (s.writeOne p tag (shfPage k) 0x008 v)) :
        isolates i m := by
      have word := Cluster.stores_eq stored (s.cluster k)
      refine ⟨fun isolated => ?_, fun unclaimed not can => ?_, fun unclaimed not going => ?_⟩
      · obtain ⟨ports, done⟩ := shelfWrite_isolated accepts
          (isolation_passes k.isLt small reach holds fused (.inl isolated)) does isolated
        obtain ⟨frame, cluster, others⟩ := shelfStored_frame ports
        exact ⟨_, step, frame, cluster.trans word, others, done⟩
      · obtain ⟨ports, done⟩ := shelfWrite_isolates accepts
          (isolation_passes k.isLt small reach holds fused (.inr (unclaimed_idle unclaimed v))) does p.isLt unclaimed not can
        obtain ⟨cluster, others, core, gen⟩ := shelfIsolated_frame ports
        refine ⟨_, step, shelfIsolated_reports ports, ?_, others, fun c mem => isolated_core core can mem,
          fun c mem => (core c).trans (if_neg fun own => mem (mem_clusterCores.mpr own)), gen, done⟩
        rw [cluster, word]
        rfl
      · obtain ⟨ports, stays⟩ := shelfWrite_waits accepts
          (isolation_passes k.isLt small reach holds fused (.inr (unclaimed_idle unclaimed v))) does unclaimed not going
        obtain ⟨frame, cluster, others⟩ := shelfAwaits_frame ports
        refine ⟨_, step, frame, ?_, others, stays⟩
        rw [cluster, word]
        rfl
    refine ⟨fun force => ?_, fun clear => ?_, fun i loaded not first running claims editions quiet => ?_⟩
    · obtain ⟨small, isolate, -, mapout⟩ := isolateWord_fields force (s.cluster k).mapout
      exact both _ _ _ small (by rw [State.isolates, decide_eq_true isolate, Bool.true_or]) mapout rfl
    · exact both _ _ 4 (by decide) (by rw [State.isolates, clear]; rfl) rfl rfl
    · obtain ⟨small, isolate, force, -⟩ := isolateWord_fields true (s.cluster k).mapout
      obtain ⟨u, faults, ports, stays⟩ := shelfWrite_faults accepts
        (isolation_passes k.isLt small reach holds fused (.inr ⟨loaded, .inl force⟩))
        (by rw [State.isolates, decide_eq_true isolate, Bool.true_or]) not first running editions quiet
      refine ⟨_, rfl, ?_, ?_, fun c mem runs => ?_, fun c mem => ?_, fun j other => ?_, ?_, stays⟩
      · rw [ports.slot]
        exact faults.state
      · rw [ports.cluster, faults.faulting.cluster, shelfAwaits_cluster, if_pos rfl]
        rfl
      · rw [ports.core]
        exact faults.cores c mem runs
      · rw [ports.core]
        exact faults.others c mem
      · rw [ports.slot]
        exact faults.slots j other
      · rw [ports.mem]
        exact faults.faulting.mem
  · obtain ⟨small, even, mapout⟩ := mapoutWord_fields on
    have not : s.isolates k (4 * on.toNat) = false := by
      rw [State.isolates, decide_eq_false even, mapout, Bool.false_or]
      rcases stored with off | already
      · rw [off, Bool.false_and]
      · rw [already, Bool.not_true, Bool.and_false]
    have never : (s.writing p tag).isolates k (4 * on.toNat) = false := not
    have passes : EntryPasses (s.writing p tag) p tag (shfPage k) 0x008 (4 * on.toNat) (.shf k) :=
      shfCtrl_passes k.isLt small reach fun does => absurd (never.symm.trans does) (by decide)
    obtain ⟨ports, done⟩ := shelfWrite_stores accepts passes not
    obtain ⟨frame, cluster, others⟩ := shelfStored_frame ports
    exact ⟨_, rfl, frame, cluster.trans (Cluster.stores_eq mapout _), others, done⟩
  · have passes : EntryPasses (s.writing p tag) p tag (shfPage k) 0x13C (shfInjectWord part a b) (.shf k) :=
      shfInject_passes k.isLt reach bitA bitB free
    obtain ⟨l, ends, done⟩ := writeOne_completes accepts passes (passes.isolates_nothing fun _ _ => by decide)
      (entryYields_eq_false _ _ _ (by decide) (.inr (by decide))) (shfInject_acts passes) ⟨fun _ => rfl⟩
    have clusters (j : Nat) := modCluster_cluster (s.writing p tag) k j fun x => { x with inject := ⟨true, part, a, b⟩ }
    exact ⟨_, congrArg Host.Outcome.next ends, rfl, (clusters k).trans (if_pos rfl),
      fun j other => (clusters j).trans (if_neg other), done⟩
  · have passes : EntryPasses (s.writing p tag) p tag (carPage c) 0x114 (carInjectWord a b) (.car c) :=
      carInject_passes c.isLt fitted reach bitA bitB free
    obtain ⟨l, ends, done⟩ := writeOne_completes accepts passes (passes.isolates_nothing nofun)
      (entryYields_eq_false _ _ _ (by decide) (.inr (by decide))) (carInject_acts passes) ⟨fun _ => rfl⟩
    have cores (d : Nat) := modCore_core (s.writing p tag) c d fun k => { k with car := k.car.armed a b }
    exact ⟨_, congrArg Host.Outcome.next ends, rfl, (cores c).trans (if_pos rfl),
      fun d other => (cores d).trans (if_neg other), done⟩
  · have passes : EntryPasses (s.writing p tag) p tag (corePage c) 0x150 q.toNat (.core c) := coreQsel_passes c.isLt fitted reach
    obtain ⟨ports, done⟩ := onlyPorts_completed (writeOne_completes accepts passes (passes.isolates_nothing nofun)
      (entryYields_eq_false _ _ _ (by decide) (.inr (by decide))) (coreQsel_acts passes) ⟨fun _ => rfl⟩)
    have cores (d : Nat) := (ports.core d).trans (modCore_core (s.writing p tag) c d fun k => k.selectQueue q.toNat)
    have own := (cores c).trans (if_pos rfl)
    refine ⟨_, rfl, by rw [ports]; rfl, own, ?_, fun exists_ => ?_, fun d other => (cores d).trans (if_neg other), done⟩
    · rw [own]
      exact selectQueue_qsel _
    · rw [State.queue, own]
      exact selectQueue_hwm _ exists_

end Sys2Proof.Machine

/-! PROOFS. Who leaves carrels and shelves alone: one lemma per operation of the model that writes neither, in the model's
order, says that memory stays. -/

namespace Sys2Proof.Machine

open Sys2Proof

-- how states are built

theorem mem_of_ite {p : Prop} [Decidable p] {s t u : State} (h : t.mem = s.mem) (k : u.mem = s.mem) :
    (if p then t else u).mem = s.mem := by split <;> assumption

theorem mem_of_fst_ite {α : Type} {p : Prop} [Decidable p] {s : State} {x y : State × α} (h : x.1.mem = s.mem)
    (k : y.1.mem = s.mem) : (if p then x else y).1.mem = s.mem := by split <;> assumption

/-- The state of an answer that a match has taken apart. -/
theorem mem_of_fst_eq {α : Type} {x : State × α} {s t : State} {a : α} (e : x = (t, a)) (k : x.1.mem = s.mem) :
    t.mem = s.mem := by
  rw [e] at k
  exact k

/-- A fold whose accumulator holds a state. -/
theorem foldl_mem_of {α β : Type} (g : β → State) {f : β → α → β} {l : List α} {x : β}
    (h : ∀ x a, (g (f x a)).mem = (g x).mem) : (g (l.foldl f x)).mem = (g x).mem :=
  List.foldlRecOn (motive := fun y => (g y).mem = (g x).mem) l f rfl fun y k a _ => (h y a).trans k

/-- Where each step is a bare record update, whose law is `rfl`, simp needs `-implicitDefEqProofs` to use this. -/
@[simp] theorem foldl_mem {α : Type} (f : State → α → State) (l : List α) (s : State)
    (h : ∀ s a, (f s a).mem = s.mem) : (l.foldl f s).mem = s.mem := foldl_mem_of id h

theorem OnlyReports.mem {s t : State} (h : OnlyReports s t) : t.mem = s.mem := by rw [h]

@[simp] theorem ite_mem {p : Prop} [Decidable p] (s t : State) :
    (if p then s else t).mem = if p then s.mem else t.mem := apply_ite ..

@[simp] theorem ite_fst_mem {α : Type} {p : Prop} [Decidable p] (x y : State × α) :
    (if p then x else y).1.mem = if p then x.1.mem else y.1.mem := apply_ite (fun x : State × α => x.1.mem) ..

section

variable (s : State)

-- events, packets and commands

@[simp] theorem pumpPort_mem (p : Nat) : (s.pumpPort p).mem = s.mem := by simp [State.pumpPort]
@[simp] theorem sendPacket_mem (p : Nat) (q : TxPacket) : (s.sendPacket p q).mem = s.mem := by simp [State.sendPacket]

@[simp] theorem emit_mem (fuel : Nat) (s : State) (page bit : Nat) (detail : Bytes) :
    (s.emit fuel page bit detail).mem = s.mem :=
  (emit_reports ..).mem

@[simp] theorem raise_mem (page bit : Nat) (detail : Bytes) : (s.raise page bit detail).mem = s.mem := by
  simp [State.raise]

@[simp] theorem raise0_mem (page bit : Nat) : (s.raise0 page bit).mem = s.mem := by simp [State.raise0]

@[simp] theorem raiseCap_mem (page bit : Nat) (caps : List W32) (take : Bool) :
    (s.raiseCap page bit caps take).mem = s.mem := by
  simp [State.raiseCap]

@[simp] theorem capture_mem (page bit : Nat) (caps : List W32) : (s.capture page bit caps).mem = s.mem := by
  simp [State.capture]

@[simp] theorem countTmo_mem (page : Nat) : (s.countTmo page).mem = s.mem := by simp [State.countTmo]

@[simp] theorem complete_mem (p : Nat) (tag : BitVec 32) (r : Reply) : (s.complete p tag r).mem = s.mem := by
  unfold State.complete
  split <;> simp

@[simp] theorem endWait_mem (w : CmdWait) : (s.endWait w).mem = s.mem := by
  unfold State.endWait
  split <;> simp

@[simp] theorem completeWhere_mem (sel : CmdWait → Bool) (r : Reply) : (s.completeWhere sel r).mem = s.mem := by
  simp [State.completeWhere]

@[simp] theorem completeAll_mem (p : Nat) (r : Reply) : (s.completeAll p r).mem = s.mem := by simp [State.completeAll]

@[simp] theorem beginCmd_mem (p : Nat) (tag : BitVec 32) (code : BitVec 8) (cls : Nat) :
    (s.beginCmd p tag code cls).1.mem = s.mem := by
  simp [State.beginCmd]

@[simp] theorem setWait_mem (p : Nat) (tag : BitVec 32) (w : CmdWait) : (s.setWait p tag w).mem = s.mem := by
  simp [State.setWait]

@[simp] theorem operate_mem (p : Nat) (tag : BitVec 32) (op : State → State × Answer) (h : ∀ s, (op s).1.mem = s.mem) :
    (s.operate p tag op).mem = s.mem := by
  unfold State.operate
  split <;> next e => simp [mem_of_fst_eq e (h s)]

@[simp] theorem runCommand_mem (p : Nat) (tag : BitVec 32) (code : BitVec 8) (op : State → State × Answer)
    (h : ∀ s, (op s).1.mem = s.mem) : (s.runCommand p tag code op).mem = s.mem := by
  unfold State.runCommand
  split
  · rfl
  · split
    · next t e => exact mem_of_fst_eq e (beginCmd_mem ..)
    · next t e => exact (operate_mem _ _ _ _ h).trans (mem_of_fst_eq e (beginCmd_mem ..))

@[simp] theorem refuse_mem (r : Reply) (s : State) : (refuse r s).1.mem = s.mem := rfl

-- carrels and shelves under their code

@[simp] theorem rewriteWord_mem (w : Nat) : (s.rewriteWord w).mem = s.mem := by simp [State.rewriteWord]
@[simp] theorem writeBack_mem (r : Reader) (w : Nat) : (s.writeBack r w).mem = s.mem := by simp [State.writeBack]

@[simp] theorem eccCe_mem (r : Reader) (w bit : Nat) : (s.eccCe r w bit).mem = s.mem := by
  unfold State.eccCe
  dsimp only
  split <;> simp

@[simp] theorem offer_mem (owner : Nat) (unit : ReqUnit) (write : Bool) (a n : Nat) :
    (s.offer owner unit write a n).mem = s.mem := by
  simp [State.offer]

@[simp] theorem offers_mem (owner : Nat) (unit : ReqUnit) (write : Bool) (spans : List (Nat × Nat)) :
    (s.offers owner unit write spans).mem = s.mem := by
  simp [State.offers]

@[simp] theorem cleanSpan_mem (a n : Nat) : (s.cleanSpan a n).mem = s.mem := by
  unfold State.cleanSpan
  exact foldl_mem _ _ _ fun s e => rfl

-- sending on the fabric

@[simp] theorem freeFlit_mem (i vc : Nat) : (s.freeFlit i vc).mem = s.mem := by simp [State.freeFlit]
@[simp] theorem holdCredits_mem (i n : Nat) : (s.holdCredits i n).mem = s.mem := by simp [State.holdCredits]
@[simp] theorem delayOwn_mem (fs : List Flit) : (s.delayOwn fs).mem = s.mem := by simp [State.delayOwn]
@[simp] theorem pumpFport_mem (n : Nat) : (s.pumpFport n).mem = s.mem := by simp [State.pumpFport]
@[simp] theorem markWaited_mem (f : Flit) : (s.markWaited f).1.mem = s.mem := by simp [State.markWaited]

@[simp] theorem queueFlit_mem (n ingress : Nat) (f : Flit) : (s.queueFlit n ingress f).mem = s.mem := by
  simp [State.queueFlit]

@[simp] theorem dropFlit_mem : s.dropFlit.mem = s.mem := by simp [State.dropFlit]

@[simp] theorem sendOver_mem (r : RouteEntry) (typ vc tsf : Nat) (payload : Bytes) :
    (s.sendOver r typ vc tsf payload).mem = s.mem := by
  simp [State.sendOver]

@[simp] theorem sendLocalFrom_mem (n ingress typ vc : Nat) (payload : Bytes) :
    (s.sendLocalFrom n ingress typ vc payload).mem = s.mem := by
  simp [State.sendLocalFrom]

@[simp] theorem sendLocal_mem (n typ vc : Nat) (payload : Bytes) : (s.sendLocal n typ vc payload).mem = s.mem := by
  simp [State.sendLocal]

@[simp] theorem answerFlit_mem (ret hops typ vc tsf : Nat) (payload : Bytes) :
    (s.answerFlit ret hops typ vc tsf payload).mem = s.mem := by
  simp [State.answerFlit]

@[simp] theorem unforwarded_mem (n : Nat) (f : Flit) (ret h : Nat) : (s.unforwarded n f ret h).mem = s.mem := by
  simp [State.unforwarded]

-- sessions and their token packets

@[simp] theorem autoFree_mem (i : Nat) : (s.autoFree i).mem = s.mem := by simp [State.autoFree]
@[simp] theorem autoFreeAll_mem : s.autoFreeAll.mem = s.mem := by simp [State.autoFreeAll]
@[simp] theorem unqueue_mem (i : Nat) : (s.unqueue i).mem = s.mem := by simp [State.unqueue]

@[simp] theorem closeSession_mem (i reason : Nat) : (s.closeSession i reason).mem = s.mem := by
  simp [State.closeSession]

@[simp] theorem endRow_mem (i reason detail : Nat) (stamp : W64) : (s.endRow i reason detail stamp).mem = s.mem := by
  simp [State.endRow]

@[simp] theorem sendToken_mem (i : Nat) : (s.sendToken i).mem = s.mem := by
  unfold State.sendToken
  dsimp only
  split <;> simp

@[simp] theorem flushTokens_mem (i : Nat) : (s.flushTokens i).mem = s.mem := by simp [State.flushTokens]
@[simp] theorem faultSessions_mem (slot : Nat) : (s.faultSessions slot).mem = s.mem := by simp [State.faultSessions]

-- what is given back

@[simp] theorem beginClose_mem (h : Nat) : (s.beginClose h).mem = s.mem := by simp [State.beginClose]
@[simp] theorem beginCloses_mem (sel : Window → Bool) : (s.beginCloses sel).mem = s.mem := by simp [State.beginCloses]
@[simp] theorem unloadRings_mem (c : Nat) : (s.unloadRings c).mem = s.mem := by simp [State.unloadRings]
@[simp] theorem clearCore_mem (c : Nat) : (s.clearCore c).mem = s.mem := by simp [State.clearCore]

@[simp] theorem startCarrelClear_mem (c : Nat) (next : Option (BitVec 8)) (waitFor : Option Nat) :
    (s.startCarrelClear c next waitFor).mem = s.mem := by
  simp [State.startCarrelClear]

@[simp] theorem markClear_mem (k p : Nat) (next : PartKind) (owner : Option (BitVec 8)) (waitFor : Option Nat) :
    (s.markClear k p next owner waitFor).mem = s.mem := by
  simp [State.markClear]

@[simp] theorem startDue_mem : s.startDue.mem = s.mem := by simp [State.startDue]

@[simp] theorem sendVc3_mem (slot device typ : Nat) (payload : Bytes) :
    (s.sendVc3 slot device typ payload).1.mem = s.mem := by
  unfold State.sendVc3
  split <;> simp

@[simp] theorem askAll_mem (index typ kind : Nat) (devices : List Nat) :
    (s.askAll index typ kind devices).1.mem = s.mem := by
  unfold State.askAll
  exact foldl_mem_of Prod.fst fun a d => by dsimp only; split <;> simp

@[simp] theorem retireEdition_mem (index : Nat) : (s.retireEdition index).mem = s.mem := by simp [State.retireEdition]
@[simp] theorem drainCheck_mem (slot : Nat) : (s.drainCheck slot).mem = s.mem := by simp [State.drainCheck]

@[simp] theorem dropRoutes_mem (slot : Nat) : (s.dropRoutes slot).mem = s.mem := by
  simp -implicitDefEqProofs [State.dropRoutes]

@[simp] theorem wipeCarrel_mem (c : Nat) (waitFor : Option Nat) : (s.wipeCarrel c waitFor).mem = s.mem := by
  simp [State.wipeCarrel]

@[simp] theorem emptySlot_mem (slot : Nat) : (s.emptySlot slot).mem = s.mem := by
  simp -implicitDefEqProofs [State.emptySlot]

@[simp] theorem freeEndpoint_mem (n c q : Nat) : (s.freeEndpoint n c q).mem = s.mem := by simp [State.freeEndpoint]
@[simp] theorem freeCore_mem (c : Nat) : (s.freeCore c).mem = s.mem := by simp [State.freeCore]
@[simp] theorem freeRings_mem (k : Nat) : (s.freeRings k).mem = s.mem := by simp -implicitDefEqProofs [State.freeRings]
@[simp] theorem undoLoad_mem (slot : Nat) : (s.undoLoad slot).mem = s.mem := by simp [State.undoLoad]

@[simp] theorem failLoad_mem (slot : Nat) (r : Reply) : (s.failLoad slot r).mem = s.mem := by
  unfold State.failLoad
  split <;> simp

@[simp] theorem dropRemote_mem (t : Nat) : (s.dropRemote t).mem = s.mem := by
  simp -implicitDefEqProofs [State.dropRemote]

@[simp] theorem advanceRelease_mem (t : Nat) : (s.advanceRelease t).mem = s.mem := by
  unfold State.advanceRelease
  dsimp only
  split
  · rfl
  · split
    · simp
    · split
      · simp
      · split <;> simp

@[simp] theorem bindPart_mem (t : Nat) (named : List (Nat × Nat × PartKind)) (k p : Nat) :
    (s.bindPart t named k p).mem = s.mem := by
  unfold State.bindPart
  split <;> simp

@[simp] theorem bindCluster_mem (t : Nat) (mask : BitVec 32) (k : Nat) : (s.bindCluster t mask k).mem = s.mem := by
  simp -implicitDefEqProofs [State.bindCluster]

@[simp] theorem bindGrant_mem (b : Bytes) : (s.bindGrant b).mem = s.mem := by
  simp -implicitDefEqProofs [State.bindGrant]

@[simp] theorem bound_mem (t : Nat) : (s.bound t).mem = s.mem := by simp [State.bound]

@[simp] theorem bindOp_mem (port : Nat) (b : Bytes) (s : State) : (bindOp port b s).1.mem = s.mem := by
  unfold bindOp
  split <;> simp

@[simp] theorem advanceBind_mem (port : Nat) (c : Cmd) : (s.advanceBind port c).mem = s.mem := by
  unfold State.advanceBind
  split <;> simp

@[simp] theorem progress_mem : s.progress.mem = s.mem := by simp [State.progress]
@[simp] theorem sessionEnded_mem (slot : Nat) : (s.sessionEnded slot).mem = s.mem := by simp [State.sessionEnded]

-- faults of cores, programs and ports

@[simp] theorem raiseMode_mem (c : Nat) : (s.raiseMode c).mem = s.mem := by simp [State.raiseMode]
@[simp] theorem setMode_mem (c : Nat) (m : CoreMode) : (s.setMode c m).mem = s.mem := by simp [State.setMode]

@[simp] theorem programStop_mem (origin reason c : Nat) : (s.programStop origin reason c).mem = s.mem := by
  simp [State.programStop]

@[simp] theorem sendAborts_mem (slot : Nat) : (s.sendAborts slot).mem = s.mem := by
  unfold State.sendAborts
  split <;> simp

@[simp] theorem programFault_mem (slot reason : Nat) (origin : Option Nat) :
    (s.programFault slot reason origin).mem = s.mem := by
  simp [State.programFault]

@[simp] theorem memoryFault_mem (a : Nat) : (s.memoryFault a).mem = s.mem := by simp [State.memoryFault]

@[simp] theorem coreStop_mem (c unit cause offset : Nat) (word : W64) (unitPage : Option (Nat × List W32)) :
    (s.coreStop c unit cause offset word unitPage).mem = s.mem := by
  unfold State.coreStop
  split <;> simp

@[simp] theorem programOf_mem (c reason : Nat) (origin : Option Nat) : (s.programOf c reason origin).mem = s.mem := by
  unfold State.programOf
  split <;> simp

@[simp] theorem coreFault_mem (c unit cause offset : Nat) (word : W64) (unitPage : Option (Nat × List W32)) :
    (s.coreFault c unit cause offset word unitPage).mem = s.mem := by
  simp [State.coreFault]

@[simp] theorem matrixFault_mem (c cause : Nat) (word : W64) (place : WordAt) :
    (s.matrixFault c cause word place).mem = s.mem := by
  simp [State.matrixFault]

@[simp] theorem vectorFault_mem (c cause pos : Nat) (word : W64) (place : WordAt) :
    (s.vectorFault c cause pos word place).mem = s.mem := by
  simp [State.vectorFault]

@[simp] theorem reductionFault_mem (c cause : Nat) (word : W64) (place : WordAt) :
    (s.reductionFault c cause word place).mem = s.mem := by
  simp [State.reductionFault]

@[simp] theorem transferFault_mem (c cause desc offset status reason hg woff : Nat) :
    (s.transferFault c cause desc offset status reason hg woff).mem = s.mem := by
  simp [State.transferFault]

@[simp] theorem sequencerFault_mem (c cause offset : Nat) (word : W64) :
    (s.sequencerFault c cause offset word).mem = s.mem := by
  simp [State.sequencerFault]

@[simp] theorem settle_mem (c : Nat) : (s.settle c).mem = s.mem := by simp [State.settle]

@[simp] theorem requestStop_mem (c tag cause status reason : Nat) (t : WinTag) :
    (s.requestStop c tag cause status reason t).mem = s.mem := by
  simp [State.requestStop]

@[simp] theorem requestFault_mem (c tag cause status reason : Nat) (t : WinTag) :
    (s.requestFault c tag cause status reason t).mem = s.mem := by
  simp [State.requestFault]

@[simp] theorem dropOne_mem (n ingress : Nat) (f : Flit) : (s.dropOne n ingress f).mem = s.mem := by
  simp [State.dropOne]

@[simp] theorem dropHeld_mem (n : Nat) : (s.dropHeld n).mem = s.mem := by simp [State.dropHeld]
@[simp] theorem stopRelays_mem (n : Nat) : (s.stopRelays n).mem = s.mem := by simp [State.stopRelays]
@[simp] theorem partnerLost_mem (n : Nat) : (s.partnerLost n).mem = s.mem := by simp [State.partnerLost]

@[simp] theorem portFalls_mem (n : Nat) (st : LinkState) (cause : Nat) : (s.portFalls n st cause).mem = s.mem := by
  simp [State.portFalls]

-- matrix, vector and reduction words

@[simp] theorem issueFault_mem (c : Nat) (w : W64) (off : WordAt) (f : IssueFault) :
    (s.issueFault c w off f).mem = s.mem := by
  unfold State.issueFault
  split <;> simp

@[simp] theorem wrote_mem (spans : List (Nat × Nat)) : (s.wrote spans).mem = s.mem := by
  unfold State.wrote
  split <;> simp

@[simp] theorem runLoad_mem (c : Nat) (w : W64) (off : WordAt) : (s.runLoad c w off).mem = s.mem := by
  simp [State.runLoad]

@[simp] theorem runSeta_mem (c : Nat) (w : W64) : (s.runSeta c w).mem = s.mem := by simp [State.runSeta]
@[simp] theorem runMxSets_mem (c : Nat) (w : W64) : (s.runMxSets c w).mem = s.mem := by simp [State.runMxSets]
@[simp] theorem runSetd_mem (c : Nat) (w : W64) : (s.runSetd c w).mem = s.mem := by simp [State.runSetd]
@[simp] theorem runVxSets_mem (c : Nat) (w : W64) : (s.runVxSets c w).mem = s.mem := by simp [State.runVxSets]

@[simp] theorem runAlone_mem (c : Nat) (w : W64) (check : Option IssueFault) (run : WordAt → State → State)
    (h : ∀ w s, (run w s).mem = s.mem) : (s.runAlone c w check run).mem = s.mem := by
  unfold State.runAlone
  refine mem_of_ite rfl ?_
  split
  · exact issueFault_mem ..
  · exact h ..

@[simp] theorem matrixAlone_mem (c : Nat) (w : W64) (run : WordAt → State → State) (h : ∀ w s, (run w s).mem = s.mem) :
    (s.matrixAlone c w run).mem = s.mem := by
  simp [State.matrixAlone, h]

@[simp] theorem vectorAlone_mem (c : Nat) (w : W64) (run : WordAt → State → State) (h : ∀ w s, (run w s).mem = s.mem) :
    (s.vectorAlone c w run).mem = s.mem := by
  simp [State.vectorAlone, h]

-- queue endpoints and rings

@[simp] theorem drainFq_mem (c q fuel : Nat) : (s.drainFq c q fuel).mem = s.mem := by
  induction fuel generalizing s with
  | zero => rfl
  | succ fuel ih => simp [State.drainFq, ih]

@[simp] theorem drainPort_mem (n : Nat) : (s.drainPort n).mem = s.mem := by simp [State.drainPort]

@[simp] theorem canPush_mem (c q : Nat) : (s.canPush c q).1.mem = s.mem := by
  unfold State.canPush
  dsimp only
  split
  · rfl
  · split
    · split <;> simp
    · rfl

@[simp] theorem push_mem (c q : Nat) (x : QEntry) : (s.push c q x).mem = s.mem := by simp [State.push]
@[simp] theorem pop_mem (c q : Nat) : (s.pop c q).mem = s.mem := by simp [State.pop]
@[simp] theorem qstall_mem (c q cause n : Nat) : (s.qstall c q cause n).mem = s.mem := by simp [State.qstall]

@[simp] theorem settleWait_mem (c q : Nat) (mark : Bool) : (s.settleWait c q mark).mem = s.mem := by
  simp [State.settleWait]

@[simp] theorem latchSlot_mem (slot k i : Nat) : (s.latchSlot slot k i).mem = s.mem := by simp [State.latchSlot]

@[simp] theorem ringPut_mem (k ring : Nat) : (s.ringPut k ring).mem = s.mem := by
  unfold State.ringPut
  dsimp only
  split
  · split <;> simp
  · simp

@[simp] theorem ringTake_mem (k ring : Nat) : (s.ringTake k ring).mem = s.mem := by simp [State.ringTake]
@[simp] theorem ringStall_mem (c ring n : Nat) : (s.ringStall c ring n).mem = s.mem := by simp [State.ringStall]

-- the transfer engine

@[simp] theorem sendData_mem (r : RouteEntry) (typ chan : Nat) (bs : Bytes) :
    (s.sendData r typ chan bs).mem = s.mem := by
  simp [State.sendData]

@[simp] theorem checkHop_mem (c tag : Nat) (r : RouteEntry) (t : WinTag) : (s.checkHop c tag r t).mem = s.mem := by
  simp [State.checkHop]

@[simp] theorem runRst_mem (c : Nat) (w : W64) : (s.runRst c w).mem = s.mem := by simp [State.runRst]

@[simp] theorem transferAlone_mem (c : Nat) (w : W64) (run : WordAt → State → State)
    (h : ∀ w s, (run w s).mem = s.mem) : (s.transferAlone c w run).mem = s.mem := by
  simp [State.transferAlone, h]

-- the sequencer

@[simp] theorem returnCredits_mem (c : Nat) (w : W64) : (s.returnCredits c w).mem = s.mem := by
  simp [State.returnCredits]

@[simp] theorem sendHolds_mem (slot c : Nat) (e : StampEntry) (r : GroupRun) (st : StampWait) :
    (s.sendHolds slot c e r st).mem = s.mem := by
  simp [State.sendHolds]

@[simp] theorem arrive_mem (c : Nat) : (s.arrive c).mem = s.mem := by
  unfold State.arrive
  split
  · dsimp only
    split
    · rfl
    · split
      · simp
      · split <;> simp
  · rfl

@[simp] theorem reachPlan_mem (c : Nat) : (s.reachPlan c).mem = s.mem := by
  unfold State.reachPlan
  split <;> simp

@[simp] theorem runStamp_mem (c : Nat) (ends : Bool) (w : W64) : (s.runStamp c ends w).mem = s.mem := by
  simp [State.runStamp]

@[simp] theorem runRelr_mem (c : Nat) (w : W64) : (s.runRelr c w).mem = s.mem := by simp [State.runRelr]

@[simp] theorem controlRun_mem (c : Nat) (w : W64) : (s.controlRun c w).mem = s.mem := by
  unfold State.controlRun
  split <;> simp

@[simp] theorem countWaits_mem (c : Nat) (w : UnitWaits) : (s.countWaits c w).mem = s.mem := by simp [State.countWaits]
@[simp] theorem passCycle_mem (c : Nat) : (s.passCycle c).mem = s.mem := by simp [State.passCycle]
@[simp] theorem watchdogFault_mem (c : Nat) : (s.watchdogFault c).mem = s.mem := by simp [State.watchdogFault]
@[simp] theorem heldCycle_mem (c : Nat) : (s.heldCycle c).mem = s.mem := by simp [State.heldCycle]

@[simp] theorem bundleWaits_mem (c : Nat) (ws : List (Nat × W64)) (n : Nat) : (s.bundleWaits c ws n).1.mem = s.mem := by
  unfold State.bundleWaits
  simp only [ite_mem, State.modSq_mem, ite_self]
  rw [foldl_mem _ _ _ fun s e => ringStall_mem ..]
  split
  · simp only [qstall_mem]
    split <;> simp
  · split <;> simp

@[simp] theorem ringFault_mem (c : Nat) (put : Bool) (w : W64) : (s.ringFault c put w).mem = s.mem := by
  simp [State.ringFault]

@[simp] theorem countBlocked_mem (c : Nat) (blocked : List Nat) : (s.countBlocked c blocked).mem = s.mem := by
  simp [State.countBlocked]

@[simp] theorem countShelfWaits_mem (c : Nat) : (s.countShelfWaits c).mem = s.mem := by simp [State.countShelfWaits]
@[simp] theorem endRun_mem (c : Nat) : (s.endRun c).mem = s.mem := by simp [State.endRun]

@[simp] theorem controlAlone_mem (c : Nat) (w : W64) (run : WordAt → State → State) (h : ∀ w s, (run w s).mem = s.mem) :
    (s.controlAlone c w run).mem = s.mem := by
  simp [State.controlAlone, h]

-- isolation, clearing and recovery of clusters

@[simp] theorem redigest_mem : s.redigest.mem = s.mem := by simp [State.redigest]
@[simp] theorem dropIsolation_mem (k : Nat) : (s.dropIsolation k).mem = s.mem := by simp [State.dropIsolation]
@[simp] theorem isolateCluster_mem (k : Nat) : (s.isolateCluster k).mem = s.mem := by simp [State.isolateCluster]
@[simp] theorem startIsolation_mem (k : Nat) : (s.startIsolation k).mem = s.mem := by simp [State.startIsolation]
@[simp] theorem finishIsolations_mem : s.finishIsolations.mem = s.mem := by simp [State.finishIsolations]
@[simp] theorem clearFaulted_mem (kind k : Nat) : (s.clearFaulted kind k).mem = s.mem := by simp [State.clearFaulted]

@[simp] theorem clearFaultedSlot_mem (slot : Nat) : (s.clearFaultedSlot slot).mem = s.mem := by
  simp [State.clearFaultedSlot]

@[simp] theorem endHalt_mem (slot : Nat) : (s.endHalt slot).mem = s.mem := by simp [State.endHalt]

@[simp] theorem haltCores_mem (slot : Nat) : (s.haltCores slot).mem = s.mem := by
  simp -implicitDefEqProofs [State.haltCores]

@[simp] theorem startRecovery_mem (k : Nat) : (s.startRecovery k).mem = s.mem := by
  simp -implicitDefEqProofs [State.startRecovery]

@[simp] theorem recoveryPass_mem (k : Nat) : (s.recoveryPass k).mem = s.mem := by simp [State.recoveryPass]

@[simp] theorem endRecovery_mem (k : Nat) (passed : Bool) : (s.endRecovery k passed).mem = s.mem := by
  simp [State.endRecovery]

-- flits that arrive

@[simp] theorem forwardFlit_mem (n : Nat) (f : Flit) : (s.forwardFlit n f).mem = s.mem := by simp [State.forwardFlit]
@[simp] theorem rejectFlit_mem (n : Nat) : (s.rejectFlit n).mem = s.mem := by simp [State.rejectFlit]
@[simp] theorem acceptFlit_mem (n : Nat) : (s.acceptFlit n).mem = s.mem := by simp [State.acceptFlit]
@[simp] theorem badFlit_mem (n vc : Nat) : (s.badFlit n vc).mem = s.mem := by simp [State.badFlit]

@[simp] theorem receive_mem (n : Nat) (f : Flit) (act : State → State) (h : ∀ s, (act s).mem = s.mem) :
    (s.receive n f act).mem = s.mem := by
  simp [State.receive, h]

@[simp] theorem nackRequest_mem (a : Admitted) (hops status reason done : Nat) :
    (s.nackRequest a hops status reason done).mem = s.mem := by
  simp [State.nackRequest]

@[simp] theorem countRefused_mem (status : Nat) (write : Bool) : (s.countRefused status write).mem = s.mem := by
  simp [State.countRefused]

@[simp] theorem answered_mem (a : Admitted) : (s.answered a).mem = s.mem := by simp [State.answered]
@[simp] theorem expireDrain_mem (h : Nat) : (s.expireDrain h).mem = s.mem := by simp [State.expireDrain]
@[simp] theorem endClose_mem (h : Nat) : (s.endClose h).mem = s.mem := by simp [State.endClose]
@[simp] theorem lateResponse_mem (c : Nat) : (s.lateResponse c).mem = s.mem := by simp [State.lateResponse]

@[simp] theorem markRequest_mem (c tag : Nat) (t : WinTag) (mark : Bool) :
    (s.markRequest c tag t mark).1.mem = s.mem := by
  simp [State.markRequest]

@[simp] theorem takeNack_mem (f : Flit) : (s.takeNack f).mem = s.mem := by
  unfold State.takeNack
  dsimp only
  split <;> simp

@[simp] theorem takeQueueData_mem (n : Nat) (f : Flit) : (s.takeQueueData n f).mem = s.mem := by
  unfold State.takeQueueData
  dsimp only
  split <;> simp

@[simp] theorem holdMismatch_mem (slot group : Nat) : (s.holdMismatch slot group).mem = s.mem := by
  simp [State.holdMismatch]

@[simp] theorem takeHold_mem (f : Flit) : (s.takeHold f).mem = s.mem := by
  unfold State.takeHold
  dsimp only
  split <;> simp

-- the fabric link and the optics

@[simp] theorem replayFab_mem (n : Nat) : (s.replayFab n).mem = s.mem := by simp [State.replayFab]

@[simp] theorem takeSlip_mem (n : Nat) (f : Flit) : (s.takeSlip n f).mem = s.mem := by
  unfold State.takeSlip
  dsimp only
  split <;> simp

@[simp] theorem setTrack_mem (e : Nat) (track : BitVec 10) : (s.setTrack e track).mem = s.mem := by
  simp [State.setTrack]

@[simp] theorem startCalibration_mem (e : Nat) : (s.startCalibration e).mem = s.mem := by simp [State.startCalibration]
@[simp] theorem engineDown_mem (e cause : Nat) : (s.engineDown e cause).mem = s.mem := by simp [State.engineDown]
@[simp] theorem setBoot_mem (bit : Nat) : (s.setBoot bit).mem = s.mem := by simp [State.setBoot]

@[simp] theorem optics_mem : s.optics.mem = s.mem := by
  unfold State.optics
  dsimp only
  generalize e : List.foldl _ s [0, 1] = u
  have k : u.mem = s.mem := by
    rw [← e]
    refine foldl_mem _ _ _ fun s d => ?_
    split
    · rfl
    · split <;> simp
  split
  · rfl
  · split <;> simp [k]

@[simp] theorem balance_mem : s.balance.mem = s.mem := by simp [State.balance]

@[simp] theorem changeCartridge_mem (n : Nat) (f : Cartridge → Cartridge) : (s.changeCartridge n f).mem = s.mem := by
  simp [State.changeCartridge]

@[simp] theorem endCalibration_mem (e : Nat) (ok : Bool) : (s.endCalibration e ok).mem = s.mem := by
  simp [State.endCalibration]

-- ticks

@[simp] theorem ledgerTick_mem : s.ledgerTick.mem = s.mem := by simp [State.ledgerTick]
@[simp] theorem dropSlew_mem : s.dropSlew.mem = s.mem := by simp [State.dropSlew]
@[simp] theorem compareDies_mem : s.compareDies.mem = s.mem := by simp [State.compareDies]
@[simp] theorem alignDies_mem : s.alignDies.mem = s.mem := by simp [State.alignDies]
@[simp] theorem setLdg_mem (st : LdgState) : (s.setLdg st).mem = s.mem := by simp [State.setLdg]

@[simp] theorem treeTick_mem : s.treeTick.mem = s.mem := by
  unfold State.treeTick
  dsimp only
  split <;> simp

@[simp] theorem delaySamples_mem : s.delaySamples.mem = s.mem := by
  unfold State.delaySamples
  refine foldl_mem _ _ _ fun s n => ?_
  split
  · rfl
  · split <;> simp

@[simp] theorem stepLedgers_mem (n : Int) : (s.stepLedgers n).mem = s.mem := by simp [State.stepLedgers]

@[simp] theorem rootForward_mem : s.rootForward.mem = s.mem := by
  unfold State.rootForward
  split <;> simp

@[simp] theorem slewLedgers_mem (n : Int) : (s.slewLedgers n).mem = s.mem := by simp [State.slewLedgers]
@[simp] theorem followSample_mem (theta : Int) : (s.followSample theta).mem = s.mem := by simp [State.followSample]

@[simp] theorem parentSample_mem : s.parentSample.mem = s.mem := by
  unfold State.parentSample
  split
  case h_3 => rfl
  all_goals split <;> simp

@[simp] theorem sendSlips_mem : s.sendSlips.mem = s.mem := by simp [State.sendSlips]

@[simp] theorem regionTick_mem (r temp droop : Nat) : (s.regionTick r temp droop).mem = s.mem := by
  simp -implicitDefEqProofs [State.regionTick]

@[simp] theorem shelfTick_mem (k others : Nat) : (s.shelfTick k others).mem = s.mem := by simp [State.shelfTick]
@[simp] theorem powerTick_mem (t : TickInputs) : (s.powerTick t).mem = s.mem := by simp [State.powerTick]

@[simp] theorem cartridgeTick_mem (l : List (Nat × Bool)) : (s.cartridgeTick l).mem = s.mem := by
  simp [State.cartridgeTick]

@[simp] theorem occupancyTick_mem : s.occupancyTick.mem = s.mem := by simp -implicitDefEqProofs [State.occupancyTick]

-- the lease

@[simp] theorem beat_mem (d : Nat) : (s.beat d).mem = s.mem := by simp [State.beat]
@[simp] theorem dropChartered_mem (d : Nat) : (s.dropChartered d).mem = s.mem := by simp [State.dropChartered]
@[simp] theorem heldEvents_mem : s.heldEvents.mem = s.mem := by simp [State.heldEvents]
@[simp] theorem beginSelftest_mem (d : Nat) : (s.beginSelftest d).mem = s.mem := by simp [State.beginSelftest]
@[simp] theorem beginSelftests_mem : s.beginSelftests.mem = s.mem := by simp [State.beginSelftests]

@[simp] theorem setLease_mem (l : Lease) (cause : Nat) : (s.setLease l cause).mem = s.mem := by
  unfold State.setLease
  dsimp only
  simp only [ite_mem, raise0_mem, raise_mem, beginSelftests_mem, heldEvents_mem, ite_self]
  split
  all_goals
    simp only [State.modCurator_mem, ite_mem, dropSlew_mem, ite_self]
    split <;> simp

@[simp] theorem applyYield_mem (d : Nat) : (s.applyYield d).mem = s.mem := by
  unfold State.applyYield
  split <;> simp

@[simp] theorem lapse_mem (cause : Nat) (other : Bool) : (s.lapse cause other).mem = s.mem := by
  unfold State.lapse
  split
  · rfl
  · rw [setLease_mem]
    split <;> simp

@[simp] theorem heartbeat_mem (d : Nat) (sent : Bool) : (s.heartbeat d sent).mem = s.mem := by
  unfold State.heartbeat
  dsimp only
  split <;> simp

@[simp] theorem leaseTick_mem (a b : Bool) : (s.leaseTick a b).mem = s.mem := by
  unfold State.leaseTick
  dsimp only
  split
  · simp
  · split <;> simp

@[simp] theorem arbitrate_mem (first : Nat) : (s.arbitrate first).mem = s.mem := by simp [State.arbitrate]

-- boots and restarts of the curators

@[simp] theorem restartLoads_mem (d : Nat) : (s.restartLoads d).mem = s.mem := by simp [State.restartLoads]

@[simp] theorem restartCurator_mem (d cause : Nat) : (s.restartCurator d cause).mem = s.mem := by
  simp [State.restartCurator]

@[simp] theorem endActivation_mem (d : Nat) (r : Reply) : (s.endActivation d r).mem = s.mem := by
  unfold State.endActivation
  split <;> simp

@[simp] theorem provenBank_mem (d target : Nat) : (s.provenBank d target).mem = s.mem := by simp [State.provenBank]
@[simp] theorem fallBack_mem (d : Nat) (image : FwImage) : (s.fallBack d image).mem = s.mem := by simp [State.fallBack]

-- admission and the session commands

@[simp] theorem countRefusal_mem (reason : Nat) : (s.countRefusal reason).mem = s.mem := by simp [State.countRefusal]

@[simp] theorem refuseSession_mem (i reason : Nat) : (s.refuseSession i reason).mem = s.mem := by
  simp [State.refuseSession]

@[simp] theorem closeRefused_mem (i : Nat) : (s.closeRefused i).mem = s.mem := by simp [State.closeRefused]
@[simp] theorem predict_mem (num den : Nat) : (s.predict num den).1.mem = s.mem := by simp [State.predict]

@[simp] theorem admitSession_mem (i : Nat) (e : Evaluation) : (s.admitSession i e).mem = s.mem := by
  simp [State.admitSession]

@[simp] theorem enqueue_mem (i : Nat) : (s.enqueue i).mem = s.mem := by simp [State.enqueue]

@[simp] theorem evaluate_mem (i : Nat) : (s.evaluate i).mem = s.mem := by
  unfold State.evaluate
  dsimp only
  split
  · simp
  · split <;> simp

@[simp] theorem startAdmission_mem (i : Nat) : (s.startAdmission i).mem = s.mem := by simp [State.startAdmission]

@[simp] theorem serveQueue_mem (slot n : Nat) : (s.serveQueue slot n).1.mem = s.mem := by
  induction n generalizing s with
  | zero => rfl
  | succ n ih =>
    unfold State.serveQueue
    split
    · rfl
    · simp [ih]

@[simp] theorem serveTenant_mem (t n : Nat) (done : List Nat) : (s.serveTenant t n done).1.mem = s.mem := by
  unfold State.serveTenant
  exact foldl_mem_of Prod.fst fun a i => by dsimp only; split <;> simp

@[simp] theorem serveRounds_mem (fuel : Nat) (s : State) (left : Nat) (done : List Nat) :
    (s.serveRounds fuel left done).mem = s.mem := by
  induction fuel generalizing s left done with
  | zero => rfl
  | succ fuel ih =>
    unfold State.serveRounds
    dsimp only
    generalize e : List.foldl _ _ _ = r
    have k : r.1.mem = s.mem := by
      rw [← e]
      refine foldl_mem_of Prod.fst fun a t => ?_
      dsimp only
      split <;> simp
    exact mem_of_ite k (by simp [ih, k])

@[simp] theorem serveAll_mem : s.serveAll.1.mem = s.mem := by
  unfold State.serveAll
  exact foldl_mem_of Prod.fst fun a i => by simp

@[simp] theorem admissionTick_mem : s.admissionTick.mem = s.mem := by simp [State.admissionTick]

@[simp] theorem openSession_mem (i port pstore units : Nat) (b : Bytes) :
    (s.openSession i port pstore units b).mem = s.mem := by
  simp [State.openSession]

@[simp] theorem sessionOpenOp_mem (port : Nat) (b : Bytes) (s : State) : (sessionOpenOp port b s).1.mem = s.mem := by
  unfold sessionOpenOp
  dsimp only
  iterate 4 refine mem_of_fst_ite rfl ?_
  split
  · simp
  · split
    · rfl
    · simp

@[simp] theorem sessionCancelOp_mem (port : Nat) (b : Bytes) (s : State) :
    (sessionCancelOp port b s).1.mem = s.mem := by
  unfold sessionCancelOp
  iterate 2 refine mem_of_fst_ite rfl ?_
  split
  · rfl
  · simp

@[simp] theorem sessionCloseOp_mem (port : Nat) (b : Bytes) (s : State) : (sessionCloseOp port b s).1.mem = s.mem := by
  unfold sessionCloseOp
  iterate 2 refine mem_of_fst_ite rfl ?_
  split
  · rfl
  · simp

@[simp] theorem settleRefused_mem : s.settleRefused.mem = s.mem := by simp [State.settleRefused]

-- alignment of the dies

@[simp] theorem alignFail_mem (d crossing : Nat) : (s.alignFail d crossing).mem = s.mem := by simp [State.alignFail]

@[simp] theorem alignDie_mem (clusterOk : BitVec 32) (net d2d : Bool) (d : Nat) :
    (s.alignDie clusterOk net d2d d).mem = s.mem := by
  simp [State.alignDie]

-- bundles and stamps

@[simp] theorem afterBundle_mem (c : Nat) (f : Sequencer → Sequencer) : (s.afterBundle c f).mem = s.mem := by
  simp [State.afterBundle]

@[simp] theorem waitCycles_mem (c n : Nat) : (s.waitCycles c n).mem = s.mem := by simp [State.waitCycles]

@[simp] theorem ringTimeout_mem (c : Nat) (put : Bool) : (s.ringTimeout c put).mem = s.mem := by
  unfold State.ringTimeout
  split <;> simp

-- loading a folio

@[simp] theorem writeCore_mem (f : Folio) (v : FolioView) (r : List Reloc) (trap c : Nat) :
    (s.writeCore f v r trap c).mem = s.mem := by
  simp [State.writeCore]

@[simp] theorem bindEnd_mem (c q : Nat) (e : QueueEntry) (peerCore peerQep : Nat) :
    (s.bindEnd c q e peerCore peerQep).mem = s.mem := by
  simp [State.bindEnd]

@[simp] theorem writeQueue_mem (e : QueueEntry) : (s.writeQueue e).mem = s.mem := by simp [State.writeQueue]

@[simp] theorem writeRing_mem (f : Folio) (r : List Reloc) (e : RingEntry) : (s.writeRing f r e).mem = s.mem := by
  simp [State.writeRing]

@[simp] theorem writePatch_mem (q : LoadReq) (w : PatchWindow) : (s.writePatch q w).mem = s.mem := by
  simp [State.writePatch]

@[simp] theorem clearRings_mem (k : Nat) : (s.clearRings k).mem = s.mem := by simp [State.clearRings]

@[simp] theorem stampMismatch_mem (reason entry want have_ : Nat) :
    (s.stampMismatch reason entry want have_).mem = s.mem := by
  simp [State.stampMismatch]

@[simp] theorem loadFailed_mem (slot : Nat) (e : LoadFail) : (s.loadFailed slot e).1.mem = s.mem := by
  unfold State.loadFailed
  split <;> simp

@[simp] theorem beginLoad_mem (port : Nat) (tag : BitVec 32) (b : Bytes) : (s.beginLoad port tag b).mem = s.mem := by
  simp [State.beginLoad]

@[simp] theorem noteCheck_mem (slot stage : Nat) (r : Except LoadFail Folio) :
    (s.noteCheck slot stage r).mem = s.mem := by
  simp [State.noteCheck]

@[simp] theorem claimLoad_mem (b : Bytes) : (s.claimLoad b).mem = s.mem := by
  unfold State.claimLoad
  dsimp only
  split <;> simp

-- shards of an edition

@[simp] theorem editionBeginOp_mem (port : Nat) (b : Bytes) (s : State) : (editionBeginOp port b s).1.mem = s.mem := by
  unfold editionBeginOp
  split
  · rfl
  · exact (State.modEdition_mem ..).trans (foldl_mem _ _ _ fun s e => State.modPart_mem ..)

@[simp] theorem modShard_mem (index n : Nat) (f : Shard → Shard) : (s.modShard index n f).mem = s.mem := by
  simp [State.modShard]

@[simp] theorem sendSegments_mem (port : Nat) (digest : Bytes) (shard offset : Nat) (resend : Bool)
    (data : Bytes) (from_ held : Nat) :
    (s.sendSegments port digest shard offset resend data from_ held).mem = s.mem := by
  simp [State.sendSegments]

@[simp] theorem forwardStream_mem (index : Nat) (x : Shard) (offset : Nat) (data : Bytes) (from_ held : Nat) :
    (s.forwardStream index x offset data from_ held).mem = s.mem := by
  simp [State.forwardStream]

@[simp] theorem discardBytes_mem (d n : Nat) : (s.discardBytes d n).mem = s.mem := by simp [State.discardBytes]

@[simp] theorem requestAgain_mem (index shard cause attempt : Nat) :
    (s.requestAgain index shard cause attempt).mem = s.mem := by
  simp [State.requestAgain]

@[simp] theorem countAttempt_mem (d cause : Nat) : (s.countAttempt d cause).mem = s.mem := by simp [State.countAttempt]

@[simp] theorem beginAttempt_mem (index shard : Nat) (up : Bool) : (s.beginAttempt index shard up).mem = s.mem := by
  simp [State.beginAttempt]

-- commit, switch and retirement of an edition

@[simp] theorem endTalk_mem (index : Nat) (r : Reply) : (s.endTalk index r).mem = s.mem := by simp [State.endTalk]
@[simp] theorem commitEdition_mem (index : Nat) : (s.commitEdition index).mem = s.mem := by simp [State.commitEdition]
@[simp] theorem switchEdition_mem (index : Nat) : (s.switchEdition index).mem = s.mem := by simp [State.switchEdition]

@[simp] theorem endRetire_mem (index : Nat) : (s.endRetire index).mem = s.mem := by
  unfold State.endRetire
  dsimp only
  split
  · rfl
  · split <;> simp

@[simp] theorem decideCommit_mem (index : Nat) (t : EdTalk) : (s.decideCommit index t).mem = s.mem := by
  unfold State.decideCommit
  split
  · simp
  · dsimp only
    split <;> simp

@[simp] theorem noticeRefused_mem (t : EdTalk) : (s.noticeRefused t).1.mem = s.mem := by simp [State.noticeRefused]

@[simp] theorem decideNotices_mem (index : Nat) (t : EdTalk) : (s.decideNotices index t).mem = s.mem := by
  unfold State.decideNotices
  split <;> simp

@[simp] theorem takeAnswer_mem (index seq : Nat) (stageOk : Nat → Bool) (value : Nat) (differs : Bool) :
    (s.takeAnswer index seq stageOk value differs).mem = s.mem := by
  unfold State.takeAnswer
  split
  · rfl
  · split
    · rfl
    · simp

@[simp] theorem editionCommitOp_mem (port : Nat) (b : Bytes) (s : State) :
    (editionCommitOp port b s).1.mem = s.mem := by
  unfold editionCommitOp
  dsimp only
  iterate 5 refine mem_of_fst_ite rfl ?_
  refine mem_of_fst_ite (by simp) ?_
  split <;> simp

@[simp] theorem editionSwitchOp_mem (port : Nat) (b : Bytes) (s : State) :
    (editionSwitchOp port b s).1.mem = s.mem := by
  unfold editionSwitchOp
  split <;> simp

@[simp] theorem editionRetireOp_mem (port : Nat) (b : Bytes) (s : State) :
    (editionRetireOp port b s).1.mem = s.mem := by
  unfold editionRetireOp
  dsimp only
  split
  · rfl
  · split <;> simp

@[simp] theorem receiveAll_mem (n : Nat) (flits : List Flit) : (s.receiveAll n flits).mem = s.mem := by
  simp [State.receiveAll]

@[simp] theorem answerVc3_mem (n : Nat) (f : Flit) (typ : Nat) (manifest : Bytes) (state : Nat) :
    (s.answerVc3 n f typ manifest state).mem = s.mem := by
  simp [State.answerVc3]

@[simp] theorem takeNotice_mem (index kind : Nat) (manifest : Bytes) :
    (s.takeNotice index kind manifest).1.mem = s.mem := by
  unfold State.takeNotice
  dsimp only
  split
  · rfl
  · split <;> simp

-- identity and routes

@[simp] theorem fabIdentityOp_mem (port : Nat) (b : Bytes) (s : State) : (fabIdentityOp port b s).1.mem = s.mem := by
  unfold fabIdentityOp
  iterate 2 refine mem_of_fst_ite rfl ?_
  split
  · rfl
  · simp

@[simp] theorem fabRoutesOp_mem (port : Nat) (b : Bytes) (s : State) : (fabRoutesOp port b s).1.mem = s.mem := by
  unfold fabRoutesOp
  split <;> simp -implicitDefEqProofs

-- the step commit

@[simp] theorem commitRow_mem (ends : List Nat) (stamp : W64) (e : RowRef × ResultRow) :
    (s.commitRow ends stamp e).mem = s.mem := by
  unfold State.commitRow
  dsimp only
  split
  · simp
  · split
    · simp
    · split <;> simp

@[simp] theorem govern_mem (slot : Nat) : (s.govern slot).mem = s.mem := by simp [State.govern]

@[simp] theorem enterPrefill_mem (slot : Nat) : (s.enterPrefill slot).mem = s.mem := by
  unfold State.enterPrefill
  dsimp only
  rw [State.modSlot_mem]
  refine foldl_mem _ _ _ fun s i => mem_of_ite ?_ rfl
  split <;> simp

@[simp] theorem dropTrees_mem (slot : Nat) : (s.dropTrees slot).mem = s.mem := by simp [State.dropTrees]

@[simp] theorem endStep_mem (slot c : Nat) : (s.endStep slot c).mem = s.mem := by
  unfold State.endStep
  dsimp only
  split
  · rfl
  · split <;> simp

-- running, halting and releasing

@[simp] theorem dropStreams_mem (cores : List Nat) : (s.dropStreams cores).mem = s.mem := by
  simp -implicitDefEqProofs [State.dropStreams]

@[simp] theorem enterRun_mem (slot : Nat) (start : W64) : (s.enterRun slot start).mem = s.mem := by
  simp -implicitDefEqProofs [State.enterRun]

@[simp] theorem runOp_mem (b : Bytes) (s : State) : (runOp b s).1.mem = s.mem := by simp [runOp]

@[simp] theorem startCores_mem (slot : Nat) : (s.startCores slot).mem = s.mem := by
  simp -implicitDefEqProofs [State.startCores]

@[simp] theorem haltOp_mem (b : Bytes) (s : State) : (haltOp b s).1.mem = s.mem := by
  unfold haltOp
  dsimp only
  iterate 2 refine mem_of_fst_ite rfl ?_
  split
  · rfl
  · refine mem_of_fst_ite rfl (mem_of_ite ?_ ?_) <;> simp

@[simp] theorem releaseSession_mem (i : Nat) : (s.releaseSession i).mem = s.mem := by simp [State.releaseSession]

@[simp] theorem beginRelease_mem (t : Nat) : (s.beginRelease t).mem = s.mem := by
  simp -implicitDefEqProofs [State.beginRelease]

@[simp] theorem releaseOp_mem (port : Nat) (b : Bytes) (s : State) : (releaseOp port b s).1.mem = s.mem := by
  unfold releaseOp
  dsimp only
  iterate 4 (split; · rfl)
  split <;> simp

-- keys, firmware and presence

@[simp] theorem attestOp_mem (port : Nat) (b : Bytes) (s : State) : (attestOp port b s).1.mem = s.mem := by
  simp [attestOp]

@[simp] theorem beginStage_mem (b : Bytes) : (s.beginStage b).mem = s.mem := by simp [State.beginStage]

@[simp] theorem endStage_mem (b : Bytes) : (s.endStage b).1.mem = s.mem := by
  unfold State.endStage
  dsimp only
  split
  · rfl
  · split <;> simp

@[simp] theorem fwStageOp_mem (port : Nat) (b : Bytes) (s : State) : (fwStageOp port b s).1.mem = s.mem := by
  unfold fwStageOp
  split <;> simp

@[simp] theorem swapBanks_mem (d target : Nat) (image : FwImage) : (s.swapBanks d target image).mem = s.mem := by
  simp [State.swapBanks]

@[simp] theorem fwActivateOp_mem (port : Nat) (tag : BitVec 32) (b : Bytes) (s : State) :
    (fwActivateOp port tag b s).1.mem = s.mem := by
  unfold fwActivateOp
  dsimp only
  iterate 2 (split; · rfl)
  split <;> simp

@[simp] theorem presenceOp_mem (port : Nat) (b : Bytes) (s : State) : (presenceOp port b s).1.mem = s.mem := by
  unfold presenceOp
  dsimp only
  iterate 4 (split; · rfl)
  rfl

@[simp] theorem closePresence_mem : s.closePresence.mem = s.mem := by simp [State.closePresence]
@[simp] theorem usePresence_mem (op : Nat) : (s.usePresence op).mem = s.mem := by simp [State.usePresence]
@[simp] theorem recordFault_mem (op len : Nat) : (s.recordFault op len).1.mem = s.mem := by simp [State.recordFault]

@[simp] theorem rotateKeys_mem : s.rotateKeys.1.mem = s.mem := by
  unfold State.rotateKeys
  dsimp only
  split
  · rfl
  · split
    · next t r e => exact mem_of_fst_eq e (recordFault_mem ..)
    · next t e => simp [mem_of_fst_eq e (recordFault_mem ..)]

@[simp] theorem enrollChain_mem : s.enrollChain.1.mem = s.mem := by
  unfold State.enrollChain
  dsimp only
  split
  · rfl
  · split
    · next t r e => exact mem_of_fst_eq e (recordFault_mem ..)
    · next t e => simp [mem_of_fst_eq e (recordFault_mem ..)]

@[simp] theorem installKey_mem : s.installKey.1.mem = s.mem := by simp [State.installKey]
@[simp] theorem removeKey_mem : s.removeKey.1.mem = s.mem := by simp [State.removeKey]

@[simp] theorem secOperation_mem (op : Nat) : (s.secOperation op).1.mem = s.mem := by
  unfold State.secOperation
  split <;> simp

-- power and bring-up

@[simp] theorem judgeCluster_mem (clusterPass : BitVec 16) (rduPass : BitVec 128) (k : Nat) :
    (s.judgeCluster clusterPass rduPass k).mem = s.mem := by
  simp [State.judgeCluster]

@[simp] theorem beginClearing_mem : s.beginClearing.mem = s.mem := by simp -implicitDefEqProofs [State.beginClearing]

-- shelf cycles, scrubbing and clearing

@[simp] theorem scrubUnused_mem (k : Nat) (used : List Nat) : (s.scrubUnused k used).mem = s.mem := by
  simp [State.scrubUnused]

-- register reads

@[simp] theorem clearRc_mem (p : Page) (off : Nat) : (s.clearRc p off).mem = s.mem := by
  unfold State.clearRc
  refine mem_of_ite (State.modPage_mem ..) ?_
  split <;> simp

@[simp] theorem regRead_mem (p : Page) (off : Nat) : (s.regRead p off).1.mem = s.mem := by
  unfold State.regRead
  refine mem_of_fst_ite (State.modPage_mem ..) ?_
  split <;> simp

@[simp] theorem readAddr_mem (addr : Nat) : (s.readAddr addr).1.mem = s.mem := by
  unfold State.readAddr
  split <;> simp

@[simp] theorem readAll_mem (port : Nat) (addrs : List Nat) : (s.readAll port addrs).1.mem = s.mem := by
  unfold State.readAll
  split
  · rfl
  · exact foldl_mem_of Prod.fst fun a x => readAddr_mem ..

-- the fall of a Tsudan port

@[simp] theorem tsdFalls_mem (p : Nat) (st : LinkState) (cause : Nat) : (s.tsdFalls p st cause).mem = s.mem := by
  simp [State.tsdFalls]

-- register writes

@[simp] theorem setCtrl_mem (p : Page) (v : Nat) : (s.setCtrl p v).mem = s.mem := by
  unfold State.setCtrl
  split <;> simp

@[simp] theorem setHeader_mem (p : Page) (off v : Nat) : (s.setHeader p off v).mem = s.mem := by simp [State.setHeader]
@[simp] theorem setWin_mem (off v : Nat) : (s.setWin off v).mem = s.mem := by simp [State.setWin]
@[simp] theorem setAdm_mem (off v : Nat) : (s.setAdm off v).mem = s.mem := by simp [State.setAdm]
@[simp] theorem setSec_mem (off v : Nat) : (s.setSec off v).mem = s.mem := by simp [State.setSec]

@[simp] theorem regSet_mem (p : Page) (off v : Nat) : (s.regSet p off v).mem = s.mem := by
  unfold State.regSet
  refine mem_of_ite (setHeader_mem ..) ?_
  split <;> simp

@[simp] theorem entrySet_mem (addr v : Nat) : (s.entrySet addr v).mem = s.mem := by
  unfold State.entrySet
  split <;> simp

@[simp] theorem roleChanged_mem (old : BitVec 2) : (s.roleChanged old).mem = s.mem := by simp [State.roleChanged]
@[simp] theorem tsdControl_mem (p v : Nat) : (s.tsdControl p v).mem = s.mem := by simp [State.tsdControl]
@[simp] theorem fabControl_mem (n v : Nat) : (s.fabControl n v).mem = s.mem := by simp [State.fabControl]
@[simp] theorem calibrate_mem (e : Nat) : (s.calibrate e).mem = s.mem := by simp [State.calibrate]

@[simp] theorem isolate_mem (k : Nat) : (s.isolate k).mem = s.mem := by
  unfold State.isolate
  refine mem_of_ite rfl ?_
  split <;> simp

@[simp] theorem entryAct_mem (port : Nat) (tag : BitVec 32) (s : State) (addr v : Nat) :
    (s.entryAct port tag addr v).mem = s.mem := by
  unfold State.entryAct
  split <;> simp

@[simp] theorem fence_mem (d : Nat) : (s.fence d).mem = s.mem := by simp [State.fence]

@[simp] theorem writeAll_mem (port : Nat) (tag : BitVec 32) (l : List (Nat × Nat)) (s : State) :
    (writeAll port tag l s).1.mem = s.mem := by
  unfold writeAll
  split <;> simp

@[simp] theorem writeOne_mem (port : Nat) (tag : BitVec 32) (page off v : Nat) :
    (s.writeOne port tag page off v).mem = s.mem := by
  simp [State.writeOne]

-- register commands and the management bus

@[simp] theorem echoOp_mem (b : Bytes) (s : State) : (echoOp b s).1.mem = s.mem := by simp [echoOp]

@[simp] theorem regReadOp_mem (port : Nat) (b : Bytes) (s : State) : (regReadOp port b s).1.mem = s.mem := by
  simp [regReadOp]

@[simp] theorem regWriteOp_mem (port : Nat) (tag : BitVec 32) (b : Bytes) (s : State) :
    (regWriteOp port tag b s).1.mem = s.mem := by
  simp [regWriteOp]

@[simp] theorem regBlockOp_mem (port : Nat) (tag : BitVec 32) (b : Bytes) (s : State) :
    (regBlockOp port tag b s).1.mem = s.mem := by
  simp [regBlockOp]

@[simp] theorem busRead_mem (p : Page) (addr : Nat) : (s.busRead p addr).1.mem = s.mem := by
  unfold State.busRead
  split <;> simp

@[simp] theorem busTransfer_mem (p : Page) (addr count : Nat) : (s.busTransfer p addr count).mem = s.mem := by
  unfold State.busTransfer
  simp only
  exact foldl_mem_of Prod.fst fun a i => busRead_mem ..

-- timeouts of sessions

@[simp] theorem queueReason_mem (x : Session) : (s.queueReason x).1.mem = s.mem := by simp [State.queueReason]

-- loan windows

@[simp] theorem raiseFloor_mem (next : BitVec 20) : (s.raiseFloor next).mem = s.mem := by simp [State.raiseFloor]
@[simp] theorem openWindow_mem (h : Nat) (b : Bytes) : (s.openWindow h b).1.mem = s.mem := by simp [State.openWindow]

@[simp] theorem windowOpenOp_mem (b : Bytes) (s : State) : (windowOpenOp b s).1.mem = s.mem := by
  unfold windowOpenOp
  iterate 4 refine mem_of_fst_ite rfl ?_
  dsimp only
  split
  · simp
  · rfl

@[simp] theorem windowCloseOp_mem (b : Bytes) (s : State) : (windowCloseOp b s).1.mem = s.mem := by simp [windowCloseOp]

-- the Tsudan link

@[simp] theorem replayTsd_mem (p : Nat) : (s.replayTsd p).mem = s.mem := by simp [State.replayTsd]

@[simp] theorem endCommand_mem (p : Nat) (tag : BitVec 32) (r : Reply) : (s.endCommand p tag r).mem = s.mem := by
  unfold State.endCommand
  split
  · rfl
  · split <;> simp

@[simp] theorem resync_mem (p : Nat) : (s.resync p).mem = s.mem := by simp [State.resync]
@[simp] theorem takeInit_mem (p : Nat) (f : Bytes) : (s.takeInit p f).mem = s.mem := by simp [State.takeInit]

@[simp] theorem tsdWord_mem (p : Nat) (f : Bytes) : (s.tsdWord p f).mem = s.mem := by
  unfold State.tsdWord
  dsimp only
  rw [pumpPort_mem]
  exact mem_of_ite ((replayTsd_mem ..).trans (State.modPort_mem ..)) (State.modPort_mem ..)

@[simp] theorem feedStage_mem (p : Nat) (tag : BitVec 32) (before b : Bytes) (last : Bool) :
    (s.feedStage p tag before b last).mem = s.mem := by
  unfold State.feedStage
  dsimp only
  split <;> simp

@[simp] theorem afterCommand_mem (code : BitVec 8) : (s.afterCommand code).mem = s.mem := by simp [State.afterCommand]

@[simp] theorem timeoutReply_mem (c : Cmd) : (s.timeoutReply c).1.mem = s.mem := by
  unfold State.timeoutReply
  split
  · split <;> simp
  · rfl

@[simp] theorem commandTimeout_mem (p : Nat) (tag : BitVec 32) : (s.commandTimeout p tag).mem = s.mem := by
  unfold State.commandTimeout
  split
  · rfl
  · split <;> simp

end

end Sys2Proof.Machine

/-! PROOFS. Who writes carrels and shelves: one lemma per operation that does, in the model's order, says that their
canonical form stays, since every write is a `Memory.write` or a `Memory.clear`; the rows follow from them. -/

namespace Sys2Proof.Machine

open Sys2Proof

@[simp] theorem wf_ite {p : Prop} [Decidable p] (m n : Memory) :
    Memory.wf (if p then m else n) = if p then m.wf else n.wf := apply_ite ..

/-- The state of an answer that a match has taken apart. -/
theorem wf_of_fst_eq {α : Type} {x : State × α} {t : State} {a : α} (e : x = (t, a)) (k : x.1.mem.wf) : t.mem.wf := by
  rw [e] at k
  exact k

theorem wf_of_fst_ite {α : Type} {p : Prop} [Decidable p] {x y : State × α} (h : x.1.mem.wf) (k : y.1.mem.wf) :
    (if p then x else y).1.mem.wf := by split <;> assumption

/-- A fold whose accumulator holds a memory. -/
theorem foldl_memory_wf {α β : Type} (g : β → Memory) {f : β → α → β} {l : List α} {x : β} (h : (g x).wf)
    (k : ∀ x a, (g x).wf → (g (f x a)).wf) : (g (l.foldl f x)).wf :=
  List.foldlRecOn (motive := fun x => (g x).wf) l f h fun x w a _ => k x a w

/-- A fold whose accumulator holds a state. -/
theorem foldl_wf_of {α β : Type} (g : β → State) {f : β → α → β} {l : List α} {x : β} (h : (g x).mem.wf)
    (k : ∀ x a, (g x).mem.wf → (g (f x a)).mem.wf) : (g (l.foldl f x)).mem.wf :=
  foldl_memory_wf (fun x => (g x).mem) h k

@[simp] theorem foldl_wf {α : Type} {f : State → α → State} {l : List α} {s : State} (h : s.mem.wf)
    (k : ∀ s a, s.mem.wf → (f s a).mem.wf) : (l.foldl f s).mem.wf := foldl_memory_wf State.mem h k

-- what words write

theorem storeRun_wf {mem : Memory} (h : mem.wf) (width base : Nat) (m : MatrixUnit) (w : W64) :
    (storeRun width base m mem w).2.wf := by
  unfold storeRun
  exact foldl_memory_wf Prod.snd h fun p j k => Memory.wf_write _ _ _ k

theorem applyWrites_wf {mem : Memory} (h : mem.wf) (base : Nat) (ws : List (Nat × Bytes)) :
    (applyWrites base mem ws).wf := foldl_memory_wf id h fun _ _ k => Memory.wf_write _ _ _ k

theorem VxCtx.pass_wf (c : VxCtx) (v : VxWord) (ue : Option Nat) {r : VxRun} (h : r.mem.wf) (p : Nat) :
    (c.pass v ue r p).mem.wf := by
  unfold VxCtx.pass
  split
  · exact h
  · split
    · exact h
    · exact foldl_memory_wf id h fun _ ws k => applyWrites_wf k c.base ws

theorem VxCtx.run_wf (c : VxCtx) (v : VxWord) (ue : Option Nat) {mem : Memory} (h : mem.wf) :
    (c.run v ue mem).mem.wf :=
  foldl_memory_wf id (foldl_memory_wf VxRun.mem h fun _ p k => c.pass_wf v ue k p) fun _ ws k => applyWrites_wf k c.base ws

theorem VxCtx.runSetq_mem (c : VxCtx) (v : VxWord) (mem : Memory) : (c.runSetq v mem).mem = mem := by
  unfold VxCtx.runSetq
  dsimp only
  split <;> rfl

theorem VxCtx.runStq_wf (c : VxCtx) (v : VxWord) {mem : Memory} (h : mem.wf) : (c.runStq v mem).mem.wf := by
  unfold VxCtx.runStq
  dsimp only
  split
  · exact h
  · exact Memory.wf_write _ _ _ h

section

variable {s : State} (h : s.mem.wf)
include h

-- carrels and shelves under their code

@[simp] theorem eccUe_wf (r : Reader) (w : Nat) : (s.eccUe r w).mem.wf := by
  simp [State.eccUe, h, Memory.wf_clear]

@[simp] theorem readSpan_wf (r : Reader) (a n : Nat) : (s.readSpan r a n).1.mem.wf := by
  unfold State.readSpan
  exact foldl_wf_of Prod.fst h fun p e k => by split <;> simp [k]

@[simp] theorem readSpans_wf (r : Reader) (spans : List (Nat × Nat)) : (s.readSpans r spans).1.mem.wf := by
  unfold State.readSpans
  exact foldl_wf_of Prod.fst h fun p x k => by split <;> simp [k]

@[simp] theorem mergeSpan_wf (r : Reader) (a n : Nat) : (s.mergeSpan r a n).1.mem.wf := by
  simp [State.mergeSpan, h]

@[simp] theorem writeSpan_wf (r : Reader) (a : Nat) (bs : Bytes) : (s.writeSpan r a bs).1.mem.wf := by
  unfold State.writeSpan
  split <;> next e => simp [wf_of_fst_eq e (mergeSpan_wf h ..), Memory.wf_write]

@[simp] theorem clearSpan_wf (a n : Nat) : (s.clearSpan a n).mem.wf := by
  simp [State.clearSpan, h, Memory.wf_clear]

-- matrix, vector and reduction words

@[simp] theorem runMul_wf (c : Nat) (w : W64) (off : WordAt) : (s.runMul c w off).mem.wf := by
  unfold State.runMul
  split <;> next e => simp [wf_of_fst_eq e (readSpans_wf h ..)]

@[simp] theorem runStore_wf (c : Nat) (w : W64) (off : WordAt) : (s.runStore c w off).mem.wf := by
  unfold State.runStore
  dsimp only
  split <;> next e => simp [wf_of_fst_eq e (readSpans_wf h ..), storeRun_wf]

@[simp] theorem runTileAxis_wf (c : Nat) (columns maximum : Bool) (w : W64) (off : WordAt) :
    (s.runTileAxis c columns maximum w off).mem.wf := by
  unfold State.runTileAxis
  dsimp only
  split <;> next e => simp [wf_of_fst_eq e (writeSpan_wf h ..)]

@[simp] theorem matrixRun_wf (c : Nat) (w : W64) (off : WordAt) : (s.matrixRun c w off).mem.wf := by
  unfold State.matrixRun
  split <;> simp [h]

@[simp] theorem shadowDone_wf (c : Nat) : (s.shadowDone c).mem.wf := by
  unfold State.shadowDone
  split
  · dsimp only
    split
    · next e => simp [wf_of_fst_eq e (readSpan_wf h ..)]
    · next e => split <;> simp [wf_of_fst_eq e (readSpan_wf h ..)]
  · exact h

@[simp] theorem vectorEcc_wf (c : Nat) (k : VxCtx) (v : VxWord) : (s.vectorEcc c k v).1.mem.wf := by
  unfold State.vectorEcc
  refine wf_of_fst_ite h (foldl_wf_of Prod.fst h fun a p k => ?_)
  split
  · exact k
  · split <;> next e => exact wf_of_fst_eq e (readSpans_wf k ..)

@[simp] theorem runVector_wf (c : Nat) (w : W64) (off : WordAt) : (s.runVector c w off).mem.wf := by
  have k := vectorEcc_wf h c (s.vxCtx c (vxWord w)) (vxWord w)
  unfold State.runVector
  dsimp only
  split <;> simp [apply_ite VxOut.mem, k, VxCtx.run_wf, VxCtx.runSetq_mem, VxCtx.runStq_wf]

@[simp] theorem vectorRun_wf (c : Nat) (w : W64) (off : WordAt) : (s.vectorRun c w off).mem.wf := by
  unfold State.vectorRun
  split <;> simp [h]

@[simp] theorem reductionRun_wf (c : Nat) (w : W64) (off : WordAt) : (s.reductionRun c w off).mem.wf := by
  unfold State.reductionRun
  dsimp only
  split
  · exact h
  · split
    · next e => simp [wf_of_fst_eq e (readSpan_wf h ..)]
    · next e =>
      have k := wf_of_fst_eq e (readSpan_wf h ..)
      split <;> next e => simp [wf_of_fst_eq e (writeSpan_wf k ..)]

@[simp] theorem runAlone_wf (c : Nat) (w : W64) (check : Option IssueFault)
    (run : WordAt → State → State) (k : ∀ w s, s.mem.wf → (run w s).mem.wf) :
    (s.runAlone c w check run).mem.wf := by
  unfold State.runAlone
  split
  · exact h
  · split
    · simp [h]
    · exact k _ _ h

@[simp] theorem matrixAlone_wf (c : Nat) (w : W64) (run : WordAt → State → State)
    (k : ∀ w s, s.mem.wf → (run w s).mem.wf) : (s.matrixAlone c w run).mem.wf := by
  unfold State.matrixAlone
  split
  · exact h
  · exact runAlone_wf h _ _ _ _ k

@[simp] theorem vectorAlone_wf (c : Nat) (w : W64) (run : WordAt → State → State)
    (k : ∀ w s, s.mem.wf → (run w s).mem.wf) : (s.vectorAlone c w run).mem.wf :=
  runAlone_wf h _ _ _ _ k

@[simp] theorem reductionAlone_wf (c : Nat) (w : W64) : (s.reductionAlone c w).mem.wf :=
  runAlone_wf h _ _ _ _ fun off _ k => reductionRun_wf k c w off

-- the transfer engine

@[simp] theorem readPieces_wf (c : Nat) (ps : List (Nat × Nat)) : (s.readPieces c ps).1.mem.wf := by
  unfold State.readPieces
  split <;> next e => simp [wf_of_fst_eq e (readSpans_wf h ..)]

@[simp] theorem writeLocal_wf (c a : Nat) (bs : Bytes) : (s.writeLocal c a bs).1.mem.wf := by
  unfold State.writeLocal
  split <;> next e => simp [wf_of_fst_eq e (writeSpan_wf h ..)]

@[simp] theorem writePieces_wf (c : Nat) (ps : List (Nat × Nat)) (bs : Bytes) : (s.writePieces c ps bs).1.mem.wf := by
  unfold State.writePieces
  exact foldl_wf_of (fun x : (State × Option Nat) × Bytes => x.1.1) h fun a p k => by split <;> simp [k]

@[simp] theorem copyRow_wf (c src dst len : Nat) : (s.copyRow c src dst len).1.mem.wf := by
  unfold State.copyRow
  split
  · next e => exact wf_of_fst_eq e (readPieces_wf h ..)
  · next e =>
    have k := wf_of_fst_eq e (readPieces_wf h ..)
    exact wf_of_fst_ite (writeLocal_wf k ..) (writeLocal_wf k ..)

@[simp] theorem copyRows_wf (c : Nat) (x : Xfer) : (s.copyRows c x).1.mem.wf := by
  unfold State.copyRows
  exact foldl_wf_of Prod.fst h fun a r k => by split <;> simp [k]

@[simp] theorem copyTrans_wf (c : Nat) (x : Xfer) : (s.copyTrans c x).1.mem.wf := by
  unfold State.copyTrans
  split
  · next e => exact wf_of_fst_eq e (readPieces_wf h ..)
  · next e => exact foldl_wf_of Prod.fst (wf_of_fst_eq e (readPieces_wf h ..)) fun a j k => by split <;> simp [k]

@[simp] theorem sendRequest_wf (c i tag : Nat) (o : Outst) (q : Nat × Nat × Nat) :
    (s.sendRequest c i tag o q).mem.wf := by
  unfold State.sendRequest
  dsimp only
  split
  · split <;> next e => simp [wf_of_fst_eq e (readPieces_wf h ..)]
  · simp [h]

omit h in
@[simp] theorem sendRequests_wf (h : s.mem.wf) (c fuel : Nat) : (s.sendRequests c fuel).mem.wf := by
  induction fuel generalizing s with
  | zero => exact h
  | succ fuel ih =>
    unfold State.sendRequests
    dsimp only
    split
    · split
      · split <;> simp [ih, h]
      · exact h
    · exact h

@[simp] theorem startOut_wf (c i : Nat) (o : Outst) : (s.startOut c i o).mem.wf := by
  unfold State.startOut
  dsimp only
  split
  · simp [h]
  · split
    · simp [h]
    · rw [State.modXf_mem]
      refine wf_of_fst_ite ?_ (wf_of_fst_ite ?_ (wf_of_fst_ite (copyTrans_wf h ..) (copyRows_wf h ..)))
      all_goals split <;> next e => simp [wf_of_fst_eq e (readPieces_wf h ..)]

@[simp] theorem startActive_wf (c : Nat) : (s.startActive c).mem.wf := by
  unfold State.startActive
  refine sendRequests_wf (foldl_wf h fun s i k => ?_) c 64
  split <;> simp [k]

@[simp] theorem runGo_wf (c : Nat) (w : W64) (off : Nat) : (s.runGo c w off).mem.wf := by
  simp [State.runGo, h]

@[simp] theorem transferRun_wf (c : Nat) (w : W64) (off : Nat) : (s.transferRun c w off).mem.wf := by
  unfold State.transferRun
  split <;> simp [h]

@[simp] theorem queueMove_wf (c i : Nat) (o : Outst) : (s.queueMove c i o).1.mem.wf := by
  unfold State.queueMove
  dsimp only
  split
  · split
    · next e => exact wf_of_fst_eq e (by simp [h])
    · next e =>
      have k := wf_of_fst_eq e (by simp [h])
      refine wf_of_fst_ite (by simp [k]) ?_
      split <;> next e => simp [wf_of_fst_eq e (readPieces_wf k ..)]
  · split
    · exact h
    · split
      · simp [h]
      · split <;> next e => simp [wf_of_fst_eq e (writePieces_wf h ..)]

@[simp] theorem queueCycle_wf (c : Nat) : (s.queueCycle c).1.mem.wf := by
  unfold State.queueCycle
  dsimp only
  refine foldl_wf_of Prod.fst h fun a i k => ?_
  split
  · exact k
  · split
    · exact k
    · split
      · exact k
      · split <;> next e => exact wf_of_fst_eq e (queueMove_wf k ..)

@[simp] theorem completeDesc_wf (c desc : Nat) : (s.completeDesc c desc).mem.wf := by
  unfold State.completeDesc
  dsimp only
  split
  · exact h
  · split
    · exact h
    · refine startActive_wf ?_ c
      split <;> simp [h]

end

-- commands and flits

@[simp] theorem operate_wf {s : State} (h : s.mem.wf) (p : Nat) (tag : BitVec 32) (op : State → State × Answer)
    (k : ∀ s, s.mem.wf → (op s).1.mem.wf) : (s.operate p tag op).mem.wf := by
  unfold State.operate
  split <;> next e => simp [wf_of_fst_eq e (k s h)]

@[simp] theorem runCommand_wf {s : State} (h : s.mem.wf) (p : Nat) (tag : BitVec 32) (code : BitVec 8)
    (op : State → State × Answer) (k : ∀ s, s.mem.wf → (op s).1.mem.wf) : (s.runCommand p tag code op).mem.wf := by
  unfold State.runCommand
  split
  · exact h
  · split
    · next e => exact wf_of_fst_eq e (by simp [h])
    · next e => exact operate_wf (wf_of_fst_eq e (by simp [h])) _ _ _ k

@[simp] theorem receive_wf {s : State} (h : s.mem.wf) (n : Nat) (f : Flit) (act : State → State)
    (k : ∀ s, s.mem.wf → (act s).mem.wf) : (s.receive n f act).mem.wf := by
  simp [State.receive, h, k]

section

variable {s : State} (h : s.mem.wf)
include h

-- the sequencer

@[simp] theorem slotRun_wf (c p len b : Nat) (w : W64) (o : WordAt) : (s.slotRun c p len b w o).mem.wf := by
  unfold State.slotRun
  split <;> simp [h]

@[simp] theorem issueBundle_wf (c p len : Nat) (ws : List (Nat × W64)) : (s.issueBundle c p len ws).mem.wf := by
  unfold State.issueBundle
  dsimp only
  generalize e : List.foldl _ _ ws = r
  have k : r.1.mem.wf := by
    rw [← e]
    refine foldl_wf_of Prod.fst (by split <;> simp [h]) fun a x k => wf_of_fst_ite k ?_
    split
    · exact k
    · simp [k]
  split <;> simp [h, k]

@[simp] theorem offerBundle_wf (c : Nat) (w : UnitWaits) : (s.offerBundle c w).mem.wf := by
  unfold State.offerBundle
  dsimp only
  split
  · simp [h]
  · simp [h]
  · split
    · simp [h]
    · split <;> next e => simp [wf_of_fst_eq e (by simp [h])]

@[simp] theorem bundleCycle_wf (c : Nat) (w : UnitWaits) : (s.bundleCycle c w).mem.wf := by
  have k := queueCycle_wf (s := s.countShelfWaits c) (by simp [h]) c
  simp [State.bundleCycle, h, k]

-- flits that arrive

@[simp] theorem serveFlit_wf (a : Admitted) (hops : Nat) : (s.serveFlit a hops).mem.wf := by
  unfold State.serveFlit
  dsimp only
  split <;> next e => simp [wf_of_fst_eq e (readSpans_wf h ..)]

omit h in
@[simp] theorem serveReads_wf (h : s.mem.wf) (n fuel : Nat) : (s.serveReads n fuel).mem.wf := by
  induction fuel generalizing s with
  | zero => exact h
  | succ fuel ih =>
    unfold State.serveReads
    split
    · exact h
    · split <;> simp [ih, h]

@[simp] theorem checkHeader_wf (n : Nat) (f : Flit) (write : Bool) : (s.checkHeader n f write).mem.wf := by
  unfold State.checkHeader
  dsimp only
  split <;> simp [h]

@[simp] theorem landWrite_wf (a : Admitted) : (s.landWrite a).mem.wf := by
  unfold State.landWrite
  dsimp only
  generalize e : List.foldl _ _ _ = r
  have k : r.1.1.mem.wf := by
    rw [← e]
    exact foldl_wf_of (fun x : (State × Option Nat) × Bytes => x.1.1) h fun x p k => by split <;> simp [k]
  split <;> next e => simp [wf_of_fst_eq e k]

@[simp] theorem takeWriteData_wf (n : Nat) (f : Flit) : (s.takeWriteData n f).mem.wf := by
  unfold State.takeWriteData
  dsimp only
  split <;> simp [h]

@[simp] theorem endRequest_wf (c tag : Nat) : (s.endRequest c tag).mem.wf := by
  simp [State.endRequest, h]

@[simp] theorem takeReadData_wf (f : Flit) : (s.takeReadData f).mem.wf := by
  unfold State.takeReadData
  dsimp only
  split
  · split
    · simp [h]
    · split <;> next e => simp [wf_of_fst_eq e (wf_of_fst_ite (by simp [h]) (writeLocal_wf (by simp [h]) ..))]
  · simp [h]

@[simp] theorem takeAck_wf (f : Flit) : (s.takeAck f).mem.wf := by
  unfold State.takeAck
  dsimp only
  split <;> simp [h]

@[simp] theorem linkWord_wf (n : Nat) (w : BitVec 64) : (s.linkWord n w).mem.wf := by
  simp [State.linkWord, h]

-- sessions

@[simp] theorem promptAppendOp_wf (port : Nat) (b : Bytes) : (promptAppendOp port b s).1.mem.wf := by
  unfold promptAppendOp
  dsimp only
  refine wf_of_fst_ite h (wf_of_fst_ite h ?_)
  split
  · exact h
  · refine wf_of_fst_ite h (wf_of_fst_ite h ?_)
    simp only [ite_mem, startAdmission_mem, State.modSession_mem, ite_self]
    split <;> simp [h]

-- loading a folio

@[simp] theorem setHash_wf (l : LogPart) : (s.setHash l).mem.wf := by
  unfold State.setHash
  split <;> simp [h, Memory.wf_write, Memory.wf_clear]

@[simp] theorem writeConstant_wf (f : Folio) (c : ConstImage) : (s.writeConstant f c).mem.wf := by
  unfold State.writeConstant
  split <;> simp [h]

@[simp] theorem settleCarrel_wf (c : Nat) : (s.settleCarrel c).mem.wf := by
  unfold State.settleCarrel
  split
  · rw [raise0_mem, State.modCar_mem]
    exact clearSpan_wf h ..
  · exact h

@[simp] theorem writeFolio_wf (q : LoadReq) (f : Folio) (v : FolioView) : (s.writeFolio q f v).mem.wf := by
  unfold State.writeFolio
  extract_lets cores r carrels hashes coresWritten ringsCleared queues rings windows routes constants
  have before : hashes.mem.wf :=
    foldl_wf (foldl_wf h fun s c k => settleCarrel_wf k c) fun s l k => setHash_wf k l
  have tables : routes.mem = hashes.mem := by
    simp -implicitDefEqProofs [routes, windows, rings, queues, ringsCleared, coresWritten]
  exact foldl_wf (tables ▸ before) fun s c k => writeConstant_wf k f c

@[simp] theorem endLoad_wf (b : Bytes) (view : Option FolioView) : (s.endLoad b view).1.mem.wf := by
  unfold State.endLoad
  dsimp only
  split <;> simp [h]

@[simp] theorem folioLoadOp_wf (port : Nat) (tag : BitVec 32) (b : Bytes) (view : Option FolioView) :
    (folioLoadOp port tag b view s).1.mem.wf := by
  unfold folioLoadOp
  split <;> simp [h]

-- shards of an edition

@[simp] theorem answerResend_wf (index port shard : Nat) : (s.answerResend index port shard).mem.wf := by
  unfold State.answerResend
  dsimp only
  split
  · simp [h]
  · split
    · simp [h]
    · split
      · exact h
      · split <;> next e => simp [wf_of_fst_eq e (readSpans_wf h ..)]
    · simp [h]

@[simp] theorem answerHeld_wf (index shard : Nat) : (s.answerHeld index shard).mem.wf := by
  simp +contextual [State.answerHeld, h]

@[simp] theorem failAttempt_wf (index shard cause : Nat) : (s.failAttempt index shard cause).mem.wf := by
  unfold State.failAttempt
  split <;> simp [h]

@[simp] theorem endAttempt_wf (index : Nat) (x : Shard) : (s.endAttempt index x).1.mem.wf := by
  simp [State.endAttempt, h]

@[simp] theorem landBytes_wf (index : Nat) (x : Shard) (data : Bytes) : (s.landBytes index x data).1.mem.wf := by
  unfold State.landBytes
  dsimp only
  generalize e : State.modShard _ index x.num _ = u
  have k : u.mem.wf := by
    rw [← e, modShard_mem, State.modAccDie_mem]
    split <;> simp [h]
  split
  · split <;> simp [k]
  · exact k

@[simp] theorem takeData_wf (index shard offset : Nat) (data : Bytes) (up : Bool) :
    (s.takeData index shard offset data up).1.mem.wf := by
  unfold State.takeData
  dsimp only
  split
  · exact h
  · refine wf_of_fst_ite ?wrong <| wf_of_fst_ite ?other <| wf_of_fst_ite h <|
      wf_of_fst_ite ?first <| wf_of_fst_ite ?next ?order
    case first =>
      split
      · simp [h]
      · refine wf_of_fst_ite (by simp [h]) ?_
        split <;> simp [h]
    all_goals simp [h]

@[simp] theorem shardDataOp_wf (port : Nat) (b : Bytes) : (shardDataOp port b s).1.mem.wf := by
  unfold shardDataOp
  extract_lets slot index shard offset n e x bad live data r u st
  iterate 4 refine wf_of_fst_ite h ?_
  have k : u.mem.wf := by
    clear_value x
    cases x <;> simp [u, r, h]
  split <;> simp [k]

@[simp] theorem takeSegment_wf (n : Nat) (head data : Bytes) : (s.takeSegment n head data).mem.wf := by
  unfold State.takeSegment
  extract_lets resend shard offset live
  split
  · simp [h]
  · split
    · simp [h]
    · extract_lets u r
      have k : r.1.mem.wf := wf_of_fst_ite (by simp [u, h]) (by simp [u, h])
      split <;> simp [k]

-- the step commit

@[simp] theorem takeRecord_wf (k ring at_ : Nat) : (s.takeRecord k ring at_).1.mem.wf := by
  unfold State.takeRecord
  split
  · exact h
  · dsimp only
    split <;> next e => simp [wf_of_fst_eq e (readSpans_wf h ..)]

@[simp] theorem putRecord_wf (k : Nat) (b : Bytes) : (s.putRecord k b).1.mem.wf := by
  simp +contextual [State.putRecord, h]

omit h in
@[simp] theorem draftTrees_wf (h : s.mem.wf) (fuel k step : Nat) (acc : Bytes) :
    (s.draftTrees fuel k step acc).1.mem.wf := by
  induction fuel generalizing s acc with
  | zero => exact h
  | succ fuel ih =>
    unfold State.draftTrees
    split
    · next e => exact ih (wf_of_fst_eq e (takeRecord_wf h ..)) _
    · next e => exact wf_of_fst_eq e (takeRecord_wf h ..)

@[simp] theorem takeDraft_wf (slot step d : Nat) : (s.takeDraft slot step d).mem.wf := by
  simp [State.takeDraft, h]

@[simp] theorem putDraft_wf (slot step : Nat) (stamp : W64) (d : Nat) : (s.putDraft slot step stamp d).mem.wf := by
  unfold State.putDraft
  dsimp only
  split <;> next e => simp [wf_of_fst_eq e (putRecord_wf h ..)]

@[simp] theorem putBatch_wf (slot step : Nat) (stamp : W64) : (s.putBatch slot step stamp).mem.wf := by
  unfold State.putBatch
  dsimp only
  split <;> next e => simp [wf_of_fst_eq e (putRecord_wf (by simp [h]) ..)]

@[simp] theorem stepCommit_wf (slot : Nat) : (s.stepCommit slot).mem.wf := by
  unfold State.stepCommit
  dsimp only
  split
  · next e => simp [wf_of_fst_eq e (takeRecord_wf h ..)]
  · next e =>
    have k := wf_of_fst_eq e (takeRecord_wf h ..)
    split
    · simp [k]
    · simp only [sessionEnded_mem]
      refine foldl_wf (putBatch_wf (foldl_wf ?_ fun s x k => takeDraft_wf k ..) ..) fun s x k => putDraft_wf k ..
      simp [k]

@[simp] theorem releaseStamp_wf (slot group : Nat) (late : Option (Nat × Nat)) :
    (s.releaseStamp slot group late).mem.wf := by
  unfold State.releaseStamp
  dsimp only
  split
  · exact h
  · split
    · exact h
    · generalize e : State.modProg (List.foldl _ s _) slot _ = u
      have k : u.mem.wf := by
        rw [← e, State.modProg_mem]
        exact foldl_wf h fun s x k => k
      simp [k]

-- shelf cycles, scrubbing and clearing

@[simp] theorem serveRequest_wf (k : Nat) (r : ShelfReq) : (s.serveRequest k r).mem.wf := by
  unfold State.serveRequest
  dsimp only
  split
  · exact h
  · split
    · split <;> next e => simp [wf_of_fst_eq e (writeSpan_wf h ..)]
    · split <;> next e => simp [wf_of_fst_eq e (readSpan_wf h ..)]

@[simp] theorem clearBank_wf (k b : Nat) : (s.clearBank k b).mem.wf := by
  unfold State.clearBank
  split <;> simp [h, Memory.wf_clear]

@[simp] theorem clearUnused_wf (k : Nat) (used : List Nat) : (s.clearUnused k used).1.mem.wf := by
  simp +contextual [State.clearUnused, h]

@[simp] theorem shelfCycle_wf (k : Nat) (offers : List ShelfReq) : (s.shelfCycle k offers).mem.wf := by
  simp only [State.shelfCycle, scrubUnused_mem, State.modCluster_mem]
  exact clearUnused_wf (foldl_wf (by simp [h]) fun s e k => serveRequest_wf k ..) ..

@[simp] theorem scrubSpan_wf (a n : Nat) : (s.scrubSpan a n).mem.wf := by
  unfold State.scrubSpan
  exact foldl_wf h fun s e k => by split <;> simp [k]

@[simp] theorem scrubBank_wf (k b : Nat) : (s.scrubBank k b).mem.wf := by simp [State.scrubBank, h]

@[simp] theorem scrubCarrel_wf (c : Nat) : (s.scrubCarrel c).mem.wf := by
  simp [State.scrubCarrel, h]

@[simp] theorem endPartClear_wf (k p : Nat) : (s.endPartClear k p).mem.wf := by
  unfold State.endPartClear
  split
  · exact h
  · rw [progress_mem, raise0_mem, State.modCluster_mem]
    exact clearSpan_wf (by simp [h]) ..

@[simp] theorem endCarrelClear_wf (c : Nat) : (s.endCarrelClear c).mem.wf := by
  unfold State.endCarrelClear
  split
  · exact h
  · rw [progress_mem, raise0_mem, State.modCar_mem, State.modSq_mem]
    exact clearSpan_wf h ..

-- the Tsudan link

@[simp] theorem operationOf_wf (port : Nat) (tag : BitVec 32) (code : BitVec 8) (b : Bytes) :
    (operationOf port tag code b s).1.mem.wf := by
  fun_cases operationOf port tag code b <;> simp [h]

@[simp] theorem feedLoad_wf (p : Nat) (tag : BitVec 32) (b : Bytes) (last : Bool) :
    (s.feedLoad p tag b last).mem.wf := by
  unfold State.feedLoad
  extract_lets slot begun r u
  have k : r.1.mem = s.mem := by
    refine mem_of_fst_ite rfl (mem_of_fst_ite ?_ rfl)
    split <;> simp
  split
  · simp [k, h]
  · split
    · exact operate_wf (k ▸ h) _ _ _ fun s k => endLoad_wf k ..
    · split
      · split <;> simp [u, k, h]
      · exact k ▸ h

@[simp] theorem feed_wf (p : Nat) (tag : BitVec 32) (code : BitVec 8) (before b : Bytes) (last : Bool) :
    (s.feed p tag code before b last).mem.wf := by
  simp +contextual [State.feed, h]

@[simp] theorem grow_wf (p : Nat) (hd : TsdHeader) (before payload : Bytes) :
    (s.grow p hd before payload).mem.wf := by
  simp [State.grow, h]

@[simp] theorem firstPacket_wf (p : Nat) (hd : TsdHeader) (payload : Bytes) :
    (s.firstPacket p hd payload).mem.wf := by
  unfold State.firstPacket
  dsimp only
  split
  · simp [h]
  · split
    · simp [h]
    · split
      · simp [h]
      · split <;> next e => simp [wf_of_fst_eq e (by simp [h])]

@[simp] theorem laterPacket_wf (p : Nat) (hd : TsdHeader) (payload : Bytes) :
    (s.laterPacket p hd payload).mem.wf := by
  unfold State.laterPacket
  split <;> simp [h]

@[simp] theorem takePacket_wf (p : Nat) (hd : TsdHeader) (payload : Bytes) :
    (s.takePacket p hd payload).mem.wf := by
  simp [State.takePacket, h]

end

@[simp] theorem idleCycle_mem (s : State) : (idleCycle s).mem = s.mem := by simp [idleCycle]

@[simp] theorem senseSeal_mem (s : State) (isOpen : Bool) : (s.senseSeal isOpen).mem = s.mem := by
  simp [State.senseSeal]

@[simp] theorem clockTick_mem (s : State) (t : TickInputs) : (s.clockTick t).mem = s.mem := by
  simp [State.clockTick]

/-- With the package's state its memory is lost, too (R426, R502). -/
@[simp] theorem packageLoss_mem (s : State) : s.packageLoss.mem = [] := rfl

@[simp] theorem inputLoss_mem (s : State) : s.inputLoss.mem = [] := rfl

-- the rows

/-- Where the outcome is a next state, its carrels and shelves are in canonical form. -/
def CanonicalNext (o : Host.Outcome State Fault Refusal) : Prop := ∀ t, o = .next t → t.Canonical

theorem CanonicalNext.of_wf {t : State} (h : t.mem.wf) : CanonicalNext (.next t) := by
  rintro _ ⟨⟩
  exact h

theorem CanonicalNext.of_mem {s t : State} (h : s.mem.wf) (k : t.mem = s.mem) : CanonicalNext (.next t) :=
  .of_wf (k ▸ h)

section

variable {s : State} (h : s.mem.wf)
include h

theorem transferAlone_wf (c : Nat) (w : W64) (run : WordAt → State → State)
    (k : ∀ w s, s.mem.wf → (run w s).mem.wf) : (s.transferAlone c w run).mem.wf := by
  unfold State.transferAlone
  split
  · exact h
  · exact runAlone_wf h _ _ _ _ k

theorem execInputPowerApplied_canonical (vinMv : Nat) : CanonicalNext (execInputPowerApplied vinMv s) := by
  unfold execInputPowerApplied
  split
  · rintro _ ⟨⟩
  · exact .of_wf (by simp [h])

theorem execReadingRoomBegin_canonical : CanonicalNext (execReadingRoomBegin s) := by
  refine .of_mem h (mem_of_ite rfl ?_)
  dsimp only
  generalize e : List.foldl _ _ [0, 1] = t
  have k : t.mem = s.mem := by
    rw [← e]
    exact foldl_mem _ _ _ fun _ _ => rfl
  simp [k]

theorem execBootFail_canonical (die : Die) : CanonicalNext (execBootFail die s) := by
  refine .of_mem h (mem_of_ite rfl (mem_of_ite (State.modBanks_mem ..) ?_))
  split <;> simp

theorem execFabFlitReject_canonical (port : FPort) (reason : RejectReason) :
    CanonicalNext (execFabFlitReject port reason s) := by
  refine .of_mem h (mem_of_ite rfl ?_)
  split <;> simp

theorem execResend_canonical (port : FPort) (flit : Flit) : CanonicalNext (execResend port flit s) := by
  refine .of_wf (receive_wf h _ _ _ fun s h => ?_)
  split <;> simp [h]

theorem execResendFail_canonical (port : FPort) (flit : Flit) : CanonicalNext (execResendFail port flit s) := by
  refine .of_wf (receive_wf h _ _ _ fun s h => ?_)
  split
  · split <;> simp [h]
  · exact h

theorem execShardTimeout_canonical (index : EdIdx) (shard : Option Nat) :
    CanonicalNext (execShardTimeout index shard s) := by
  refine .of_wf ?_
  split
  · split <;> simp [h]
  · simp +contextual [h]

/-- Every row keeps the canonical form: what a row writes to carrels and shelves, it writes by `Memory.write` and
`Memory.clear`, and the rows named here branch on what they find or run an operation that they are given. -/
theorem exec_canonical (c : Instr) : CanonicalNext (exec c s) := by
  cases c with
  | inputPowerApplied vinMv => exact execInputPowerApplied_canonical h vinMv
  | readingRoomBegin => exact execReadingRoomBegin_canonical h
  | bootFail die => exact execBootFail_canonical h die
  | fabFlitReject port reason => exact execFabFlitReject_canonical h port reason
  | ctLoop core args => exact .of_mem h (controlAlone_mem _ _ _ _ fun _ _ => rfl)
  | ctDelay core args => exact .of_mem h (controlAlone_mem _ _ _ _ fun _ _ => rfl)
  | ctHalt core args => exact .of_mem h (controlAlone_mem _ _ _ _ fun _ _ => rfl)
  | xfGo core args => exact .of_wf (transferAlone_wf h _ _ _ fun off s h => runGo_wf h _ _ _)
  | resend port flit => exact execResend_canonical h port flit
  | resendFail port flit => exact execResendFail_canonical h port flit
  | shardTimeout index shard => exact execShardTimeout_canonical h index shard
  | tripClear _ | holdTimeout _ | xfTimeout _ _ | xfEccUe _ _ | scrubRead _ | clearDone _ | tableEccUe _
  | tokenPacketClose _ | mgmtBusRead _ _ | leaseLapse _ =>
    refine .of_wf ?_
    split <;> simp [h]
  | _ => exact .of_wf (by simp +contextual [h])

end

/-- Settles O3: a step with a command waiting is exec on the same memory, and an idle step moves the ledgers alone. -/
theorem everyStepKeepsMemoryCanonical : Obligations.EveryStepKeepsMemoryCanonical := by
  unfold Obligations.EveryStepKeepsMemoryCanonical
  intro s t h stepped
  unfold step at stepped
  split at stepped
  · exact CanonicalNext.of_mem h (idleCycle_mem s) t stepped
  · next c rest _ => exact exec_canonical (s := { s with pending := rest }) h c t stepped

end Sys2Proof.Machine

/-! PROOFS. A shelf cycle (R168, R172, R177, R525): the order of service grants a bank once, and without code errors and
clearing what the cycle does beyond its own lists is to move the data of the served. -/

namespace Sys2Proof.Machine

open Sys2Proof

-- the order of service

/-- The requests of a cycle that are served. -/
def servedOf (out : List (ShelfReq × Nat × Service)) : List (ShelfReq × Nat × Service) := out.filter fun e => e.2.2 = .served

/-- What a cycle does with a request for a bank while the banks `taken` are served or held (R168, R172). -/
def serviceOf (backs taken : List Nat) (b : Nat) : Service :=
  if backs.contains b then .writeBack
  else if taken.contains b then .conflict
  else if 48 ≤ taken.length then .slot
  else .served

/-- One request's turn: its outcome joins the others, and its bank is taken where it is served. -/
def serveNext (backs : List Nat) (a : List Nat × List (ShelfReq × Nat × Service)) (r : ShelfReq × Nat) :
    List Nat × List (ShelfReq × Nat × Service) :=
  (if serviceOf backs a.1 r.2 = .served then r.2 :: a.1 else a.1, a.2 ++ [(r.1, r.2, serviceOf backs a.1 r.2)])

theorem serve_eq (held backs : List Nat) (l : List (ShelfReq × Nat)) :
    serve held backs l = (l.foldl (serveNext backs) (held, [])).2 := by
  unfold serve
  congr 2
  funext a r
  unfold serveNext serviceOf
  split_ifs <;> simp_all

theorem serviceOf_served {backs taken : List Nat} {b : Nat} :
    serviceOf backs taken b = .served ↔ b ∉ backs ∧ b ∉ taken ∧ taken.length < 48 := by
  unfold serviceOf
  split_ifs <;> simp_all

theorem mem_of_conflict {backs taken : List Nat} {b : Nat} (h : serviceOf backs taken b = .conflict) : b ∈ taken := by
  unfold serviceOf at h
  split_ifs at h with _ taken
  exact List.contains_iff_mem.mp taken

theorem full_of_slot {backs taken : List Nat} {b : Nat} (h : serviceOf backs taken b = .slot) : 48 ≤ taken.length := by
  unfold serviceOf at h
  split_ifs at h with _ _ full
  exact full

theorem mem_of_writeBack {backs taken : List Nat} {b : Nat} (h : serviceOf backs taken b = .writeBack) : b ∈ backs := by
  unfold serviceOf at h
  split_ifs at h with backed
  exact List.contains_iff_mem.mp backed

/-- What holds once the requests `l` had their turn: the banks taken are those held and those served, no bank twice, and
whoever waits has its reason. -/
structure Served (held backs : List Nat) (l : List (ShelfReq × Nat)) (a : List Nat × List (ShelfReq × Nat × Service)) :
    Prop where
  all : a.2.map (fun e => (e.1, e.2.1)) = l
  taken : a.1 = ((servedOf a.2).map fun e => e.2.1).reverse ++ held
  few : (servedOf a.2).length ≤ 48
  once : ((servedOf a.2).map fun e => e.2.1).Nodup
  free : ∀ e ∈ servedOf a.2, e.2.1 ∉ backs ∧ e.2.1 ∉ held
  conflict : ∀ e ∈ a.2, e.2.2 = .conflict → e.2.1 ∈ a.1
  slot : ∀ e ∈ a.2, e.2.2 = .slot → 48 ≤ a.1.length
  writeBack : ∀ e ∈ a.2, e.2.2 = .writeBack → e.2.1 ∈ backs

theorem served_nil (held backs : List Nat) : Served held backs [] (held, []) := by
  constructor <;> simp [servedOf]

theorem servedOf_append_served {out : List (ShelfReq × Nat × Service)} (r : ShelfReq) (b : Nat) :
    servedOf (out ++ [(r, b, .served)]) = servedOf out ++ [(r, b, .served)] := by
  simp [servedOf]

theorem servedOf_append_waits {out : List (ShelfReq × Nat × Service)} {e : ShelfReq × Nat × Service}
    (waits : e.2.2 ≠ .served) : servedOf (out ++ [e]) = servedOf out := by
  simp [servedOf, waits]

theorem Served.next {held backs : List Nat} {l : List (ShelfReq × Nat)} {a : List Nat × List (ShelfReq × Nat × Service)}
    (h : Served held backs l a) (r : ShelfReq × Nat) : Served held backs (l ++ [r]) (serveNext backs a r) := by
  obtain ⟨taken, out⟩ := a
  obtain ⟨all, banks, few, once, free, conflict, slot, writeBack⟩ := h
  dsimp only at all banks few once free conflict slot writeBack
  by_cases serves : serviceOf backs taken r.2 = .served
  · obtain ⟨unbacked, fresh, room⟩ := serviceOf_served.mp serves
    have length : taken.length = (servedOf out).length + held.length := by simp [banks]
    have new : r.2 ∉ (servedOf out).map (fun e => e.2.1) ∧ r.2 ∉ held := by
      rw [banks, List.mem_append, List.mem_reverse] at fresh
      exact not_or.mp fresh
    unfold serveNext
    simp only [serves, if_true]
    constructor <;> dsimp only
    case all => simp [all]
    case taken => simp [servedOf_append_served, banks]
    case few => rw [servedOf_append_served, List.length_append, List.length_singleton]; omega
    case once =>
      rw [servedOf_append_served, List.map_append, List.nodup_append]
      refine ⟨once, List.nodup_singleton _, fun b old c one same => new.1 ?_⟩
      rwa [same, List.mem_singleton.mp one] at old
    case free =>
      simp only [servedOf_append_served, List.forall_mem_append, List.forall_mem_singleton]
      exact ⟨free, unbacked, new.2⟩
    case conflict =>
      simp only [List.forall_mem_append, List.forall_mem_singleton]
      exact ⟨fun e old waits => List.mem_cons_of_mem _ (conflict e old waits), nofun⟩
    case slot =>
      simp only [List.forall_mem_append, List.forall_mem_singleton]
      exact ⟨fun e old waits => (slot e old waits).trans (Nat.le_succ _), nofun⟩
    case writeBack =>
      simp only [List.forall_mem_append, List.forall_mem_singleton]
      exact ⟨writeBack, nofun⟩
  · have same : servedOf (out ++ [(r.1, r.2, serviceOf backs taken r.2)]) = servedOf out := servedOf_append_waits serves
    unfold serveNext
    simp only [serves, if_false]
    constructor <;> dsimp only
    case all => simp [all]
    case taken => rw [same, banks]
    case few => rw [same]; exact few
    case once => rw [same]; exact once
    case free => rw [same]; exact free
    case conflict =>
      simp only [List.forall_mem_append, List.forall_mem_singleton]
      exact ⟨conflict, mem_of_conflict⟩
    case slot =>
      simp only [List.forall_mem_append, List.forall_mem_singleton]
      exact ⟨slot, full_of_slot⟩
    case writeBack =>
      simp only [List.forall_mem_append, List.forall_mem_singleton]
      exact ⟨writeBack, mem_of_writeBack⟩

theorem Served.foldl {held backs : List Nat} (l : List (ShelfReq × Nat)) {done : List (ShelfReq × Nat)}
    {a : List Nat × List (ShelfReq × Nat × Service)} (h : Served held backs done a) :
    Served held backs (done ++ l) (l.foldl (serveNext backs) a) := by
  induction l generalizing done a with
  | nil => simpa using h
  | cons r l ih => simpa using ih (h.next r)

/-- The outcomes of a cycle, with the banks it has taken. -/
theorem serve_served (held backs : List Nat) (l : List (ShelfReq × Nat)) :
    ∃ taken, Served held backs l (taken, serve held backs l) :=
  ⟨(l.foldl (serveNext backs) (held, [])).1, serve_eq held backs l ▸ (served_nil held backs).foldl l⟩

-- the data of the served

/-- What the reads among requests deliver of a memory (R168). -/
def delivers (m : Memory) (k : Nat) (l : List ShelfReq) : List (ShelfReq × Bytes) :=
  (l.filter fun r => !r.moved && !r.write).map fun r => (r, m.read (partBase k r.part + 128 * r.granule) 128)

/-- A shelf's cycle serves the requests `l` and writes down which banks it used: of its cluster only what was delivered,
the banks in use and the corrections due change, and reads leave memory. -/
structure Serves (k : Nat) (l : List ShelfReq) (s t : State) : Prop where
  frame : t = { s with clusters := t.clusters, mem := t.mem }
  own : t.cluster k = { s.cluster k with
    delivered := (t.cluster k).delivered, busy := (t.cluster k).busy, scrubBacks := (t.cluster k).scrubBacks }
  others : ∀ j, j ≠ k → t.cluster j = s.cluster j
  reads : (∀ r ∈ l, r.write = false ∨ r.moved = true) →
    t.mem = s.mem ∧ (t.cluster k).delivered = (s.cluster k).delivered ++ delivers s.mem k l

theorem Serves.trans {k : Nat} {l m : List ShelfReq} {s t u : State} (h : Serves k l s t) (h' : Serves k m t u) :
    Serves k (l ++ m) s u where
  frame := by rw [h'.frame, h.frame]
  own := by rw [h'.own, h.own]
  others j ne := (h'.others j ne).trans (h.others j ne)
  reads all := by
    obtain ⟨first, second⟩ := List.forall_mem_append.mp all
    obtain ⟨mem, delivered⟩ := h.reads first
    obtain ⟨mem', delivered'⟩ := h'.reads second
    exact ⟨mem'.trans mem, by simp [delivered', delivered, mem, delivers]⟩

theorem Serves.refl (k : Nat) (s : State) : Serves k [] s s :=
  ⟨rfl, rfl, fun _ _ => rfl, fun _ => ⟨rfl, by simp [delivers]⟩⟩

/-- Writing down of a shelf's cycle which banks it used, or which corrections are still due. -/
theorem modCluster_serves (s : State) (k : Nat) {f : Cluster → Cluster}
    (own : ∀ x, f x = { x with busy := (f x).busy, scrubBacks := (f x).scrubBacks }) : Serves k [] s (s.modCluster k f) where
  frame := rfl
  own := by
    rw [modCluster_cluster, if_pos rfl, own]
  others j ne := (modCluster_cluster ..).trans (if_neg ne)
  reads _ := ⟨rfl, by rw [modCluster_cluster, if_pos rfl, own]; simp [delivers]⟩

theorem isShelf_granule (k p g i : Nat) : isShelf (partBase k p + 128 * g + i) = true :=
  decide_eq_true (by unfold partBase shelfBase; omega)

theorem serveRequest_serves {s : State} (clean : s.upsets = []) (k : Nat) (r : ShelfReq) :
    Serves k [r] s (s.serveRequest k r) := by
  unfold State.serveRequest
  dsimp only
  split_ifs with moved write
  · exact ⟨rfl, rfl, fun _ _ => rfl, fun _ => ⟨rfl, by simp [delivers, moved]⟩⟩
  · rw [writeSpan_clean _ _ _ _ clean (.inl (isShelf_granule ..))]
    exact ⟨rfl, rfl, fun _ _ => rfl, fun all => absurd (all r (List.mem_singleton.mpr rfl)) (by simp [moved, write])⟩
  · rw [readSpan_clean _ _ _ _ clean]
    refine ⟨rfl, ?_, fun j ne => (modCluster_cluster ..).trans (if_neg ne), fun _ => ⟨rfl, ?_⟩⟩
    · rw [modCluster_cluster, if_pos rfl]
    · rw [modCluster_cluster, if_pos rfl]
      simp [delivers, moved, write]

theorem Serves.upsets {k : Nat} {l : List ShelfReq} {s t : State} (h : Serves k l s t) : t.upsets = s.upsets := by
  rw [h.frame]

theorem foldl_serveRequest_serves (k : Nat) (l : List ShelfReq) {s : State} (clean : s.upsets = []) :
    Serves k l s (l.foldl (fun (s : State) r => s.serveRequest k r) s) := by
  induction l generalizing s with
  | nil => exact .refl k s
  | cons r l ih =>
    have one := serveRequest_serves clean k r
    exact one.trans (ih (one.upsets.trans clean))

theorem shelfClears_congr {s t : State} {k : Nat} (parts : (t.cluster k).parts = (s.cluster k).parts) :
    t.shelfClears k = s.shelfClears k := by
  unfold State.shelfClears State.part
  rw [parts]

theorem clearUnused_of_still {s : State} {k : Nat} (still : s.shelfClears k = false) (used : List Nat) :
    s.clearUnused k used = (s, used) := by
  simp [State.clearUnused, still]

/-- Without code errors no scrub correction is left to make (R179). -/
theorem scrubUnused_serves {s : State} (clean : s.upsets = []) (k : Nat) (used : List Nat) :
    Serves k [] s (s.scrubUnused k used) := by
  unfold State.scrubUnused
  dsimp only
  rw [foldl_same]
  · exact modCluster_serves s k fun _ => rfl
  · intro w _
    refine if_neg ?_
    rw [show (s.modCluster k _).upsets = [] from clean]
    exact Nat.zero_ne_one

/-- What a shelf's cycle does with its data once its lists are written down (R168, R179, R182). -/
def State.moveServed (s : State) (k : Nat) (l : List ShelfReq) (used : List Nat) : State :=
  let (s, used) := (l.foldl (fun (s : State) r => s.serveRequest k r) s).clearUnused k used
  (s.modCluster k fun c => { c with busy := used }).scrubUnused k used

theorem moveServed_serves {s : State} {k : Nat} (clean : s.upsets = []) (still : s.shelfClears k = false) (l : List ShelfReq)
    (used : List Nat) : Serves k l s (s.moveServed k l used) := by
  have served := foldl_serveRequest_serves k l clean
  have still' := (shelfClears_congr (t := l.foldl (fun (s : State) r => s.serveRequest k r) s) (by rw [served.own])).trans still
  unfold State.moveServed
  rw [clearUnused_of_still still']
  have busy := modCluster_serves (l.foldl (fun (s : State) r => s.serveRequest k r) s) k
    (f := fun c => { c with busy := used }) fun _ => rfl
  have all := (served.trans busy).trans (scrubUnused_serves ((served.trans busy).upsets.trans clean) k used)
  simpa only [List.append_nil] using all

/-- What a shelf's cycle writes down of its requests: their outcomes and who found no room (R168, R172, R177, R525). -/
def Cluster.noted (c : Cluster) (out : List (ShelfReq × Nat × Service)) (spans : List ShelfSpan) (offers : List ShelfReq) :
    Cluster :=
  let waits := out.filter fun e => decide (e.2.2 = .conflict) || decide (e.2.2 = .slot)
  { (c.count out) with
    pending := (out.filter fun e => e.2.2 ≠ .served).map Prod.fst
    waiting := spans, offered := offers, writeBacks := [], delivered := []
    held := ((servedOf out).filter fun e => ShelfReq.partial_ e.1).map fun e => e.2.1
    delayed := spans.map ShelfSpan.owner ++ offers.map ShelfReq.owner ++ waits.map fun e => e.1.owner
    behind := (out.filter fun e => e.2.2 = .writeBack).map fun e => e.1.owner
    confCycles := if waits = [] then c.confCycles else c.confCycles + 1 }

/-- A shelf's cycle writes down what becomes of its requests and then moves the data of the served. -/
theorem shelfCycle_eq (s : State) (k : Nat) (offers : List ShelfReq) :
    let c := s.cluster k
    let spans := joinSpans c.pending c.waiting
    let joined := joinPending spans.1 (c.offered ++ offers)
    let backs := c.writeBacks.map fun b => s.bank k b.1 b.2
    let out := serve c.held backs ((serviceOrder joined.1).map fun r => (r, s.bank k r.part r.granule))
    s.shelfCycle k offers = (s.modCluster k fun c => c.noted out spans.2 joined.2).moveServed k
      ((servedOf out).map Prod.fst) (c.held ++ backs ++ (servedOf out).map fun e => e.2.1) := by
  intros
  unfold State.shelfCycle State.moveServed Cluster.noted servedOf
  rw [List.foldl_map]

/-- Settles O27: the fold of the service with the banks it has taken, and the moves of the data. -/
theorem shelfCycleServesOncePerBank : Obligations.ShelfCycleServesOncePerBank := by
  unfold Obligations.ShelfCycleServesOncePerBank
  refine ⟨fun held backs l => ?_, fun cluster offers s clean still => ?_⟩
  · obtain ⟨taken, h⟩ := serve_served held backs l
    obtain ⟨all, banks, few, once, free, conflict, slot, writeBack⟩ := h
    dsimp only at all banks few once free conflict slot writeBack
    refine ⟨all, few, once, free, fun e he => ⟨fun waits => ?_, fun waits => ?_, writeBack e he⟩⟩
    · have mem := conflict e he waits
      rw [banks, List.mem_append, List.mem_reverse, List.mem_map] at mem
      exact mem.symm
    · have full := slot e he waits
      rw [banks, List.length_append, List.length_reverse, List.length_map] at full
      exact full.trans_eq (Nat.add_comm ..)
  · intro c spans joined backs out served
    have noted : (s.modCluster cluster fun c => c.noted out spans.2 joined.2).cluster cluster = c.noted out spans.2 joined.2 :=
      (modCluster_cluster ..).trans (if_pos rfl)
    have still' : (s.modCluster cluster fun c => c.noted out spans.2 joined.2).shelfClears cluster = false :=
      (shelfClears_congr (by rw [noted]; rfl)).trans still
    have h : Serves cluster (served.map Prod.fst) (s.modCluster cluster fun c => c.noted out spans.2 joined.2)
        (s.shelfCycle cluster offers) := by
      rw [shelfCycle_eq]
      refine moveServed_serves ?_ still' ..
      exact clean
    have own := h.own
    rw [noted, Cluster.noted] at own
    have frame : s.shelfCycle cluster offers
        = { s with clusters := (s.shelfCycle cluster offers).clusters, mem := (s.shelfCycle cluster offers).mem } := h.frame
    refine ⟨s.shelfCycle cluster offers, rfl, frame, ?_, ?_, ?_, ?_, ?_, fun owner => ?_, fun owner => ?_, fun reads => ?_,
      fun k ne => (h.others k ne).trans ((modCluster_cluster ..).trans (if_neg ne))⟩
    · rw [own]
    · rw [own]
    · rw [own]
    · rw [own]
    · rw [own, Cluster.count]
    · rw [own]
      simp [and_assoc]
    · rw [own]
      simp [and_assoc]
    · obtain ⟨mem, delivered⟩ := h.reads (List.forall_mem_map.mpr reads)
      refine ⟨mem, delivered.trans ?_⟩
      rw [noted, delivers, List.filter_map, List.map_map]
      rfl

end Sys2Proof.Machine

/-! PROOFS. The banks of a row (R169): every hash maps a granule of a row by a mask of the row alone. -/

namespace Sys2Proof.Machine

open Sys2Proof

theorem rev6_eq : ∀ b, b < 64 →
    rev6 b = 32 * (b % 2) + 16 * (b / 2 % 2) + 8 * (b / 4 % 2) + 4 * (b / 8 % 2) + 2 * (b / 16 % 2) + b / 32 := by
  decide

theorem rotl6_one : ∀ b, b < 64 → rotl6 b 1 = 2 * b % 64 + b / 32 := by decide

theorem rotl6_three : ∀ c, c < 64 → rotl6 c 3 = 8 * c % 64 + c / 8 := by decide

theorem bankOf_lt (h p : Nat) : bankOf h p < 64 := by
  have lt (x : Nat) : x % 64 < 2 ^ 6 := Nat.mod_lt _ (by decide)
  have half : p / 2 ^ 18 % 2 * 32 < 2 ^ 6 := by omega
  have rev : rev6 (p / 64 % 64) < 2 ^ 6 := by rw [rev6_eq _ (lt _)]; omega
  have rotl (x n : Nat) : rotl6 x n < 2 ^ 6 := lt _
  change _ < 2 ^ 6
  unfold bankOf
  split <;> apply_rules [Nat.xor_lt_two_pow]

/-- Within a row the granules' banks differ by the granules' own bits. -/
theorem bankOf_row (h row : Nat) {a : Nat} (lt : a < 64) : bankOf h (64 * row + a) = a ^^^ bankOf h (64 * row) := by
  have low : (64 * row + a) % 64 = a := by omega
  have div (n : Nat) (hn : 64 ∣ n) : (64 * row + a) / n = 64 * row / n := by
    obtain ⟨m, rfl⟩ := hn
    rw [← Nat.div_div_eq_div_mul, ← Nat.div_div_eq_div_mul]
    congr 1
    omega
  have zero : 64 * row % 64 = 0 := Nat.mul_mod_right ..
  unfold bankOf
  simp only [low, zero, div 64 (by decide), div 4096 (by decide), div (2 ^ 18) (by decide), div 256 (by decide)]
  split <;> simp [Nat.xor_assoc]

/-- Settles O28: the masks by their finite tables, and a row's banks by the xor with the row's mask. -/
theorem hashesSpreadARowOverAllBanks : Obligations.HashesSpreadARowOverAllBanks := by
  unfold Obligations.HashesSpreadARowOverAllBanks
  refine ⟨fun p _ => ?_, fun h row _ _ => ⟨fun a _ => bankOf_lt .., fun a b ha hb same => ?_⟩⟩
  · have lt (x : Nat) : x % 64 < 64 := Nat.mod_lt _ (by decide)
    simp [bankOf, rev6_eq, rotl6_one, rotl6_three, lt, Nat.mul_comm]
  · rw [bankOf_row h row ha, bankOf_row h row hb] at same
    exact Nat.xor_left_injective same

end Sys2Proof.Machine

/-! PROOFS. Scrubbing and clearing without code errors (R178, R181, R182): a scrub read leaves memory, and the end of a
clearing leaves zeros in its range. -/

namespace Sys2Proof.Machine

open Sys2Proof

-- scrubbing

theorem scrubSpan_clean {s : State} (clean : s.upsets = []) (a n : Nat) : s.scrubSpan a n = s := by
  simp [State.scrubSpan, upsetsIn_clean s a n clean]

theorem scrubCarrel_clean {s : State} {c : Nat} (clean : s.upsets = []) (on : (s.core c).car.scrub = true) :
    OnlyCore c s (s.scrubCarrel c) ∧ (s.scrubCarrel c).core c = { s.core c with car := { (s.core c).car with
      granule := (s.core c).car.granule + 1
      passes := if (s.core c).car.granule = 32767 then (s.core c).car.passes + 1 else (s.core c).car.passes } } := by
  have last : (s.core c).car.granule.toNat = 32767 ↔ (s.core c).car.granule = 32767 := by
    rw [← BitVec.toNat_inj]
    rfl
  unfold State.scrubCarrel
  dsimp only
  rw [if_neg (by simp [on]), scrubSpan_clean clean]
  simp only [last]
  exact ⟨⟨rfl, fun d ne => (modCore_core ..).trans (if_neg ne)⟩, (modCore_core ..).trans (if_pos rfl)⟩

/-- A bank of a shelf goes on to its next row; no pass ends before its last one (R178). -/
theorem scrubBank_clean {s : State} {k b : Nat} (lt : b < 64) (clean : s.upsets = []) (on : (s.cluster k).scrub = true)
    (unused : b ∉ (s.cluster k).busy) (more : Tbl.get 0 (s.cluster k).scrubRow b < 65535) :
    s.scrubBank k b = { s with clusters := (s.scrubBank k b).clusters }
      ∧ (s.scrubBank k b).cluster k = { s.cluster k with
          scrubRow := Tbl.put 0 (s.cluster k).scrubRow b (Tbl.get 0 (s.cluster k).scrubRow b + 1) }
      ∧ ∀ j, j ≠ k → (s.scrubBank k b).cluster j = s.cluster j := by
  have open_ : ¬ ((List.range 64).all fun i => decide (Tbl.get 0
      (Tbl.put 0 (s.cluster k).scrubRow b (Tbl.get 0 (s.cluster k).scrubRow b + 1)) i = 65536)) = true := by
    intro all
    have own := of_decide_eq_true (List.all_eq_true.mp all b (List.mem_range.mpr lt))
    rw [Tbl.get_put_self] at own
    omega
  unfold State.scrubBank
  dsimp only
  rw [if_neg (by simp [on, unused]; omega), scrubSpan_clean clean]
  refine ⟨rfl, ?_, fun j ne => (modCluster_cluster ..).trans (if_neg ne)⟩
  rw [modCluster_cluster, if_pos rfl, if_neg open_]

-- where partitions and carrels lie

theorem isShelf_partBase (k p : Nat) : isShelf (partBase k p) = true :=
  decide_eq_true (by unfold partBase shelfBase; omega)

theorem shelfAt_partBase {k p : Nat} (hk : k < 32) (hp : p < 8) : shelfAt (partBase k p) = k := by
  unfold shelfAt partBase shelfBase
  omega

theorem isShelf_carrelBase {c : Nat} (hc : c < 256) : isShelf (carrelBase c) = false :=
  decide_eq_false (by unfold carrelBase; omega)

theorem coreAt_carrelBase (c : Nat) : coreAt (carrelBase c) = c := Nat.mul_div_cancel _ (by decide)

-- clearing

theorem byte_cleared (m : Memory) {a n i : Nat} (lt : i < n) : (m.clear a n).byte (a + i) = 0 := by
  rw [Memory.byte_clear, if_pos (by omega)]
  rfl

theorem clear_keptOutside {s t : State} {a n : Nat} (mem : t.mem = s.mem.clear a n) : MemoryKeptOutside a n s t := by
  intro k outside
  rw [mem, Memory.byte_clear, if_neg (by omega)]

theorem raise0_quiet {s : State} (page bit : Nat) (quiet : Quiet s) : Quiet (s.raise0 page bit) :=
  (raise_reported s page bit []).quiet quiet

theorem modPart_keepsQuiet (s : State) (k p : Nat) {f : Part → Part} (due : ∀ x, (f x).due = x.due) :
    KeepsQuiet s (s.modPart k p f) := by
  refine ⟨?_, rfl, .refl s⟩
  rintro ⟨e, he, q, hq, isDue⟩
  rcases Tbl.mem_put he with rfl | old
  · have part : ∃ q ∈ (s.cluster k).parts, q.2.due = true := by
      rcases Tbl.mem_put hq with rfl | old
      · rw [due] at isDue
        refine ⟨_, Tbl.mem_of_get fun reset => ?_, isDue⟩
        change (Tbl.get Part.reset (s.cluster k).parts p).due = true at isDue
        rw [reset] at isDue
        cases isDue
      · exact ⟨q, old, isDue⟩
    obtain ⟨q, hq, isDue⟩ := part
    have entry : (k, s.cluster k) ∈ s.clusters := Tbl.mem_of_get fun reset =>
      List.not_mem_nil (reset ▸ hq : q ∈ Cluster.reset.parts)
    exact ⟨_, entry, q, hq, isDue⟩
  · exact ⟨e, old, q, hq, isDue⟩

/-- What the end of its clearing makes of a partition (R182). -/
def Part.cleared (x : Part) : Part :=
  { x with kind := x.next, owner := if x.next = .free then none else x.nextOwner, hash := none, waitFor := none
           next := .free, nextOwner := none, clearRow := [] }

/-- The clearing of a partition ends, apart from what is reported and given back (R181, R182). -/
def State.partCleared (s : State) (k p : Nat) : State :=
  { (s.modPart k p Part.cleared).modCluster k fun c => { c with clears := c.clears + 1 } with
    mem := s.mem.clear (partBase k p) partBytes }

theorem partCleared_cluster (s : State) (k p : Nat) : (s.partCleared k p).cluster k
    = { (s.modPart k p Part.cleared).cluster k with clears := (s.cluster k).clears + 1 } := by
  simp only [State.partCleared, State.modPart, State.modCluster, State.cluster, Tbl.get_modify_self]

theorem partCleared_part (s : State) (k p : Nat) : (s.partCleared k p).part k p = (s.part k p).cleared := by
  rw [State.part, partCleared_cluster]
  exact (modPart_part ..).trans (if_pos ⟨rfl, rfl⟩)

theorem endPartClear_quiet {s : State} {k p : Nat} (hk : k < 32) (hp : p < 8) (clearing : (s.part k p).kind = .clearing)
    (clean : s.upsets = []) (unarmed : (s.cluster k).inject.arm = false) (quiet : Quiet s) :
    OnlyReports (s.partCleared k p) (s.endPartClear k p) := by
  have unarmed' : ((s.modPart k p Part.cleared).cluster k).inject.arm = false := by
    rw [State.modPart, modCluster_cluster, if_pos rfl]
    exact unarmed
  have zeros := clearSpan_clean (s.modPart k p Part.cleared) (partBase k p) partBytes clean
    (.inl ⟨isShelf_partBase k p, by rw [shelfAt_partBase hk hp]; exact unarmed'⟩)
  have ended : s.endPartClear k p = ((s.partCleared k p).raise0 (shfPage k) 3).progress := by
    rw [State.endPartClear, if_neg (not_not.mpr clearing)]
    exact congrArg (fun t : State =>
      ((t.modCluster k fun c => { c with clears := c.clears + 1 }).raise0 (shfPage k) 3).progress) zeros
  have still : KeepsQuiet s (s.partCleared k p) :=
    ((modPart_keepsQuiet s k p (f := Part.cleared) fun _ => rfl).trans
      (modCluster_keepsQuiet _ k (f := fun c => { c with clears := c.clears + 1 }) fun _ => rfl)).trans
      (keepsQuiet_of_cmds rfl rfl (.refl _))
  rw [ended, progress_quiet _ (raise0_quiet _ _ (still.quiet quiet))]
  exact raise0_reports ..

theorem endCarrelClear_quiet {s : State} {c : Nat} (hc : c < 256) (clearing : (s.core c).car.clearing = true)
    (clean : s.upsets = []) (unarmed : (s.core c).car.inject.arm = false) (quiet : Quiet s) :
    ∃ u, OnlyReports u (s.endCarrelClear c) ∧ u = { s with cores := u.cores, mem := s.mem.clear (carrelBase c) carrelBytes }
      ∧ u.core c = { s.core c with
          sq := { (s.core c).sq with tenant := (s.core c).car.nextTenant }
          car := { (s.core c).car with
            clearing := false, clears := (s.core c).car.clears + 1, nextTenant := none, waitFor := none } }
      ∧ ∀ d, d ≠ c → u.core d = s.core d := by
  have zeros := clearSpan_clean s (carrelBase c) carrelBytes clean
    (.inr ⟨isShelf_carrelBase hc, by rw [coreAt_carrelBase]; exact unarmed⟩)
  unfold State.endCarrelClear
  rw [if_neg (by simp [clearing]), zeros]
  dsimp only
  rw [progress_quiet]
  · refine ⟨_, raise0_reports .., rfl, ?_, fun d ne => ?_⟩
    · rw [State.modCar, modCore_core, if_pos rfl, State.modSq, modCore_core, if_pos rfl]
      rfl
    · rw [State.modCar, modCore_core, if_neg ne, State.modSq, modCore_core, if_neg ne]
      rfl
  · exact raise0_quiet _ _ (quiet_congr (s := s) rfl rfl ⟨fun _ => rfl⟩ quiet)

theorem setBoot_frame (b : Bool) (i : Nat) (u : State) :
    (if b then u.setBoot i else u) = { u with power := (if b then u.setBoot i else u).power } := by
  cases b <;> rfl

/-- CLEAR_DONE ends the clearing, and where it was bring-up's last it tells so in POWER alone (R511). -/
theorem clearDone_partition (k : ClusterId) (p : Fin 8) (s : State) :
    ∃ t, exec (.clearDone (.partition k p)) s = .next t ∧ t = { s.endPartClear k p with power := t.power } :=
  ⟨_, rfl, setBoot_frame ..⟩

theorem clearDone_carrel (c : CoreId) (s : State) :
    ∃ t, exec (.clearDone (.carrel c)) s = .next t ∧ t = { s.endCarrelClear c with power := t.power } :=
  ⟨_, rfl, setBoot_frame ..⟩

/-- Settles O29: without code errors a scrub read only moves its scrubber, and a quiet state has nothing to give back when
a clearing ends. -/
theorem scrubbingAndClearingGoOn : Obligations.ScrubbingAndClearingGoOn := by
  unfold Obligations.ScrubbingAndClearingGoOn
  refine ⟨⟨fun c s clean on => ?_, fun k b s clean on unused more => ?_⟩,
    fun k p s clearing clean unarmed quiet => ?_, fun c s clearing clean unarmed quiet => ?_⟩
  · exact ⟨_, rfl, scrubCarrel_clean clean on⟩
  · obtain ⟨frame, own, others⟩ := scrubBank_clean b.isLt clean on unused more
    refine ⟨_, rfl, frame, ?_, ?_, others⟩
    · rw [own]
    · rw [own, Tbl.get_put_self]
  · obtain ⟨t, step, power⟩ := clearDone_partition k p s
    have ended := endPartClear_quiet k.isLt p.isLt clearing clean unarmed quiet
    have frame : t = { s.partCleared k p with power := t.power, pages := t.pages, logs := t.logs, ports := t.ports } := by
      rw [power, ended]
    have mem : t.mem = s.mem.clear (partBase k p) partBytes := by rw [frame]; rfl
    have cluster : t.cluster k = (s.partCleared k p).cluster k := by rw [frame]; rfl
    have part : t.part k p = (s.part k p).cleared := by rw [State.part, cluster]; exact partCleared_part ..
    refine ⟨t, step, fun i lt => mem ▸ byte_cleared _ lt, clear_keptOutside mem, ?_, ?_, ?_, ?_, by rw [frame]; rfl⟩
    · rw [part]; rfl
    · rw [part]; rfl
    · rw [part]; rfl
    · rw [cluster, partCleared_cluster]
  · obtain ⟨t, step, power⟩ := clearDone_carrel c s
    obtain ⟨u, reports, frame, own, others⟩ := endCarrelClear_quiet c.isLt clearing clean unarmed quiet
    have core (d : Nat) : t.core d = u.core d := by
      rw [power]
      exact reports.core d
    have mem : t.mem = s.mem.clear (carrelBase c) carrelBytes := by
      rw [power]
      exact reports.mem.trans (by rw [frame])
    refine ⟨t, step, fun i lt => mem ▸ byte_cleared _ lt, clear_keptOutside mem, ?_, ?_, ?_,
      fun d ne => (core d).trans (others d ne)⟩
    all_goals rw [core, own]

end Sys2Proof.Machine

/-! PROOFS. The life of a loan window (R203 to R205, R210 to R212): WINDOW_OPEN takes a FREE handle, WINDOW_CLOSE begins its
close, which ends when nothing admitted is left or the rest is discarded; later the handle is FREE again. -/

namespace Sys2Proof.Machine

open Sys2Proof

theorem modWindow_window (s : State) (h i : Nat) (f : Window → Window) :
    (s.modWindow h f).window i = if i = h then f (s.window h) else s.window i := Tbl.get_put ..

theorem OnlyReports.window {s t : State} (h : OnlyReports s t) (i : Nat) : t.window i = s.window i := by
  rw [h]
  rfl

theorem OnlyReports.admitted {s t : State} (h : OnlyReports s t) : t.admitted = s.admitted := by rw [h]

/-- Reports after a change of windows. -/
theorem OnlyReports.withWindows {s t u : State} (h : OnlyReports t u) (windows : t = { s with windows := t.windows }) :
    u = { s with windows := u.windows, pages := u.pages, logs := u.logs, ports := u.ports } := by
  rw [h, windows]

theorem OnlyPorts.reports {s t : State} (h : OnlyPorts s t) : OnlyReports s t := by
  unfold OnlyReports
  rw [h]

-- WINDOW_OPEN

theorem genPlus_ne_zero (g : BitVec 20) (n : Nat) : genPlus g n ≠ 0 := by
  unfold genPlus
  split
  · decide
  · assumption

/-- The window that WINDOW_OPEN makes of a handle (R203, R204). -/
def State.openedWindow (s : State) (h : Nat) (b : Bytes) : Window :=
  { state := .opened, access := BitVec.ofNat 2 (fldAt b 1 1), tenant := BitVec.ofNat 8 (fldAt b 0 1)
    peerTenant := BitVec.ofNat 8 (fldAt b 2 1), devLo := BitVec.ofNat 12 (fldAt b 4 2), devHi := BitVec.ofNat 12 (fldAt b 6 2)
    extents := openExtents b, gen := some (genPlus ((s.window h).gen.getD s.win.floor) 1), freeSince := 0, closedAt := 0
    closeBegun := 0 }

theorem raiseFloor_frame (s : State) (next : BitVec 20) : s.raiseFloor next = { s with win := (s.raiseFloor next).win } := by
  unfold State.raiseFloor
  split <;> rfl

theorem openWindow_frame (s : State) (h : Nat) (b : Bytes) :
    (s.openWindow h b).1 = { s with windows := (s.openWindow h b).1.windows, win := (s.openWindow h b).1.win } := by
  unfold State.openWindow
  dsimp only
  rw [raiseFloor_frame]
  rfl

theorem openWindow_window (s : State) (h i : Nat) (b : Bytes) :
    (s.openWindow h b).1.window i = if i = h then s.openedWindow h b else s.window i := by
  unfold State.openWindow
  dsimp only
  rw [modWindow_window, raiseFloor_frame]
  rfl

/-- The answer to a WINDOW_OPEN begins with the handle (R417). -/
theorem openWindow_handle (s : State) (h : Nat) (b : Bytes) : leAt (s.openWindow h b).2.result 0 2 = h % 65536 :=
  leNat_leBytes 2 h

/-- WINDOW_OPEN that passes its checks (R205). -/
theorem windowOpenOp_opens {b : Bytes} {s : State} {h : Nat} (formed : openMalformed b = false)
    (service : s.gen.service = true) (bound : (s.tenant (fldAt b 0 1)).state = .bound)
    (allowed : ∀ e ∈ openExtents b, s.extentAllowed (fldAt b 0 1) (fldAt b 1 1) e = true) (handle : s.freeHandle = some h)
    (room : (s.windows.map fun w => w.2.extents.length).sum + fldAt b 3 1 ≤ 8192) :
    windowOpenOp b s = ((s.openWindow h b).1, .done (s.openWindow h b).2) := by
  have lent : ((openExtents b).any fun e => !s.extentAllowed (fldAt b 0 1) (fldAt b 1 1) e) = false := by simpa using allowed
  unfold windowOpenOp
  dsimp only
  rw [formed, service, lent, handle, if_neg Bool.false_ne_true, if_neg (by decide), if_neg (not_not_intro bound),
    if_neg Bool.false_ne_true]
  exact if_neg (by omega)

-- WINDOW_CLOSE

/-- A window whose close begins at a time (R210). -/
def Window.closing (w : Window) (now : Nat) : Window := { w with state := .closing, closeBegun := now }

theorem beginClose_opened {s : State} {h : Nat} (opened : (s.window h).state = .opened) (i : Nat) :
    (s.beginClose h).window i = if i = h then (s.window h).closing s.now.toNat else s.window i := by
  unfold State.beginClose
  rw [modWindow_window]
  exact if_congr Iff.rfl (if_pos opened) rfl

/-- WINDOW_CLOSE that passes its checks (R210, R212). -/
theorem windowCloseOp_closes {b : Bytes} {s : State} (size : b.length = 8) (handle : fldAt b 0 2 ≤ 4095)
    (fits : fldAt b 4 4 ≤ 0xFFFFF) (clear : zeroAt b 3 1 = true) (service : s.gen.service = true)
    (opened : (s.window (fldAt b 0 2)).state = .opened)
    (gen : (s.window (fldAt b 0 2)).gen.map BitVec.toNat = some (fldAt b 4 4))
    (tenant : (s.window (fldAt b 0 2)).tenant.toNat = fldAt b 2 1) :
    windowCloseOp b s = (s.beginClose (fldAt b 0 2), .waits (.close (fldAt b 0 2))) := by
  have formed : ¬ (b.length ≠ 8 ∨ 4095 < fldAt b 0 2 ∨ 0xFFFFF < fldAt b 4 4 ∨ zeroAt b 3 1 = false) := by
    rw [size, clear]
    simp
    omega
  unfold windowCloseOp
  dsimp only
  rw [if_neg formed, service, if_neg (by decide), opened, gen, tenant]
  simp

-- the end of a close

/-- The module with a window CLOSED (R203, R210). -/
def State.windowClosed (s : State) (h : Nat) : State :=
  s.modWindow h fun w => { w with state := .closed, closedAt := s.now.toNat }

/-- The commands that wait for the close complete (R210). -/
def State.closeAnswered (s : State) (h : Nat) : State :=
  (s.windowClosed h).completeWhere (fun w => decide (w = .close h)) (Reply.ok [])

theorem closeAnswered_ports (s : State) (h : Nat) : OnlyPorts (s.windowClosed h) (s.closeAnswered h) := completeWhere_ports ..

theorem closeAnswered_quiet {s : State} (h : Nat) (quiet : Quiet s) : Quiet (s.closeAnswered h) := by
  have ports := closeAnswered_ports s h
  have fewer : FewerCmds (s.windowClosed h) (s.closeAnswered h) := completeWhere_fewer _ _ _
  exact (keepsQuiet_of_cmds (by rw [ports]) (by rw [ports]) fewer).quiet (quiet_congr (s := s) rfl rfl ⟨fun _ => rfl⟩ quiet)

/-- In a quiet state nothing waits for the memory under the window. -/
theorem endClose_quiet {s : State} (h : Nat) (quiet : Quiet s) : s.endClose h = (s.closeAnswered h).raise0 winPage 3 :=
  progress_quiet _ (raise0_quiet _ _ (closeAnswered_quiet h quiet))

section EndClose

variable {s : State} (h : Nat) (quiet : Quiet s)
include quiet

theorem endClose_reported : Reported (s.closeAnswered h) (s.endClose h) := by
  rw [endClose_quiet h quiet]
  exact raise_reported ..

theorem endClose_reports : OnlyReports (s.windowClosed h) (s.endClose h) :=
  (closeAnswered_ports s h).reports.trans (endClose_reported h quiet).frame

theorem endClose_window (i : Nat) : (s.endClose h).window i
    = if i = h then { s.window h with state := .closed, closedAt := s.now.toNat } else s.window i := by
  rw [(endClose_reports h quiet).window]
  exact modWindow_window ..

theorem endClose_expiries (p : Nat) : ((s.endClose h).page p).tmoCount = (s.page p).tmoCount := by
  rw [(endClose_reported h quiet).expiries, closeAnswered_ports s h]
  rfl

theorem endClose_unawaited {q : Nat} (port : q < 2) {c : Cmd} (mem : c ∈ ((s.endClose h).port q).cmds) :
    c.wait ≠ .close h := by
  rw [(endClose_reported h quiet).cmds.cmds] at mem
  exact of_decide_eq_false (completeWhere_unselected _ _ _ port mem)

end EndClose

-- the end of a drain

theorem answerFlit_onlySends (s : State) (ret hops typ vc tsf : Nat) (payload : Bytes) :
    OnlySends s (s.answerFlit ret hops typ vc tsf payload) := by
  unfold State.answerFlit
  dsimp only
  split
  · exact queueFlit_onlySends ..
  · exact .refl s

/-- An admitted request leaves, and is counted as discarded (R211, R218). -/
def State.discarded (s : State) (a : Admitted) : State :=
  { s.answered a with win := { s.win with drainDiscard := sat32 s.win.drainDiscard 1 } }

/-- An admitted request is discarded with a NACK (R211). -/
def State.discard (s : State) (a : Admitted) : State :=
  (s.discarded a).nackRequest a a.hops stStale 0x05 (if a.write then 0 else 48 * a.sent / 64)

/-- `t` is `s` without some admitted requests, but for the count of the discarded and what sending their NACKs changes. -/
structure Discards (l : List Admitted) (s t : State) : Prop where
  frame : t = { s with admitted := s.admitted.diff l, win := t.win, fports := t.fports, cores := t.cores, ports := t.ports
                       freeCtr := t.freeCtr }
  cmds : SameCmds s t

theorem discard_discards (s : State) (a : Admitted) : Discards [a] s (s.discard a) := by
  have sends : OnlySends (s.discarded a) (s.discard a) := answerFlit_onlySends ..
  refine ⟨?_, ⟨fun p => (sends.sends.cmds.cmds p).trans rfl⟩⟩
  rw [sends.1, List.diff_cons, List.diff_nil]
  rfl

theorem Discards.mem {l : List Admitted} {s t : State} (h : Discards l s t) : t.mem = s.mem := by rw [h.frame]

theorem Discards.cons {a : Admitted} {l : List Admitted} {s t u : State} (h : Discards [a] s t) (k : Discards l t u) :
    Discards (a :: l) s u where
  frame := by
    rw [k.frame, h.frame, List.diff_cons, List.diff_cons, List.diff_nil]
  cmds := h.cmds.trans k.cmds

theorem foldl_discards (l : List Admitted) (s : State) : Discards l s (l.foldl State.discard s) := by
  induction l generalizing s with
  | nil => exact ⟨rfl, .refl s⟩
  | cons a l ih => exact (discard_discards s a).cons (ih _)

/-- Without all elements of a kind, a list keeps the others. -/
theorem diff_filter {α : Type} [DecidableEq α] (p : α → Bool) (l : List α) :
    l.diff (l.filter p) = l.filter fun a => !p a := by
  induction l with
  | nil => rfl
  | cons a l ih =>
    cases kind : p a with
    | true =>
      rw [List.filter_cons_of_pos kind, List.diff_cons, List.erase_cons_head, ih, List.filter_cons_of_neg (by simp [kind])]
    | false =>
      have other : a ∉ l.filter p := fun mem => by simp [kind] at mem
      rw [List.filter_cons_of_neg (by simp [kind]), List.cons_diff_of_not_mem other, ih, List.filter_cons_of_pos (by simp [kind])]

theorem expireDrain_discards (s : State) (h : Nat) :
    Discards (s.admitted.filter fun a => decide (a.handle = h)) s (s.expireDrain h) := foldl_discards ..

theorem expireDrain_admitted (s : State) (h : Nat) :
    (s.expireDrain h).admitted = s.admitted.filter fun a => decide (a.handle ≠ h) := by
  rw [(expireDrain_discards s h).frame]
  exact (diff_filter ..).trans (List.filter_congr fun a _ => (decide_not ..).symm)

/-- The module at the end of a window's drain, before the close ends (R211, R431). -/
def State.drainEnded (s : State) (h : Nat) : State := ((s.expireDrain h).countTmo winPage).raise0 winPage 2

theorem exec_drainExpired {h : Handle} {s : State} (closing : (s.window h).state = .closing) (busy : 0 < s.inflight h) :
    exec (.drainExpired h) s = .next ((s.drainEnded h).endClose h) := by
  change execDrainExpired h s = _
  rw [execDrainExpired, if_pos ⟨closing, busy⟩]
  rfl

theorem drainEnded_reports (s : State) (h : Nat) : OnlyReports (s.expireDrain h) (s.drainEnded h) :=
  (modPage_reports ..).trans (raise0_reports ..)

theorem drainEnded_quiet {s : State} (h : Nat) (quiet : Quiet s) : Quiet (s.drainEnded h) := by
  have discards := expireDrain_discards s h
  exact raise0_quiet _ _ (countTmo_quiet _ (quiet_congr (by rw [discards.frame]) (by rw [discards.frame]) discards.cmds quiet))

theorem drainEnded_expiries (s : State) (h : Nat) :
    ((s.drainEnded h).page winPage).tmoCount = sat32 (s.page winPage).tmoCount 1 := by
  have page : (s.expireDrain h).page winPage = s.page winPage := by
    rw [(expireDrain_discards s h).frame]
    rfl
  rw [State.drainEnded, State.raise0, raise_expiries, State.countTmo, modPage_page, if_pos rfl, page]

/-- A CLOSED window whose handle is FREE again (R203, R204). -/
def Window.freed (w : Window) (now : Nat) : Window := { Window.reset with gen := w.gen, freeSince := now }

/-- Settles O36: the commands pass their checks and change their handle alone; in a quiet state the end of a close lets
nothing else go on, and a drain leaves the admitted requests of the other handles. -/
theorem windowsOpenCloseAndBecomeFree : Obligations.WindowsOpenCloseAndBecomeFree := by
  unfold Obligations.WindowsOpenCloseAndBecomeFree
  refine ⟨?_, ?_, ?_, ?_, ?_⟩
  · intro p tag b s h accepts formed service bound allowed handle room
    have opens := windowOpenOp_opens (s := s.begun p tag 0x30) formed service bound allowed handle room
    have frame := openWindow_frame (s.begun p tag 0x30) h b
    obtain ⟨l, run, completed⟩ := runCommand_done accepts opens (onlyPorts_cmds (by rw [frame]))
    have window := openWindow_window (s.begun p tag 0x30) h
    have own := (window h b).trans (if_pos rfl)
    refine ⟨_, _, congrArg Host.Outcome.next run, ?_, congrArg Window.state own, congrArg Window.extents own,
      congrArg Window.gen own, fun zero => ?_, congrArg Window.tenant own, congrArg Window.access own,
      fun i ne => (window i b).trans (if_neg ne), rfl, openWindow_handle .., completed⟩
    · rw [frame]
      rfl
    · exact genPlus_ne_zero _ _ (Option.some.inj ((congrArg Window.gen own).symm.trans zero))
  · intro p tag b s h accepts size fits genFits clear service opened gen tenant
    have closes := windowCloseOp_closes (s := s.begun p tag 0x31) size fits genFits clear service opened gen tenant
    obtain ⟨close, going⟩ := runCommand_waits accepts closes (onlyPorts_cmds rfl)
    have window := beginClose_opened (s := s.begun p tag 0x31) opened
    exact ⟨_, congrArg Host.Outcome.next close, rfl, (window h).trans (if_pos rfl),
      fun i ne => (window i).trans (if_neg ne), going⟩
  · intro h s closing idle quiet
    have window := endClose_window h quiet
    exact ⟨s.endClose h, congrArg Host.Outcome.next (if_pos ⟨closing, idle⟩), (endClose_reports h quiet).withWindows rfl,
      (window h).trans (if_pos rfl), fun i ne => (window i).trans (if_neg ne),
      fun q port c mem => endClose_unawaited h quiet port mem⟩
  · intro h s closing busy quiet
    have discards := expireDrain_discards s h
    have reports := drainEnded_reports s h
    have closed := endClose_reports h (drainEnded_quiet h quiet)
    refine ⟨_, exec_drainExpired closing busy, ?_, ?_, ?_, ?_⟩
    · rw [endClose_window h (drainEnded_quiet h quiet), if_pos rfl]
    · exact closed.mem.trans (reports.mem.trans discards.mem)
    · exact closed.admitted.trans (reports.admitted.trans (expireDrain_admitted s h))
    · rw [endClose_expiries h (drainEnded_quiet h quiet), drainEnded_expiries]
  · intro h s closed later
    have window (i : Nat) := modWindow_window s h i fun w => w.freed s.now.toNat
    have own : (s.modWindow h fun w => w.freed s.now.toNat).window h = _ := (window h).trans (if_pos rfl)
    refine ⟨s.modWindow h fun w => w.freed s.now.toNat, congrArg Host.Outcome.next (if_pos ⟨closed, later⟩), rfl, ?_, ?_, ?_,
      fun i ne => (window i).trans (if_neg ne)⟩
    all_goals rw [own]; rfl

end Sys2Proof.Machine

/-! PROOFS. Answers to window requests (R201, R207, R215, R216, R372, R376): what each does to the transfer engine of the core
that asked, which has nothing more to send. -/

namespace Sys2Proof.Machine

open Sys2Proof

-- one transfer engine

/-- `t` is `s` but for the transfer engine of core `c`, which is `u`. -/
structure EngineSet (c : Nat) (u : TransferUnit) (s t : State) : Prop where
  frame : t = { s with cores := t.cores }
  others : ∀ d, d ≠ c → t.core d = s.core d
  own : t.core c = { s.core c with xf := u }

theorem EngineSet.refl (c : Nat) (s : State) : EngineSet c (s.core c).xf s s := ⟨rfl, fun _ _ => rfl, rfl⟩

theorem EngineSet.trans {c : Nat} {u v : TransferUnit} {s t w : State} (h : EngineSet c u s t) (k : EngineSet c v t w) :
    EngineSet c v s w where
  frame := by rw [k.frame, h.frame]
  others d ne := (k.others d ne).trans (h.others d ne)
  own := by rw [k.own, h.own]

theorem EngineSet.xf {c : Nat} {u : TransferUnit} {s t : State} (h : EngineSet c u s t) : (t.core c).xf = u := by rw [h.own]

theorem EngineSet.keepsQuiet {c : Nat} {u : TransferUnit} {s t : State} (h : EngineSet c u s t) : KeepsQuiet s t :=
  keepsQuiet_of_cmds (by rw [h.frame]) (by rw [h.frame]) (onlyPorts_cmds (by rw [h.frame])).fewer

theorem EngineSet.runs {c : Nat} {u : TransferUnit} {s t : State} (h : EngineSet c u s t) : t.runs c = s.runs c := by
  rw [State.runs, h.own]
  rfl

theorem EngineSet.car {c : Nat} {u : TransferUnit} {s t : State} (h : EngineSet c u s t) (d : Nat) :
    (t.core d).car = (s.core d).car := by
  by_cases own : d = c
  · rw [own, h.own]
  · rw [h.others d own]

theorem not_faulted_of_runs {s : State} {c : Nat} (runs : s.runs c = true) : (s.core c).sq.mode ≠ .faulted := by
  intro faulted
  rw [State.runs, faulted] at runs
  cases runs

theorem modXf_engine (s : State) (c : Nat) (f : TransferUnit → TransferUnit) :
    EngineSet c (f (s.core c).xf) s (s.modXf c f) :=
  ⟨rfl, fun _ ne => (modCore_core ..).trans (if_neg ne), (modCore_core ..).trans (if_pos rfl)⟩

/-- A core that runs words has nothing to settle (R479). -/
theorem settle_engine {s : State} {c : Nat} (runs : s.runs c = true) : EngineSet c (s.core c).xf s (s.settle c) := by
  have going : ¬ ((s.core c).sq.mode = .faulted ∧ (s.core c).xf.waiting = false) := fun h => not_faulted_of_runs runs h.1
  exact ⟨rfl, fun _ ne => (modCore_core ..).trans (if_neg ne), ((modCore_core ..).trans (if_pos rfl)).trans (if_neg going)⟩

theorem sendRequests_idle {s : State} {c : Nat} (idle : ∀ o ∈ (s.core c).xf.out, o.toSend = []) (n : Nat) :
    s.sendRequests c n = s := by
  cases n with
  | zero => rfl
  | succ n =>
    have none : ((s.core c).xf.out.take 4).findIdx?
        (fun o => o.started && decide (o.toSend ≠ []) && o.ueAt.isNone) = none := by
      rw [List.findIdx?_eq_none_iff]
      intro o mem
      simp [idle o (List.mem_of_mem_take mem)]
    unfold State.sendRequests
    dsimp only
    rw [none]

/-- The last answer to a request frees its tag (R207). -/
theorem endRequest_engine {s : State} {c : Nat} (runs : s.runs c = true) (idle : ∀ o ∈ (s.core c).xf.out, o.toSend = [])
    (tag : Nat) : EngineSet c ((s.core c).xf.setTag tag none) s (s.endRequest c tag) := by
  have freed := modXf_engine s c fun u => u.setTag tag none
  have settled := settle_engine (freed.runs.trans runs)
  rw [freed.xf] at settled
  unfold State.endRequest
  rw [sendRequests_idle (by rw [freed.xf]; exact idle)]
  exact freed.trans settled

-- MARK on an answer

/-- The engine after an answer with or without MARK (R219, R372). -/
def TransferUnit.marked (u : TransferUnit) (tag : Nat) (mark : Bool) : TransferUnit := if mark then u.delay tag else u

/-- The request after an answer with or without MARK (R372). -/
def WinTag.marked (x : WinTag) (mark : Bool) : WinTag := { x with retry := x.retry || mark }

theorem markRequest_engine (s : State) (c tag : Nat) (x : WinTag) (mark : Bool) :
    EngineSet c ((s.core c).xf.marked tag mark) s (s.markRequest c tag x mark).1
      ∧ (s.markRequest c tag x mark).2 = x.marked mark := by
  cases mark with
  | false => exact ⟨.refl c s, by simp [State.markRequest, WinTag.marked]⟩
  | true => exact ⟨modXf_engine .., by simp [State.markRequest, WinTag.marked]⟩

theorem marked_out (u : TransferUnit) (tag : Nat) (mark : Bool) : (u.marked tag mark).out = u.out := by
  unfold TransferUnit.marked TransferUnit.delay
  split
  · split
    · split <;> rfl
    · rfl
  · rfl

/-- A request that a link retry delays counts once (R219). -/
theorem marked_retryReq {u : TransferUnit} {tag : Nat} {x : WinTag} (at_ : u.tag tag = some x) (mark : Bool) :
    (u.marked tag mark).retryReq = if mark = true ∧ x.retry = false then sat32 u.retryReq 1 else u.retryReq := by
  have entry : Tbl.get none u.tags tag = some x := at_
  unfold TransferUnit.marked TransferUnit.delay
  cases mark with
  | false => rfl
  | true => cases retry : x.retry <;> simp [entry, retry]

theorem setTag_tag (u : TransferUnit) (tag : Nat) (v : Option WinTag) : (u.setTag tag v).tag tag = v := Tbl.get_put_self ..

-- the answered request

/-- The request of the tag that a flit names, where the flit comes from the device that was asked (R376). -/
theorem asked_request {s : State} {f : Flit} {x : WinTag}
    (at_ : (s.core (flitChan f).1).xf.tag (flitChan f).2 = some x) (device : x.dest = f.src.toNat) : s.asked f = some x := by
  have tagged : (s.core (bits f.tsf.toNat 13 6)).xf.tag (bits f.tsf.toNat 5 0) = some x := at_
  unfold State.asked
  rw [tagged]
  exact if_pos device

theorem echoed_iff (x : WinTag) (hg req : Nat) :
    x.echoed hg req = true ↔ hg = x.handle * 2 ^ 20 + x.gen ∧ req = (x.len / 64 - 1) * 2 ^ 34 + x.woff := by
  simp [WinTag.echoed]

-- RDATA

theorem offer_requests (s : State) (owner : Nat) (unit : ReqUnit) (write : Bool) (a n : Nat) :
    OnlyRequests s (s.offer owner unit write a n) ∧ KeepsQuiet s (s.offer owner unit write a n) := by
  unfold State.offer
  split
  · exact ⟨fun _ => rfl, .refl s⟩
  · refine ⟨fun k => ?_, modCluster_keepsQuiet _ _ fun _ => rfl⟩
    rw [modCluster_cluster]
    split
    · next same => rw [same]
    · rfl

/-- Bytes that a transfer engine stores at a local place, which a shelf sees as a request (R177, R525). -/
def State.stored (s : State) (c a : Nat) (bs : Bytes) : State :=
  ({ s with mem := s.mem.write a bs } : State).offer c .transfer true a bs.length

theorem writeLocal_clean {s : State} (c : Nat) {a : Nat} (bs : Bytes) (clean : s.upsets = [])
    (unarmed : isShelf a = true ∨ (s.core (coreAt a)).car.inject.arm = false) :
    s.writeLocal c a bs = (s.stored c a bs, none) := by
  unfold State.writeLocal
  rw [writeSpan_clean s _ a bs clean unarmed]
  rfl

theorem stored_frame (s : State) (c a : Nat) (bs : Bytes) :
    s.stored c a bs = { s with clusters := (s.stored c a bs).clusters, mem := s.mem.write a bs } := by
  unfold State.stored
  rw [offer_clusters]

theorem stored_core (s : State) (c a : Nat) (bs : Bytes) (d : Nat) : (s.stored c a bs).core d = s.core d := by
  rw [stored_frame]
  rfl

theorem stored_requests (s : State) (c a : Nat) (bs : Bytes) : OnlyRequests s (s.stored c a bs) := (offer_requests ..).1

theorem stored_keepsQuiet (s : State) (c a : Nat) (bs : Bytes) : KeepsQuiet s (s.stored c a bs) := by
  have written : KeepsQuiet s { s with mem := s.mem.write a bs } := keepsQuiet_of_cmds rfl rfl (.refl s)
  have offered := (offer_requests { s with mem := s.mem.write a bs } c .transfer true a bs.length).2
  exact written.trans offered

/-- The bytes of a request that the next flit of its answer carries (R376). -/
def WinTag.next (x : WinTag) : Nat := min 48 (x.len - x.got)

/-- A request with those bytes answered. -/
def WinTag.further (x : WinTag) : WinTag := { x with got := x.got + x.next }

/-- What is left of a request once the next flit of its answer has come (R201, R376). -/
def WinTag.answered (x : WinTag) (mark : Bool) : Option WinTag :=
  if x.len ≤ x.got + x.next then none else some (x.marked mark).further

section ReadData

variable {s : State} {f : Flit} {x : WinTag}

/-- Read data for a running core lands, and ends the request or leaves the rest of it (R201, R207). -/
theorem takeReadData_lands (asked : s.asked f = some x) (read : x.write = false) (runs : s.runs (flitChan f).1 = true)
    (clean : s.upsets = []) (unarmed : isShelf (x.lbase + x.got) = true
      ∨ (s.core (coreAt (x.lbase + x.got))).car.inject.arm = false) :
    s.takeReadData f =
      let t := (s.markRequest (flitChan f).1 (flitChan f).2 x f.mark).1.stored (flitChan f).1 (x.lbase + x.got)
        (f.payload.take x.next)
      if x.len ≤ x.got + x.next then t.endRequest (flitChan f).1 (flitChan f).2
      else t.modXf (flitChan f).1 fun u => u.setTag (flitChan f).2 (some (x.marked f.mark).further) := by
  obtain ⟨marked, request⟩ := markRequest_engine s (flitChan f).1 (flitChan f).2 x f.mark
  unfold State.takeReadData
  dsimp only
  rw [asked]
  dsimp only
  rw [read, if_neg Bool.false_ne_true]
  generalize s.markRequest (flitChan f).1 (flitChan f).2 x f.mark = r at marked request ⊢
  obtain ⟨m, y⟩ := r
  obtain rfl : y = x.marked f.mark := request
  replace marked : EngineSet _ _ s m := marked
  have going : decide ((m.core (flitChan f).1).sq.mode = .faulted) = false :=
    decide_eq_false (not_faulted_of_runs (marked.runs.trans runs))
  have lands : m.writeLocal (flitChan f).1 ((x.marked f.mark).lbase + (x.marked f.mark).got)
      (f.payload.take (min 48 ((x.marked f.mark).len - (x.marked f.mark).got)))
        = (m.stored (flitChan f).1 (x.lbase + x.got) (f.payload.take x.next), none) :=
    writeLocal_clean _ _ (by rw [marked.frame]; exact clean) (by rw [marked.car]; exact unarmed)
  dsimp only
  rw [going, if_neg Bool.false_ne_true, lands]
  rfl

/-- `t` is `s` once an answer's bytes are at their local place and the engine of the core that asked is `u`. -/
structure AnswerLands (c a : Nat) (bs : Bytes) (u : TransferUnit) (s t : State) : Prop where
  frame : t = { s with cores := t.cores, clusters := t.clusters, mem := s.mem.write a bs }
  requests : OnlyRequests s t
  quiet : KeepsQuiet s t
  others : ∀ d, d ≠ c → t.core d = s.core d
  own : t.core c = { s.core c with xf := u }

theorem AnswerLands.afterFports {c a : Nat} {bs : Bytes} {u : TransferUnit} {s t w : State} (h : AnswerLands c a bs u t w)
    (k : OnlyFports s t) :
    w = { s with fports := w.fports, cores := w.cores, clusters := w.clusters, mem := s.mem.write a bs } := by
  rw [h.frame, k]

theorem EngineSet.lands {c a : Nat} {bs : Bytes} {u v : TransferUnit} {m t : State} (marked : EngineSet c u s m)
    (ended : EngineSet c v (m.stored c a bs) t) : AnswerLands c a bs v s t where
  frame := by rw [ended.frame, stored_frame, marked.frame]
  requests k := by
    have before : m.cluster k = s.cluster k := by rw [marked.frame]; rfl
    have after : t.cluster k = (m.stored c a bs).cluster k := by rw [ended.frame]; rfl
    rw [after, ← before]
    exact stored_requests m c a bs k
  quiet := (marked.keepsQuiet.trans (stored_keepsQuiet m c a bs)).trans ended.keepsQuiet
  others d ne := (ended.others d ne).trans ((stored_core ..).trans (marked.others d ne))
  own := by rw [ended.own, stored_core, marked.own]

/-- Read data lands, and the tag keeps what is left of its request (R201, R207). -/
theorem takeReadData_answers (asked : s.asked f = some x) (read : x.write = false) (runs : s.runs (flitChan f).1 = true)
    (clean : s.upsets = []) (unarmed : isShelf (x.lbase + x.got) = true
      ∨ (s.core (coreAt (x.lbase + x.got))).car.inject.arm = false)
    (idle : ∀ o ∈ (s.core (flitChan f).1).xf.out, o.toSend = []) :
    AnswerLands (flitChan f).1 (x.lbase + x.got) (f.payload.take x.next)
      (((s.core (flitChan f).1).xf.marked (flitChan f).2 f.mark).setTag (flitChan f).2 (x.answered f.mark)) s
      (s.takeReadData f) := by
  have marked := (markRequest_engine s (flitChan f).1 (flitChan f).2 x f.mark).1
  refine marked.lands ?_
  rw [takeReadData_lands asked read runs clean unarmed]
  dsimp only
  generalize (s.markRequest (flitChan f).1 (flitChan f).2 x f.mark).1 = m at marked ⊢
  have xf : ((m.stored (flitChan f).1 (x.lbase + x.got) (f.payload.take x.next)).core (flitChan f).1).xf
      = (s.core (flitChan f).1).xf.marked (flitChan f).2 f.mark := by rw [stored_core, marked.xf]
  have stillRuns : (m.stored (flitChan f).1 (x.lbase + x.got) (f.payload.take x.next)).runs (flitChan f).1 = true := by
    rw [State.runs, stored_core, marked.own]
    exact runs
  rw [← xf]
  unfold WinTag.answered
  split
  · exact endRequest_engine stillRuns (by rw [xf, marked_out]; exact idle) _
  · exact modXf_engine _ _ fun u => u.setTag (flitChan f).2 (some (x.marked f.mark).further)

end ReadData

-- ACK

/-- An ACK that echoes the request of its tag frees the tag (R201, R207). -/
theorem takeAck_answers {s : State} {f : Flit} {x : WinTag} (asked : s.asked f = some x) (write : x.write = true)
    (echoes : x.echoed (fldAt f.payload 0 4) (fldAt f.payload 4 8) = true) (runs : s.runs (flitChan f).1 = true)
    (idle : ∀ o ∈ (s.core (flitChan f).1).xf.out, o.toSend = []) :
    EngineSet (flitChan f).1 (((s.core (flitChan f).1).xf.marked (flitChan f).2 f.mark).setTag (flitChan f).2 none) s
      (s.takeAck f) := by
  have marked := (markRequest_engine s (flitChan f).1 (flitChan f).2 x f.mark).1
  have ended := endRequest_engine (marked.runs.trans runs) (by rw [marked.xf, marked_out]; exact idle) (flitChan f).2
  rw [marked.xf] at ended
  unfold State.takeAck
  dsimp only
  rw [asked]
  dsimp only
  rw [write, echoes]
  exact marked.trans ended

/-- An ACK that echoes another request is no response of the tag (R216). -/
theorem takeAck_late {s : State} {f : Flit} {x : WinTag} (asked : s.asked f = some x)
    (echoes : x.echoed (fldAt f.payload 0 4) (fldAt f.payload 4 8) = false) :
    s.takeAck f = s.lateResponse (flitChan f).1 := by
  unfold State.takeAck
  dsimp only
  rw [asked]
  dsimp only
  rw [echoes, Bool.and_false]
  rfl

theorem OnlyReports.afterEngine {c : Nat} {u : TransferUnit} {s t v w : State} (h : OnlyReports v w) (k : EngineSet c u t v)
    (l : OnlyFports s t) :
    w = { s with fports := w.fports, cores := w.cores, pages := w.pages, logs := w.logs, ports := w.ports } := by
  rw [h, k.frame, l]

-- NACK

/-- A request of a running core of no program ends with the stop of the core alone. -/
theorem requestFault_requestStop {s : State} {c : Nat} (runs : s.runs c = true) (none : s.slotOf c = none)
    (tag cause status reason : Nat) (t : WinTag) :
    s.requestFault c tag cause status reason t = s.requestStop c tag cause status reason t := by
  have slots : (s.requestStop c tag cause status reason t).slots = s.slots := by
    obtain ⟨page, stopped⟩ := requestStop_stops runs tag cause status reason t
    rw [stopped]
    exact (((unasked_waited s c tag).stops ..).settle).slots
  have alone (r : Nat) (o : Option Nat) : (s.requestStop c tag cause status reason t).programOf c r o
      = s.requestStop c tag cause status reason t := programOf_none ((slotOf_congr slots c).trans none) r o
  unfold State.requestFault
  dsimp only
  rw [pastFault_of_runs runs, alone, alone, ite_self, ite_self]

/-- The tag of such a request is free, and the core's descriptors are abandoned (R154, R207). -/
theorem requestStop_xf {s : State} {c : Nat} (runs : s.runs c = true) (tag cause status reason : Nat) (t : WinTag) :
    ((s.requestStop c tag cause status reason t).core c).xf = { (s.core c).xf.setTag tag none with out := [] } := by
  obtain ⟨page, stopped⟩ := requestStop_stops runs tag cause status reason t
  have settled (u : State) : ((u.settle c).core c).xf = (u.core c).xf := by
    rw [State.settle, modCore_core, if_pos rfl]
    split <;> rfl
  rw [stopped, settled, (coreStop_reported ..).1.core, modCore_core, if_pos rfl, State.unasked, (modXf_engine ..).own]
  rfl

/-- A NACK that echoes the request of its tag is counted, and the request ends with a fault of its core (R215). -/
theorem takeNack_faults {s : State} {f : Flit} {x : WinTag} (at_ : (s.core (flitChan f).1).xf.tag (flitChan f).2 = some x)
    (asked : s.asked f = some x) (echoes : x.echoed (fldAt f.payload 4 4) (fldAt f.payload 8 8) = true) :
    ∃ cause, s.takeNack f = (s.modXf (flitChan f).1 fun u => { u with nacks := sat32 u.nacks 1 }).requestFault (flitChan f).1
      (flitChan f).2 cause (fldAt f.payload 0 1) (fldAt f.payload 1 1) x := by
  have request : (if fldAt f.payload 0 1 = stPartnerLost then (s.core (flitChan f).1).xf.tag (flitChan f).2
      else s.asked f) = some x := by
    rw [at_, asked, ite_self]
  unfold State.takeNack
  dsimp only
  rw [request]
  dsimp only
  rw [echoes]
  exact ⟨_, rfl⟩

/-- Settles O32: the flit joins its link's sequence, and its row's work changes the engine of the core that asked; a NACK
stops that core. -/
theorem windowAnswersReachTheirTag : Obligations.WindowAnswersReachTheirTag := by
  unfold Obligations.WindowAnswersReachTheirTag
  intro port flit s x c tag u n dest retries at_ device runs quiet clean idle unarmed
  have core (d : Nat) : (s.taken port flit.vc.toNat).core d = s.core d := taken_core ..
  have taken := taken_frame s port flit.vc.toNat
  have asked : (s.taken port flit.vc.toNat).asked flit = some x := asked_request (by rw [core]; exact at_) device
  have runs' : (s.taken port flit.vc.toNat).runs c = true := by rw [State.runs, core]; exact runs
  have idle' : ∀ o ∈ ((s.taken port flit.vc.toNat).core c).xf.out, o.toSend = [] := by rw [core]; exact idle
  have quiet' : Quiet (s.taken port flit.vc.toNat) :=
    quiet_congr (by rw [taken]) (by rw [taken]) (onlyPorts_cmds (by rw [taken])) quiet
  refine ⟨fun takes read long => ?_, fun takes write => ⟨fun echoes => ?_, fun other => ?_⟩,
    fun takes hg req noSlot => ?_⟩
  · have answers := takeReadData_answers asked read runs' (by rw [taken]; exact clean) (by rw [core]; exact unarmed) idle'
    have step : exec (.rdata port flit) s = .next ((s.taken port flit.vc.toNat).takeReadData flit).progress :=
      congrArg Host.Outcome.next (receive_takes takes)
    rw [progress_quiet _ (answers.quiet.quiet quiet')] at step
    refine ⟨_, step, ?_, fun k => ?_, fun d ne => ?_, ?_, ?_, ?_⟩
    · exact answers.afterFports taken
    · rw [answers.requests k, taken]
      rfl
    · exact (answers.others d ne).trans (core d)
    · rw [answers.own, core]
    · rw [answers.own, core]
      exact marked_retryReq at_ flit.mark
    · rw [answers.own]
      exact setTag_tag ..
  · have answers := takeAck_answers asked write ((echoed_iff ..).mpr echoes) runs' idle'
    refine ⟨_, congrArg Host.Outcome.next (receive_takes takes), taken.cores answers.frame rfl, fun d ne => ?_, ?_, ?_, ?_⟩
    · exact (answers.others d ne).trans (core d)
    · rw [answers.own, core]
    · rw [answers.own, core]
      exact marked_retryReq at_ flit.mark
    · rw [answers.own]
      exact setTag_tag ..
  · have late := takeAck_late asked (Bool.eq_false_iff.mpr (mt (echoed_iff ..).mp other))
    have counted := modXf_engine (s.taken port flit.vc.toNat) c fun u => { u with lateResp := sat32 u.lateResp 1 }
    have reports := raise0_reports ((s.taken port flit.vc.toNat).modXf c fun u => { u with lateResp := sat32 u.lateResp 1 })
      (xfePage c) 1
    refine ⟨_, congrArg Host.Outcome.next ((receive_takes takes).trans late), ?_, fun d ne => ?_, ?_⟩
    · exact reports.afterEngine counted taken
    · exact (reports.core d).trans ((counted.others d ne).trans (core d))
    · exact (reports.core c).trans (counted.own.trans (by rw [core]))
  · obtain ⟨cause, faults⟩ := takeNack_faults (by rw [core]; exact at_) asked ((echoed_iff ..).mpr ⟨hg, req⟩)
    have counted := modXf_engine (s.taken port flit.vc.toNat) c fun u => { u with nacks := sat32 u.nacks 1 }
    generalize ((s.taken port flit.vc.toNat).modXf c fun u => { u with nacks := sat32 u.nacks 1 }) = m at counted faults
    have runsM : m.runs c = true := counted.runs.trans runs'
    have noneM : m.slotOf c = none := (slotOf_congr (by rw [counted.frame, taken]) c).trans noSlot
    obtain ⟨stops, still⟩ := requestFault_stops runsM noneM (counted.keepsQuiet.quiet quiet') tag cause
      (fldAt flit.payload 0 1) (fldAt flit.payload 1 1) x
    have step : exec (.nack port flit) s = .next ((s.taken port flit.vc.toNat).takeNack flit).progress :=
      congrArg Host.Outcome.next (receive_takes takes)
    rw [faults, progress_quiet _ still] at step
    have xf := requestStop_xf runsM tag cause (fldAt flit.payload 0 1) (fldAt flit.payload 1 1) x
    rw [← requestFault_requestStop runsM noneM, counted.xf, core] at xf
    refine ⟨_, step, stops.mode, ?_, ?_, ?_, fun d ne => ?_⟩
    · rw [xf]
      exact setTag_tag { (s.core c).xf with nacks := sat32 (s.core c).xf.nacks 1 } tag none
    · rw [xf]
      rfl
    · rw [stops.mem, counted.frame, taken]
    · rw [stops.others d ne, counted.others d ne, core]

end Sys2Proof.Machine

/-! PROOFS. A local move of memory that is not in its canonical form (R191, R195): the move takes its row in one read, which
need not see the byte that stands at the row's address. -/

namespace Sys2Proof.Machine

open Sys2Proof

/-- Core 0 in SERVICE with descriptor 0, a move of one byte of its carrel from 64 to 0, over the cells of `fallingCells`. -/
def fallingCarrel : State :=
  { State.reset with
    cores := [(0, { Core.reset with
      sq := { Core.reset.sq with mode := .service }
      xf := { TransferUnit.reset with descs := [(0, ⟨0, 64, 0, 0⟩)], running := [(0, (64, 0))] } })]
    mem := fallingCells }

/-- The operands of that move. -/
def oneByteMove : Xfer := (fallingCarrel.core 0).xf.xfer 0

theorem oneByteMove_place : oneByteMove.rows = 1 ∧ oneByteMove.len = 1 ∧ oneByteMove.src = 64 ∧ oneByteMove.dst = 0 := by
  decide +kernel

/-- Refutes O22 where memory is not in its canonical form: the byte at 64 is 2, but a read that begins at 64 finds the cell
of 66 first and takes 0, so that the byte at 0 is 0 after the move. -/
theorem not_descriptorsMoveResetAndLeave : ¬ Obligations.DescriptorsMoveResetAndLeave := by
  unfold Obligations.DescriptorsMoveResetAndLeave
  rintro ⟨go, -, -⟩
  obtain ⟨rows, len, src, dst⟩ := oneByteMove_place
  have apart (r r' : Nat) (hr : r < oneByteMove.rows) (hr' : r' < oneByteMove.rows) :
      oneByteMove.dst + r * oneByteMove.dp + oneByteMove.len ≤ oneByteMove.src + r' * oneByteMove.sp
        ∨ oneByteMove.src + r' * oneByteMove.sp + oneByteMove.len ≤ oneByteMove.dst + r * oneByteMove.dp := by
    obtain rfl : r = 0 := by omega
    omega
  obtain ⟨t, o, step, -, -, -, -, moved, -⟩ := go 0 0 fallingCarrel (by decide +kernel) (by decide +kernel) rfl rfl
    (by decide +kernel) (by decide +kernel) (by decide +kernel) (by decide +kernel) (by decide +kernel) (by decide +kernel)
    apart (fun r r' before hr' => absurd (hr'.trans_eq rows) (by omega))
  have row : exec (.xfGo 0 0) fallingCarrel = .next (fallingCarrel.transferAlone 0 (word58 0x01 0) fun off s =>
      s.runGo 0 (word58 0x01 0) off.bundle) := rfl
  obtain rfl := Host.Outcome.next.inj (row.symm.trans step)
  exact absurd (moved 0 0 (by decide +kernel) (by decide +kernel)) (by decide +kernel)

end Sys2Proof.Machine

/-! PROOFS. A step with no command waiting: one die-network cycle of both dies' ledgers (R233). -/

namespace Sys2Proof.Machine

open Sys2Proof

/-- With no slew pending no slew units are applied (R233). -/
theorem slewBy_zero (k : Nat) : slewBy 0 k = 0 := by
  have share : slewShare 0 = 0 := by decide
  simp [slewBy, share]

/-- Without slew, an empty rate accumulator at rate 0 stays empty and carries nothing: the cycle counts 8 units (R233). -/
theorem cycle_steady (l : DieLedger) (empty : l.acc = 0) (still : l.slew = 0) :
    l.cycle 0 = { l with now := l.now + 8, acc := 0, cyc := l.cyc + 1 } := by
  have rate : rateStep 0 0 = (0, 0) := by decide
  unfold DieLedger.cycle
  rw [empty, still, rate, slewBy_zero, slewBy_zero]
  rfl

theorem step_idle {s : State} (quiet : s.pending = []) : step s = .next (idleCycle s) := by
  rw [step, quiet]

theorem idleCycle_stopped {s : State} (off : s.ledgersRun = false) : idleCycle s = s := by
  simp [idleCycle, off]

theorem idleCycle_running {s : State} (on : s.ledgersRun = true) :
    idleCycle s = (s.modDieLedger 0 fun l => l.cycle s.ledger.rate).modDieLedger 1 fun l => l.cycle s.ledger.rate :=
  if_pos on

/-- An idle cycle changes nothing but the dies' ledgers. -/
theorem idleCycle_ledgers (s : State) : idleCycle s = { s with ledgers := (idleCycle s).ledgers } := by
  cases run : s.ledgersRun
  case false => rw [idleCycle_stopped run]
  case true =>
    rw [idleCycle_running run]
    rfl

/-- While the ledgers run, an idle cycle counts on each die's ledger. -/
theorem idleCycle_dieLedger {s : State} (on : s.ledgersRun = true) {d : Nat} (die : d < 2) :
    (idleCycle s).dieLedger d = (s.dieLedger d).cycle s.ledger.rate := by
  rw [idleCycle_running on, modBoth_dieLedger s (fun l => l.cycle s.ledger.rate), if_pos die]

/-- Settles O2: the cycle of each die while the ledgers run, and the count of 8 of a steady ledger. -/
theorem idleStepCountsOneCycle : Obligations.IdleStepCountsOneCycle := by
  unfold Obligations.IdleStepCountsOneCycle
  refine ⟨fun s quiet => ⟨fun off => ?_, fun on => ?_⟩, fun l empty still => ?_⟩
  · rw [step_idle quiet, idleCycle_stopped off]
  · exact ⟨idleCycle s, step_idle quiet, idleCycle_ledgers s, idleCycle_dieLedger on (by decide),
      idleCycle_dieLedger on (by decide)⟩
  · rw [cycle_steady l empty still]
    exact ⟨rfl, rfl⟩

end Sys2Proof.Machine

/-! PROOFS. FOLIO_LOAD (R273 to R276): its checks read no Tsudan port; what a load writes leaves every slot and every command
in progress; a load that idles out gives its slot back. -/

namespace Sys2Proof.Machine

open Sys2Proof

-- the checks read no Tsudan port

section Begun

variable (s : State) (p : Nat) (tag : BitVec 32) (code : BitVec 8)

theorem begun_slot (i : Nat) : (s.begun p tag code).slot i = s.slot i := rfl

theorem begun_loadRefused (b : Bytes) : (s.begun p tag code).loadRefused b = s.loadRefused b := rfl

theorem begun_planCores (q : LoadReq) : (s.begun p tag code).planCores q = s.planCores q := rfl

theorem begun_firstPart (tenant : Nat) (taken : List (Nat × Nat)) (l : LogPart) :
    (s.begun p tag code).firstPart tenant taken l = s.firstPart tenant taken l := rfl

theorem begun_assignParts (tenant : Nat) (taken : List (Nat × Nat)) (l : List LogPart) :
    (s.begun p tag code).assignParts tenant taken l = s.assignParts tenant taken l := by
  induction l generalizing taken with
  | nil => rfl
  | cons a l ih => simp only [State.assignParts, begun_firstPart, ih]

theorem begun_planParts (q : LoadReq) (f : Folio) : (s.begun p tag code).planParts q f = s.planParts q f := by
  unfold State.planParts
  simp only [begun_assignParts]
  rfl

theorem begun_noteCheck (slot stage : Nat) (r : Except LoadFail Folio) :
    (s.begun p tag code).noteCheck slot stage r = (s.noteCheck slot stage r).begun p tag code := rfl

theorem begun_judgeLoad (b : Bytes) (view : Option FolioView) :
    (s.begun p tag code).judgeLoad b view = s.judgeLoad b view := rfl

end Begun

/-- The claim of a load's cores, once STAMP has arrived (R274). -/
def State.claimCores (s : State) (b : Bytes) : State :=
  let q := readLoad b none
  let x := s.slot q.slot
  if x.check.stage = 0 ∧ x.check.verdict = none ∧ q.good 1 = true then s.noteCheck q.slot 1 (s.planCores q) else s

/-- The claim of its partitions, once MANIFEST and PARTITIONS have arrived (R274). -/
def State.claimParts (s : State) (b : Bytes) : State :=
  let q := readLoad b none
  let x := s.slot q.slot
  match x.folio with
  | some f =>
    if x.check.stage = 1 ∧ x.check.verdict = none ∧ q.good 2 = true ∧ q.good 3 = true then
      s.noteCheck q.slot 2 (s.planParts q f)
    else s
  | none => s

theorem claimLoad_eq (s : State) (b : Bytes) : s.claimLoad b = (s.claimCores b).claimParts b := rfl

/-- A claim changes slots alone, and keeps the tenant of the load's own slot. -/
structure Claims (slot : Nat) (s t : State) : Prop where
  frame : t = { s with slots := t.slots }
  tenant : (t.slot slot).tenant = (s.slot slot).tenant

theorem Claims.refl (slot : Nat) (s : State) : Claims slot s s := ⟨rfl, rfl⟩

theorem Claims.trans {slot : Nat} {s t u : State} (h : Claims slot s t) (k : Claims slot t u) : Claims slot s u :=
  ⟨by rw [k.frame, h.frame], k.tenant.trans h.tenant⟩

theorem noteCheck_claims (s : State) (slot stage : Nat) (r : Except LoadFail Folio) :
    Claims slot s (s.noteCheck slot stage r) := by
  refine ⟨rfl, ?_⟩
  unfold State.noteCheck
  rw [modSlot_slot, if_pos rfl]
  cases r with
  | ok f => rfl
  | error e => rfl

theorem claimCores_claims (s : State) (b : Bytes) : Claims (fldAt b 0 1) s (s.claimCores b) := by
  unfold State.claimCores
  dsimp only
  split
  · exact noteCheck_claims ..
  · exact .refl _ s

theorem claimParts_claims (s : State) (b : Bytes) : Claims (fldAt b 0 1) s (s.claimParts b) := by
  unfold State.claimParts
  dsimp only
  split
  · split
    · exact noteCheck_claims ..
    · exact .refl _ s
  · exact .refl _ s

theorem claimLoad_claims (s : State) (b : Bytes) : Claims (fldAt b 0 1) s (s.claimLoad b) :=
  (claimCores_claims s b).trans (claimParts_claims ..)

theorem begun_claimCores (s : State) (p : Nat) (tag : BitVec 32) (code : BitVec 8) (b : Bytes) :
    (s.begun p tag code).claimCores b = (s.claimCores b).begun p tag code := by
  unfold State.claimCores
  dsimp only
  rw [begun_planCores, begun_noteCheck]
  exact (apply_ite (fun t : State => t.begun p tag code) _ _ _).symm

theorem begun_claimParts (s : State) (p : Nat) (tag : BitVec 32) (code : BitVec 8) (b : Bytes) :
    (s.begun p tag code).claimParts b = (s.claimParts b).begun p tag code := by
  unfold State.claimParts
  dsimp only
  rw [begun_slot]
  split
  · rw [begun_planParts, begun_noteCheck]
    exact (apply_ite (fun t : State => t.begun p tag code) _ _ _).symm
  · rfl

theorem begun_claimLoad (s : State) (p : Nat) (tag : BitVec 32) (code : BitVec 8) (b : Bytes) :
    (s.begun p tag code).claimLoad b = (s.claimLoad b).begun p tag code := by
  rw [claimLoad_eq, begun_claimCores, begun_claimParts, ← claimLoad_eq]

-- the slot enters LOADING

/-- A slot that enters LOADING (R274). -/
def Slot.begins (p : Nat) (tag : BitVec 32) (b : Bytes) (x : Slot) : Slot :=
  { x with state := .loading, tenant := fldAt b 1 1, load := some (p, tag), check := ⟨(readLoad b none).kind, 0, none⟩
           folio := none, prog := Prog.reset }

theorem beginLoad_empty {s : State} {b : Bytes} (empty : (s.slot (fldAt b 0 1)).state = .empty) (p : Nat) (tag : BitVec 32) :
    s.beginLoad p tag b = s.modSlot (fldAt b 0 1) (Slot.begins p tag b) := by
  unfold State.beginLoad
  dsimp only
  rw [if_neg (by rw [empty]; decide)]
  rfl

theorem begun_beginLoad {s : State} {b : Bytes} (empty : (s.slot (fldAt b 0 1)).state = .empty) (p : Nat) (tag : BitVec 32)
    (code : BitVec 8) : (s.begun p tag code).beginLoad p tag b = (s.beginLoad p tag b).begun p tag code := by
  rw [beginLoad_empty empty, beginLoad_empty (s := s.begun p tag code) empty]
  rfl

-- what a load writes

/-- What a load writes leaves every slot and every command in progress. -/
structure LoadWrites (s t : State) : Prop where
  slots : t.slots = s.slots
  cmds : SameCmds s t

theorem LoadWrites.refl (s : State) : LoadWrites s s := ⟨rfl, .refl s⟩

theorem LoadWrites.trans {s t u : State} (h : LoadWrites s t) (k : LoadWrites t u) : LoadWrites s u :=
  ⟨k.slots.trans h.slots, h.cmds.trans k.cmds⟩

theorem loadWrites_of_ports {s t : State} (slots : t.slots = s.slots) (ports : t.ports = s.ports) : LoadWrites s t :=
  ⟨slots, onlyPorts_cmds ports⟩

theorem ite_loadWrites {s t u : State} {b : Prop} [Decidable b] (h : LoadWrites s t) (k : LoadWrites s u) :
    LoadWrites s (if b then t else u) := by split <;> assumption

theorem foldl_loadWrites {α : Type} {f : State → α → State} (h : ∀ s a, LoadWrites s (f s a)) (l : List α)
    (s : State) : LoadWrites s (l.foldl f s) :=
  List.foldlRecOn (motive := LoadWrites s) l f (.refl s) fun t ht a _ => ht.trans (h t a)

theorem raise_loadWrites (s : State) (page bit : Nat) (detail : Bytes) : LoadWrites s (s.raise page bit detail) :=
  ⟨by rw [raise_reports], raise_cmds ..⟩

theorem raiseCap_loadWrites (s : State) (page bit : Nat) (caps : List W32) (take : Bool) :
    LoadWrites s (s.raiseCap page bit caps take) := by
  unfold State.raiseCap
  dsimp only
  split
  · exact (loadWrites_of_ports rfl rfl : LoadWrites s (s.modPage page _)).trans (raise_loadWrites ..)
  · exact raise_loadWrites ..

theorem rewriteWord_loadWrites (s : State) (w : Nat) : LoadWrites s (s.rewriteWord w) := by
  unfold State.rewriteWord
  dsimp only
  split
  · exact ite_loadWrites (loadWrites_of_ports rfl rfl) (loadWrites_of_ports rfl rfl)
  · exact ite_loadWrites (loadWrites_of_ports rfl rfl) (loadWrites_of_ports rfl rfl)

theorem writeBack_loadWrites (s : State) (r : Reader) (w : Nat) : LoadWrites s (s.writeBack r w) := by
  unfold State.writeBack
  split
  · exact rewriteWord_loadWrites s w
  · exact ite_loadWrites (loadWrites_of_ports rfl rfl) ((rewriteWord_loadWrites s w).trans (loadWrites_of_ports rfl rfl))

/-- Counting a code error on its shelf or carrel. -/
theorem countError_loadWrites (s : State) (w k c : Nat) (f : Cluster → Cluster) (g : CarrelUnit → CarrelUnit) :
    LoadWrites s (if isShelf w then s.modCluster k f else s.modCar c g) :=
  ite_loadWrites (loadWrites_of_ports rfl rfl) (loadWrites_of_ports rfl rfl)

theorem eccCe_loadWrites (s : State) (r : Reader) (w bit : Nat) : LoadWrites s (s.eccCe r w bit) := by
  have counted := (loadWrites_of_ports rfl rfl : LoadWrites s s.draw.2).trans (countError_loadWrites s.draw.2 w (shelfAt w)
    (coreAt w) (fun c => { c with ce := sat32 c.ce 1 }) fun c => { c with ce := sat32 c.ce 1 })
  unfold State.eccCe
  refine counted.trans (LoadWrites.trans ?_ ((writeBack_loadWrites _ r w).trans (raiseCap_loadWrites ..)))
  cases r with
  | unit c u => exact loadWrites_of_ports rfl rfl
  | net => exact .refl _
  | scrub => exact .refl _

theorem eccUe_loadWrites (s : State) (r : Reader) (w : Nat) : LoadWrites s (s.eccUe r w) := by
  have counted := (loadWrites_of_ports rfl rfl : LoadWrites s s.draw.2).trans (countError_loadWrites s.draw.2 w (shelfAt w)
    (coreAt w) (fun c => { c with ue := sat32 c.ue 1 }) fun c => { c with ue := sat32 c.ue 1 })
  unfold State.eccUe
  refine counted.trans ((raiseCap_loadWrites ..).trans (ite_loadWrites ?_ (.refl _)))
  exact (rewriteWord_loadWrites ..).trans (loadWrites_of_ports rfl rfl)

theorem readSpan_loadWrites (s : State) (r : Reader) (a n : Nat) : LoadWrites s (s.readSpan r a n).1 := by
  refine List.foldlRecOn (motive := fun t : State × Option Nat => LoadWrites s t.1) _ _ (.refl s) fun t ht e _ => ?_
  split
  · exact ht
  · exact ht.trans (eccCe_loadWrites ..)
  · exact ht.trans (eccUe_loadWrites ..)

theorem mergeSpan_loadWrites (s : State) (r : Reader) (a n : Nat) : LoadWrites s (s.mergeSpan r a n).1 := by
  unfold State.mergeSpan
  split
  · exact .refl s
  · refine List.foldlRecOn (motive := fun t : State × Option Nat => LoadWrites s t.1) _ _ (.refl s) fun t ht x _ => ?_
    split
    · exact ht
    · exact ht.trans (readSpan_loadWrites ..)

theorem cleanSpan_loadWrites (s : State) (a n : Nat) : LoadWrites s (s.cleanSpan a n) :=
  foldl_loadWrites (f := fun (s : State) (e : Nat × List Nat) => { s with upsets := Tbl.erase s.upsets e.1 })
    (fun _ _ => loadWrites_of_ports rfl rfl) _ s

theorem setMem_loadWrites (s : State) (m : Memory) : LoadWrites s { s with mem := m } := loadWrites_of_ports rfl rfl

theorem clearSpan_loadWrites (s : State) (a n : Nat) : LoadWrites s (s.clearSpan a n) :=
  (cleanSpan_loadWrites s a n).trans ((setMem_loadWrites ..).trans (rewriteWord_loadWrites ..))

theorem writeSpan_loadWrites (s : State) (r : Reader) (a : Nat) (bs : Bytes) : LoadWrites s (s.writeSpan r a bs).1 := by
  have merged := mergeSpan_loadWrites s r a bs.length
  unfold State.writeSpan
  split
  · next t w stops => rw [stops] at merged; exact merged
  · next t reads =>
    rw [reads] at merged
    have stored := (merged.trans (cleanSpan_loadWrites t a bs.length)).trans
      (setMem_loadWrites _ ((t.cleanSpan a bs.length).mem.write a bs))
    exact ite_loadWrites (stored.trans (rewriteWord_loadWrites ..)) stored

theorem modCar_loadWrites (s : State) (c : Nat) (f : CarrelUnit → CarrelUnit) : LoadWrites s (s.modCar c f) :=
  loadWrites_of_ports rfl rfl

theorem settleCarrel_loadWrites (s : State) (c : Nat) : LoadWrites s (s.settleCarrel c) := by
  unfold State.settleCarrel
  refine ite_loadWrites ?_ (.refl s)
  exact (clearSpan_loadWrites ..).trans ((modCar_loadWrites ..).trans (raise_loadWrites ..))

theorem setHash_loadWrites (s : State) (l : LogPart) : LoadWrites s (s.setHash l) := by
  unfold State.setHash
  split
  · exact .refl s
  · exact ite_loadWrites (loadWrites_of_ports rfl rfl) (loadWrites_of_ports rfl rfl)

theorem writeQueue_loadWrites (s : State) (e : QueueEntry) : LoadWrites s (s.writeQueue e) :=
  ite_loadWrites (loadWrites_of_ports rfl rfl) (loadWrites_of_ports rfl rfl)

theorem writeConstant_loadWrites (s : State) (f : Folio) (c : ConstImage) : LoadWrites s (s.writeConstant f c) := by
  unfold State.writeConstant
  split
  · exact writeSpan_loadWrites ..
  · exact .refl s

theorem writeCore_loadWrites (s : State) (f : Folio) (v : FolioView) (r : List Reloc) (trap c : Nat) :
    LoadWrites s (s.writeCore f v r trap c) := loadWrites_of_ports rfl rfl

theorem clearRings_loadWrites (s : State) (k : Nat) : LoadWrites s (s.clearRings k) := loadWrites_of_ports rfl rfl

theorem writeRing_loadWrites (s : State) (f : Folio) (r : List Reloc) (e : RingEntry) : LoadWrites s (s.writeRing f r e) :=
  loadWrites_of_ports rfl rfl

theorem writePatch_loadWrites (s : State) (q : LoadReq) (w : PatchWindow) : LoadWrites s (s.writePatch q w) :=
  loadWrites_of_ports rfl rfl

theorem setRoute_loadWrites (s : State) (r : Nat) (x : RouteEntry) : LoadWrites s (s.setRoute r x) :=
  loadWrites_of_ports rfl rfl

/-- A slot that has become LOADED with its folio (R274). -/
def Slot.loads (f : Folio) (x : Slot) : Slot :=
  { x with state := .loaded, load := none, check := LoadCheck.reset, folio := some f, prog := Prog.reset }

theorem loads_tenant (f : Folio) (x : Slot) : (x.loads f).tenant = x.tenant := rfl

/-- A load writes everything that R274 lists, then makes its slot LOADED. -/
theorem writeFolio_writes (s : State) (q : LoadReq) (f : Folio) (v : FolioView) :
    ∃ u, LoadWrites s u ∧ s.writeFolio q f v = u.modSlot q.slot (Slot.loads f) := by
  refine ⟨_, ?_, rfl⟩
  refine .trans ?_ (foldl_loadWrites (fun s c => writeConstant_loadWrites s f c) v.constants _)
  refine .trans ?_ (foldl_loadWrites (fun s x => setRoute_loadWrites s x.index (q.routeEntry x)) v.routes _)
  refine .trans ?_ (foldl_loadWrites (fun s w => writePatch_loadWrites s q w) v.windows _)
  refine .trans ?_ (foldl_loadWrites (fun s e => writeRing_loadWrites s f _ e) v.rings _)
  refine .trans ?_ (foldl_loadWrites writeQueue_loadWrites v.queues _)
  refine .trans ?_ (foldl_loadWrites clearRings_loadWrites (onesBelow f.clusters 32) _)
  refine .trans ?_ (foldl_loadWrites (fun s c => writeCore_loadWrites s f v _ q.trap c) _ _)
  exact (foldl_loadWrites settleCarrel_loadWrites _ s).trans (foldl_loadWrites setHash_loadWrites f.lparts _)

-- FOLIO_LOAD

/-- The state in which a whole load's contents are judged: its slot LOADING, its cores and partitions claimed (R274). -/
def State.claimed (s : State) (p : Nat) (tag : BitVec 32) (b : Bytes) : State := (s.beginLoad p tag b).claimLoad b

theorem claimed_tenant {s : State} {b : Bytes} (empty : (s.slot (fldAt b 0 1)).state = .empty) (p : Nat) (tag : BitVec 32) :
    ((s.claimed p tag b).slot (fldAt b 0 1)).tenant = fldAt b 1 1 := by
  rw [State.claimed, (claimLoad_claims ..).tenant, beginLoad_empty empty, modSlot_slot, if_pos rfl]
  rfl

theorem claimed_ports {s : State} {b : Bytes} (empty : (s.slot (fldAt b 0 1)).state = .empty) (p : Nat) (tag : BitVec 32) :
    (s.claimed p tag b).ports = s.ports := by
  rw [State.claimed, (claimLoad_claims ..).frame, beginLoad_empty empty]
  rfl

theorem begun_claimed {s : State} {b : Bytes} (empty : (s.slot (fldAt b 0 1)).state = .empty) (p : Nat) (tag : BitVec 32)
    (code : BitVec 8) : (s.begun p tag code).claimed p tag b = (s.claimed p tag b).begun p tag code := by
  rw [State.claimed, begun_beginLoad empty, begun_claimLoad]
  rfl

theorem readLoad_slot (b : Bytes) (view : Option FolioView) : (readLoad b view).slot = fldAt b 0 1 := rfl

/-- A load that no check refuses writes its folio and answers the folio digest (R274). -/
theorem folioLoadOp_loads {s : State} {p : Nat} {tag : BitVec 32} {b : Bytes} {view : Option FolioView} {f : Folio}
    {v : FolioView} (admitted : s.loadRefused b = none) (judged : (s.claimed p tag b).judgeLoad b view = .ok (f, v)) :
    folioLoadOp p tag b view s
      = ((s.claimed p tag b).writeFolio (readLoad b view) f v, .done (Reply.ok f.digest)) := by
  unfold State.claimed at judged
  simp only [folioLoadOp, admitted, State.endLoad, judged]
  rfl

/-- A folio that is written leaves its slot LOADED, the slot's tenant and the commands in progress as they were. -/
theorem writeFolio_loads (s : State) (q : LoadReq) (f : Folio) (v : FolioView) :
    (s.writeFolio q f v).slot q.slot = (s.slot q.slot).loads f ∧ SameCmds s (s.writeFolio q f v) := by
  obtain ⟨u, writes, loads⟩ := writeFolio_writes s q f v
  have slot : u.slot q.slot = s.slot q.slot := by rw [State.slot, writes.slots]; rfl
  rw [loads, modSlot_slot, if_pos rfl, slot]
  exact ⟨rfl, writes.cmds.trans (onlyPorts_cmds rfl)⟩

/-- A FOLIO_LOAD into an EMPTY slot that no check refuses (R273, R274). -/
theorem execFolioLoad_loads {p : TPort} {tag : BitVec 32} {b : Bytes} {view : FolioView} {s : State} {f : Folio}
    {v : FolioView} (accepts : Accepts s p tag) (empty : (s.slot (fldAt b 0 1)).state = .empty)
    (admitted : s.loadRefused b = none) (judged : (s.claimed p tag b).judgeLoad b (some view) = .ok (f, v)) :
    ∃ t, execFolioLoad p tag b view s = .next t ∧ t.slot (fldAt b 0 1) = ((s.claimed p tag b).slot (fldAt b 0 1)).loads f
      ∧ Completed t p tag 0x10 (Reply.ok f.digest) := by
  have claims := begun_claimed empty p tag 0x10
  have done := folioLoadOp_loads (s := s.begun p tag 0x10) (view := some view) (f := f) (v := v)
    ((begun_loadRefused ..).trans admitted) (by rw [claims, begun_judgeLoad]; exact judged)
  obtain ⟨slot, cmds⟩ := writeFolio_loads ((s.begun p tag 0x10).claimed p tag b) (readLoad b (some view)) f v
  have begins : SameCmds (s.begun p tag 0x10) ((s.begun p tag 0x10).claimed p tag b) :=
    onlyPorts_cmds (claimed_ports (s := s.begun p tag 0x10) empty p tag)
  generalize ((s.begun p tag 0x10).claimed p tag b).writeFolio _ f v = u at done slot cmds
  obtain ⟨l, run, completed⟩ := runCommand_done accepts done (begins.trans cmds)
  rw [readLoad_slot, claims, begun_slot] at slot
  exact ⟨{ u with ports := l }, congrArg Host.Outcome.next run, slot, completed⟩

-- a load that idles out

theorem draw_clusterWork (k : Nat) (s : State) : ClusterWork k s s.draw.2 :=
  ⟨fun _ _ => rfl, fun _ _ => rfl, rfl, rfl, rfl, keepsQuiet_of_cmds rfl rfl (.refl s)⟩

theorem freeEndpoint_clusterWork (s : State) (n c q : Nat) : ClusterWork (c / 8) s (s.freeEndpoint n c q) := by
  unfold State.freeEndpoint State.modQueue
  exact modCore_clusterWork s c _

/-- A failed load leaves one core's stores and tables undefined (R275). -/
theorem freeCore_clusterWork (s : State) (c : Nat) : ClusterWork (c / 8) s (s.freeCore c) := by
  unfold State.freeCore
  refine List.foldlRecOn (motive := ClusterWork (c / 8) s) _ _ ?_ fun t ht q _ => ht.trans (freeEndpoint_clusterWork t _ c q)
  exact (draw_clusterWork _ s).trans (modCore_clusterWork _ c _)

/-- A failed load leaves one cluster's ring table undefined (R275). -/
theorem freeRings_clusterWork (s : State) (k : Nat) : ClusterWork k s (s.freeRings k) := by
  unfold State.freeRings
  exact List.foldlRecOn (motive := ClusterWork k s) _ _ (draw_clusterWork k s) fun t ht r _ =>
    ht.trans (modCluster_clusterWork t k fun _ => rfl)

/-- The cores and rings that a failed load leaves undefined (R275). -/
def State.freeClaimed (s : State) (ks : List Nat) : State :=
  ks.foldl State.freeRings ((ks.flatMap clusterCores).foldl State.freeCore s)

theorem freeClaimed_rest (s : State) (ks : List Nat) :
    (s.freeClaimed ks).editions = s.editions ∧ KeepsQuiet s (s.freeClaimed ks) := by
  obtain ⟨-, editions, quiet⟩ := foldl_clusterWork_rest (f := fun s k => (clusterCores k).foldl State.freeCore s)
    (fun s k => foldl_clusterWork (fun s c own => own ▸ freeCore_clusterWork s c) s) ks s
  obtain ⟨-, editions', quiet'⟩ := foldl_clusterWork_rest freeRings_clusterWork ks
    ((ks.flatMap clusterCores).foldl State.freeCore s)
  rw [← List.foldl_flatMap] at editions quiet
  exact ⟨editions'.trans editions, quiet.trans quiet'⟩

theorem undoLoad_eq (s : State) (slot : Nat) :
    s.undoLoad slot = (s.freeClaimed ((List.range 32).filter (s.slot slot).claims)).emptySlot slot := rfl

/-- Without editions, a load that is undone leaves its slot EMPTY and nothing more waiting than before (R275). -/
theorem undoLoad_empties {s : State} (none : s.editions = []) (slot : Nat) :
    (s.undoLoad slot).slot slot = ((s.undoLoad slot).slot slot).emptied ∧ KeepsQuiet s (s.undoLoad slot) := by
  obtain ⟨editions, freed⟩ := freeClaimed_rest s ((List.range 32).filter (s.slot slot).claims)
  obtain ⟨empty, waits, -⟩ := emptySlot_empties (editions.trans none) slot
  rw [undoLoad_eq]
  exact ⟨empty, freed.trans waits⟩

theorem complete_fewer (s : State) (p : Nat) (tag : BitVec 32) (r : Reply) : FewerCmds s (s.complete p tag r) := by
  intro q c mem
  refine ⟨c, ?_, .inl rfl⟩
  rw [complete_cmds] at mem
  split at mem
  · next same => exact same ▸ (List.mem_filter.mp mem).1
  · exact mem

theorem complete_keepsQuiet (s : State) (p : Nat) (tag : BitVec 32) (r : Reply) : KeepsQuiet s (s.complete p tag r) :=
  keepsQuiet_of_cmds (by rw [complete_ports]) (by rw [complete_ports]) (complete_fewer s p tag r)

/-- A load that fails undoes what it claimed and completes its command (R275). -/
theorem failLoad_eq {s : State} {slot q : Nat} {tag : BitVec 32} (load : (s.slot slot).load = some (q, tag)) (r : Reply) :
    s.failLoad slot r = (s.undoLoad slot).complete q tag r := by
  simp only [State.failLoad, load]

/-- A LOADING slot whose packets stop coming, where nothing waits to be given back (R276). -/
theorem execLoadIdleTimeout_fails {s : State} {slot : SlotId} {q : Nat} {tag : BitVec 32}
    (loading : (s.slot slot).state = .loading) (load : (s.slot slot).load = some (q, tag)) (none : s.editions = [])
    (quiet : Quiet s) :
    execLoadIdleTimeout slot s = .next ((s.undoLoad slot).complete q tag (Reply.err stTimeout)) := by
  have kept := (undoLoad_empties none slot).2.trans (complete_keepsQuiet _ q tag (Reply.err stTimeout))
  rw [execLoadIdleTimeout, if_pos loading, failLoad_eq load, progress_quiet _ (kept.quiet quiet)]

/-- Settles O41: the checks of a load read no Tsudan port, what it writes leaves its slot's tenant and its command in
progress; a load that idles out is undone, which leaves nothing to give back. -/
theorem foliosAreLoadedOrGivenUp : Obligations.FoliosAreLoadedOrGivenUp := by
  unfold Obligations.FoliosAreLoadedOrGivenUp
  refine ⟨?_, ?_⟩
  · intro p tag b view s f v slot accepts empty admitted _ judged
    have ok : (s.claimed p tag b).judgeLoad b (some view) = .ok (f, v) := by
      unfold State.claimed
      split at judged
      · next r whole => rw [whole, judged]
      · exact judged.elim
    obtain ⟨t, run, own, completed⟩ := execFolioLoad_loads accepts empty admitted ok
    exact ⟨t, run, congrArg Slot.state own, congrArg Slot.folio own,
      (congrArg Slot.tenant own).trans ((loads_tenant ..).trans (claimed_tenant empty p tag)), congrArg Slot.load own,
      completed⟩
  · intro slot s q tag loading load none quiet
    have own : ((s.undoLoad slot).complete q tag (Reply.err stTimeout)).slot slot = (s.undoLoad slot).slot slot :=
      OnlyPorts.slot (complete_ports ..) slot
    obtain ⟨empty, -⟩ := undoLoad_empties none slot
    refine ⟨_, execLoadIdleTimeout_fails loading load none quiet, by rw [own, empty]; rfl, by rw [own, empty]; rfl,
      complete_frees .., ?_⟩
    rw [complete_mem, undoLoad_mem]

end Sys2Proof.Machine

/-! PROOFS. The end of a session (R290, R336) where AUTO_FREE is 0, no edition is loaded and nothing waits to be given back:
the session is CLOSED with its reason, and nothing else goes on. What an evaluation makes of its session (R297 to R299). -/

namespace Sys2Proof.Machine

open Sys2Proof

-- states in which the end of a session lets nothing else go on

/-- CLOSED descriptors are kept, no edition can drain and nothing waits to be given back (R283, R290, R357). -/
structure Resting (s : State) : Prop where
  keeps : s.adm.autoFree = false
  editions : s.editions = []
  quiet : Quiet s

theorem SessionsEnd.resting {s t : State} (h : SessionsEnd s t) (rest : Resting s) : Resting t :=
  ⟨by rw [h.frame]; exact rest.keeps, by rw [h.frame]; exact rest.editions, h.faulting.quiet rest.quiet⟩

theorem Reported.resting {s t : State} (h : Reported s t) (rest : Resting s) : Resting t :=
  ⟨by rw [h.frame]; exact rest.keeps, by rw [h.frame]; exact rest.editions, h.quiet rest.quiet⟩

theorem begun_resting {s : State} (rest : Resting s) (p : Nat) (tag : BitVec 32) (code : BitVec 8) :
    Resting (s.begun p tag code) := ⟨rest.keeps, rest.editions, begun_quiet rest.quiet p tag code⟩

theorem sessionEnded_resting {s : State} (rest : Resting s) (slot : Nat) : s.sessionEnded slot = s := by
  rw [State.sessionEnded, drainCheck_none rest.editions, progress_quiet _ rest.quiet]

/-- In a state at rest, nothing follows the end of a session. -/
theorem closeSession_ended {s : State} (rest : Resting s) (i reason slot : Nat) :
    (s.closeSession i reason).sessionEnded slot = s.closeSession i reason :=
  sessionEnded_resting ((closeSession_end s i reason).resting rest) slot

-- one session

theorem session_congr {s t : State} (same : t.sessions = s.sessions) (j : Nat) : t.session j = s.session j :=
  congrArg (Tbl.get Session.reset · j) same

theorem OnlyPorts.sessions {s t : State} (h : OnlyPorts s t) : t.sessions = s.sessions := by rw [h]

theorem OnlyPorts.adm {s t : State} (h : OnlyPorts s t) : t.adm = s.adm := by rw [h]

theorem sendPacket_onlyPorts (s : State) (p : Nat) (x : TxPacket) : OnlyPorts s (s.sendPacket p x) := sendPacket_ports s p x

/-- A change of sessions behind a change of ports. -/
theorem OnlyPorts.withSessions {s t : State} (h : OnlyPorts s t) (i : Nat) (f : Session → Session) : t.modSession i f
    = { s with sessions := (t.modSession i f).sessions, ports := (t.modSession i f).ports } := by
  rw [h]
  rfl

theorem sendPacket_session (s : State) (p : Nat) (x : TxPacket) (j : Nat) : (s.sendPacket p x).session j = s.session j :=
  session_congr (sendPacket_onlyPorts s p x).sessions j

theorem unqueue_session (s : State) (i j : Nat) :
    (s.unqueue i).session j = if j = i then { s.session i with queued := false } else s.session j := modSession_session ..

theorem autoFree_session (s : State) (i j : Nat) : (s.autoFree i).session j
    = if j = i ∧ s.adm.autoFree = true ∧ (s.session i).state = .closed then (s.session i).freed else s.session j := by
  unfold State.autoFree
  split
  · next frees => rw [modSession_session]; exact if_congr (and_iff_left frees).symm rfl rfl
  · next keeps => rw [if_neg fun h => keeps h.2]

/-- A session that has ended with a reason before any of its steps (R290, R336). -/
def Session.closedWith (x : Session) (reason : Nat) (now : W64) : Session :=
  { x with
    queued := false, state := .closed, endReason := reason, endDetail := 0, ledgerEnd := now, pages := 0, charge := 0
    punits := 0, row := 511, openPkt := none, closedPkts := [] }

/-- A session that is closed is CLOSED with its reason, or FREE at once under AUTO_FREE (R290). -/
theorem closeSession_self (s : State) (i reason : Nat) : (s.closeSession i reason).session i
    = if s.adm.autoFree = true then ((s.session i).closedWith reason s.now).freed
      else (s.session i).closedWith reason s.now := by
  generalize ht : (s.unqueue i).modSession i (fun x => { x with
    state := .closed, endReason := reason, endDetail := 0, ledgerEnd := s.now, pages := 0, charge := 0
    punits := 0, row := 511, openPkt := none, closedPkts := [] }) = t
  have own : t.session i = (s.session i).closedWith reason s.now := by
    rw [← ht, modSession_session, if_pos rfl, unqueue_session, if_pos rfl]
    rfl
  have adm (p : Nat) (x : TxPacket) : (t.sendPacket p x).adm = s.adm :=
    (sendPacket_onlyPorts t p x).adm.trans (by rw [← ht]; rfl)
  have closes : s.closeSession i reason
      = (t.sendPacket (t.session i).port (tokenPacket ((t.session i).tokenPayload i ⟨(t.session i).generated, [], false, true⟩))).autoFree
        i := by rw [← ht]; rfl
  rw [closes, autoFree_session, adm, sendPacket_session, own]
  exact if_congr ⟨fun h => h.2.1, fun h => ⟨rfl, h, rfl⟩⟩ rfl rfl

theorem closeSession_session {s : State} (rest : Resting s) (i reason j : Nat) : (s.closeSession i reason).session j
    = if j = i then (s.session i).closedWith reason s.now else s.session j := by
  split
  · next same => rw [same, closeSession_self, rest.keeps]; rfl
  · next other => exact closeSession_others s reason other

-- refusal

/-- The counts of ADM after a refusal (R308). -/
def AdmPage.refusing (a : AdmPage) (reason : Nat) : AdmPage :=
  if reason = refuseMemory then { a with refMemory := sat32 a.refMemory 1 }
  else if reason = refuseTime then { a with refTime := sat32 a.refTime 1 }
  else if reason = refuseQuota then { a with refQuota := sat32 a.refQuota 1 }
  else { a with refTenant := sat32 a.refTenant 1 }

theorem refusing_autoFree (a : AdmPage) (reason : Nat) : (a.refusing reason).autoFree = a.autoFree := by
  unfold AdmPage.refusing
  split
  · rfl
  · split
    · rfl
    · split <;> rfl

/-- A refusal is counted, then reported (R301, R308). -/
theorem countRefusal_reported (s : State) (reason : Nat) :
    Reported { s with adm := s.adm.refusing reason } (s.countRefusal reason) :=
  raise_reported { s with adm := s.adm.refusing reason } admPage 0 []

theorem countRefusal_session (s : State) (reason j : Nat) : (s.countRefusal reason).session j = s.session j := by
  rw [State.session, (countRefusal_reported s reason).frame]
  rfl

/-- A session that admission has refused, before it is closed (R299). -/
def Session.refusedFor (x : Session) (reason : Nat) : Session :=
  { x with queued := false, refuseReason := reason, endReason := endRefused }

theorem refuseSession_session (s : State) (i reason j : Nat) : (s.refuseSession i reason).session j
    = if j = i then (s.session i).refusedFor reason else s.session j := by
  rw [State.refuseSession, countRefusal_session, modSession_session, unqueue_session, unqueue_session, if_pos rfl]
  split
  · rfl
  · rfl

theorem refuseSession_resting {s : State} (rest : Resting s) (i reason : Nat) : Resting (s.refuseSession i reason) := by
  obtain ⟨keeps, editions, quiet⟩ := ((unqueue_end s i).trans (modSession_end _ i fun x =>
    { x with refuseReason := reason, endReason := endRefused })).resting rest
  exact (countRefusal_reported _ reason).resting
    ⟨(refusing_autoFree ..).trans keeps, editions, quiet_congr rfl rfl ⟨fun _ => rfl⟩ quiet⟩

/-- A refused session that is still OPEN is closed with REFUSED (R290, R293). -/
theorem closeRefused_closes {s : State} (rest : Resting s) {i : Nat} (opened : (s.session i).state = .opened)
    (refused : (s.session i).endReason = endRefused) : s.closeRefused i = s.closeSession i endRefused :=
  (if_pos ⟨opened, refused⟩).trans (closeSession_ended rest ..)

-- evaluation

theorem evaluate_refuses {s : State} {i r : Nat} (refusal : s.refusal (s.session i) (s.evaluation (s.session i)) = some r) :
    s.evaluate i = s.refuseSession i r := by
  unfold State.evaluate
  simp only [refusal]

theorem evaluate_queues {s : State} {i r : Nat} (passes : s.refusal (s.session i) (s.evaluation (s.session i)) = none)
    (queueing : s.queueing (s.session i) (s.evaluation (s.session i)) = some r) :
    s.evaluate i = (s.enqueue i).modSession i fun y => { y with refuseReason := r } := by
  unfold State.evaluate
  simp only [passes, queueing]

theorem evaluate_admits {s : State} {i : Nat} (passes : s.refusal (s.session i) (s.evaluation (s.session i)) = none)
    (fits : s.queueing (s.session i) (s.evaluation (s.session i)) = none) :
    s.evaluate i = s.admitSession i (s.evaluation (s.session i)) := by
  unfold State.evaluate
  simp only [passes, fits]

/-- A session in its queue: from now on, unless it is there already (R294, R297). -/
def Session.queuedFrom (x : Session) (now : W64) : Session := if x.queued then x else { x with queued := true, queuedAt := now }

theorem queuedFrom_queued (x : Session) (now : W64) : (x.queuedFrom now).queued = true := by
  unfold Session.queuedFrom
  split
  · assumption
  · rfl

theorem queuedFrom_state (x : Session) (now : W64) : (x.queuedFrom now).state = x.state := by
  unfold Session.queuedFrom
  split <;> rfl

theorem enqueue_session (s : State) (i j : Nat) :
    (s.enqueue i).session j = if j = i then (s.session i).queuedFrom s.now else s.session j := by
  unfold State.enqueue Session.queuedFrom
  split
  · split
    · next same => rw [same]
    · rfl
  · exact modSession_session (s.modSlot (s.session i).slot fun d => { d with queue := d.queue ++ [i] }) i j
      fun x => { x with queued := true, queuedAt := s.now }

/-- `t` is `s` but for the draws of free values. -/
def OnlyDraws (s t : State) : Prop := t = { s with freeCtr := t.freeCtr }

theorem OnlyDraws.trans {s t u : State} (h : OnlyDraws s t) (k : OnlyDraws t u) : OnlyDraws s u := by
  unfold OnlyDraws at *
  rw [k, h]

theorem predict_draws (s : State) (num den : Nat) : OnlyDraws s (s.predict num den).1 := by
  unfold State.predict
  dsimp only
  split
  · rfl
  · split <;> rfl

/-- The state in which a session is admitted: out of its queue, its times predicted (R297, R299). -/
def State.predicted (s : State) (i : Nat) (e : Evaluation) : State :=
  let t := ((s.unqueue i).predict e.ttft (s.unqueue i).clockMhz).1
  (t.predict (e.step * 1000) t.clockMhz).1

theorem predicted_draws (s : State) (i : Nat) (e : Evaluation) : OnlyDraws (s.unqueue i) (s.predicted i e) :=
  (predict_draws ..).trans (predict_draws ..)

theorem predicted_session (s : State) (i j : Nat) (e : Evaluation) : (s.predicted i e).session j
    = if j = i then { s.session i with queued := false } else s.session j := by
  rw [predicted_draws]
  exact unqueue_session s i j

/-- An ADMITTED session with its pages, its charge and its predicted times (R290, R299, R328). -/
def Session.admittedWith (x : Session) (e : Evaluation) (now : W64) (ttft step : W32) : Session :=
  { x with
    state := .admitted, pages := e.pages, charge := e.charge, refuseReason := 0, ledgerAdmit := now
    predTtft := ttft, predStep := step, hwm := x.promptTokens + (if x.speculative then 64 else 0)
    spare := if x.speculative then (List.range 64).map fun n => x.promptTokens + n else [] }

theorem admitSession_sessions (s : State) (i : Nat) (e : Evaluation) : ∃ ttft step, (s.admitSession i e).sessions
    = ((s.predicted i e).modSession i fun x => x.admittedWith e (s.predicted i e).now ttft step).sessions := by
  unfold State.admitSession State.predicted
  dsimp only
  exact ⟨_, _, rfl⟩

theorem admitSession_session (s : State) (i : Nat) (e : Evaluation) : ∃ now ttft step, ∀ j, (s.admitSession i e).session j
    = if j = i then { s.session i with queued := false }.admittedWith e now ttft step else s.session j := by
  obtain ⟨ttft, step, sessions⟩ := admitSession_sessions s i e
  refine ⟨(s.predicted i e).now, ttft, step, fun j => ?_⟩
  have session := modSession_session (s.predicted i e) i j fun x => x.admittedWith e (s.predicted i e).now ttft step
  rw [predicted_session, predicted_session, if_pos rfl] at session
  rw [State.session, sessions]
  refine session.trans ?_
  split
  · rfl
  · rfl

/-- An admission is counted (R308). -/
theorem admitSession_adm (s : State) (i : Nat) (e : Evaluation) :
    (s.admitSession i e).adm = { s.adm with admitted := sat32 s.adm.admitted 1 } := by
  have adm : (s.predicted i e).adm = s.adm := by
    rw [predicted_draws]
    rfl
  change { (s.predicted i e).adm with admitted := sat32 (s.predicted i e).adm.admitted 1 } = _
  rw [adm]

theorem evaluate_others (s : State) {i j : Nat} (ne : j ≠ i) : (s.evaluate i).session j = s.session j := by
  cases refusal : s.refusal (s.session i) (s.evaluation (s.session i)) with
  | some r => rw [evaluate_refuses refusal, refuseSession_session, if_neg ne]
  | none =>
    cases queueing : s.queueing (s.session i) (s.evaluation (s.session i)) with
    | some r => rw [evaluate_queues refusal queueing, modSession_session, if_neg ne, enqueue_session, if_neg ne]
    | none =>
      obtain ⟨now, ttft, step, session⟩ := admitSession_session s i (s.evaluation (s.session i))
      rw [evaluate_admits refusal queueing, session, if_neg ne]

-- packets

/-- The oldest closed packet of a session leaves; without the completion record, it ends nothing (R335). -/
theorem sendToken_sends {s : State} {i : Nat} {k : TokPkt} {rest : List TokPkt} (oldest : (s.session i).closedPkts = k :: rest)
    (more : k.final = false) : s.sendToken i
      = (s.sendPacket (s.session i).port (tokenPacket ((s.session i).tokenPayload i k))).modSession i
          fun x => { x with closedPkts := rest } := by
  unfold State.sendToken
  simp only [oldest, more]
  rfl

/-- A change of sessions leaves what a port holds. -/
theorem Queued.modSession {s : State} {p : Nat} {q : TxPacket} (queued : Queued s p q) (i : Nat) (f : Session → Session) :
    Queued (s.modSession i f) p q := queued

theorem sendToken_session {s : State} {i : Nat} {k : TokPkt} {rest : List TokPkt}
    (oldest : (s.session i).closedPkts = k :: rest) (more : k.final = false) (j : Nat) :
    (s.sendToken i).session j = if j = i then { s.session i with closedPkts := rest } else s.session j := by
  rw [sendToken_sends oldest more, modSession_session, sendPacket_session, sendPacket_session]

end Sys2Proof.Machine

/-! PROOFS. Admission and the times of a session (R294, R299, R334, R335). -/

namespace Sys2Proof.Machine

open Sys2Proof

theorem exec_promptTimeout {i : SessIdx} {s : State} (rest : Resting s) (opened : (s.session i).state = .opened)
    (short : (s.session i).promptReceived < (s.session i).promptTokens)
    (late : (s.session i).ledgerOpen.toNat + (s.session i).lat.promptMs.toNat * 16000000 ≤ s.now.toNat) :
    exec (.promptTimeout i) s = .next (s.closeSession i endTimeout) := by
  refine congrArg Host.Outcome.next ((if_pos ⟨opened, short, decide_eq_true late⟩).trans ?_)
  exact closeSession_ended rest ..

/-- A session whose queue time expires, with the refusal raised and marked (R294, R299). -/
def State.queueExpires (s : State) (i reason : Nat) : State := (s.raise0 admPage 1).refuseSession i reason

theorem queueExpires_session (s : State) (i reason j : Nat) : (s.queueExpires i reason).session j
    = if j = i then (s.session i).refusedFor reason else s.session j := by
  have kept (j : Nat) : (s.raise0 admPage 1).session j = s.session j := by rw [State.session, raise0_reports]; rfl
  rw [State.queueExpires, refuseSession_session, kept, kept]

theorem queueExpires_resting {s : State} (rest : Resting s) (i reason : Nat) : Resting (s.queueExpires i reason) :=
  refuseSession_resting ((raise_reported s admPage 1 []).resting rest) ..

theorem exec_queueTimeout {i : SessIdx} {s : State} (rest : Resting s) (opened : (s.session i).state = .opened)
    (queued : (s.session i).queued = true)
    (late : (s.session i).queuedAt.toNat + (s.session i).lat.queueMs.toNat * 16000000 ≤ s.now.toNat)
    (evaluated : (s.session i).refuseReason ≠ 0) : exec (.queueTimeout i) s
      = .next ((s.queueExpires i (s.session i).refuseReason).closeSession i endRefused) := by
  have reason : s.queueReason (s.session i) = (s, (s.session i).refuseReason) := if_neg evaluated
  have own := (queueExpires_session s i (s.session i).refuseReason i).trans (if_pos rfl)
  refine congrArg Host.Outcome.next ((if_pos ⟨opened, queued, decide_eq_true late⟩).trans ?_)
  rw [reason]
  exact closeRefused_closes (queueExpires_resting rest ..) (by rw [own]; exact opened) (by rw [own]; rfl)

/-- The ledger has passed the step timeout of a session (R294). -/
def State.stepLate (s : State) (x : Session) : Bool :=
  s.passed (if x.ledgerCommit = 0 then x.ledgerAdmit else x.ledgerCommit) (x.lat.stepUs.toNat * 16000)

theorem exec_stepTimeout {i : SessIdx} {s : State} (batch : (s.session i).state.inBatch = true)
    (late : s.stepLate (s.session i) = true) : exec (.stepTimeout i) s
      = .next (if (s.session i).state = .admitted then (s.closeSession i endTimeout).sessionEnded (s.session i).slot
          else s.modSession i fun x => { x with stepExpired := true }) := by
  refine congrArg Host.Outcome.next (if_neg ?_)
  rw [batch]
  exact fun h => h.elim nofun fun early => absurd (late.symm.trans early) nofun

theorem exec_tokenPacketClose {i : SessIdx} {s : State} {k : TokPkt} {tok : OutToken} {rest : List OutToken}
    (filling : (s.session i).openPkt = some k) (tokens : k.tokens = tok :: rest) (late : tok.stamp.toNat + 800000 ≤ s.now.toNat) :
    exec (.tokenPacketClose i) s = .next (s.modSession i Session.closePacket) := by
  change execTokenPacketClose i s = _
  unfold execTokenPacketClose
  simp only [filling, tokens, Option.bind_some, List.head?_cons, Option.map_some]
  exact congrArg Host.Outcome.next (if_pos (decide_eq_true late))

theorem closePacket_filling {x : Session} {k : TokPkt} (filling : x.openPkt = some k) :
    x.closePacket = { x with openPkt := none, closedPkts := x.closedPkts ++ [k] } := by
  simp only [Session.closePacket, filling]

theorem exec_tokenPacketSend {i : SessIdx} {s : State} {k : TokPkt} {rest : List TokPkt}
    (oldest : (s.session i).closedPkts = k :: rest) (more : k.final = false) (ready : s.tokenReady i = true)
    (open_ : (s.session i).state ≠ .closed) (used : (s.session i).state ≠ .free) :
    exec (.tokenPacketSend i) s = .next (s.sendToken i) := by
  have own := (sendToken_session oldest more i).trans (if_pos rfl)
  refine congrArg Host.Outcome.next ((if_pos ready).trans (if_neg ?_))
  rw [own]
  exact fun ended => ended.elim open_ used

/-- Settles O44: an evaluation refuses, queues or admits its session alone; in a state at rest each timeout closes its
session alone, and packets close and leave one at a time. -/
theorem sessionsAreAdmittedAndTimeOut : Obligations.SessionsAreAdmittedAndTimeOut := by
  unfold Obligations.SessionsAreAdmittedAndTimeOut
  refine ⟨fun s i => ?_, fun i s keeps editions quiet => ?_⟩
  · intro x e t
    refine ⟨fun r refusal => ?_, fun r passes queueing => ?_, fun passes fits => ?_, fun j ne => ?_⟩
    · have own : t.session i = x.refusedFor r := by
        change (s.evaluate i).session i = _
        rw [evaluate_refuses refusal, refuseSession_session, if_pos rfl]
      rw [own]
      exact ⟨rfl, rfl, rfl⟩
    · have own : t.session i = { x.queuedFrom s.now with refuseReason := r } := by
        change (s.evaluate i).session i = _
        rw [evaluate_queues passes queueing, modSession_session, if_pos rfl, enqueue_session, if_pos rfl]
      rw [own]
      exact ⟨queuedFrom_queued .., rfl, queuedFrom_state ..⟩
    · obtain ⟨now, ttft, step, session⟩ := admitSession_session s i e
      have admits : t = s.admitSession i e := evaluate_admits passes fits
      rw [admits, session, if_pos rfl]
      exact ⟨rfl, rfl, rfl, rfl, admitSession_adm ..⟩
    · exact evaluate_others s ne
  · have rest : Resting s := ⟨keeps, editions, quiet⟩
    intro x
    refine ⟨fun opened short late => ?_, fun opened queued late evaluated => ?_, fun late => ⟨fun admitted => ?_, fun inStep => ?_⟩,
      fun k tok more filling tokens late => ?_, fun k more oldest goesOn ready open_ used => ?_⟩
    · have closed := closeSession_session rest i endTimeout
      have own := (closed i).trans (if_pos rfl)
      exact ⟨_, exec_promptTimeout rest opened short late, congrArg Session.state own, congrArg Session.endReason own,
        closeSession_mem .., fun j ne => (closed j).trans (if_neg ne)⟩
    · have refused := queueExpires_session s i x.refuseReason
      have closed := closeSession_session (queueExpires_resting rest i x.refuseReason) i endRefused
      have own := (closed i).trans (if_pos rfl)
      refine ⟨_, exec_queueTimeout rest opened queued late evaluated, congrArg Session.state own, congrArg Session.endReason own,
        (congrArg Session.refuseReason own).trans ?_, congrArg Session.queued own, ?_, fun j ne => ?_⟩
      · rw [refused, if_pos rfl]
        rfl
      · rw [closeSession_mem, State.queueExpires, refuseSession_mem, raise0_mem]
      · rw [closed, if_neg ne, refused, if_neg ne]
    · have own := (closeSession_session rest i endTimeout i).trans (if_pos rfl)
      have batch : x.state.inBatch = true := by rw [admitted]; rfl
      refine ⟨s.closeSession i endTimeout, ?_, congrArg Session.state own, congrArg Session.endReason own, closeSession_mem ..⟩
      rw [exec_stepTimeout batch late, if_pos admitted, closeSession_ended rest]
    · have batch : x.state.inBatch = true := by rcases inStep with state | state <;> rw [state] <;> rfl
      have stepping : x.state ≠ .admitted := by rcases inStep with state | state <;> rw [state] <;> decide
      rw [exec_stepTimeout batch late, if_neg stepping]
    · have session (j : Nat) := modSession_session s i j Session.closePacket
      exact ⟨_, exec_tokenPacketClose filling tokens late, rfl,
        (session i).trans ((if_pos rfl).trans (closePacket_filling filling)), fun j ne => (session j).trans (if_neg ne)⟩
    · have session := sendToken_session oldest goesOn
      refine ⟨_, exec_tokenPacketSend oldest goesOn ready open_ used, ?_, (session i).trans (if_pos rfl), ?_,
        fun j ne => (session j).trans (if_neg ne)⟩
      · rw [sendToken_sends oldest goesOn]
        exact (sendPacket_onlyPorts ..).withSessions ..
      · rw [sendToken_sends oldest goesOn]
        exact (sendPacket_queued ..).modSession ..

end Sys2Proof.Machine

/-! PROOFS. The session commands (R288 to R293, R332): each passes its checks, changes its own session, and completes. -/

namespace Sys2Proof.Machine

open Sys2Proof

-- SESSION_OPEN

theorem genNext_ne_zero (g : BitVec 20) : genNext g ≠ 0 := by
  unfold genNext
  split
  · decide
  · assumption

/-- The slot and the tenant that a SESSION_OPEN names may open a session (R292). -/
structure MayOpen (s : State) (b : Bytes) : Prop where
  bound : (s.tenant (fldAt b 0 1)).state = .bound
  running : (s.slot (fldAt b 1 1)).state = .running
  tenant : (s.slot (fldAt b 1 1)).tenant = fldAt b 0 1
  head : (s.slot (fldAt b 1 1)).isHead = true
  deployment : (s.slot (fldAt b 1 1)).isDeployment = true
  noDraft : fldAt b 5 1 = 0xFF
  twins : s.gen.archivalOnly = false ∧ fldAt b 3 1 % 2 = 0 ∨ ∃ f, (s.slot (fldAt b 1 1)).folio = some f ∧ f.archival = true

/-- The answer to a SESSION_OPEN (R414). -/
def Session.openResult (i : Nat) (y : Session) : Bytes :=
  leBytes 4 (sessHandle i y) ++ [BitVec.ofNat 8 (y.archival.toNat + 2 * y.speculative.toNat), 0, 0, 0]
    ++ leBytes 8 y.ledgerOpen.toNat

/-- The answer begins with the session's handle (R288, R414). -/
theorem openResult_handle (i : Nat) (y : Session) : leAt (y.openResult i) 0 4 = sessHandle i y % 2 ^ 32 :=
  leNat_leBytes 4 (sessHandle i y)

/-- SESSION_OPEN that passes its checks (R292). -/
theorem sessionOpenOp_opens {p : Nat} {b : Bytes} {s : State} {i first : Nat} (formed : sessionOpenBad b = false)
    (fits : sessionOpenOver b (s.slot (fldAt b 1 1)).serving = false) (may : MayOpen s b) (service : s.gen.service = true)
    (descriptor : s.freeDescriptor = some i) (units : s.promptUnits (fldAt b 1 1) ((fldAt b 8 4 + 1023) / 1024) = some first)
    (share : (s.tenant (fldAt b 0 1)).share ≠ 0)
    (quota : s.descriptorUse (fldAt b 0 1) < (s.tenant (fldAt b 0 1)).sessions.toNat) (cool : s.power.shedNow = false) :
    sessionOpenOp p b s
      = (s.openSession i p first ((fldAt b 8 4 + 1023) / 1024) b, .done (Reply.ok
          (((s.openSession i p first ((fldAt b 8 4 + 1023) / 1024) b).session i).openResult i))) := by
  unfold sessionOpenOp
  dsimp only
  rw [formed, fits, Bool.and_false, Bool.or_false, if_neg Bool.false_ne_true]
  refine (if_neg fun refused => ?_).trans ?_
  · rcases refused with unbound | empty | other | part | plain | ⟨archival, untwinned⟩ | ⟨draft, -⟩
    · exact absurd may.bound unbound
    · exact absurd (may.running.symm.trans empty) nofun
    · exact absurd may.tenant other
    · exact absurd (may.head.symm.trans part) nofun
    · exact absurd (may.deployment.symm.trans plain) nofun
    · rcases may.twins with ⟨any, exact_⟩ | ⟨f, folio, twin⟩
      · simp [any, exact_] at archival
      · simp [folio, twin] at untwinned
    · exact absurd may.noDraft draft
  · rw [service, if_neg (by decide), if_neg (not_not_intro may.running), descriptor]
    dsimp only
    rw [units]
    dsimp only
    rw [if_neg share, if_neg (Nat.not_le.mpr quota), cool, Bool.false_and, if_neg Bool.false_ne_true]
    rfl

-- PROMPT_APPEND

/-- A PROMPT_APPEND's payload is well formed for a vocabulary (R293, R415). -/
structure AppendFormed (b : Bytes) (vocab : Nat) : Prop where
  size : b.length = 16 + 4 * fldAt b 8 4
  some_ : 0 < fldAt b 8 4
  few : fldAt b 8 4 ≤ 16380
  clear : zeroAt b 5 3 = true ∧ zeroAt b 12 4 = true
  tokens : ∀ k, k < fldAt b 8 4 → zeroAt b (19 + 4 * k) 1 = true ∧ fldAt b (16 + 4 * k) 3 < vocab

theorem appendFormed_good {b : Bytes} {vocab : Nat} (formed : AppendFormed b vocab) :
    (decide (b.length ≠ 16 + 4 * fldAt b 8 4) || decide (fldAt b 8 4 = 0) || decide (16380 < fldAt b 8 4) || !zeroAt b 5 3
      || !zeroAt b 12 4 || (List.range (fldAt b 8 4)).any fun k => !zeroAt b (19 + 4 * k) 1) = false := by
  have flags : ((List.range (fldAt b 8 4)).any fun k => !zeroAt b (19 + 4 * k) 1) = false := by
    rw [List.any_eq_false]
    intro k mem
    simp [(formed.tokens k (List.mem_range.mp mem)).1]
  have size := formed.size
  have positive := formed.some_
  have few := formed.few
  obtain ⟨head, tail⟩ := formed.clear
  rw [flags, head, tail]
  simp only [Bool.or_eq_false_iff, decide_eq_false_iff_not]
  refine ⟨⟨⟨⟨⟨?_, ?_⟩, ?_⟩, rfl⟩, rfl⟩, trivial⟩ <;> omega

theorem tokensOver_formed {s : State} {b : Bytes} {slot : Nat} (formed : AppendFormed b (s.slot slot).serving.vocab) :
    s.tokensOver slot b (fldAt b 8 4) = false := by
  have known : ((List.range (fldAt b 8 4)).any fun k => decide ((s.slot slot).serving.vocab ≤ fldAt b (16 + 4 * k) 3)) = false := by
    rw [List.any_eq_false]
    intro k mem
    have below := (formed.tokens k (List.mem_range.mp mem)).2
    simp only [decide_eq_true_eq]
    omega
  rw [State.tokensOver, known, Bool.and_false]

/-- The module with tokens of a prompt stored and counted (R287, R293). -/
def State.appended (s : State) (i a n : Nat) (bs : Bytes) : State :=
  ({ s with mem := s.mem.write a bs }).modSession i fun x => { x with promptReceived := x.promptReceived + n }

theorem appended_session (s : State) (i a n j : Nat) (bs : Bytes) : (s.appended i a n bs).session j
    = if j = i then { s.session i with promptReceived := (s.session i).promptReceived + n } else s.session j :=
  modSession_session ..

/-- PROMPT_APPEND that passes its checks, short of the prompt's end, where memory has no code errors (R293). -/
theorem promptAppendOp_appends {p : Nat} {b : Bytes} {s : State} {a : Nat}
    (formed : AppendFormed b (s.slot (s.session (handleIndex b)).slot).serving.vocab) (service : s.gen.service = true)
    (handle : s.handleFault p b = none) (opened : (s.session (handleIndex b)).state = .opened)
    (short : (s.session (handleIndex b)).promptReceived + fldAt b 8 4 < (s.session (handleIndex b)).promptTokens)
    (address : s.promptAddr (s.session (handleIndex b)) (s.session (handleIndex b)).promptReceived = some a)
    (shelf : isShelf a = true) (clean : s.upsets = []) (admissible : (s.session (handleIndex b)).endReason ≠ endRefused) :
    promptAppendOp p b s = (s.appended (handleIndex b) a (fldAt b 8 4) (b.drop 16),
      .done (Reply.ok ((s.appended (handleIndex b) a (fldAt b 8 4) (b.drop 16)).session (handleIndex b)).appendResult)) := by
  have own := (appended_session s (handleIndex b) a (fldAt b 8 4) (handleIndex b) (b.drop 16)).trans (if_pos rfl)
  have within : (s.tokensOver (s.session (handleIndex b)).slot b (fldAt b 8 4)
      || (decide ((s.session (handleIndex b)).promptReceived ≠ (s.session (handleIndex b)).promptTokens)
        && decide ((s.session (handleIndex b)).promptTokens < (s.session (handleIndex b)).promptReceived + fldAt b 8 4)))
      = false := by
    rw [tokensOver_formed formed, decide_eq_false (p := _ < _) (by omega), Bool.and_false, Bool.or_false]
  have goes : ¬ ((s.session (handleIndex b)).state ≠ .opened
      ∨ (s.session (handleIndex b)).promptReceived = (s.session (handleIndex b)).promptTokens) := by
    rw [opened]
    exact fun h => h.elim (· rfl) (by omega)
  have stored := writeSpan_clean s .net a (b.drop 16) clean (.inl shelf)
  unfold promptAppendOp
  dsimp only
  rw [appendFormed_good formed, if_neg Bool.false_ne_true, service, if_neg (by decide), handle]
  dsimp only
  rw [within, if_neg Bool.false_ne_true, if_neg goes, address]
  dsimp only
  simp only [stored]
  rw [if_neg (by omega)]
  exact congrArg (fun r => (s.appended (handleIndex b) a (fldAt b 8 4) (b.drop 16), Answer.done r))
    (if_neg fun refused => admissible ((congrArg Session.endReason own).symm.trans refused))

/-- No session is refused and still to be closed. -/
def State.NoneRefused (s : State) : Prop := ∀ e ∈ s.sessions, e.2.endReason ≠ endRefused

theorem settleRefused_none {s : State} (none : s.NoneRefused) : s.settleRefused = s := by
  have empty : (s.sessions.filter fun e => decide (e.2.state = .opened) && decide (e.2.endReason = endRefused)) = [] := by
    rw [List.filter_eq_nil_iff]
    intro e mem
    simp [none e mem]
  rw [State.settleRefused, empty]
  rfl

theorem State.NoneRefused.session {s : State} (none : s.NoneRefused) (i : Nat) : (s.session i).endReason ≠ endRefused := by
  by_cases reset : s.session i = Session.reset
  · rw [reset]; decide
  · exact none _ (Tbl.mem_of_get reset)

theorem appended_noneRefused {s : State} (none : s.NoneRefused) (i a n : Nat) (bs : Bytes) : (s.appended i a n bs).NoneRefused := by
  intro e mem
  rcases Tbl.mem_put mem with rfl | old
  · exact none.session i
  · exact none e old

-- SESSION_CANCEL

/-- What SESSION_CANCEL makes of the module (R290, R291, R332). -/
def State.cancels (s : State) (i : Nat) : State :=
  let t := s.modSession i fun x => { x with cancelSeen := true }
  if (s.session i).state = .opened ∨ (s.session i).state = .admitted then
    (t.closeSession i endCancelled).sessionEnded (s.session i).slot
  else if (s.session i).state = .prefill ∨ (s.session i).state = .decode then
    t.modSession i fun x => { x with cancelPending := true }
  else t

theorem sessionCancelOp_cancels {p : Nat} {b : Bytes} {s : State} (size : b.length = 5) (service : s.gen.service = true)
    (handle : s.handleFault p b = none) : sessionCancelOp p b s = (s.cancels (handleIndex b),
      .done (Reply.ok [BitVec.ofNat 8 ((s.cancels (handleIndex b)).session (handleIndex b)).state.code])) := by
  unfold sessionCancelOp
  dsimp only
  rw [if_neg (not_not_intro size), service, if_neg (by decide), handle]
  rfl

/-- A session that SESSION_CANCEL has named (R290, R332). -/
def Session.cancelled (x : Session) (now : W64) : Session :=
  if x.state = .opened ∨ x.state = .admitted then { x with cancelSeen := true }.closedWith endCancelled now
  else if x.state = .prefill ∨ x.state = .decode then { x with cancelSeen := true, cancelPending := true }
  else { x with cancelSeen := true }

theorem cancelled_seen (x : Session) (now : W64) : (x.cancelled now).cancelSeen = true := by
  unfold Session.cancelled
  split
  · rfl
  · split <;> rfl

theorem cancelled_inStep {x : Session} (inStep : x.state = .prefill ∨ x.state = .decode) (now : W64) :
    x.cancelled now = { x with cancelSeen := true, cancelPending := true } := by
  have later : ¬ (x.state = .opened ∨ x.state = .admitted) := by rcases inStep with state | state <;> simp [state]
  exact (if_neg later).trans (if_pos inStep)

theorem SessionsEnd.mem {s t : State} (h : SessionsEnd s t) : t.mem = s.mem := by rw [h.frame]

theorem cancels_end {s : State} (rest : Resting s) (i : Nat) : SessionsEnd s (s.cancels i) := by
  have seen := modSession_end s i fun x => { x with cancelSeen := true }
  unfold State.cancels
  dsimp only
  split
  · rw [closeSession_ended (seen.resting rest)]
    exact seen.trans (closeSession_end ..)
  · split
    · exact seen.trans (modSession_end ..)
    · exact seen

theorem cancels_session {s : State} (rest : Resting s) (i j : Nat) :
    (s.cancels i).session j = if j = i then (s.session i).cancelled s.now else s.session j := by
  have seen := modSession_session s i
  have after := (modSession_end s i fun x => { x with cancelSeen := true }).resting rest
  unfold State.cancels Session.cancelled
  dsimp only
  split
  · rw [closeSession_ended after, closeSession_session after, seen, seen, if_pos rfl]
    split <;> rfl
  · split
    · rw [modSession_session, seen, seen, if_pos rfl]
      split <;> rfl
    · exact seen ..

-- SESSION_CLOSE

/-- SESSION_CLOSE of a CLOSED session (R291). -/
theorem sessionCloseOp_frees {p : Nat} {b : Bytes} {s : State} (size : b.length = 5) (service : s.gen.service = true)
    (handle : s.handleFault p b = none) (closed : (s.session (handleIndex b)).state = .closed) :
    sessionCloseOp p b s = (s.modSession (handleIndex b) Session.freed, .done (Reply.ok [])) := by
  unfold sessionCloseOp
  dsimp only
  rw [if_neg (not_not_intro size), service, if_neg (by decide), handle]
  exact if_neg (not_not_intro closed)

/-- Settles O43: each command passes its checks as it would before it is taken, changes its session alone, and completes. -/
theorem sessionCommandsMoveTheirSession : Obligations.SessionCommandsMoveTheirSession := by
  unfold Obligations.SessionCommandsMoveTheirSession
  intro p tag b s accepts service keeps editions quiet
  refine ⟨?_, ?_, ?_, ?_⟩
  · intro i first id slot x formed fits bound running tenant head deployment noDraft twins descriptor units share quota cool
    have opens := sessionOpenOp_opens (p := p) (s := s.begun p tag 0x20) formed fits
      ⟨bound, running, tenant, head, deployment, noDraft, twins⟩ service descriptor units share quota cool
    obtain ⟨l, run, completed⟩ := runCommand_done accepts opens ⟨fun _ => rfl⟩
    have session (j : Nat) : ((s.begun p tag 0x20).openSession i p first ((fldAt b 8 4 + 1023) / 1024) b).session j = _ :=
      modSession_session ..
    have own := (session i).trans (if_pos rfl)
    refine ⟨_, _, congrArg Host.Outcome.next run, rfl, congrArg Session.state own, congrArg Session.gen own, ?_,
      congrArg Session.tenant own, congrArg Session.slot own, congrArg Session.port own, congrArg Session.promptTokens own,
      congrArg Session.maxNew own, congrArg Session.pstore own, congrArg Session.ledgerOpen own,
      fun j ne => (session j).trans (if_neg ne), rfl, openResult_handle .., completed⟩
    exact fun zero => genNext_ne_zero _ ((congrArg Session.gen own).symm.trans zero)
  · intro a i x n size some_ few clear tail tokens handle opened short address shelf clean none
    have noneRefused : s.NoneRefused := none
    have appends := promptAppendOp_appends (p := p) (s := s.begun p tag 0x21) ⟨size, some_, few, ⟨clear, tail⟩, tokens⟩ service
      handle opened short address shelf clean (noneRefused.session i)
    obtain ⟨l, run, completed⟩ := runCommand_done accepts appends ⟨fun _ => rfl⟩
    have session (j : Nat) := appended_session (s.begun p tag 0x21) i a n j (b.drop 16)
    have settled : State.settleRefused { (s.begun p tag 0x21).appended i a n (b.drop 16) with ports := l }
        = { (s.begun p tag 0x21).appended i a n (b.drop 16) with ports := l } :=
      settleRefused_none (appended_noneRefused (s := s.begun p tag 0x21) noneRefused i a n (b.drop 16))
    refine ⟨_, congrArg Host.Outcome.next ((congrArg State.settleRefused run).trans settled), rfl, (session i).trans (if_pos rfl),
      fun j ne => (session j).trans (if_neg ne), completed⟩
  · intro i size handle
    have rest := begun_resting ⟨keeps, editions, quiet⟩ p tag 0x22
    have cancels := sessionCancelOp_cancels (p := p) (s := s.begun p tag 0x22) size service handle
    obtain ⟨l, run, completed⟩ := runCommand_done accepts cancels (cancels_end rest _).cmds
    have session (j : Nat) := cancels_session rest i j
    have own := (session i).trans (if_pos rfl)
    refine ⟨_, congrArg Host.Outcome.next run, ?_, (cancels_end rest i).mem, fun open_ => ?_, fun inStep => ?_,
      fun j ne => (session j).trans (if_neg ne), completed⟩
    · exact (congrArg Session.cancelSeen own).trans (cancelled_seen ..)
    · have closed := own.trans (if_pos open_)
      exact ⟨congrArg Session.state closed, congrArg Session.endReason closed⟩
    · exact own.trans (cancelled_inStep inStep ..)
  · intro i size handle closed
    have closes := sessionCloseOp_frees (p := p) (s := s.begun p tag 0x23) size service handle closed
    obtain ⟨l, run, completed⟩ := runCommand_done accepts closes ⟨fun _ => rfl⟩
    have session (j : Nat) := modSession_session (s.begun p tag 0x23) i j Session.freed
    exact ⟨_, congrArg Host.Outcome.next run, rfl, (session i).trans (if_pos rfl), fun j ne => (session j).trans (if_neg ne),
      completed⟩

end Sys2Proof.Machine

/-! PROOFS. TENANT_BIND (R280 to R284): a grant changes partitions, cores, windows and tenants alone; a partition that was free
and unowned takes its kind and its holder at once; what waits for a clearing completes when nothing more is cleared. -/

namespace Sys2Proof.Machine

open Sys2Proof

-- partitions as they are listed

/-- A condition on the place and the contents of every partition that the module lists. -/
def State.EveryPart (s : State) (Q : Nat → Nat → Part → Prop) : Prop := ∀ c ∈ s.clusters, ∀ e ∈ c.2.parts, Q c.1 e.1 e.2

section EveryPart

variable {s : State} {Q : Nat → Nat → Part → Prop} (h : s.EveryPart Q)
include h

theorem State.EveryPart.cluster (k : Nat) : ∀ e ∈ (s.cluster k).parts, Q k e.1 e.2 := by
  intro e mem
  by_cases reset : s.cluster k = Cluster.reset
  · rw [reset] at mem
    cases mem
  · exact h _ (Tbl.mem_of_get reset) e mem

theorem State.EveryPart.part {k p : Nat} (reset : Q k p Part.reset) : Q k p (s.part k p) := by
  by_cases none : s.part k p = Part.reset
  · rw [none]
    exact reset
  · exact h.cluster k _ (Tbl.mem_of_get none)

theorem State.EveryPart.modCluster (k : Nat) {f : Cluster → Cluster} (parts : ∀ e ∈ (f (s.cluster k)).parts, Q k e.1 e.2) :
    (s.modCluster k f).EveryPart Q := by
  intro c mem e part
  rcases Tbl.mem_put mem with rfl | old
  · exact parts e part
  · exact h c old e part

theorem State.EveryPart.modPart {k p : Nat} {f : Part → Part} (new : Q k p (f (s.part k p))) : (s.modPart k p f).EveryPart Q :=
  h.modCluster k fun e mem => by
    rcases Tbl.mem_put mem with rfl | old
    · exact new
    · exact h.cluster k e old

end EveryPart

-- what a grant moves

/-- `t` is `s` but for partitions, cores and windows. -/
def OnlyHoldings (s t : State) : Prop := t = { s with cores := t.cores, clusters := t.clusters, windows := t.windows }

theorem OnlyHoldings.refl (s : State) : OnlyHoldings s s := rfl

theorem OnlyHoldings.trans {s t u : State} (h : OnlyHoldings s t) (k : OnlyHoldings t u) : OnlyHoldings s u := by
  unfold OnlyHoldings at *
  rw [k, h]

theorem foldl_holdings {α : Type} {f : State → α → State} (h : ∀ s a, OnlyHoldings s (f s a)) (l : List α) (s : State) :
    OnlyHoldings s (l.foldl f s) :=
  List.foldlRecOn (motive := OnlyHoldings s) l f (.refl s) fun t ht a _ => ht.trans (h t a)

theorem ite_holdings {s t u : State} {c : Prop} [Decidable c] (h : OnlyHoldings s t) (k : OnlyHoldings s u) :
    OnlyHoldings s (if c then t else u) := by split <;> assumption

theorem OnlyHoldings.tenant {s t : State} (h : OnlyHoldings s t) (u : Nat) : t.tenant u = s.tenant u := by
  rw [h]
  rfl

theorem OnlyHoldings.ports {s t : State} (h : OnlyHoldings s t) : t.ports = s.ports := by rw [h]

theorem beginCloses_windows (s : State) (sel : Window → Bool) :
    s.beginCloses sel = { s with windows := (s.beginCloses sel).windows } :=
  List.foldlRecOn (motive := fun t : State => t = { s with windows := t.windows }) _ _ rfl fun t ht e _ => by
    rw [ht]
    rfl

theorem beginCloses_holdings (s : State) (sel : Window → Bool) : OnlyHoldings s (s.beginCloses sel) := by
  unfold OnlyHoldings
  rw [beginCloses_windows]

theorem modPart_holdings (s : State) (k p : Nat) (f : Part → Part) : OnlyHoldings s (s.modPart k p f) := rfl

theorem markClear_holdings (s : State) (k p : Nat) (next : PartKind) (owner : Option (BitVec 8)) (waitFor : Option Nat) :
    OnlyHoldings s (s.markClear k p next owner waitFor) := (modPart_holdings ..).trans (beginCloses_holdings ..)

theorem modCore_holdings (s : State) (c : Nat) (f : Core → Core) : OnlyHoldings s (s.modCore c f) := rfl

theorem unloadRings_holdings (s : State) (c : Nat) : OnlyHoldings s (s.unloadRings c) := rfl

theorem startCarrelClear_holdings (s : State) (c : Nat) (next : Option (BitVec 8)) (waitFor : Option Nat) :
    OnlyHoldings s (s.startCarrelClear c next waitFor) := by
  unfold State.startCarrelClear State.clearCore
  exact ((modCore_holdings ..).trans (unloadRings_holdings ..)).trans ((modCore_holdings ..).trans (modCore_holdings ..))

theorem startDue_holdings (s : State) : OnlyHoldings s s.startDue :=
  foldl_holdings (fun _ _ => ite_holdings (.refl _) (modPart_holdings ..)) ..

theorem bindCluster_holdings (s : State) (t : Nat) (mask : BitVec 32) (k : Nat) : OnlyHoldings s (s.bindCluster t mask k) := by
  unfold State.bindCluster
  refine ite_holdings (foldl_holdings (fun s c => startCarrelClear_holdings ..) _ s)
    (ite_holdings (foldl_holdings (fun s c => ?_) _ s) (.refl s))
  exact (modCore_holdings ..).trans (modCore_holdings ..)

-- one partition

/-- No clearing of the partition is due, wherever it is listed. -/
def State.NotDue (s : State) (k p : Nat) : Prop := s.EveryPart fun i j x => x.due = true → ¬ (k = i ∧ p = j)

/-- A step that leaves a partition as it is and makes no clearing of it due. -/
structure Spares (k p : Nat) (s t : State) : Prop where
  part : t.part k p = s.part k p
  notDue : s.NotDue k p → t.NotDue k p

theorem Spares.refl (k p : Nat) (s : State) : Spares k p s s := ⟨rfl, id⟩

theorem Spares.trans {k p : Nat} {s t u : State} (h : Spares k p s t) (l : Spares k p t u) : Spares k p s u :=
  ⟨l.part.trans h.part, l.notDue ∘ h.notDue⟩

theorem ite_spares {k p : Nat} {s t u : State} {c : Prop} [Decidable c] (h : Spares k p s t) (l : Spares k p s u) :
    Spares k p s (if c then t else u) := by split <;> assumption

theorem foldl_spares {α : Type} {k p : Nat} {f : State → α → State} (h : ∀ s a, Spares k p s (f s a)) (l : List α) (s : State) :
    Spares k p s (l.foldl f s) :=
  List.foldlRecOn (motive := Spares k p s) l f (.refl k p s) fun t ht a _ => ht.trans (h t a)

theorem spares_of_clusters {k p : Nat} {s t : State} (same : t.clusters = s.clusters) : Spares k p s t :=
  ⟨by rw [State.part, State.cluster, same]; rfl, fun h => by rw [State.NotDue, State.EveryPart, same]; exact h⟩

theorem modCluster_spares {k p i : Nat} (s : State) {f : Cluster → Cluster} (parts : ∀ x, (f x).parts = x.parts) :
    Spares k p s (s.modCluster i f) := by
  refine ⟨?_, fun h => h.modCluster i fun e mem => ?_⟩
  · rw [State.part, modCluster_cluster]
    split
    · next same => rw [parts, ← same]; rfl
    · rfl
  · rw [parts] at mem
    exact h.cluster i e mem

theorem modPart_spares {k p i j : Nat} (s : State) {f : Part → Part} (ne : ¬ (k = i ∧ p = j)) : Spares k p s (s.modPart i j f) :=
  ⟨(modPart_part ..).trans (if_neg ne), fun h => h.modPart fun _ => ne⟩

theorem beginCloses_spares {k p : Nat} (s : State) (sel : Window → Bool) : Spares k p s (s.beginCloses sel) :=
  spares_of_clusters (by rw [beginCloses_windows])

theorem markClear_spares {k p i j : Nat} (s : State) (next : PartKind) (owner : Option (BitVec 8)) (waitFor : Option Nat)
    (ne : ¬ (k = i ∧ p = j)) : Spares k p s (s.markClear i j next owner waitFor) := by
  unfold State.markClear
  exact (modPart_spares s ne).trans (beginCloses_spares ..)

theorem modCore_spares {k p : Nat} (s : State) (c : Nat) (f : Core → Core) : Spares k p s (s.modCore c f) :=
  spares_of_clusters rfl

theorem unloadRings_spares {k p : Nat} (s : State) (c : Nat) : Spares k p s (s.unloadRings c) := by
  unfold State.unloadRings
  exact modCluster_spares s fun _ => rfl

theorem startCarrelClear_spares {k p : Nat} (s : State) (c : Nat) (next : Option (BitVec 8)) (waitFor : Option Nat) :
    Spares k p s (s.startCarrelClear c next waitFor) := by
  unfold State.startCarrelClear State.clearCore
  exact ((modCore_spares ..).trans (unloadRings_spares ..)).trans ((modCore_spares ..).trans (modCore_spares ..))

theorem bindCluster_spares {k p : Nat} (s : State) (t : Nat) (mask : BitVec 32) (i : Nat) :
    Spares k p s (s.bindCluster t mask i) := by
  unfold State.bindCluster
  refine ite_spares (foldl_spares (fun s c => startCarrelClear_spares ..) _ s)
    (ite_spares (foldl_spares (fun s c => ?_) _ s) (.refl ..))
  exact (modCore_spares ..).trans (modCore_spares ..)

/-- The injection of a cluster's shelf is disarmed where it aims at a partition (R189). -/
def State.disarm (s : State) (k p : Nat) : State :=
  if (s.cluster k).inject.part.toNat = p then s.modCluster k fun c => { c with inject := { c.inject with arm := false } } else s

theorem disarm_holdings (s : State) (k p : Nat) : OnlyHoldings s (s.disarm k p) := ite_holdings rfl (.refl s)

theorem disarm_spares {k p : Nat} (s : State) (i j : Nat) : Spares k p s (s.disarm i j) := by
  unfold State.disarm
  split
  · exact modCluster_spares s fun _ => rfl
  · exact .refl ..

/-- The first entry of a grant that names a partition (R413). -/
def namedPart (named : List (Nat × Nat × PartKind)) (k p : Nat) : Option (Nat × Nat × PartKind) :=
  named.find? fun e => e.1 = k && e.2.1 = p

/-- What a grant does to a partition that it names (R182, R189, R280). -/
theorem bindPart_named {named : List (Nat × Nat × PartKind)} {k p : Nat} {e : Nat × Nat × PartKind}
    (entry : namedPart named k p = some e) (s : State) (t : Nat) : s.bindPart t named k p
      = if (s.part k p).owner.isNone ∧ (s.part k p).kind = .free ∧ (s.part k p).due = false then
          (s.modPart k p fun x => { x with kind := e.2.2, owner := tenantId t, hash := none }).disarm k p
        else if (s.part k p).owner = tenantId t ∧ (s.part k p).kind = e.2.2 then s
        else s.markClear k p e.2.2 (tenantId t) (some t) := by
  unfold namedPart at entry
  unfold State.bindPart
  dsimp only
  rw [entry]
  rfl

/-- A partition that a grant does not name is lost where it was the tenant's (R280). -/
theorem bindPart_unnamed {named : List (Nat × Nat × PartKind)} {k p : Nat} (entry : namedPart named k p = none) (s : State)
    (t : Nat) : s.bindPart t named k p
      = if (s.part k p).heir = tenantId t then s.markClear k p .free none (some t) else s := by
  unfold namedPart at entry
  unfold State.bindPart
  dsimp only
  rw [entry]

theorem bindPart_holdings (s : State) (t : Nat) (named : List (Nat × Nat × PartKind)) (k p : Nat) :
    OnlyHoldings s (s.bindPart t named k p) := by
  cases entry : namedPart named k p with
  | some e =>
    rw [bindPart_named entry]
    exact ite_holdings ((modPart_holdings ..).trans (disarm_holdings ..)) (ite_holdings (.refl s) (markClear_holdings ..))
  | none =>
    rw [bindPart_unnamed entry]
    exact ite_holdings (markClear_holdings ..) (.refl s)

theorem bindPart_spares {k p i j : Nat} (s : State) (t : Nat) (named : List (Nat × Nat × PartKind)) (ne : ¬ (k = i ∧ p = j)) :
    Spares k p s (s.bindPart t named i j) := by
  cases entry : namedPart named i j with
  | some e =>
    rw [bindPart_named entry]
    exact ite_spares ((modPart_spares s ne).trans (disarm_spares ..)) (ite_spares (.refl ..) (markClear_spares s _ _ _ ne))
  | none =>
    rw [bindPart_unnamed entry]
    exact ite_spares (markClear_spares s _ _ _ ne) (.refl ..)

/-- The clearings that are due (R213). -/
def State.dueParts (s : State) : List (Nat × Nat) :=
  s.clusters.flatMap fun c => (c.2.parts.filter fun e => e.2.due).map fun e => (c.1, e.1)

/-- One due clearing starts, unless a window over its partition is still open (R213). -/
def State.startOne (s : State) (t : Nat × Nat) : State :=
  if s.windows.any fun w => w.2.live && w.2.over t.1 t.2 then s
  else s.modPart t.1 t.2 fun x => { x with kind := .clearing, owner := x.nextOwner, due := false, hash := none, clearRow := [] }

theorem startDue_eq (s : State) : s.startDue = s.dueParts.foldl State.startOne s := rfl

theorem dueParts_ne {s : State} {k p : Nat} (notDue : s.NotDue k p) {t : Nat × Nat} (mem : t ∈ s.dueParts) :
    ¬ (k = t.1 ∧ p = t.2) := by
  obtain ⟨c, hc, mem⟩ := List.mem_flatMap.mp mem
  obtain ⟨e, he, rfl⟩ := List.mem_map.mp mem
  obtain ⟨he, due⟩ := List.mem_filter.mp he
  exact notDue c hc e he due

/-- The start of what is due spares a partition whose clearing is not due. -/
theorem startDue_spares {s : State} {k p : Nat} (notDue : s.NotDue k p) : Spares k p s s.startDue := by
  rw [startDue_eq]
  exact List.foldlRecOn (motive := Spares k p s) _ _ (.refl ..) fun t ht e mem =>
    ht.trans (ite_spares (.refl ..) (modPart_spares t (dueParts_ne notDue mem)))

theorem startDue_cores (s : State) : s.startDue.cores = s.cores := by
  rw [startDue_eq]
  refine List.foldlRecOn (motive := fun t : State => t.cores = s.cores) _ _ rfl fun t ht e _ => ?_
  unfold State.startOne
  split
  · exact ht
  · exact ht

/-- Nothing is cleared for a tenant: no partition and no carrel waits for it. -/
theorem tenantClear_iff (s : State) (t : Nat) : s.tenantClear t = true
    ↔ (s.EveryPart fun _ _ x => x.waitFor ≠ some t) ∧ ∀ c ∈ s.cores, c.2.car.waitFor ≠ some t := by
  simp [State.tenantClear, State.EveryPart]

/-- A clearing that starts is of a partition that waits already. -/
theorem startDue_tenantClear {s : State} {t : Nat} (clear : s.tenantClear t = true) : s.startDue.tenantClear t = true := by
  obtain ⟨parts, carrels⟩ := (tenantClear_iff s t).mp clear
  refine (tenantClear_iff s.startDue t).mpr ⟨?_, by rw [startDue_cores]; exact carrels⟩
  rw [startDue_eq]
  refine List.foldlRecOn (motive := fun u : State => u.EveryPart fun _ _ x => x.waitFor ≠ some t) _ _ parts fun u hu e _ => ?_
  unfold State.startOne
  split
  · exact hu
  · exact hu.modPart (hu.part (k := e.1) (p := e.2) nofun)

-- a partition that the grant names

/-- The partition is of a kind and a tenant's, and no clearing of it is due (R189, R280). -/
structure Granted (k p : Nat) (kind : PartKind) (t : Nat) (s : State) : Prop where
  kind : (s.part k p).kind = kind
  owner : (s.part k p).owner = tenantId t
  notDue : s.NotDue k p

theorem Spares.granted {k p t : Nat} {kind : PartKind} {s u : State} (h : Spares k p s u) (granted : Granted k p kind t s) :
    Granted k p kind t u :=
  ⟨by rw [h.part]; exact granted.kind, by rw [h.part]; exact granted.owner, h.notDue granted.notDue⟩

/-- The partition is nobody's, free, and no clearing of it is due. -/
structure Unowned (k p : Nat) (s : State) : Prop where
  kind : (s.part k p).kind = .free
  owner : (s.part k p).owner = none
  due : (s.part k p).due = false
  notDue : s.NotDue k p

theorem Spares.unowned {k p : Nat} {s u : State} (h : Spares k p s u) (unowned : Unowned k p s) : Unowned k p u :=
  ⟨by rw [h.part]; exact unowned.kind, by rw [h.part]; exact unowned.owner, by rw [h.part]; exact unowned.due,
    h.notDue unowned.notDue⟩

theorem bindPart_grants {s : State} {k p t : Nat} {named : List (Nat × Nat × PartKind)} {e : Nat × Nat × PartKind}
    (unowned : Unowned k p s) (entry : namedPart named k p = some e) : Granted k p e.2.2 t (s.bindPart t named k p) := by
  obtain ⟨kind, owner, due, notDue⟩ := unowned
  have own := (modPart_part s k p k p fun x => { x with kind := e.2.2, owner := tenantId t, hash := none }).trans
    (if_pos ⟨rfl, rfl⟩)
  have takes : Granted k p e.2.2 t (s.modPart k p fun x => { x with kind := e.2.2, owner := tenantId t, hash := none }) :=
    ⟨by rw [own], by rw [own], notDue.modPart fun isDue => absurd (due.symm.trans isDue) nofun⟩
  rw [bindPart_named entry, if_pos ⟨by rw [owner]; rfl, kind, due⟩]
  exact (disarm_spares ..).granted takes

theorem bindPart_keeps {s : State} {k p t : Nat} {named : List (Nat × Nat × PartKind)} {e : Nat × Nat × PartKind}
    (granted : Granted k p e.2.2 t s) (entry : namedPart named k p = some e) : s.bindPart t named k p = s := by
  rw [bindPart_named entry, granted.owner, if_neg fun h => absurd h.1 nofun, if_pos ⟨rfl, granted.kind⟩]

/-- The grant of partitions in the order of their numbers (R280). -/
def State.bindPartsIn (s : State) (t : Nat) (named : List (Nat × Nat × PartKind)) (l : List Nat) : State :=
  l.foldl (fun (s : State) i => s.bindPart t named (i / 8) (i % 8)) s

theorem bindPartsIn_keeps {k p t : Nat} {named : List (Nat × Nat × PartKind)} {e : Nat × Nat × PartKind}
    (entry : namedPart named k p = some e) (l : List Nat) {s : State} (granted : Granted k p e.2.2 t s) :
    Granted k p e.2.2 t (s.bindPartsIn t named l) := by
  refine List.foldlRecOn (motive := Granted k p e.2.2 t) l _ granted fun u hu i _ => ?_
  by_cases own : k = i / 8 ∧ p = i % 8
  · obtain ⟨rfl, rfl⟩ := own
    rw [bindPart_keeps hu entry]
    exact hu
  · exact (bindPart_spares u t named own).granted hu

theorem bindPartsIn_grants {k p t : Nat} {named : List (Nat × Nat × PartKind)} {e : Nat × Nat × PartKind}
    (entry : namedPart named k p = some e) {l : List Nat} {s : State} (unowned : Unowned k p s)
    (listed : ∃ i ∈ l, k = i / 8 ∧ p = i % 8) : Granted k p e.2.2 t (s.bindPartsIn t named l) := by
  induction l generalizing s with
  | nil => obtain ⟨i, mem, -⟩ := listed; cases mem
  | cons j l ih =>
    change Granted k p e.2.2 t ((s.bindPart t named (j / 8) (j % 8)).bindPartsIn t named l)
    by_cases own : k = j / 8 ∧ p = j % 8
    · obtain ⟨rfl, rfl⟩ := own
      exact bindPartsIn_keeps entry l (bindPart_grants unowned entry)
    · obtain ⟨i, mem, at_⟩ := listed
      rcases List.mem_cons.mp mem with rfl | mem
      · exact absurd at_ own
      · exact ih ((bindPart_spares s t named own).unowned unowned) ⟨i, mem, at_⟩

-- the entries of a grant

/-- Bits 13 to 6 of an entry are its cluster and its partition. -/
theorem bits_place (w : Nat) : bits w 13 6 = 8 * bits w 13 9 + bits w 8 6 := by
  simp only [bits, Nat.shiftRight_eq_div_pow]
  norm_num
  omega

theorem bits_lt (w hi lo : Nat) : bits w hi lo < 2 ^ (hi - lo + 1) := Nat.mod_lt _ (Nat.two_pow_pos _)

theorem bindParts_place {b : Bytes} {e : Nat × Nat × PartKind} (mem : e ∈ bindParts b) : e.1 < 32 ∧ e.2.1 < 8 := by
  obtain ⟨i, -, rfl⟩ := List.mem_map.mp mem
  exact ⟨bits_lt _ 13 9, bits_lt _ 8 6⟩

/-- A well-formed grant names each partition once (R282). -/
theorem bindParts_inj {b : Bytes} (formed : bindMalformed b = false) {d e : Nat × Nat × PartKind} (hd : d ∈ bindParts b)
    (he : e ∈ bindParts b) (cluster : d.1 = e.1) (part : d.2.1 = e.2.1) : d = e := by
  have once : (((List.range (fldAt b 8 2)).map fun i => fldAt b (40 + 2 * i) 2).map fun w => bits w 13 6).Nodup := by
    simp only [bindMalformed, Bool.or_eq_false_iff, Bool.not_eq_false', decide_eq_true_eq] at formed
    exact formed.1.2
  obtain ⟨i, hi, rfl⟩ := List.mem_map.mp hd
  obtain ⟨j, hj, rfl⟩ := List.mem_map.mp he
  rw [List.map_map] at once
  have same : i = j := List.inj_on_of_nodup_map once hi hj (by
    change bits _ 13 6 = bits _ 13 6
    rw [bits_place, bits_place]
    exact congrArg₂ (8 * · + ·) cluster part)
  rw [same]

theorem namedPart_bindParts {b : Bytes} (formed : bindMalformed b = false) {e : Nat × Nat × PartKind} (mem : e ∈ bindParts b) :
    namedPart (bindParts b) e.1 e.2.1 = some e := by
  cases found : namedPart (bindParts b) e.1 e.2.1 with
  | none => exact absurd (List.find?_eq_none.mp found e mem) (by simp)
  | some d =>
    have place := List.find?_some found
    simp only [Bool.and_eq_true, decide_eq_true_eq] at place
    rw [bindParts_inj formed (List.mem_of_find?_eq_some found) mem place.1 place.2]

end Sys2Proof.Machine

/-! PROOFS. What a grant makes of the tenants (R280, R284), and how TENANT_BIND ends: at once, or when nothing is being cleared
for its tenant any more (R184, R282). -/

namespace Sys2Proof.Machine

open Sys2Proof

-- tenants

theorem modTenant_tenant (s : State) (t u : Nat) (f : Tenant → Tenant) :
    (s.modTenant t f).tenant u = if u = t then f (s.tenant t) else s.tenant u := Tbl.get_put ..

/-- No tenant is RELEASING (R279). -/
def State.NoneReleasing (s : State) : Prop := ∀ e ∈ s.tenants, e.2.state ≠ .releasing

theorem State.NoneReleasing.tenant {s : State} (h : s.NoneReleasing) (u : Nat) : (s.tenant u).state ≠ .releasing := by
  by_cases reset : s.tenant u = Tenant.reset
  · rw [reset]
    decide
  · exact h _ (Tbl.mem_of_get reset)

theorem State.NoneReleasing.modTenant {s : State} (h : s.NoneReleasing) (u : Nat) {f : Tenant → Tenant}
    (state : (f (s.tenant u)).state ≠ .releasing) : (s.modTenant u f).NoneReleasing := by
  intro e mem
  rcases Tbl.mem_put mem with rfl | old
  · exact state
  · exact h e old

theorem State.NoneReleasing.congr {s t : State} (h : s.NoneReleasing) (same : t.tenants = s.tenants) : t.NoneReleasing := by
  unfold State.NoneReleasing
  rw [same]
  exact h

/-- A tenant that has lost the clusters of a mask (R280). -/
def Tenant.without (x : Tenant) (mask : BitVec 32) : Tenant := { x with clusters := x.clusters &&& ~~~mask }

theorem tenantWithout_twice (x : Tenant) (mask : BitVec 32) : (x.without mask).without mask = x.without mask := by
  simp [Tenant.without, BitVec.and_assoc]

theorem foldl_tenantWithout (mask : BitVec 32) (l : List Nat) (s : State) (u : Nat) :
    (l.foldl (fun (s : State) v => s.modTenant v fun x => x.without mask) s).tenant u
      = if u ∈ l then (s.tenant u).without mask else s.tenant u := by
  induction l generalizing s with
  | nil => rfl
  | cons v l ih =>
    rw [List.foldl_cons, ih, modTenant_tenant]
    by_cases own : u = v
    · subst own
      simp [tenantWithout_twice]
    · rw [if_neg own]
      exact if_congr (by rw [List.mem_cons, or_iff_right own]) rfl rfl

/-- The other tenants lose the clusters that a grant names (R280). -/
def State.othersLose (s : State) (t : Nat) (mask : BitVec 32) : State :=
  ((s.tenants.filter fun e => decide (e.1 ≠ t)).map Prod.fst).foldl (fun (s : State) u => s.modTenant u fun x => x.without mask) s

theorem othersLose_tenant (s : State) (t : Nat) (mask : BitVec 32) (u : Nat) :
    (s.othersLose t mask).tenant u = if u = t then s.tenant u else (s.tenant u).without mask := by
  refine (foldl_tenantWithout mask _ s u).trans ?_
  by_cases own : u = t
  · have spared : u ∉ (s.tenants.filter fun e => decide (e.1 ≠ t)).map Prod.fst := by simp [own]
    rw [if_neg spared, if_pos own]
  · rw [if_neg own]
    split
    · rfl
    · next absent =>
      have unlisted : u ∉ s.tenants.map Prod.fst := fun mem => by
        obtain ⟨e, he, rfl⟩ := List.mem_map.mp mem
        exact absent (List.mem_map_of_mem (List.mem_filter.mpr ⟨he, decide_eq_true own⟩))
      rw [State.tenant, Tbl.get_absent _ unlisted]
      simp [Tenant.without, Tenant.reset]

theorem othersLose_noneReleasing {s : State} (h : s.NoneReleasing) (t : Nat) (mask : BitVec 32) :
    (s.othersLose t mask).NoneReleasing :=
  List.foldlRecOn (motive := State.NoneReleasing) _ _ h fun _ hu v _ => hu.modTenant v (hu.tenant v)

theorem othersLose_onlyTenants (s : State) (t : Nat) (mask : BitVec 32) :
    s.othersLose t mask = { s with tenants := (s.othersLose t mask).tenants } :=
  List.foldlRecOn (motive := fun u : State => u = { s with tenants := u.tenants }) _ _ rfl fun u hu v _ => by
    rw [hu]
    rfl

/-- A tenant with the clusters, quotas and share of a grant (R280, R284, R413). -/
def Tenant.granted (x : Tenant) (b : Bytes) : Tenant :=
  { state := x.state, clusters := BitVec.ofNat 32 (fldAt b 4 4), sessions := BitVec.ofNat 13 (fldAt b 12 4)
    kvMib := BitVec.ofNat 32 (fldAt b 16 4), share := BitVec.ofNat 8 (fldAt b 20 1)
    folioKeys := BitVec.ofNat 64 (fldAt b 24 8), publisherKeys := BitVec.ofNat 64 (fldAt b 32 8) }

-- a grant that disturbs no load

/-- The partitions and the clusters' cores that a grant moves (R280). -/
def State.bindMoves (s : State) (b : Bytes) : State :=
  (List.range 32).foldl (fun (s : State) k => s.bindCluster (fldAt b 0 1) (BitVec.ofNat 32 (fldAt b 4 4)) k)
    (s.bindPartsIn (fldAt b 0 1) (bindParts b) (List.range 256))

/-- The tenants once a grant is in force (R280). -/
def State.bindTenants (s : State) (b : Bytes) : State :=
  (s.othersLose (fldAt b 0 1) (BitVec.ofNat 32 (fldAt b 4 4))).modTenant (fldAt b 0 1) fun x => x.granted b

theorem bindGrant_eq {s : State} (noLoads : NoLoads s) (b : Bytes) :
    s.bindGrant b = ((s.bindMoves b).bindTenants b).startDue := by
  have none : (s.slots.filter fun e => decide (e.2.state = .loading)
      && s.bindBlocked (fldAt b 0 1) (BitVec.ofNat 32 (fldAt b 4 4)) (bindParts b) e.2) = [] := by
    rw [List.filter_eq_nil_iff]
    intro e mem
    simp [noLoads e mem]
  unfold State.bindGrant
  dsimp only
  rw [none]
  rfl

theorem bindMoves_holdings (s : State) (b : Bytes) : OnlyHoldings s (s.bindMoves b) :=
  OnlyHoldings.trans (foldl_holdings (fun _ _ => bindPart_holdings ..) (List.range 256) s)
    (foldl_holdings (fun _ _ => bindCluster_holdings ..) (List.range 32) _)

theorem bindTenants_onlyTenants (s : State) (b : Bytes) : s.bindTenants b = { s with tenants := (s.bindTenants b).tenants } := by
  unfold State.bindTenants
  rw [othersLose_onlyTenants]
  rfl

theorem bindTenants_tenant (s : State) (b : Bytes) (u : Nat) : (s.bindTenants b).tenant u
    = if u = fldAt b 0 1 then (s.tenant u).granted b else (s.tenant u).without (BitVec.ofNat 32 (fldAt b 4 4)) := by
  rw [State.bindTenants, modTenant_tenant, othersLose_tenant, othersLose_tenant, if_pos rfl]
  split
  · next own => rw [own]
  · rfl

theorem bindTenants_noneReleasing {s : State} (h : s.NoneReleasing) (b : Bytes) : (s.bindTenants b).NoneReleasing := by
  have lost := othersLose_noneReleasing h (fldAt b 0 1) (BitVec.ofNat 32 (fldAt b 4 4))
  exact lost.modTenant _ (lost.tenant _)

theorem bindTenants_clusters (s : State) (b : Bytes) : (s.bindTenants b).clusters = s.clusters := by
  rw [bindTenants_onlyTenants]

theorem bindTenants_ports (s : State) (b : Bytes) : (s.bindTenants b).ports = s.ports := by rw [bindTenants_onlyTenants]

/-- What stands of a grant once it is in force, whatever of it is still being cleared (R280). -/
structure GrantStands (b : Bytes) (s t : State) : Prop where
  own : t.tenant (fldAt b 0 1) = { (s.tenant (fldAt b 0 1)).granted b with state := (t.tenant (fldAt b 0 1)).state }
  others : ∀ u, u ≠ fldAt b 0 1 → (t.tenant u).clusters = (s.tenant u).clusters &&& ~~~(BitVec.ofNat 32 (fldAt b 4 4) : BitVec 32)
  noneReleasing : t.NoneReleasing
  parts : ∀ e ∈ bindParts b, Unowned e.1 e.2.1 s → Granted e.1 e.2.1 e.2.2 (fldAt b 0 1) t

theorem GrantStands.startDue {b : Bytes} {s t : State} (h : GrantStands b s t) : GrantStands b s t.startDue := by
  have tenant := (startDue_holdings t).tenant
  refine ⟨?_, fun u ne => ?_, h.noneReleasing.congr ?_, fun e mem unowned => ?_⟩
  · rw [tenant]
    exact h.own
  · rw [tenant]
    exact h.others u ne
  · rw [startDue_holdings t]
  · have granted := h.parts e mem unowned
    exact (startDue_spares granted.notDue).granted granted

theorem GrantStands.ports {b : Bytes} {s t u : State} (h : GrantStands b s t) (same : OnlyPorts t u) : GrantStands b s u := by
  have tenant (v : Nat) : u.tenant v = t.tenant v := by
    rw [same]
    rfl
  refine ⟨?_, fun v ne => ?_, h.noneReleasing.congr ?_, fun e mem unowned => ?_⟩
  · rw [tenant]
    exact h.own
  · rw [tenant]
    exact h.others v ne
  · rw [same]
  · exact (spares_of_clusters (by rw [same])).granted (h.parts e mem unowned)

theorem GrantStands.bound {b : Bytes} {s t : State} (h : GrantStands b s t) : GrantStands b s (t.bound (fldAt b 0 1)) := by
  have tenant := modTenant_tenant t (fldAt b 0 1) (f := fun x => { x with state := .bound })
  refine ⟨?_, fun u ne => ?_, h.noneReleasing.modTenant _ nofun, fun e mem unowned => ?_⟩
  · rw [State.bound, tenant, if_pos rfl, h.own]
  · rw [State.bound, tenant, if_neg ne]
    exact h.others u ne
  · exact (spares_of_clusters (s := t) (t := t.bound (fldAt b 0 1)) rfl).granted (h.parts e mem unowned)

theorem bindMoves_parts {s : State} {b : Bytes} (formed : bindMalformed b = false) {e : Nat × Nat × PartKind}
    (mem : e ∈ bindParts b) (unowned : Unowned e.1 e.2.1 s) : Granted e.1 e.2.1 e.2.2 (fldAt b 0 1) (s.bindMoves b) := by
  obtain ⟨cluster, part⟩ := bindParts_place mem
  refine (foldl_spares (fun s k => bindCluster_spares s ..) _ _).granted ?_
  exact bindPartsIn_grants (namedPart_bindParts formed mem) unowned ⟨8 * e.1 + e.2.1, List.mem_range.mpr (by omega), by omega⟩

/-- A grant that disturbs no load stands (R280, R282). -/
theorem bindGrant_stands {s : State} {b : Bytes} (formed : bindMalformed b = false) (noLoads : NoLoads s)
    (noneReleasing : s.NoneReleasing) : GrantStands b s (s.bindGrant b) := by
  have moved := (bindMoves_holdings s b).tenant
  have tenant := bindTenants_tenant (s.bindMoves b) b
  have still : (s.bindMoves b).NoneReleasing := noneReleasing.congr (by rw [bindMoves_holdings s b])
  rw [bindGrant_eq noLoads]
  refine GrantStands.startDue ⟨?_, fun u ne => ?_, bindTenants_noneReleasing still b, fun e mem unowned => ?_⟩
  · rw [tenant, if_pos rfl, moved]
  · rw [tenant, if_neg ne, moved]
    rfl
  · exact (spares_of_clusters (bindTenants_clusters ..)).granted (bindMoves_parts formed mem unowned)

/-- The tenant keeps its state until its command completes (R29). -/
theorem bindGrant_state {s : State} (noLoads : NoLoads s) (b : Bytes) :
    ((s.bindGrant b).tenant (fldAt b 0 1)).state = (s.tenant (fldAt b 0 1)).state := by
  rw [bindGrant_eq noLoads, (startDue_holdings _).tenant, bindTenants_tenant, if_pos rfl, (bindMoves_holdings s b).tenant]
  rfl

theorem bindGrant_ports {s : State} (noLoads : NoLoads s) (b : Bytes) : (s.bindGrant b).ports = s.ports := by
  rw [bindGrant_eq noLoads, (startDue_holdings _).ports, bindTenants_ports, (bindMoves_holdings s b).ports]

-- TENANT_BIND's own work

theorem formed_of_bindCheck {s : State} {p : Nat} {b : Bytes} (check : s.bindCheck p b = none) : bindMalformed b = false := by
  by_contra malformed
  unfold State.bindCheck at check
  dsimp only at check
  rw [if_pos ((Bool.not_eq_false _).mp malformed)] at check
  exact absurd check nofun

theorem bindOp_grants {s : State} {p : Nat} {b : Bytes} (check : s.bindCheck p b = none)
    (free : s.bindMustWait (BitVec.ofNat 32 (fldAt b 4 4)) (bindParts b) = false) : bindOp p b s
      = if (s.bindGrant b).tenantClear (fldAt b 0 1) then ((s.bindGrant b).bound (fldAt b 0 1), .done (Reply.ok []))
        else (s.bindGrant b, .waits (.bound (fldAt b 0 1))) := by
  unfold bindOp
  rw [check]
  dsimp only
  rw [free, if_neg Bool.false_ne_true]

-- what goes on afterwards

/-- The releases under way go on (R283). -/
def State.releasesAdvance (s : State) : State :=
  ((s.tenants.filter fun e => decide (e.2.state = .releasing)).map Prod.fst).foldl State.advanceRelease s

/-- The TENANT_BINDs of one port that wait go on (R184). -/
def State.bindsAdvance (s : State) (p : Nat) : State := (s.port p).cmds.foldl (fun (s : State) c => s.advanceBind p c) s

theorem progress_eq (s : State) : s.progress = (s.startDue.releasesAdvance.bindsAdvance 0).bindsAdvance 1 := rfl

theorem releasesAdvance_none {s : State} (none : s.NoneReleasing) : s.releasesAdvance = s := by
  have empty : (s.tenants.filter fun e => decide (e.2.state = .releasing)) = [] := by
    rw [List.filter_eq_nil_iff]
    intro e mem
    simpa using none e mem
  rw [State.releasesAdvance, empty]
  rfl

/-- A command that waits for no memory to be given back. -/
def Cmd.WaitsElsewhere (c : Cmd) : Prop := (∀ b, c.wait ≠ .bind b) ∧ ∀ t, c.wait ≠ .bound t

theorem bindsAdvance_idle {s : State} {p : Nat} (idle : ∀ c ∈ (s.port p).cmds, c.WaitsElsewhere) : s.bindsAdvance p = s :=
  foldl_same _ _ _ fun c mem => advanceBind_idle s p c (idle c mem).1 (idle c mem).2

/-- Where the last command of a port alone waits for memory, it alone goes on. -/
theorem bindsAdvance_last {s : State} {p : Nat} {l : List Cmd} {c : Cmd} (cmds : (s.port p).cmds = l ++ [c])
    (idle : ∀ d ∈ l, d.WaitsElsewhere) : s.bindsAdvance p = s.advanceBind p c := by
  rw [State.bindsAdvance, cmds, List.foldl_append,
    foldl_same _ l s fun d mem => advanceBind_idle s p d (idle d mem).1 (idle d mem).2]
  rfl

end Sys2Proof.Machine

/-! PROOFS. TENANT_BIND as a command: it completes when its tenant has everything (R29, R280), at once or after a clearing. -/

namespace Sys2Proof.Machine

open Sys2Proof

-- commands

/-- No command in progress waits for memory to be given back. -/
def State.NoBindWaits (s : State) : Prop := ∀ p, ∀ c ∈ (s.port p).cmds, c.WaitsElsewhere

theorem FewerCmds.noBindWaits {s t : State} (h : FewerCmds s t) (idle : s.NoBindWaits) : t.NoBindWaits := by
  intro p c mem
  obtain ⟨c', mem', same | ⟨l, isolates⟩⟩ := h p c mem
  · unfold Cmd.WaitsElsewhere
    rw [same]
    exact idle p c' mem'
  · unfold Cmd.WaitsElsewhere
    rw [isolates]
    exact ⟨nofun, nofun⟩

theorem progress_idle {s : State} (none : s.NoneReleasing) (idle : s.NoBindWaits) : s.progress = s.startDue := by
  have ports := (startDue_holdings s).ports
  have still : s.startDue.NoBindWaits := (onlyPorts_cmds ports).fewer.noBindWaits idle
  rw [progress_eq, releasesAdvance_none (none.congr (by rw [startDue_holdings s])), bindsAdvance_idle (still 0),
    bindsAdvance_idle (still 1)]

theorem advanceBind_bound {s : State} {p t : Nat} {c : Cmd} (wait : c.wait = .bound t) : s.advanceBind p c
    = if s.tenantClear t then (s.bound t).complete p c.tag (Reply.ok []) else s := by
  simp only [State.advanceBind, wait]

theorem advanceBind_bound_cmds {s : State} {p q t : Nat} {c : Cmd} (wait : c.wait = .bound t) (ne : q ≠ p) :
    ((s.advanceBind p c).port q).cmds = (s.port q).cmds := by
  rw [advanceBind_bound wait]
  split
  · rw [complete_cmds, if_neg ne]
    rfl
  · rfl

/-- Where one TENANT_BIND alone waits for a clearing, it alone may go on (R184). -/
theorem bindsAdvance_one {s : State} {p t : Nat} (port : p < 2) {l : List Cmd} {c : Cmd} (wait : c.wait = .bound t)
    (cmds : (s.port p).cmds = l ++ [c]) (idle : ∀ d ∈ l, d.WaitsElsewhere)
    (others : ∀ q, q ≠ p → ∀ d ∈ (s.port q).cmds, d.WaitsElsewhere) :
    (s.bindsAdvance 0).bindsAdvance 1 = s.advanceBind p c := by
  have which : p = 0 ∨ p = 1 := by omega
  rcases which with rfl | rfl
  · rw [bindsAdvance_last cmds idle]
    refine bindsAdvance_idle ?_
    rw [advanceBind_bound_cmds wait (by decide)]
    exact others 1 (by decide)
  · rw [bindsAdvance_idle (others 0 (by decide)), bindsAdvance_last cmds idle]

theorem completed_congr {s t : State} {p : Nat} {tag : BitVec 32} {code : BitVec 8} {r : Reply} (same : t.ports = s.ports)
    (completed : Completed s p tag code r) : Completed t p tag code r := by
  unfold Completed Queued State.inProgress State.port at *
  rw [same]
  exact completed

/-- The command of a tag completes with its own code (R408). -/
theorem complete_completes {s : State} {p : Nat} {tag : BitVec 32} {code : BitVec 8} {c : Cmd} (r : Reply)
    (found : (s.port p).cmds.find? (fun c => c.tag = tag) = some c) (own : c.code = code) (cls : c.cls = classOf code) :
    Completed (s.complete p tag r) p tag code r := by
  refine ⟨complete_frees s p tag r, ?_⟩
  have named : c.tag = tag := of_decide_eq_true (List.find?_some (p := fun c : Cmd => decide (c.tag = tag)) found)
  unfold State.complete
  rw [found, ← own, ← named, ← cls.trans (congrArg classOf own.symm)]
  exact sendPacket_queued ..

/-- A TENANT_BIND in progress that waits for its tenant (R282). -/
def Cmd.binding (tag : BitVec 32) (t : Nat) : Cmd := ⟨tag, 0x18, classOf 0x18, 1, [], .bound t⟩

theorem setWait_begun_cmds {s u : State} {p : Nat} {tag : BitVec 32} (free : s.inProgress p tag = false)
    (same : SameCmds (s.begun p tag 0x18) u) (t : Nat) :
    ((u.setWait p tag (.bound t)).port p).cmds = (s.port p).cmds ++ [Cmd.binding tag t] := by
  have old : (s.port p).cmds.map (fun c => if c.tag = tag then { c with wait := .bound t } else c) = (s.port p).cmds := by
    refine (List.map_congr_left fun c mem => if_neg fun named => ?_).trans (List.map_id _)
    exact absurd free (by simpa [State.inProgress] using ⟨c, mem, named⟩)
  rw [State.setWait, modPort_port, if_pos rfl, same.cmds, begun_port_self, List.map_append, old]
  simp [Cmd.binding]

-- the command

/-- What TENANT_BIND leaves, whether it has completed or still waits (R29, R280, R282). -/
structure Binds (p : Nat) (tag : BitVec 32) (b : Bytes) (s t : State) : Prop where
  stands : GrantStands b s t
  done : t.tenantClear (fldAt b 0 1) = true →
    (t.tenant (fldAt b 0 1)).state = .bound ∧ Completed t p tag 0x18 (Reply.ok [])
  waits : t.tenantClear (fldAt b 0 1) = false → (t.tenant (fldAt b 0 1)).state = (s.tenant (fldAt b 0 1)).state
    ∧ ∃ c ∈ (t.port p).cmds, c.tag = tag ∧ c.wait = .bound (fldAt b 0 1)

theorem bound_tenant_self (s : State) (t : Nat) : ((s.bound t).tenant t).state = .bound := by
  rw [State.bound, modTenant_tenant, if_pos rfl]

/-- Ports that change leave what is being cleared. -/
theorem OnlyPorts.tenantClear {s t : State} (h : OnlyPorts s t) (u : Nat) : t.tenantClear u = s.tenantClear u := by
  rw [h]
  rfl

theorem OnlyPorts.tenant {s t : State} (h : OnlyPorts s t) (u : Nat) : t.tenant u = s.tenant u := by
  rw [h]
  rfl

/-- The state in which a TENANT_BIND does its work has the tenants and partitions of the one before. -/
theorem begun_grantStands {s : State} {p : Nat} {tag : BitVec 32} {b : Bytes} (check : s.bindCheck p b = none) (quiet : Quiet s)
    (noLoads : NoLoads s) : GrantStands b s ((s.begun p tag 0x18).bindGrant b) := by
  obtain ⟨own, others, noneReleasing, parts⟩ :=
    bindGrant_stands (s := s.begun p tag 0x18) (formed_of_bindCheck check) noLoads quiet.2.1
  exact ⟨own, others, noneReleasing, fun e mem ⟨kind, owner, due, notDue⟩ => parts e mem ⟨kind, owner, due, notDue⟩⟩

section Bind

variable {s : State} {p : Nat} {tag : BitVec 32} {b : Bytes} (accepts : Accepts s p tag)
  (check : s.bindCheck p b = none) (free : s.bindMustWait (BitVec.ofNat 32 (fldAt b 4 4)) (bindParts b) = false)
  (quiet : Quiet s) (noLoads : NoLoads s)
include accepts check free quiet noLoads

/-- A grant for which nothing is cleared completes at once (R280). -/
theorem bind_completes (clear : ((s.begun p tag 0x18).bindGrant b).tenantClear (fldAt b 0 1) = true) :
    Binds p tag b s (s.runCommand p tag 0x18 (bindOp p b)).progress := by
  generalize hg : (s.begun p tag 0x18).bindGrant b = g at clear
  have stands : GrantStands b s g := hg ▸ begun_grantStands check quiet noLoads
  have ports : g.ports = (s.begun p tag 0x18).ports := hg ▸ bindGrant_ports (s := s.begun p tag 0x18) noLoads b
  generalize hc : (g.bound (fldAt b 0 1)).complete p tag (Reply.ok []) = c
  have run : s.runCommand p tag 0x18 (bindOp p b) = c := by
    have grants := bindOp_grants (s := s.begun p tag 0x18) check free
    rw [hg, clear, if_pos rfl] at grants
    rw [runCommand_operates accepts, State.operate, grants]
    exact hc
  have only : OnlyPorts (g.bound (fldAt b 0 1)) c := hc ▸ complete_ports ..
  have same : SameCmds (s.begun p tag 0x18) (g.bound (fldAt b 0 1)) := onlyPorts_cmds ports
  have completed : Completed c p tag 0x18 (Reply.ok []) := hc ▸ begun_completes _ accepts.2.2.1 same
  have fewer : FewerCmds (g.bound (fldAt b 0 1)) c := hc ▸ complete_fewer _ p tag _
  have idle : c.NoBindWaits := (same.fewer.trans fewer).noBindWaits (begun_quiet quiet p tag 0x18).2.2
  have bound := stands.bound.ports only
  have still : c.startDue.tenantClear (fldAt b 0 1) = true := startDue_tenantClear ((only.tenantClear _).trans clear)
  rw [run, progress_idle bound.noneReleasing idle]
  refine ⟨bound.startDue, fun _ => ⟨?_, completed_congr (startDue_holdings c).ports completed⟩,
    fun waits => absurd (still.symm.trans waits) nofun⟩
  rw [(startDue_holdings c).tenant, only.tenant]
  exact bound_tenant_self ..

/-- A grant for which something is cleared waits, until nothing is (R184, R280). -/
theorem bind_waits (clearing : ((s.begun p tag 0x18).bindGrant b).tenantClear (fldAt b 0 1) = false) (port : p < 2) :
    Binds p tag b s (s.runCommand p tag 0x18 (bindOp p b)).progress := by
  generalize hg : (s.begun p tag 0x18).bindGrant b = g at clearing
  have stands : GrantStands b s g := hg ▸ begun_grantStands check quiet noLoads
  have state : (g.tenant (fldAt b 0 1)).state = (s.tenant (fldAt b 0 1)).state :=
    hg ▸ bindGrant_state (s := s.begun p tag 0x18) noLoads b
  have ports : g.ports = (s.begun p tag 0x18).ports := hg ▸ bindGrant_ports (s := s.begun p tag 0x18) noLoads b
  have same : SameCmds (s.begun p tag 0x18) g := onlyPorts_cmds ports
  have grants := bindOp_grants (s := s.begun p tag 0x18) check free
  rw [hg, clearing, if_neg Bool.false_ne_true] at grants
  have run := (runCommand_waits accepts grants same).1
  have asked := setWait_begun_cmds accepts.2.2.1 same (fldAt b 0 1)
  generalize hw : g.setWait p tag (.bound (fldAt b 0 1)) = w at run asked
  have only : OnlyPorts g w := hw ▸ rfl
  have sent : w.startDue.ports = w.ports := (startDue_holdings w).ports
  have own : (w.startDue.port p).cmds = (s.port p).cmds ++ [Cmd.binding tag (fldAt b 0 1)] := by
    rw [State.port, sent]
    exact asked
  have others (q : Nat) (ne : q ≠ p) : (w.startDue.port q).cmds = (s.port q).cmds := by
    rw [State.port, sent, ← hw]
    refine (congrArg TsdPort.cmds ((modPort_port ..).trans (if_neg ne))).trans ((same.cmds q).trans ?_)
    exact congrArg TsdPort.cmds ((modPort_port ..).trans (if_neg ne))
  have held : GrantStands b s w.startDue := (stands.ports only).startDue
  have kept : (w.startDue.tenant (fldAt b 0 1)).state = (s.tenant (fldAt b 0 1)).state := by
    rw [(startDue_holdings w).tenant, only.tenant, state]
  rw [run, progress_eq, releasesAdvance_none held.noneReleasing,
    bindsAdvance_one port rfl own (quiet.2.2 p) fun q ne d mem => quiet.2.2 q d (others q ne ▸ mem), advanceBind_bound rfl]
  generalize w.startDue = v at own held kept
  change Binds p tag b s
    (if v.tenantClear (fldAt b 0 1) then (v.bound (fldAt b 0 1)).complete p tag (Reply.ok []) else v)
  split
  · next clear =>
    have ended : OnlyPorts (v.bound (fldAt b 0 1)) ((v.bound (fldAt b 0 1)).complete p tag (Reply.ok [])) := complete_ports ..
    refine ⟨held.bound.ports ended, fun _ => ⟨?_, ?_⟩,
      fun waits => absurd ((waits.symm.trans (ended.tenantClear _)).trans clear) Bool.false_ne_true⟩
    · exact (congrArg Tenant.state (ended.tenant _)).trans (bound_tenant_self ..)
    · refine complete_completes (c := Cmd.binding tag (fldAt b 0 1)) _ ?_ rfl rfl
      have none : (s.port p).cmds.find? (fun c => c.tag = tag) = none := by simpa [State.inProgress] using accepts.2.2.1
      change (v.port p).cmds.find? _ = _
      rw [own, List.find?_append, none]
      simp [Cmd.binding]
  · next waits =>
    refine ⟨held, fun clear => absurd clear waits, fun _ => ⟨kept, Cmd.binding tag (fldAt b 0 1), ?_, rfl, rfl⟩⟩
    rw [own]
    exact List.mem_append_right _ (List.mem_singleton_self _)

theorem bind_binds (port : p < 2) : Binds p tag b s (s.runCommand p tag 0x18 (bindOp p b)).progress := by
  cases clear : ((s.begun p tag 0x18).bindGrant b).tenantClear (fldAt b 0 1) with
  | true => exact bind_completes accepts check free quiet noLoads clear
  | false => exact bind_waits accepts check free quiet noLoads clear port

end Bind

end Sys2Proof.Machine

/-! PROOFS. TENANT_RELEASE (R283): the tenant's sessions end FREE, and what it holds is given back step by step; nothing of
that makes it BOUND again or brings a session back. -/

namespace Sys2Proof.Machine

open Sys2Proof

-- what giving memory back leaves

/-- `t` is `s` but for what gives slots, editions and memory back: no session, no tenant and no command in progress
differs. -/
structure HandsBack (s t : State) : Prop where
  sessions : t.sessions = s.sessions
  tenants : t.tenants = s.tenants
  cmds : SameCmds s t

theorem HandsBack.refl (s : State) : HandsBack s s := ⟨rfl, rfl, .refl s⟩

theorem HandsBack.trans {s t u : State} (h : HandsBack s t) (k : HandsBack t u) : HandsBack s u :=
  ⟨k.sessions.trans h.sessions, k.tenants.trans h.tenants, h.cmds.trans k.cmds⟩

theorem foldl_handsBack {α : Type} {f : State → α → State} (h : ∀ s a, HandsBack s (f s a)) (l : List α) (s : State) :
    HandsBack s (l.foldl f s) :=
  List.foldlRecOn (motive := HandsBack s) l f (.refl s) fun _ ht a _ => ht.trans (h _ a)

theorem ite_handsBack {s t u : State} {c : Prop} [Decidable c] (h : HandsBack s t) (k : HandsBack s u) :
    HandsBack s (if c then t else u) := by split <;> assumption

theorem OnlyHoldings.handsBack {s t : State} (h : OnlyHoldings s t) : HandsBack s t :=
  ⟨by rw [h], by rw [h], onlyPorts_cmds h.ports⟩

theorem Sends.handsBack {s t : State} (h : Sends s t) : HandsBack s t := ⟨by rw [h.frame], by rw [h.frame], h.cmds⟩

theorem modEdition_handsBack (s : State) (i : Nat) (f : Edition → Edition) : HandsBack s (s.modEdition i f) :=
  ⟨rfl, rfl, onlyPorts_cmds rfl⟩

theorem modSlot_handsBack (s : State) (i : Nat) (f : Slot → Slot) : HandsBack s (s.modSlot i f) :=
  ⟨rfl, rfl, onlyPorts_cmds rfl⟩

theorem modCore_handsBack (s : State) (c : Nat) (f : Core → Core) : HandsBack s (s.modCore c f) :=
  (modCore_holdings s c f).handsBack

theorem beginCloses_handsBack (s : State) (sel : Window → Bool) : HandsBack s (s.beginCloses sel) :=
  (beginCloses_holdings s sel).handsBack

theorem markClear_handsBack (s : State) (k p : Nat) (next : PartKind) (owner : Option (BitVec 8)) (waitFor : Option Nat) :
    HandsBack s (s.markClear k p next owner waitFor) := (markClear_holdings ..).handsBack

theorem sendLocal_handsBack (s : State) (n typ vc : Nat) (payload : Bytes) : HandsBack s (s.sendLocal n typ vc payload) :=
  ite_handsBack (queueFlit_onlySends ..).sends.handsBack (.refl s)

theorem sendVc3_handsBack (s : State) (slot device typ : Nat) (payload : Bytes) :
    HandsBack s (s.sendVc3 slot device typ payload).1 := by
  unfold State.sendVc3
  split
  · exact (sendOver_sends ..).handsBack
  · exact .refl s

theorem nextSeq_handsBack (s : State) (a : AccPage) : HandsBack s { s with acc := a } := ⟨rfl, rfl, onlyPorts_cmds rfl⟩

theorem askAll_handsBack (s : State) (index typ kind : Nat) (devices : List Nat) :
    HandsBack s (s.askAll index typ kind devices).1 := by
  unfold State.askAll
  refine List.foldlRecOn (motive := fun a : State × List (Nat × Nat × Nat) × List Nat => HandsBack s a.1) _ _ (.refl s)
    fun a ha d _ => ?_
  have counted := ha.trans (nextSeq_handsBack a.1 { a.1.acc with nextSeq := a.1.acc.nextSeq + 1 })
  dsimp only
  rw [apply_ite Prod.fst]
  exact ite_handsBack (counted.trans (sendVc3_handsBack ..)) (counted.trans (sendVc3_handsBack ..))

theorem retireEdition_handsBack (s : State) (i : Nat) : HandsBack s (s.retireEdition i) := by
  unfold State.retireEdition
  refine ite_handsBack (.refl s) ?_
  extract_lets t notify r u
  have refused : HandsBack s t := foldl_handsBack (fun _ _ => sendLocal_handsBack ..) _ s
  have asked : HandsBack t r.1 := by
    unfold r
    split
    · exact askAll_handsBack ..
    · exact .refl t
  exact ((refused.trans asked).trans (modEdition_handsBack ..)).trans (foldl_handsBack (fun _ _ => markClear_handsBack ..) _ u)

theorem dropRoutes_handsBack (s : State) (slot : Nat) : HandsBack s (s.dropRoutes slot) := by
  have only := dropRoutes_onlyRoutes s slot
  exact ⟨by rw [only], by rw [only], onlyPorts_cmds (by rw [only])⟩

/-- A slot's editions are retired (R340). -/
def State.retireOf (s : State) (slot : Nat) : State :=
  (List.range 16).foldl (fun (s : State) i => if (s.edition i).slot = slot then s.retireEdition i else s) s

theorem retireOf_handsBack (s : State) (slot : Nat) : HandsBack s (s.retireOf slot) := by
  refine foldl_handsBack (fun s i => ?_) _ s
  exact ite_handsBack (retireEdition_handsBack ..) (.refl s)

/-- The cores of a slot once its editions are retired: released, and cleared after a test (R275, R514). -/
def State.releaseCores (s : State) (slot : Nat) : State :=
  if ((s.unpad (s.slot slot).cores).slot slot).tests then
    (s.unpad (s.slot slot).cores).wipeAll ((s.unpad (s.slot slot).cores).slot slot).cores
  else s.unpad (s.slot slot).cores

theorem onlyCores_handsBack {s t : State} (only : t = { s with cores := t.cores }) : HandsBack s t :=
  ⟨by rw [only], by rw [only], onlyPorts_cmds (by rw [only])⟩

theorem releaseCores_handsBack (s : State) (slot : Nat) : HandsBack s (s.releaseCores slot) := by
  have unpadded := onlyCores_handsBack (unpad_onlyCores s (s.slot slot).cores)
  exact ite_handsBack (unpadded.trans (onlyCores_handsBack (wipeAll_onlyCores ..))) unpadded

theorem emptySlot_steps (s : State) (slot : Nat) :
    s.emptySlot slot = (((s.retireOf slot).releaseCores slot).dropRoutes slot).modSlot slot Slot.emptied := by
  unfold State.emptySlot
  rw [← State.retireOf]
  generalize s.retireOf slot = r
  rfl

theorem emptySlot_handsBack (s : State) (slot : Nat) : HandsBack s (s.emptySlot slot) := by
  rw [emptySlot_steps]
  exact (((retireOf_handsBack ..).trans (releaseCores_handsBack ..)).trans (dropRoutes_handsBack ..)).trans
    (modSlot_handsBack ..)

theorem modRemoteWin_handsBack (s : State) (h : Nat) (f : RemoteWin → RemoteWin) : HandsBack s (s.modRemoteWin h f) :=
  ⟨rfl, rfl, onlyPorts_cmds rfl⟩

theorem dropRemote_handsBack (s : State) (t : Nat) : HandsBack s (s.dropRemote t) := by
  unfold State.dropRemote
  refine foldl_handsBack (fun s e => ?_) _ s
  exact modRemoteWin_handsBack ..

-- a tenant that is released

/-- The tenant is released or on its way there (R279). -/
def Tenant.Leaving (x : Tenant) : Prop := x.state = .releasing ∨ x.state = .unbound

/-- A step of a release: sessions stay, no command begins, and a tenant that is leaving does not come back (R283). -/
structure ReleaseStep (s t : State) : Prop where
  sessions : t.sessions = s.sessions
  cmds : FewerCmds s t
  leaving : ∀ u, (s.tenant u).Leaving → (t.tenant u).Leaving

theorem ReleaseStep.refl (s : State) : ReleaseStep s s := ⟨rfl, .refl s, fun _ => id⟩

theorem ReleaseStep.trans {s t u : State} (h : ReleaseStep s t) (k : ReleaseStep t u) : ReleaseStep s u :=
  ⟨k.sessions.trans h.sessions, h.cmds.trans k.cmds, fun v => k.leaving v ∘ h.leaving v⟩

theorem foldl_releaseStep {α : Type} {f : State → α → State} (h : ∀ s a, ReleaseStep s (f s a)) (l : List α) (s : State) :
    ReleaseStep s (l.foldl f s) :=
  List.foldlRecOn (motive := ReleaseStep s) l f (.refl s) fun _ ht a _ => ht.trans (h _ a)

theorem ite_releaseStep {s t u : State} {c : Prop} [Decidable c] (h : ReleaseStep s t) (k : ReleaseStep s u) :
    ReleaseStep s (if c then t else u) := by split <;> assumption

theorem HandsBack.releaseStep {s t : State} (h : HandsBack s t) : ReleaseStep s t :=
  ⟨h.sessions, h.cmds.fewer, fun u leaving => by rw [State.tenant, h.tenants]; exact leaving⟩

theorem modTenant_releaseStep (s : State) (t : Nat) {f : Tenant → Tenant} (leaving : ∀ x : Tenant, x.Leaving → (f x).Leaving) :
    ReleaseStep s (s.modTenant t f) := by
  refine ⟨rfl, (onlyPorts_cmds rfl).fewer, fun u stays => ?_⟩
  rw [modTenant_tenant]
  split
  · next own => exact leaving _ (own ▸ stays)
  · exact stays

theorem completeWhere_releaseStep (s : State) (sel : CmdWait → Bool) (r : Reply) : ReleaseStep s (s.completeWhere sel r) := by
  have only := completeWhere_ports s sel r
  exact ⟨by rw [only], completeWhere_fewer s sel r, fun u leaving => by rw [only.tenant]; exact leaving⟩

-- the steps of a release (R283)

/-- A tenant's editions are retired. -/
def State.retireTenant (s : State) (t : Nat) : State :=
  (List.range 16).foldl (fun (s : State) i =>
    if (s.edition i).state ≠ .free ∧ (s.edition i).tenant = t then s.retireEdition i else s) s

/-- A tenant's windows begin to close, its remote windows are dropped. -/
def State.closeTenant (s : State) (t : Nat) : State := (s.beginCloses fun w => w.tenant.toNat = t).dropRemote t

/-- A tenant's partitions are cleared. -/
def State.clearTenantParts (s : State) (t : Nat) : State :=
  ((s.clusters.flatMap fun c =>
    (c.2.parts.filter fun e => decide (e.2.owner = tenantId t) && !e.2.due && decide (e.2.kind ≠ .clearing)).map
      fun e => (c.1, e.1)).foldl (fun (s : State) kp => s.markClear kp.1 kp.2 .free none (some t)) s).startDue

/-- A tenant's cores are cleared. -/
def State.clearTenantCores (s : State) (t : Nat) : State :=
  ((s.cores.filter fun c => decide (c.2.sq.tenant = tenantId t) && !c.2.car.clearing).map Prod.fst).foldl
    (fun (s : State) c => s.startCarrelClear c none (some t)) s

/-- A tenant has no clusters any more, and is UNBOUND once nothing of it is left or being cleared. -/
def State.unbindTenant (s : State) (t : Nat) : State :=
  let s := s.modTenant t fun x => { x with clusters := 0 }
  let held := (s.clusters.any fun c => c.2.parts.any fun e => decide (e.2.owner = tenantId t))
    || (s.cores.any fun c => decide (c.2.sq.tenant = tenantId t) || decide (c.2.car.nextTenant = tenantId t))
  if s.tenantClear t ∧ held = false then
    (s.modTenant t fun _ => Tenant.reset).completeWhere (fun w => decide (w = .release t)) (Reply.ok [])
  else s

theorem advanceRelease_steps (s : State) (t : Nat) : s.advanceRelease t
    = if s.slots.any fun e => decide (e.2.tenant = t) && decide (e.2.state ≠ .empty) then s
      else if (s.retireTenant t).editions.any fun e => decide (e.2.state ≠ .free) && decide (e.2.tenant = t) then
        s.retireTenant t
      else if ((s.retireTenant t).closeTenant t).windows.any fun w => w.2.live && decide (w.2.tenant.toNat = t) then
        (s.retireTenant t).closeTenant t
      else ((((s.retireTenant t).closeTenant t).clearTenantParts t).clearTenantCores t).unbindTenant t := rfl

theorem retireTenant_handsBack (s : State) (t : Nat) : HandsBack s (s.retireTenant t) := by
  refine foldl_handsBack (fun s i => ?_) _ s
  exact ite_handsBack (retireEdition_handsBack ..) (.refl s)

theorem closeTenant_handsBack (s : State) (t : Nat) : HandsBack s (s.closeTenant t) :=
  (beginCloses_handsBack ..).trans (dropRemote_handsBack ..)

theorem clearTenantParts_handsBack (s : State) (t : Nat) : HandsBack s (s.clearTenantParts t) := by
  refine HandsBack.trans ?_ (startDue_holdings _).handsBack
  refine foldl_handsBack (fun s kp => ?_) _ s
  exact markClear_handsBack ..

theorem clearTenantCores_handsBack (s : State) (t : Nat) : HandsBack s (s.clearTenantCores t) := by
  refine foldl_handsBack (fun s c => ?_) _ s
  exact (startCarrelClear_holdings ..).handsBack

theorem unbindTenant_step (s : State) (t : Nat) : ReleaseStep s (s.unbindTenant t) := by
  have stripped : ReleaseStep s (s.modTenant t fun x => { x with clusters := 0 }) :=
    modTenant_releaseStep s t fun _ leaving => leaving
  unfold State.unbindTenant
  dsimp only
  refine ite_releaseStep (stripped.trans ?_) stripped
  exact (modTenant_releaseStep _ t fun _ _ => .inr rfl).trans (completeWhere_releaseStep ..)

theorem advanceRelease_step (s : State) (t : Nat) : ReleaseStep s (s.advanceRelease t) := by
  have retired := retireTenant_handsBack s t
  have closing := retired.trans (closeTenant_handsBack _ t)
  have cleared := (closing.trans (clearTenantParts_handsBack _ t)).trans (clearTenantCores_handsBack _ t)
  rw [advanceRelease_steps]
  exact ite_releaseStep (.refl s) (ite_releaseStep retired.releaseStep (ite_releaseStep closing.releaseStep
    (cleared.releaseStep.trans (unbindTenant_step ..))))

/-- Whatever goes on where no TENANT_BIND waits is a step of a release. -/
theorem progress_step {s : State} (idle : s.NoBindWaits) : ReleaseStep s s.progress := by
  have started : ReleaseStep s s.startDue := (startDue_holdings s).handsBack.releaseStep
  have step : ReleaseStep s s.startDue.releasesAdvance := started.trans (foldl_releaseStep advanceRelease_step _ _)
  have still := step.cmds.noBindWaits idle
  rw [progress_eq, bindsAdvance_idle (still 0), bindsAdvance_idle (still 1)]
  exact step

-- the sessions of a tenant

/-- The session is the tenant's, or its descriptor is FREE. -/
def Session.OfOrFree (x : Session) (t : Nat) : Prop := x.tenant = t ∨ x.state = .free

/-- The session is the tenant's, or its descriptor is FREE and has nothing left to send. -/
def Session.OfOrEmpty (x : Session) (t : Nat) : Prop := x.tenant = t ∨ x.state = .free ∧ x.closedPkts = []

theorem freed_ofOrEmpty (x : Session) (t : Nat) : x.freed.OfOrEmpty t := .inr ⟨rfl, rfl⟩

theorem autoFree_ofOrEmpty {s : State} {i t : Nat} (own : (s.session i).OfOrEmpty t) :
    ((s.autoFree i).session i).OfOrEmpty t := by
  rw [autoFree_session]
  split
  · exact freed_ofOrEmpty ..
  · exact own

theorem sendToken_self {s : State} {i t : Nat} (own : (s.session i).OfOrEmpty t) :
    ((s.sendToken i).session i).OfOrEmpty t := by
  unfold State.sendToken
  dsimp only
  split
  · exact own
  · next k rest waiting =>
    have ofTenant : (s.session i).tenant = t := own.resolve_right fun empty => by simp [empty.2] at waiting
    split
    · refine autoFree_ofOrEmpty (.inl ?_)
      rw [modSession_session, if_pos rfl, modSession_session, if_pos rfl, sendPacket_session]
      exact ofTenant
    · refine .inl ?_
      rw [modSession_session, if_pos rfl, sendPacket_session]
      exact ofTenant

theorem sendToken_others (s : State) {i j : Nat} (ne : j ≠ i) : (s.sendToken i).session j = s.session j := by
  unfold State.sendToken
  dsimp only
  split
  · rfl
  · split
    · rw [autoFree_session, if_neg fun own => ne own.1, modSession_session, if_neg ne, modSession_session, if_neg ne,
        sendPacket_session]
    · rw [modSession_session, if_neg ne, sendPacket_session]

theorem sendToken_end (s : State) (i : Nat) : SessionsEnd s (s.sendToken i) := by
  unfold State.sendToken
  dsimp only
  split
  · exact .refl s
  · split
    · exact (((sendPacket_end ..).trans (modSession_end ..)).trans (modSession_end ..)).trans (autoFree_end ..)
    · exact (sendPacket_end ..).trans (modSession_end ..)

theorem flushTokens_self {s : State} {i t : Nat} (own : (s.session i).OfOrEmpty t) :
    ((s.flushTokens i).session i).OfOrEmpty t :=
  List.foldlRecOn (motive := fun u : State => (u.session i).OfOrEmpty t) _ _ own fun _ hu _ _ => sendToken_self hu

theorem flushTokens_others (s : State) {i j : Nat} (ne : j ≠ i) : (s.flushTokens i).session j = s.session j :=
  List.foldlRecOn (motive := fun u : State => u.session j = s.session j) _ _ rfl fun u hu _ _ =>
    (sendToken_others u ne).trans hu

theorem closeSession_ofOrFree (s : State) {i t : Nat} (reason : Nat) (own : (s.session i).tenant = t) :
    ((s.closeSession i reason).session i).OfOrFree t := by
  rw [closeSession_self]
  split
  · exact .inr rfl
  · exact .inl own

/-- The end of a session of a tenant that is released leaves each session the tenant's or FREE (R283). -/
theorem releaseSession_ofOrFree {s : State} {t : Nat} (i j : Nat) (own : (s.session j).OfOrFree t) :
    ((s.releaseSession i).session j).OfOrFree t := by
  unfold State.releaseSession
  dsimp only
  split
  · next open_ =>
    by_cases same : j = i
    · subst same
      exact closeSession_ofOrFree s _ (own.resolve_right fun free => by simp [free] at open_)
    · rw [closeSession_others s _ same]
      exact own
  · split
    · next ending =>
      by_cases same : j = i
      · subst same
        exact (flushTokens_self (.inl (own.resolve_right fun free => by simp [free] at ending))).imp_right And.left
      · rw [flushTokens_others s same]
        exact own
    · exact own

theorem releaseSession_end (s : State) (i : Nat) : SessionsEnd s (s.releaseSession i) := by
  unfold State.releaseSession
  dsimp only
  split
  · exact closeSession_end ..
  · split
    · exact foldl_sessionsEnd (fun s _ => sendToken_end s i) _ s
    · exact .refl s

/-- The named sessions become FREE. -/
def State.freeAll (s : State) (l : List Nat) : State := l.foldl (fun (s : State) i => s.modSession i Session.freed) s

theorem freeAll_free {l : List Nat} {j : Nat} (s : State) (named : j ∈ l ∨ (s.session j).state = .free) :
    ((s.freeAll l).session j).state = .free := by
  induction l generalizing s with
  | nil => exact named.resolve_left List.not_mem_nil
  | cons i l ih =>
    refine ih (s.modSession i Session.freed) ?_
    rw [modSession_session]
    split
    · exact .inr rfl
    · next other => exact named.imp_left fun mem => (List.mem_cons.mp mem).resolve_left other

theorem freeAll_end (s : State) (l : List Nat) : SessionsEnd s (s.freeAll l) := foldl_sessionsEnd (fun _ _ => modSession_end ..) l s

/-- Every session of a tenant whose descriptor is not FREE is named. -/
theorem mem_sessionsOfTenant {s : State} {i t : Nat} (own : (s.session i).tenant = t) (used : (s.session i).state ≠ .free) :
    i ∈ s.sessionsOfTenant t := by
  have listed : (i, s.session i) ∈ s.sessions := Tbl.mem_of_get fun reset => used (by rw [State.session, reset]; rfl)
  exact List.mem_map_of_mem (List.mem_filter.mpr ⟨listed, by simp [own, used]⟩)

-- TENANT_RELEASE

/-- The sessions of a tenant end, its state RELEASING (R283). -/
def State.sessionsRelease (s : State) (t : Nat) : State :=
  ((s.modTenant t fun x => { x with state := .releasing }).sessionsOfTenant t).foldl State.releaseSession
    (s.modTenant t fun x => { x with state := .releasing })

theorem beginRelease_eq {s : State} {t : Nat} (noLoads : s.slotsOfTenant t .loading = []) : s.beginRelease t
    = (((s.sessionsRelease t).freeAll ((s.sessionsRelease t).sessionsOfTenant t)).slotsOfTenant t .loaded).foldl State.emptySlot
      ((s.sessionsRelease t).freeAll ((s.sessionsRelease t).sessionsOfTenant t)) := by
  unfold State.beginRelease
  rw [noLoads]
  rfl

theorem sessionsRelease_ofOrFree {s : State} {t j : Nat} (own : (s.session j).OfOrFree t) :
    ((s.sessionsRelease t).session j).OfOrFree t :=
  List.foldlRecOn (motive := fun u : State => (u.session j).OfOrFree t) _ _ own fun _ hu i _ => releaseSession_ofOrFree i j hu

theorem sessionsRelease_end (s : State) (t : Nat) :
    SessionsEnd (s.modTenant t fun x => { x with state := .releasing }) (s.sessionsRelease t) :=
  foldl_sessionsEnd releaseSession_end _ _

/-- What TENANT_RELEASE does at once where no load is under way: the tenant is leaving, its sessions are FREE (R283). -/
theorem beginRelease_begins {s : State} {t : Nat} (noLoads : s.slotsOfTenant t .loading = []) :
    ((s.beginRelease t).tenant t).Leaving ∧ SameCmds s (s.beginRelease t)
      ∧ ∀ i, (s.session i).tenant = t → ((s.beginRelease t).session i).state = .free := by
  rw [beginRelease_eq noLoads]
  have taken : SameCmds s (s.modTenant t fun x => { x with state := .releasing }) := ⟨fun _ => rfl⟩
  have ended := (sessionsRelease_end s t).trans (freeAll_end _ ((s.sessionsRelease t).sessionsOfTenant t))
  have free (i : Nat) (own : (s.session i).tenant = t) :
      (((s.sessionsRelease t).freeAll ((s.sessionsRelease t).sessionsOfTenant t)).session i).state = .free := by
    refine freeAll_free _ ?_
    by_cases used : ((s.sessionsRelease t).session i).state = .free
    · exact .inr used
    · exact .inl (mem_sessionsOfTenant ((sessionsRelease_ofOrFree (.inl own)).resolve_right used) used)
  generalize (s.sessionsRelease t).freeAll _ = u at ended free
  have emptied : HandsBack u ((u.slotsOfTenant t .loaded).foldl State.emptySlot u) := foldl_handsBack emptySlot_handsBack _ u
  refine ⟨emptied.releaseStep.leaving t (.inl ?_), (taken.trans ended.cmds).trans emptied.cmds, fun i own => ?_⟩
  · have tenant : u.tenant t = (s.modTenant t fun x => { x with state := .releasing }).tenant t := by
      rw [ended.frame]
      rfl
    rw [tenant, modTenant_tenant, if_pos rfl]
  · rw [session_congr emptied.sessions]
    exact free i own

theorem releaseOp_releases {s : State} {p : Nat} {b : Bytes} (size : b.length = 1) (service : s.gen.service = true)
    (holds : s.holds p = true) (bound : (s.tenant (fldAt b 0 1)).state = .bound)
    (noRuns : s.slotsOfTenant (fldAt b 0 1) .running = []) :
    releaseOp p b s = (s.beginRelease (fldAt b 0 1), .waits (.release (fldAt b 0 1))) := by
  unfold releaseOp
  dsimp only
  rw [if_neg (not_not_intro size), service, if_neg (by decide), holds, if_neg (by decide), if_neg (not_not_intro bound), noRuns]
  rfl

/-- A wait other than for memory keeps a port's commands from waiting for it. -/
theorem setWait_noBindWaits {s : State} (idle : s.NoBindWaits) (p : Nat) (tag : BitVec 32) (t : Nat) :
    (s.setWait p tag (.release t)).NoBindWaits := by
  intro q c mem
  rw [State.setWait, modPort_port] at mem
  split at mem
  · obtain ⟨d, old, rfl⟩ := List.mem_map.mp mem
    split
    · exact ⟨nofun, nofun⟩
    · exact idle p d old
  · exact idle q c mem

theorem exec_tenantBind (p : TPort) (tag : BitVec 32) (b : Bytes) (s : State) :
    exec (.tenantBind p tag b) s = .next (s.runCommand p tag 0x18 (bindOp p b)).progress := rfl

theorem exec_tenantRelease (p : TPort) (tag : BitVec 32) (b : Bytes) (s : State) :
    exec (.tenantRelease p tag b) s = .next (s.runCommand p tag 0x19 (releaseOp p b)).progress := rfl

/-- Settles O40: a grant moves partitions, cores and tenants alone, and its command completes or waits; a release frees the
tenant's sessions at once, and what goes on leaves them so. -/
theorem tenantsAreBoundAndReleased : Obligations.TenantsAreBoundAndReleased := by
  unfold Obligations.TenantsAreBoundAndReleased
  refine ⟨?_, ?_⟩
  · intro p tag b s id mask accepts check free quiet noLoads
    obtain ⟨stands, done, waits⟩ := bind_binds accepts check free quiet noLoads p.isLt
    refine ⟨_, exec_tenantBind .., ?_, fun clear => (done clear).2, fun clearing => (waits clearing).2, stands.others,
      fun e mem owner kind due => ?_⟩
    · refine stands.own.trans (congrArg (fun st => { (s.tenant id).granted b with state := st }) ?_)
      split
      · next clear => exact (done clear).1
      · next clearing => exact (waits ((Bool.not_eq_true _).mp clearing)).1
    · have notDue : s.NotDue e.1 e.2.1 := fun c hc q hq isDue => absurd ((quiet.1 c hc q hq).symm.trans isDue) nofun
      have granted := stands.parts e mem ⟨kind, owner, due, notDue⟩
      exact ⟨granted.kind, granted.owner⟩
  · intro p tag b s accepts size service holds bound noRuns noLoads quiet
    have releases := releaseOp_releases (s := s.begun p tag 0x19) size service holds bound noRuns
    obtain ⟨leaving, cmds, sessions⟩ := beginRelease_begins (s := s.begun p tag 0x19) noLoads
    have run := (runCommand_waits accepts releases cmds).1
    have idle := cmds.fewer.noBindWaits (begun_quiet quiet p tag 0x19).2.2
    generalize (s.begun p tag 0x19).beginRelease (fldAt b 0 1) = u at leaving sessions run idle
    have step := progress_step (setWait_noBindWaits idle p tag (fldAt b 0 1))
    rw [← run] at step
    refine ⟨_, exec_tenantRelease .., step.leaving _ ?_, fun i own => ?_⟩
    · rw [run]
      exact leaving
    · rw [session_congr step.sessions, run]
      exact sessions i own

end Sys2Proof.Machine
